-- ==== Sys2Proof/Word.lean ====
section
/-!
DEFINITION. The word types of the YS-20 model and their plainest arithmetic.
Addresses, counts and instance numbers that the manual never treats as bits are `Nat`.
-/

namespace Sys2Proof

/-- One byte of any memory. -/
abbrev Byte := BitVec 8
/-- A 32-bit register or field. -/
abbrev W32 := BitVec 32
/-- A 64-bit Spenex general register, address or time. -/
abbrev W64 := BitVec 64
/-- A 256-bit descriptor register, stack column or NBU register (R76, R243). -/
abbrev W256 := BitVec 256

/-- A table keyed by a number: the sparse form of every numbered collection of the machine.
Its canonical form (keys strictly rising) is `tkeys` of `Machine/Map.lean`. -/
abbrev Table (α : Type) := List (Nat × α)

/-- Bits `[hi:lo]` of a number, with `w = hi - lo + 1`. -/
def bitsOf (n lo w : Nat) : Nat := (n / 2 ^ lo) % 2 ^ w

/-- Bit `i` of a number. -/
def bitAt (n i : Nat) : Bool := n.testBit i

/-- `ceil (a / b)`. -/
def cdiv (a b : Nat) : Nat := (a + b - 1) / b

/-- The signed reading of a number of `w` bits. -/
def signedOf (w n : Nat) : Int := if n % 2 ^ w < 2 ^ (w - 1) then ((n % 2 ^ w : Nat) : Int) else ((n % 2 ^ w : Nat) : Int) - 2 ^ w

end Sys2Proof
end

