-- ==== Sys2Proof/Syntax.lean ====
section
/-!
DEFINITION. The commands of the YS-20 and their operands. Every row of the opcode table is one constructor of `Instr`.
A Spenex row carries the sequencer and the raw fields of the instruction word (R106), a micro-op row the bank and the
raw fields of the micro-op word (R245), an engine row the engine instance, a management row the received message; a
row that the environment causes carries what the environment decides (a measurement, an outcome).
-/

namespace Sys2Proof

/-- The fields of a Spenex instruction word (R106) other than OPC, its EXT word, and what the fetch met:
`miss`, the steps of an instruction-buffer miss, at most 192 (R110), and `ue`, an uncorrectable word in the
program text, the sequencer state or the operands (R94). -/
structure Spx where
  a : BitVec 5
  b : BitVec 5
  c : BitVec 5
  x : Bool
  fn : BitVec 8
  imm : BitVec 32
  ext : BitVec 64
  miss : BitVec 8
  ue : Bool
deriving DecidableEq, Repr

/-- The fields of a near-bank micro-op word other than OP (R246), and whether the checking lane disagreed (R259, R625). -/
structure Mop where
  d : BitVec 4
  a : BitVec 4
  p : BitVec 3
  imm : BitVec 16
  mismatch : Bool
deriving DecidableEq, Repr

/-- A Ralmin packet: the header of R435 with its payload. `bad` says that the header is malformed beyond these
fields (a reserved field that is not zero). -/
structure Pkt where
  ty : BitVec 8
  flags : BitVec 8
  dst : BitVec 12
  src : BitVec 12
  sdom : BitVec 12
  tag : BitVec 32
  fepoch : BitVec 16
  mepoch : BitVec 16
  off : BitVec 48
  size : BitVec 8
  atop : BitVec 8
  status : BitVec 8
  len : BitVec 16
  newNode : BitVec 12
  total : BitVec 26
  seg : BitVec 16
  lastSeg : BitVec 16
  rctr : BitVec 12
  rgen : BitVec 16
  rinc : BitVec 16
  operand : BitVec 64
  compare : BitVec 64
  bad : Bool
  payload : List (BitVec 8)
deriving DecidableEq, Repr

/-- An append that a primary sends to a replica (R170): its kind, item and lists, and for an insert the bytes that the source
block of R190 holds from ATTR on (the attribute word, then sketch, extended block and record). -/
structure RepOp where
  del : Bool
  item : BitVec 64
  lists : List Nat
  attr : BitVec 64
  body : List (BitVec 8)
deriving DecidableEq, Repr

/-- A tile of the scoring array whose checksums disagree (R340): its row block, whether the second computation agrees, and
the cell row that the checksums locate. -/
structure TileFault where
  block : Nat
  agrees : Bool
  row : Nat
deriving DecidableEq, Repr

/-- What flash discovery finds of the part (R15, R401, R402, R423): targets and LUNs per channel, planes per LUN, what the part declares,
the data rate in units of 2 MT/s, blocks per LUN, pages per block, and the blocks that are bad or in the system area (channel x 2^40 + LUN
x 2^32 + block). -/
structure FlashPart where
  targets : Nat
  luns : Nat
  planes : Nat
  mpRead : Bool
  mpProg : Bool
  suspend : Bool
  vccqLow : Bool
  rate : Nat
  blocksPerLun : Nat
  pagesPerBlock : Nat
  unusable : List Nat
deriving DecidableEq, Repr

/-- One signature entry of a management message (R559), with the verdict of its SLH-DSA verification. -/
structure MgmtSig where
  manager : BitVec 8
  keyDigest : BitVec 256
  verifies : Bool
deriving DecidableEq, Repr

/-- A management message (R559): its header without CMD, which the row gives, and its signature entries. -/
structure Mgmt where
  version : BitVec 8
  node : BitVec 12
  issueTime : BitVec 64
  targetId : BitVec 256
  reservedZero : Bool
  mgb : Bool
  sigs : List MgmtSig
deriving DecidableEq, Repr

/-- The registers of BAR0, in block order (R651); a digit-suffixed name is a register of its own (R652). -/
inductive Reg where
  | HIU_APT_BASE_HI | HIU_APT_BASE_LO | HIU_APT_DOM | HIU_APT_SEL | HIU_DOM_PASID | HIU_DOM_SEL | HIU_EQ_BASE_HI
  | HIU_EQ_BASE_LO | HIU_EQ_CTL | HIU_EQ_SEL | HIU_EQ_STAT | HIU_EVQ_SYS | HIU_EVQ_SYS_HEAD | HIU_LINK_STAT
  | HIU_PAGE_DOM | HIU_PAGE_SEL | HIU_SQ_BASE_HI | HIU_SQ_BASE_LO | HIU_SQ_CTL | HIU_SQ_SEL | HIU_SQ_STAT | HIU_STAT
  | DSP_BE_SET0 | DSP_BE_SET1 | DSP_BE_SET2 | DSP_BE_SET3 | DSP_CNT_ADM | DSP_CNT_DONE | DSP_CNT_LATE | DSP_CNT_POL
  | DSP_DOM_SEL | DSP_INTAKE_CAP | DSP_LC_SET0 | DSP_LC_SET1 | DSP_LC_SET2 | DSP_LC_SET3 | DSP_POL | DSP_SERIES
  | DSP_SET_STAT | SEQ_BE_STAT | SEQ_OCCUPANCY | SEQ_OVERRIDE_CNT | SEQ_PLAN_CAP | SEQ_PLAN_LOADED | SEQ_STALE_PULSE
  | SEQ_VIOL_CNT | SKC_STAT | STK_DEFER_MAX | STK_ECC_STAT | STK_NBU_STAT | STK_NBU_STORE | FLS_CAPACITY | FLS_CHAN_HI
  | FLS_CHAN_LO | FLS_DSC_ADDR_HI | FLS_DSC_ADDR_LO | FLS_DSC_CMD | FLS_GEOM | FLS_MEDIA_CTL | FLS_MEDIA_STAT
  | FLS_POL | FLS_POL_SEL | FLS_SCORE_CAP | FLS_SCORE_STAT | FLS_USED | SEL_CAP | SEL_STAT | SCA_CAP | SCA_STAT
  | TBE_CAP | TBE_STAT | TIR_EPOCH_CTL | TIR_EPOCH_HI | TIR_EPOCH_LO | TIR_HOLD_HI | TIR_HOLD_LO | TIR_IDX_CMD
  | TIR_IDX_DESC_HI | TIR_IDX_DESC_LO | TIR_IDX_OVL | TIR_IDX_STAT | TIR_MERGE_DUE | TIR_MERGE_STAT | TIR_MIG_STAT
  | TIR_PIN_STAT | TIR_RGN_CMD | TIR_RGN_COUNT | TIR_RGN_DESC_HI | TIR_RGN_DESC_LO | TIR_RGN_STAT | DMA_ERR
  | DMA_ERR_ADDR_HI | DMA_ERR_ADDR_LO | FAB_HO_CMD | FAB_HO_DESC_HI | FAB_HO_DESC_LO | FAB_HO_STAT | FAB_INFLIGHT
  | FAB_MAP_CMD | FAB_MAP_DESC_HI | FAB_MAP_DESC_LO | FAB_MAP_REASON | FAB_MAP_STAT | FAB_MINPORTS | FAB_NODE
  | FAB_PORT_CMD | FAB_PORT_STAT | FAB_WIN_CMD | FAB_WIN_DESC_HI | FAB_WIN_DESC_LO | FAB_WIN_STAT | FAB_XACT_STAT
  | TRF_DOMQ | TRF_DOMQ_SEL | TRF_GL_CTL | TRF_GL_HI | TRF_GL_HZN_HI | TRF_GL_HZN_LO | TRF_GL_LO | TRF_GL_SEL
  | TRF_ING | TRF_ING_DROP | TRF_ING_SEL | TRF_QW0 | TRF_QW1 | TRF_QW2 | TRF_QW3 | TRF_QW_SEL | TRF_SMP_BASE_HI
  | TRF_SMP_BASE_LO | TRF_SMP_CTL | TRF_SMP_DOM | TRF_SMP_HEAD | TRF_SMP_STAT | SMC_CFG_CTL | SMC_CFG_DIG0
  | SMC_CFG_DIG1 | SMC_CFG_DIG2 | SMC_CFG_DIG3 | SMC_CFG_DIG4 | SMC_CFG_DIG5 | SMC_CFG_DIG6 | SMC_CFG_DIG7
  | SMC_CFG_EPOCH_HI | SMC_CFG_EPOCH_LO | SMC_CFG_EXP0 | SMC_CFG_EXP1 | SMC_CFG_EXP2 | SMC_CFG_EXP3 | SMC_CFG_EXP4
  | SMC_CFG_EXP5 | SMC_CFG_EXP6 | SMC_CFG_EXP7 | SMC_CFG_HZN_HI | SMC_CFG_HZN_LO | SMC_CFG_STG_HI | SMC_CFG_STG_LO
  | SMC_DOM_CMD | SMC_DOM_STAT | SMC_EXPEL_SEL | SMC_EXPEL_STAT | SMC_FENCE_STAT | SMC_LIFECYCLE | SMC_MGMT_CTL
  | SMC_MGR_DIG0 | SMC_MGR_DIG1 | SMC_MGR_DIG2 | SMC_MGR_DIG3 | SMC_MGR_DIG4 | SMC_MGR_DIG5 | SMC_MGR_DIG6
  | SMC_MGR_DIG7 | SMC_MGR_SEL | SMC_PART_DMA_HI | SMC_PART_DMA_LO | SMC_PART_ENG | SMC_PART_SEL | SMC_PART_SEQ0
  | SMC_PART_SEQ1 | SMC_PART_SEQ2 | SMC_PART_SEQ3 | SMC_PTP_CTL | SMC_PTP_OFFSET | SMC_PTP_STAT | SMC_TENANCY
  | SMC_TIME_HI | SMC_TIME_LO | PRB_DIE_ID_HI | PRB_DIE_ID_LO | PRB_DIE_SEL | PRB_ECC_STAT | PRB_FDOM | PRB_FLT_NEWEST
  | PRB_FLT_SEL | PRB_FLT_STAT | PRB_FLT_WORD0 | PRB_FLT_WORD1 | PRB_FLT_WORD10 | PRB_FLT_WORD11 | PRB_FLT_WORD12
  | PRB_FLT_WORD13 | PRB_FLT_WORD14 | PRB_FLT_WORD15 | PRB_FLT_WORD2 | PRB_FLT_WORD3 | PRB_FLT_WORD4 | PRB_FLT_WORD5
  | PRB_FLT_WORD6 | PRB_FLT_WORD7 | PRB_FLT_WORD8 | PRB_FLT_WORD9 | PRB_GOV | PRB_ID | PRB_ID_FW | PRB_OVC_STAT
  | PRB_PACE_CTL | PRB_PACE_MON | PRB_POWER | PRB_PWR_STAT | PRB_RESET | PRB_SHD_CTL | PRB_SHD_DATA | PRB_SHD_SEL
  | PRB_STEP | PRB_STEP_ARG0 | PRB_STEP_ARG1 | PRB_STEP_ARG2 | PRB_STEP_STAT | PRB_THERM | PRB_THERM_SEL | PRB_WAKETOL
  | PRB_YMAP | PRB_YMAP_SEL
deriving DecidableEq, Repr

/-- The commands of the YS-20: one constructor per row of the opcode table, in the order of the table. -/
inductive Instr where
  /-- REGISTER_WRITE (R12). -/
  | registerWrite (r : Reg) (inst : Nat) (v : W32)
  /-- BAR0_BAD_ACCESS (R487). -/
  | bar0BadAccess (isWrite : Bool) (off size : Nat)
  /-- PACE_TARGET_WRITE (R34). -/
  | paceTargetWrite (v : W32)
  /-- LIMITER_RAMP (R34). -/
  | limiterRamp (governor : Bool) (achieved amount : Nat)
  /-- PACE_MON_WINDOW (R35). -/
  | paceMonWindow (cw ce iod : Nat) (limited governed : Bool)
  /-- CLR_MIN (R35). -/
  | clrMin (v : W32)
  /-- PTP_MESSAGE (R42). -/
  | ptpMessage (mgb : Bool) (offset : W64) (rate : Nat)
  /-- HOLDOVER_ENTRY (R44). -/
  | holdoverEntry
  /-- GRANDMASTER_RETURN (R44). -/
  | grandmasterReturn (mgb : Bool) (offset : W64) (rate : Nat)
  /-- PTP_SWITCHOVER (R45). -/
  | ptpSwitchover (mgb : Bool) (rate : Nat)
  /-- SMC_TIME_LO_READ (R46). -/
  | smcTimeLoRead
  /-- PLAN_LOAD (R78). -/
  | planLoad (tag : W32)
  /-- PLAN_UNLOAD (R78). -/
  | planUnload (tag : W32)
  /-- JOB_PLACEMENT (R516). -/
  | jobPlacement
  /-- DEADLINE_REACHED (R84). -/
  | deadlineReached (tag : W32)
  /-- PENDING_JOB_LATE (R521). -/
  | pendingJobLate (tag : W32)
  /-- TAKEN_REQUEST_LATE (R93). -/
  | takenRequestLate (tag : W32) (slot : Nat)
  /-- CLAIM (R124). -/
  | claim (q : BitVec 7) (f : Spx)
  /-- HELD_CLAIM_GRANT (R58). -/
  | heldClaimGrant
  /-- HAND_FREE (R125). -/
  | handFree (q : BitVec 7) (f : Spx)
  /-- HAND_TO_JOB (R125). -/
  | handToJob (q : BitVec 7) (f : Spx)
  /-- HAND_TO_ENGINE (R125). -/
  | handToEngine (q : BitVec 7) (f : Spx)
  /-- HAND_RECALL (R125). -/
  | handRecall (q : BitVec 7) (f : Spx)
  /-- YIELD (R63). -/
  | yieldPoint (q : BitVec 7) (f : Spx)
  /-- SEQ_WATCHDOG_ABORT (R69). -/
  | seqWatchdogAbort (q : BitVec 7)
  /-- NBU_WATCHDOG_ABORT (R69). -/
  | nbuWatchdogAbort (bank : Nat)
  /-- SEQ_OVERRUN (R70). -/
  | seqOverrun (q : BitVec 7)
  /-- NBU_OVERRUN (R70). -/
  | nbuOverrun (bank : Nat)
  /-- FORCED_REFRESH_SUSPENSION (R68). -/
  | forcedRefreshSuspension (bank : Nat)
  /-- SEQ_VIOL_CNT_CLEAR (R73). -/
  | seqViolCntClear (v : W32)
  /-- SEQ_STALE_PULSE_CLEAR (R105). -/
  | seqStalePulseClear (v : W32)
  /-- CREDIT_STALL_RESUME (R22). -/
  | creditStallResume (q : BitVec 7)
  /-- PULSE (R89). -/
  | pulse (idx : BitVec 12) (gen : BitVec 16) (inc : BitVec 16)
  /-- MAKE_WAY_REQUEST (R520). -/
  | makeWayRequest
  /-- JOB_RESUME (R100). -/
  | jobResume (ue : Bool)
  /-- ADD (R114). -/
  | add (q : BitVec 7) (f : Spx)
  /-- SUB (R114). -/
  | sub (q : BitVec 7) (f : Spx)
  /-- MUL (R114). -/
  | mul (q : BitVec 7) (f : Spx)
  /-- MULHU (R114). -/
  | mulhu (q : BitVec 7) (f : Spx)
  /-- DIVU (R115). -/
  | divu (q : BitVec 7) (f : Spx)
  /-- REMU (R115). -/
  | remu (q : BitVec 7) (f : Spx)
  /-- DIV (R115). -/
  | div (q : BitVec 7) (f : Spx)
  /-- REM (R115). -/
  | rem (q : BitVec 7) (f : Spx)
  /-- AND (R114). -/
  | andOp (q : BitVec 7) (f : Spx)
  /-- OR (R114). -/
  | orOp (q : BitVec 7) (f : Spx)
  /-- XOR (R114). -/
  | xorOp (q : BitVec 7) (f : Spx)
  /-- SHL (R114). -/
  | shl (q : BitVec 7) (f : Spx)
  /-- SHR (R114). -/
  | shr (q : BitVec 7) (f : Spx)
  /-- SAR (R114). -/
  | sar (q : BitVec 7) (f : Spx)
  /-- MINU (R114). -/
  | minu (q : BitVec 7) (f : Spx)
  /-- MAXU (R114). -/
  | maxu (q : BitVec 7) (f : Spx)
  /-- MIN (R114). -/
  | minOp (q : BitVec 7) (f : Spx)
  /-- MAX (R114). -/
  | maxOp (q : BitVec 7) (f : Spx)
  /-- CMP (R112). -/
  | cmp (q : BitVec 7) (f : Spx)
  /-- MOV (R114). -/
  | mov (q : BitVec 7) (f : Spx)
  /-- POPC (R114). -/
  | popc (q : BitVec 7) (f : Spx)
  /-- CLZ (R114). -/
  | clz (q : BitVec 7) (f : Spx)
  /-- LI (R114). -/
  | li (q : BitVec 7) (f : Spx)
  /-- LD (R116). -/
  | ld (q : BitVec 7) (f : Spx)
  /-- ST (R117). -/
  | st (q : BitVec 7) (f : Spx)
  /-- LDD (R117). -/
  | ldd (q : BitVec 7) (f : Spx)
  /-- STD (R117). -/
  | std (q : BitVec 7) (f : Spx)
  /-- DSET (R117). -/
  | dset (q : BitVec 7) (f : Spx)
  /-- DGET (R117). -/
  | dget (q : BitVec 7) (f : Spx)
  /-- VLD (R119). -/
  | vld (q : BitVec 7) (f : Spx)
  /-- VST (R119). -/
  | vst (q : BitVec 7) (f : Spx)
  /-- VGET (R118). -/
  | vget (q : BitVec 7) (f : Spx)
  /-- VPUT (R118). -/
  | vput (q : BitVec 7) (f : Spx)
  /-- VCNT (R117). -/
  | vcnt (q : BitVec 7) (f : Spx)
  /-- VSETC (R117). -/
  | vsetc (q : BitVec 7) (f : Spx)
  /-- TIME (R120). -/
  | time (q : BitVec 7) (f : Spx)
  /-- BR (R121). -/
  | br (q : BitVec 7) (f : Spx)
  /-- BC (R113). -/
  | bc (q : BitVec 7) (f : Spx)
  /-- JAL (R121). -/
  | jal (q : BitVec 7) (f : Spx)
  /-- JR (R121). -/
  | jr (q : BitVec 7) (f : Spx)
  /-- NOP (R121). -/
  | nop (q : BitVec 7) (f : Spx)
  /-- END (R83). -/
  | endJob (q : BitVec 7) (f : Spx)
  /-- TINST (R126). -/
  | tinst (q : BitVec 7) (f : Spx)
  /-- SCAN (R128). -/
  | scan (q : BitVec 7) (f : Spx)
  /-- RANK (R128). -/
  | rank (q : BitVec 7) (f : Spx)
  /-- LRANK (R128). -/
  | lrank (q : BitVec 7) (f : Spx)
  /-- SEL (R128). -/
  | sel (q : BitVec 7) (f : Spx)
  /-- MERGE (R128). -/
  | merge (q : BitVec 7) (f : Spx)
  /-- UNIQ (R128). -/
  | uniq (q : BitVec 7) (f : Spx)
  /-- GATH (R128). -/
  | gath (q : BitVec 7) (f : Spx)
  /-- SCAT (R128). -/
  | scat (q : BitVec 7) (f : Spx)
  /-- MOVE (R128). -/
  | move (q : BitVec 7) (f : Spx)
  /-- ENC (R128). -/
  | enc (q : BitVec 7) (f : Spx)
  /-- MAXSIM (R128). -/
  | maxsim (q : BitVec 7) (f : Spx)
  /-- FLD (R134). -/
  | fld (q : BitVec 7) (f : Spx)
  /-- FST (R134). -/
  | fst (q : BitVec 7) (f : Spx)
  /-- FATOM (R135). -/
  | fatom (q : BitVec 7) (f : Spx)
  /-- ACOPY_PUSH (R136). -/
  | acopyPush (q : BitVec 7) (f : Spx)
  /-- ACOPY_PULL (R136). -/
  | acopyPull (q : BitVec 7) (f : Spx)
  /-- FABRIC_REPLY (R133). -/
  | fabricReply (p : Pkt)
  /-- AWAIT (R139). -/
  | await (q : BitVec 7) (f : Spx)
  /-- AWAIT_SATISFIED (R91). -/
  | awaitSatisfied (q : BitVec 7)
  /-- EXT_TIMEOUT (R138). -/
  | extTimeout (q : BitVec 7)
  /-- FENCE (R140). -/
  | fence (q : BitVec 7) (f : Spx)
  /-- FENCE_RETIRE (R465). -/
  | fenceRetire (q : BitVec 7)
  /-- VIEW_BIND (R141). -/
  | viewBind (q : BitVec 7) (f : Spx)
  /-- VIEW_UNBIND (R141). -/
  | viewUnbind (q : BitVec 7) (f : Spx)
  /-- ARD (R141). -/
  | ard (q : BitVec 7) (f : Spx)
  /-- TAKE (R142). -/
  | take (q : BitVec 7) (f : Spx)
  /-- TAKE_RETIRE (R92). -/
  | takeRetire (q : BitVec 7)
  /-- POST_CHILD (R144). -/
  | postChild (q : BitVec 7) (f : Spx)
  /-- POST_COMPLETION (R144). -/
  | postCompletion (q : BitVec 7) (f : Spx)
  /-- SCAN_LOAD_GROUP (R221). -/
  | scanLoadGroup (cluster : BitVec 4)
  /-- SCAN_STACK_LIST (R225). -/
  | scanStackList (cluster : BitVec 4) (dissent : List Nat) (split : Option Nat)
  /-- SCAN_RESIDENT_LIST (R229). -/
  | scanResidentList (cluster : BitVec 4) (dissent : List Nat) (split : Option Nat)
  /-- RANK_COMMAND (R255). -/
  | rankCommand (stack : Nat)
  /-- NBU_NOP (R247). -/
  | nbuNop (bank : Nat) (m : Mop)
  /-- NBU_YIELD (R261). -/
  | nbuYield (bank : Nat) (m : Mop)
  /-- NBU_END (R255). -/
  | nbuEnd (bank : Nat) (m : Mop)
  /-- NBU_LDR (R247). -/
  | nbuLdr (bank : Nat) (m : Mop)
  /-- NBU_LDH (R247). -/
  | nbuLdh (bank : Nat) (m : Mop)
  /-- NBU_STC (R249). -/
  | nbuStc (bank : Nat) (m : Mop)
  /-- NBU_LDZ (R247). -/
  | nbuLdz (bank : Nat) (m : Mop)
  /-- NBU_LDS (R247). -/
  | nbuLds (bank : Nat) (m : Mop)
  /-- NBU_MAC (R248). -/
  | nbuMac (bank : Nat) (m : Mop)
  /-- NBU_MACR (R247). -/
  | nbuMacr (bank : Nat) (m : Mop)
  /-- NBU_MQZ (R248). -/
  | nbuMqz (bank : Nat) (m : Mop)
  /-- NBU_RED (R247). -/
  | nbuRed (bank : Nat) (m : Mop)
  /-- NBU_FOP (R247). -/
  | nbuFop (bank : Nat) (m : Mop)
  /-- NBU_SETM (R247). -/
  | nbuSetm (bank : Nat) (m : Mop)
  /-- NBU_SETP (R247). -/
  | nbuSetp (bank : Nat) (m : Mop)
  /-- NBU_ADDP (R247). -/
  | nbuAddp (bank : Nat) (m : Mop)
  /-- NBU_MOVP (R247). -/
  | nbuMovp (bank : Nat) (m : Mop)
  /-- NBU_BR (R247). -/
  | nbuBr (bank : Nat) (m : Mop)
  /-- NBU_LOOP (R247). -/
  | nbuLoop (bank : Nat) (m : Mop)
  /-- NBU_BZ (R247). -/
  | nbuBz (bank : Nat) (m : Mop)
  /-- NBU_EMIT (R257). -/
  | nbuEmit (bank : Nat) (m : Mop)
  /-- REFRESH_DUE (R264). -/
  | refreshDue (bank : Nat)
  /-- STK_DEFER_MAX_CLR (R268). -/
  | stkDeferMaxClr (stack : Nat) (v : W32)
  /-- LRANK_LOAD_TABLE (R276). -/
  | lrankLoadTable (channel : BitVec 6)
  /-- LRANK_SCORE_PAGES (R281). -/
  | lrankScorePages (channel : BitVec 6)
  /-- LUN_READ_ISSUE (R285). -/
  | lunReadIssue (channel : BitVec 6) (lun : Nat) (join : List Nat)
  /-- PAGE_READ_COMPLETE (R271). -/
  | pageReadComplete (channel : BitVec 6) (lun : Nat) (dec : List Nat) (mismatch : Bool)
  /-- CANDIDATE_INTAKE (R298). -/
  | candidateIntake (lane : BitVec 4)
  /-- SEL_ARM_EXACT (R304). -/
  | selArmExact (inst : Nat)
  /-- SEL_ARM_APPROX (R304). -/
  | selArmApprox (inst : Nat)
  /-- SEL_DRAIN (R310). -/
  | selDrain (inst : Nat)
  /-- MERGE_PARTIAL (R314). -/
  | mergePartial (inst : Nat)
  /-- MERGE_PASS (R315). -/
  | mergePass (inst : Nat)
  /-- MERGE_SPILL_SORT (R316). -/
  | mergeSpillSort (inst : Nat)
  /-- MERGE_COLLECTIVE (R320). -/
  | mergeCollective (inst : Nat)
  /-- UNIQ_VALUES (R317). -/
  | uniqValues (inst : Nat)
  /-- UNIQ_COUNTS (R317). -/
  | uniqCounts (inst : Nat)
  /-- ENC_LAYER (R332). -/
  | encLayer (sca : BitVec 3) (bad : Option TileFault)
  /-- ENC_CENTROID (R339). -/
  | encCentroid (sca : BitVec 3) (bad : Option TileFault)
  /-- ENC_PROJECTION (R333). -/
  | encProjection (sca : BitVec 3) (bad : Option TileFault)
  /-- ENC_CROSS_SCORE (R342). -/
  | encCrossScore (sca : BitVec 3) (bad : Option TileFault)
  /-- MAXSIM_SCORE (R342). -/
  | maxsimScore (sca : BitVec 3) (bad : Option TileFault)
  /-- GATH_GATHER (R358). -/
  | gathGather (tbe : BitVec 1)
  /-- GATH_POOL (R360). -/
  | gathPool (tbe : BitVec 1)
  /-- SCAT_OVERWRITE (R362). -/
  | scatOverwrite (tbe : BitVec 1)
  /-- SCAT_ADD (R362). -/
  | scatAdd (tbe : BitVec 1)
  /-- SCAT_REPLACE (R363). -/
  | scatReplace (tbe : BitVec 1)
  /-- ROW_REQUEST (R355). -/
  | rowRequest (tbe : BitVec 1)
  /-- REPLICA_COPY_RETRY (R365). -/
  | replicaCopyRetry (id : Nat)
  /-- MOVE_COPY (R507). -/
  | moveCopy (channel : BitVec 6)
  /-- MOVE_COPY_LIST (R508). -/
  | moveCopyList (channel : BitVec 6)
  /-- HAZE_APPEND (R191). -/
  | hazeAppend (tag : W32)
  /-- COMMIT_REQUEST (R170). -/
  | commitRequest (tag : W32)
  /-- PIN (R200). -/
  | pin (tag : W32)
  /-- UNPIN (R200). -/
  | unpin (tag : W32)
  /-- MERGE_OPEN (R205). -/
  | mergeOpen (tag : W32)
  /-- MERGE_FOLD (R207). -/
  | mergeFold (tag : W32)
  /-- MERGE_SWAP (R205). -/
  | mergeSwap (tag : W32)
  /-- MERGE_CLOSE (R205). -/
  | mergeClose (tag : W32)
  /-- PARK (R394). -/
  | park (tag : W32)
  /-- UNPARK (R394). -/
  | unpark (tag : W32)
  /-- UPDRAFT_PAGE (R389). -/
  | updraftPage (tag : W32)
  /-- UPDRAFT_HOTSET (R390). -/
  | updraftHotset (tag : W32)
  /-- ENGINE_COMMAND_COMPLETE (R87). -/
  | engineCommandComplete (cls inst : Nat)
  /-- GROUP_COMMIT (R181). -/
  | groupCommit (journaled : Nat)
  /-- REPLICA_BATCH (R170). -/
  | replicaBatch (src : BitVec 12) (index : BitVec 8) (id : Nat) (ops : List RepOp)
  /-- REPLICA_ACK (R170). -/
  | replicaAck (src : BitVec 12) (id : Nat) (tags : W32) (refusal : BitVec 8)
  /-- COMMIT_NOTICE (R170). -/
  | commitNotice (src : BitVec 12) (id : Nat)
  /-- NOTICE_ACK (R170). -/
  | noticeAck (src : BitVec 12) (id : Nat)
  /-- DISCARD_NOTICE (R171). -/
  | discardNotice (src : BitVec 12) (id : Nat)
  /-- COMMIT_TIMEOUT (R171). -/
  | commitTimeout (id : Nat)
  /-- OUTCOME_QUERY_TIMER (R172). -/
  | outcomeQueryTimer (id : Nat)
  /-- OUTCOME_QUERY (R172). -/
  | outcomeQuery (src : BitVec 12) (id : Nat)
  /-- INDEX_INSTALL (R148). -/
  | indexInstall (v : W32)
  /-- INDEX_REMOVE (R175). -/
  | indexRemove (v : W32)
  /-- OVERRIDE_SET (R173). -/
  | overrideSet (v : W32)
  /-- OVERRIDE_CLEAR (R173). -/
  | overrideClear (v : W32)
  /-- INDEX_COMMAND_COMPLETE (R177). -/
  | indexCommandComplete
  /-- TIR_IDX_OVL_CLEAR (R178). -/
  | tirIdxOvlClear (v : W32)
  /-- EPOCH_LO_READ (R183). -/
  | epochLoRead
  /-- HOLD_LO_READ (R203). -/
  | holdLoRead
  /-- REGION_CREATE (R375). -/
  | regionCreate (v : W32)
  /-- REGION_REMOVE (R375). -/
  | regionRemove (v : W32)
  /-- REGION_CLEAN (R397). -/
  | regionClean (v : W32)
  /-- REGION_INVALIDATE (R383). -/
  | regionInvalidate (v : W32)
  /-- REGION_CLEAN_INVALIDATE (R397). -/
  | regionCleanInvalidate (v : W32)
  /-- REGION_COMMAND_COMPLETE (R656). -/
  | regionCommandComplete (busError : Bool)
  /-- MIGRATION_PASS_END (R386). -/
  | migrationPassEnd (page : Nat)
  /-- MIGRATION_FLIP (R386). -/
  | migrationFlip (page : Nat)
  /-- MIGRATION_DRAIN (R386). -/
  | migrationDrain (page : Nat)
  /-- MIG_FINAL_MAX_CLR (R400). -/
  | migFinalMaxClr (v : W32)
  /-- FLASH_PROGRAM_COMPLETE (R408). -/
  | flashProgramComplete (channel : BitVec 6) (lun : Nat) (ok : Bool)
  /-- FLASH_ERASE_COMPLETE (R411). -/
  | flashEraseComplete (channel : BitVec 6) (lun : Nat) (ok : Bool)
  /-- READ_DISTURB_LIMIT (R412). -/
  | readDisturbLimit (block : Nat)
  /-- PATROL_READ (R413). -/
  | patrolRead (block : Nat)
  /-- GARBAGE_COLLECTION (R414). -/
  | garbageCollection (channel : BitVec 6) (lun : Nat)
  /-- READ_SUSPEND (R416). -/
  | readSuspend (channel : BitVec 6) (lun : Nat)
  /-- CHANNEL_HELD_OUT (R403). -/
  | channelHeldOut (channel : BitVec 6)
  /-- FLS_DISCARD (R418). -/
  | flsDiscard (v : W32)
  /-- DISCARD_COMPLETE (R429). -/
  | discardComplete
  /-- WINDOW_CREATE (R433). -/
  | windowCreate (v : W32)
  /-- WINDOW_REMOVE (R433). -/
  | windowRemove (v : W32)
  /-- WINDOW_COMMAND_COMPLETE (R433). -/
  | windowCommandComplete
  /-- LOAD (R437). -/
  | load (p : Pkt)
  /-- STORE (R437). -/
  | store (p : Pkt)
  /-- ATOMIC (R442). -/
  | atomic (p : Pkt)
  /-- COPY_PUSH (R436). -/
  | copyPush (p : Pkt)
  /-- COPY_PULL (R436). -/
  | copyPull (p : Pkt)
  /-- COPY_DATA (R436). -/
  | copyData (p : Pkt)
  /-- COPY_DONE (R436). -/
  | copyDone (p : Pkt)
  /-- COPY_CANCEL (R446). -/
  | copyCancel (p : Pkt)
  /-- ROW_READ (R355). -/
  | rowRead (p : Pkt)
  /-- ROW_UPDATE (R365). -/
  | rowUpdate (p : Pkt)
  /-- FABRIC_OPERATION_TIMEOUT (R448). -/
  | fabricOperationTimeout (tag : W32)
  /-- COPY_TRACKER_TIMEOUT (R448). -/
  | copyTrackerTimeout (key : Nat)
  /-- PORT_TRAINING_DONE (R457). -/
  | portTrainingDone (port : BitVec 3) (lanes : BitVec 8) (direct : Bool) (peer : BitVec 12) (peerValid authOk : Bool)
  /-- QUALIFICATION_COMPLETE (R591). -/
  | qualificationComplete (port : BitVec 3) (pass : BitVec 8)
  /-- LINK_LOSS (R458). -/
  | linkLoss (port : BitVec 3)
  /-- FRAME_RECEIVE (R461). -/
  | frameReceive (port : BitVec 3) (crcOk authOk : Bool)
  /-- REKEY (R460). -/
  | rekey (port : BitVec 3) (rx : Bool)
  /-- PATH_NOTICE (R462). -/
  | pathNotice (port : BitVec 3) (node : BitVec 12)
  /-- PATH_RESTORED (R462). -/
  | pathRestored (port : BitVec 3) (node : BitVec 12)
  /-- END_TO_END_REPLAY (R463). -/
  | endToEndReplay (tag : W32)
  /-- PORT_RETRY (R477). -/
  | portRetry (v : W32)
  /-- PORT_HOLD (R477). -/
  | portHold (v : W32)
  /-- SLICE_DEFINE (R467). -/
  | sliceDefine (v : W32)
  /-- MAP_STAGE (R469). -/
  | mapStage (v : W32)
  /-- MAP_CANCEL (R469). -/
  | mapCancel (v : W32)
  /-- MAP_HORIZON (R469). -/
  | mapHorizon (comp : BitVec 8)
  /-- DRAIN_DONE (R471). -/
  | drainDone (p : Pkt)
  /-- LEDGER_READ (R472). -/
  | ledgerRead (p : Pkt)
  /-- LEDGER_CAS (R472). -/
  | ledgerCas (p : Pkt)
  /-- OFFER (R473). -/
  | offer (p : Pkt)
  /-- ACCEPT (R473). -/
  | accept (p : Pkt)
  /-- HANDOFF_OFFER (R473). -/
  | handoffOffer (v : W32)
  /-- HANDOFF_LEDGER_READ (R481). -/
  | handoffLedgerRead (v : W32)
  /-- HANDOFF_TIMEOUT (R474). -/
  | handoffTimeout
  /-- HOST_LINK_CHANGE (R483). -/
  | hostLinkChange (speed width : Nat) (flit : Bool)
  /-- BAR2_READ (R489). -/
  | bar2Read (off : Nat) (len : Nat)
  /-- BAR2_WRITE (R488). -/
  | bar2Write (off : Nat) (data : List (BitVec 8))
  /-- SQ_TAIL_DOORBELL (R490). -/
  | sqTailDoorbell (q : BitVec 15) (v : W32)
  /-- EQ_HEAD_DOORBELL (R496). -/
  | eqHeadDoorbell (q : BitVec 15) (v : W32)
  /-- SYS_EQ_HEAD_WRITE (R672). -/
  | sysEqHeadWrite (v : W32)
  /-- SQ_ENABLE (R492). -/
  | sqEnable (v : W32)
  /-- SQ_DISABLE (R492). -/
  | sqDisable (v : W32)
  /-- EQ_ENABLE (R498). -/
  | eqEnable (v : W32)
  /-- EQ_DISABLE (R498). -/
  | eqDisable (v : W32)
  /-- SUBMISSION_FETCH (R491). -/
  | submissionFetch (busError : Bool)
  /-- MSIX_TIMER (R504). -/
  | msixTimer (eq : BitVec 11)
  /-- MSIX_UNMASK (R504). -/
  | msixUnmask (vec : BitVec 11) (addr : W64) (data : W32)
  /-- FLR (R514). -/
  | flr
  /-- DMA_BUS_ERROR (R511). -/
  | dmaBusError (channel : BitVec 6) (idx : Nat) (addr : W64) (started : List Nat)
  /-- DMA_RESTART (R512). -/
  | dmaRestart (v : W32)
  /-- SPDM_MESSAGE (R556). -/
  | spdmMessage (msg : List (BitVec 8))
  /-- ATTESTATION_REQUEST (R555). -/
  | attestationRequest (nonce : BitVec 256)
  /-- PERIODIC_RELEASE (R522). -/
  | periodicRelease (id : Nat)
  /-- SERIES_STOP (R523). -/
  | seriesStop (v : W32)
  /-- DSP_POL_WRITE (R527). -/
  | dspPolWrite (v : W32)
  /-- DSP_COUNT_CLEAR (R525). -/
  | dspCountClear (r : Reg) (v : W32)
  /-- TRF_ING_DROP_CLEAR (R529). -/
  | trfIngDropClear (v : W32)
  /-- GATE_LIST_ARM (R534). -/
  | gateListArm (v : W32)
  /-- GATE_LIST_CANCEL (R534). -/
  | gateListCancel (v : W32)
  /-- GATE_LIST_HORIZON (R533). -/
  | gateListHorizon (port : Nat)
  /-- GATE_WINDOW_EDGE (R533). -/
  | gateWindowEdge (port : Nat)
  /-- EGRESS_SERVE (R535). -/
  | egressServe (port : Nat)
  /-- SAMPLE_TICK (R537). -/
  | sampleTick
  /-- SAMPLING_ENABLE (R538). -/
  | samplingEnable (v : W32)
  /-- SAMPLING_DISABLE (R538). -/
  | samplingDisable (v : W32)
  /-- SAMPLE_HEAD_WRITE (R537). -/
  | sampleHeadWrite (v : W32)
  /-- DOMAIN_CREATE (R542). -/
  | domainCreate (v : W32)
  /-- DOMAIN_RELEASE (R543). -/
  | domainRelease (v : W32)
  /-- DOMAIN_RELEASE_DONE (R543). -/
  | domainReleaseDone
  /-- HEARTBEAT (R563). -/
  | heartbeat (m : Mgmt)
  /-- MGMT_FENCE (R561). -/
  | mgmtFence (m : Mgmt)
  /-- UNFENCE (R561). -/
  | unfence (m : Mgmt)
  /-- EXPEL (R561). -/
  | expel (m : Mgmt)
  /-- READMIT (R561). -/
  | readmit (m : Mgmt)
  /-- STATUS_REQUEST (R561). -/
  | statusRequest (m : Mgmt)
  /-- LEASE_EXPIRY (R563). -/
  | leaseExpiry
  /-- CFG_ARM (R568). -/
  | cfgArm (v : W32)
  /-- CFG_CANCEL (R568). -/
  | cfgCancel (v : W32)
  /-- CFG_HORIZON (R567). -/
  | cfgHorizon
  /-- CFG_GRACE_EXPIRY (R567). -/
  | cfgGraceExpiry
  /-- RAILS_AND_REFERENCE (R573). -/
  | railsAndReference (rails ref warm : Bool)
  /-- FUSE_LOAD (R573). -/
  | fuseLoad (parity : Bool)
  /-- FIRST_STAGE_VERIFICATION (R552). -/
  | firstStageVerification (ok : Bool)
  /-- UNIT_BIST (R573). -/
  | unitBist (bad : List (Nat × Nat))
  /-- YIELD_MAP_RECONCILIATION (R580). -/
  | yieldMapReconciliation
  /-- FIRMWARE_IMAGE_LOAD (R553). -/
  | firmwareImageLoad (verifies : Bool) (busError : Option Nat)
  /-- FIRMWARE_BROADCAST (R586). -/
  | firmwareBroadcast (ok : Bool)
  /-- STACK_TRAINING (R587). -/
  | stackTraining (bad : List Nat)
  /-- FLASH_DISCOVERY (R402). -/
  | flashDiscovery (part : FlashPart) (bad : List Nat)
  /-- FABRIC_TRAINING (R589). -/
  | fabricTraining
  /-- LINK_QUALIFICATION (R590). -/
  | linkQualification
  /-- FULL_PCIE_FUNCTION (R573). -/
  | fullPcieFunction
  /-- TIME_SYNC (R592). -/
  | timeSync
  /-- CONFIGURATION_LOAD (R593). -/
  | configurationLoad (readable : Bool) (records : Nat)
  /-- READY (R594). -/
  | ready
  /-- STEP_COMPLETE (R579). -/
  | stepComplete
  /-- BROWNOUT_START (R604). -/
  | brownoutStart (rails : Nat)
  /-- BROWNOUT_END (R604). -/
  | brownoutEnd (lowMv : Nat)
  /-- RAIL_RESET_LEVEL (R596). -/
  | railResetLevel (rail : Nat)
  /-- GOVERNOR_WINDOW (R598). -/
  | governorWindow (power : Nat)
  /-- PRB_POWER_CLR (R600). -/
  | prbPowerClr (v : W32)
  /-- THERMAL_THROTTLE (R601). -/
  | thermalThrottle (die : Nat) (tj : Nat)
  /-- THERMAL_EMERGENCY (R601). -/
  | thermalEmergency (die : Nat) (tj : Nat)
  /-- EMERGENCY_END (R601). -/
  | emergencyEnd
  /-- THERMAL_TRIP (R601). -/
  | thermalTrip (die : Nat) (tj : Nat)
  /-- PRB_THERM_CLR_MAX (R602). -/
  | prbThermClrMax (v : W32)
  /-- POWER_STATE_ENTRY (R606). -/
  | powerStateEntry
  /-- WAKE_COMPLETE (R607). -/
  | wakeComplete
  /-- WAKETOL_WRITE (R608). -/
  | waketolWrite (v : W32)
  /-- WARM_RESET (R612). -/
  | warmReset (v : W32)
  /-- FABRIC_ISOLATION_RESET (R611). -/
  | fabricIsolationReset (v : W32)
  /-- COLD_RESET_COMMAND (R610). -/
  | coldResetCommand (v : W32)
  /-- PERST (R646). -/
  | perst
  /-- POWER_ON (R610). -/
  | powerOn
  /-- REF100_LOSS (R647). -/
  | ref100Loss
  /-- STACK_HELD_OUT (R618). -/
  | stackHeldOut (stack : Nat)
  /-- STACK_PATROL (R617). -/
  | stackPatrol (stack : Nat)
  /-- QUARANTINE (R627). -/
  | quarantine (cls unit : Nat)
  /-- SHADOW_CLEAR (R636). -/
  | shadowClear (v : W32)
  /-- GO_PROD (R661). -/
  | goProd (v : W32)
  /-- LOCK (R662). -/
  | lock (v : W32)
  /-- THERMAL_LEVEL_NORMAL (R601). -/
  | thermalLevelNormal (die : Nat) (tj : Nat)
  /-- REPLAY_RECORD_EXPIRY (R464). -/
  | replayRecordExpiry (key : Nat)
deriving DecidableEq, Repr

end Sys2Proof
end

