-- ==== Sys2Proof/WellFormed.lean ====
section
/-!
DEFINITION. Which commands are well formed: every number an operand gives lies in the range the manual gives it. Operands that are bit
vectors are in range by their type. The meanings are total: on a command that is not well formed they do what the manual says of a unit
that does not exist, which is nothing.
-/

namespace Sys2Proof

/-- Banks of a node (R5, R49): 20 stacks of 1,024. -/
def bankCount : Nat := 20480
/-- Units of a class that shadow checking charges (R635). -/
def shadowUnits (cls : Nat) : Nat := match cls with | 0 => 1088 | 1 => 20480 | 2 => 64 | 3 => 1040 | _ => 0
/-- Instances of a resource class at which commands complete (R49): banks are named by their stack, TIR by the tag of a job. -/
def engineCount (cls : Nat) : Nat :=
  match cls with | 0 => 20 | 3 => 16 | 4 => 17 | 5 => 8 | 6 => 64 | 7 => 2 | 8 => 64 | 14 => 2 ^ 32 | _ => 0
/-- A packet carries at most 1,024 bytes and says how many (R435). -/
def Pkt.wf (p : Pkt) : Bool := p.payload.length == p.len.toNat && decide (p.payload.length ≤ 1024)
/-- A management message carries at most 16 signature entries, one a manager (R559). -/
def Mgmt.wf (m : Mgmt) : Bool := decide (m.sigs.length ≤ 16)
/-- A tile of the scoring array names a cell row of its cluster (R340, R581). -/
def TileFault.wf (t : TileFault) : Bool := decide (t.row < 130)
/-- A part as flash discovery finds it (R401, R402). -/
def FlashPart.wf (p : FlashPart) : Bool :=
  decide (p.targets < 16) && decide (p.luns < 64) && [1, 2, 4].contains p.planes && decide (p.rate < 4096)

/-- A command is well formed. -/
def Instr.wf (i : Instr) : Bool :=
  match i with
  | .registerWrite _ inst _ => decide (inst < 20)
  | .bar0BadAccess _ off size => decide (off < 2 ^ 28) && [1, 2, 4, 8].contains size
  | .paceTargetWrite _ => true
  | .limiterRamp _ achieved _ => decide (achieved < 4096)
  | .paceMonWindow cw ce iod _ _ => decide (cw < 4096) && decide (ce < 4096) && decide (iod < 4096)
  | .clrMin _ => true
  | .ptpMessage _ _ rate => decide (rate < 2 ^ 32)
  | .holdoverEntry => true
  | .grandmasterReturn _ _ rate => decide (rate < 2 ^ 32)
  | .ptpSwitchover _ rate => decide (rate < 2 ^ 32)
  | .smcTimeLoRead => true
  | .planLoad _ => true
  | .planUnload _ => true
  | .jobPlacement => true
  | .deadlineReached _ => true
  | .pendingJobLate _ => true
  | .takenRequestLate _ slot => decide (slot < 64)
  | .claim _ _ => true
  | .heldClaimGrant => true
  | .handFree _ _ => true
  | .handToJob _ _ => true
  | .handToEngine _ _ => true
  | .handRecall _ _ => true
  | .yieldPoint _ _ => true
  | .seqWatchdogAbort _ => true
  | .nbuWatchdogAbort bank => decide (bank < bankCount)
  | .seqOverrun _ => true
  | .nbuOverrun bank => decide (bank < bankCount)
  | .forcedRefreshSuspension bank => decide (bank < bankCount)
  | .seqViolCntClear _ => true
  | .seqStalePulseClear _ => true
  | .creditStallResume _ => true
  | .pulse _ _ _ => true
  | .makeWayRequest => true
  | .jobResume _ => true
  | .add _ _ => true
  | .sub _ _ => true
  | .mul _ _ => true
  | .mulhu _ _ => true
  | .divu _ _ => true
  | .remu _ _ => true
  | .div _ _ => true
  | .rem _ _ => true
  | .andOp _ _ => true
  | .orOp _ _ => true
  | .xorOp _ _ => true
  | .shl _ _ => true
  | .shr _ _ => true
  | .sar _ _ => true
  | .minu _ _ => true
  | .maxu _ _ => true
  | .minOp _ _ => true
  | .maxOp _ _ => true
  | .cmp _ _ => true
  | .mov _ _ => true
  | .popc _ _ => true
  | .clz _ _ => true
  | .li _ _ => true
  | .ld _ _ => true
  | .st _ _ => true
  | .ldd _ _ => true
  | .std _ _ => true
  | .dset _ _ => true
  | .dget _ _ => true
  | .vld _ _ => true
  | .vst _ _ => true
  | .vget _ _ => true
  | .vput _ _ => true
  | .vcnt _ _ => true
  | .vsetc _ _ => true
  | .time _ _ => true
  | .br _ _ => true
  | .bc _ _ => true
  | .jal _ _ => true
  | .jr _ _ => true
  | .nop _ _ => true
  | .endJob _ _ => true
  | .tinst _ _ => true
  | .scan _ _ => true
  | .rank _ _ => true
  | .lrank _ _ => true
  | .sel _ _ => true
  | .merge _ _ => true
  | .uniq _ _ => true
  | .gath _ _ => true
  | .scat _ _ => true
  | .move _ _ => true
  | .enc _ _ => true
  | .maxsim _ _ => true
  | .fld _ _ => true
  | .fst _ _ => true
  | .fatom _ _ => true
  | .acopyPush _ _ => true
  | .acopyPull _ _ => true
  | .fabricReply p => p.wf
  | .await _ _ => true
  | .awaitSatisfied _ => true
  | .extTimeout _ => true
  | .fence _ _ => true
  | .fenceRetire _ => true
  | .viewBind _ _ => true
  | .viewUnbind _ _ => true
  | .ard _ _ => true
  | .take _ _ => true
  | .takeRetire _ => true
  | .postChild _ _ => true
  | .postCompletion _ _ => true
  | .scanLoadGroup _ => true
  | .scanStackList _ dissent _ => dissent.all fun u => decide (u < 68)
  | .scanResidentList _ dissent _ => dissent.all fun u => decide (u < 68)
  | .rankCommand stack => decide (stack < 20)
  | .nbuNop bank _ => decide (bank < bankCount)
  | .nbuYield bank _ => decide (bank < bankCount)
  | .nbuEnd bank _ => decide (bank < bankCount)
  | .nbuLdr bank _ => decide (bank < bankCount)
  | .nbuLdh bank _ => decide (bank < bankCount)
  | .nbuStc bank _ => decide (bank < bankCount)
  | .nbuLdz bank _ => decide (bank < bankCount)
  | .nbuLds bank _ => decide (bank < bankCount)
  | .nbuMac bank _ => decide (bank < bankCount)
  | .nbuMacr bank _ => decide (bank < bankCount)
  | .nbuMqz bank _ => decide (bank < bankCount)
  | .nbuRed bank _ => decide (bank < bankCount)
  | .nbuFop bank _ => decide (bank < bankCount)
  | .nbuSetm bank _ => decide (bank < bankCount)
  | .nbuSetp bank _ => decide (bank < bankCount)
  | .nbuAddp bank _ => decide (bank < bankCount)
  | .nbuMovp bank _ => decide (bank < bankCount)
  | .nbuBr bank _ => decide (bank < bankCount)
  | .nbuLoop bank _ => decide (bank < bankCount)
  | .nbuBz bank _ => decide (bank < bankCount)
  | .nbuEmit bank _ => decide (bank < bankCount)
  | .refreshDue bank => decide (bank < bankCount)
  | .stkDeferMaxClr stack _ => decide (stack < 20)
  | .lrankLoadTable _ => true
  | .lrankScorePages _ => true
  | .lunReadIssue _ lun _ => decide (lun < 64)
  | .pageReadComplete _ lun _ _ => decide (lun < 64)
  | .candidateIntake _ => true
  | .selArmExact inst => decide (inst < 16)
  | .selArmApprox inst => decide (inst < 16)
  | .selDrain inst => decide (inst < 16)
  | .mergePartial inst => decide (inst < 17)
  | .mergePass inst => decide (inst < 17)
  | .mergeSpillSort inst => decide (inst < 17)
  | .mergeCollective inst => decide (inst < 17)
  | .uniqValues inst => decide (inst < 17)
  | .uniqCounts inst => decide (inst < 17)
  | .encLayer _ bad => match bad with | some t => t.wf | none => true
  | .encCentroid _ bad => match bad with | some t => t.wf | none => true
  | .encProjection _ bad => match bad with | some t => t.wf | none => true
  | .encCrossScore _ bad => match bad with | some t => t.wf | none => true
  | .maxsimScore _ bad => match bad with | some t => t.wf | none => true
  | .gathGather _ => true
  | .gathPool _ => true
  | .scatOverwrite _ => true
  | .scatAdd _ => true
  | .scatReplace _ => true
  | .rowRequest _ => true
  | .replicaCopyRetry _ => true
  | .moveCopy _ => true
  | .moveCopyList _ => true
  | .hazeAppend _ => true
  | .commitRequest _ => true
  | .pin _ => true
  | .unpin _ => true
  | .mergeOpen _ => true
  | .mergeFold _ => true
  | .mergeSwap _ => true
  | .mergeClose _ => true
  | .park _ => true
  | .unpark _ => true
  | .updraftPage _ => true
  | .updraftHotset _ => true
  | .engineCommandComplete cls inst => decide (inst < engineCount cls)
  | .groupCommit _ => true
  | .replicaBatch _ _ _ ops => decide (ops.length ≤ 4096)
  | .replicaAck _ _ _ _ => true
  | .commitNotice _ _ => true
  | .noticeAck _ _ => true
  | .discardNotice _ _ => true
  | .commitTimeout _ => true
  | .outcomeQueryTimer _ => true
  | .outcomeQuery _ _ => true
  | .indexInstall _ => true
  | .indexRemove _ => true
  | .overrideSet _ => true
  | .overrideClear _ => true
  | .indexCommandComplete => true
  | .tirIdxOvlClear _ => true
  | .epochLoRead => true
  | .holdLoRead => true
  | .regionCreate _ => true
  | .regionRemove _ => true
  | .regionClean _ => true
  | .regionInvalidate _ => true
  | .regionCleanInvalidate _ => true
  | .regionCommandComplete _ => true
  | .migrationPassEnd page => decide (page < 2 ^ 52)
  | .migrationFlip page => decide (page < 2 ^ 52)
  | .migrationDrain page => decide (page < 2 ^ 52)
  | .migFinalMaxClr _ => true
  | .flashProgramComplete _ lun _ => decide (lun < 64)
  | .flashEraseComplete _ lun _ => decide (lun < 64)
  | .readDisturbLimit block => decide (block < 2 ^ 46)
  | .patrolRead block => decide (block < 2 ^ 46)
  | .garbageCollection _ lun => decide (lun < 64)
  | .readSuspend _ lun => decide (lun < 64)
  | .channelHeldOut _ => true
  | .flsDiscard _ => true
  | .discardComplete => true
  | .windowCreate _ => true
  | .windowRemove _ => true
  | .windowCommandComplete => true
  | .load p => p.wf
  | .store p => p.wf
  | .atomic p => p.wf
  | .copyPush p => p.wf
  | .copyPull p => p.wf
  | .copyData p => p.wf
  | .copyDone p => p.wf
  | .copyCancel p => p.wf
  | .rowRead p => p.wf
  | .rowUpdate p => p.wf
  | .fabricOperationTimeout _ => true
  | .copyTrackerTimeout key => decide (key < 2 ^ 44)
  | .portTrainingDone _ _ _ _ _ _ => true
  | .qualificationComplete _ _ => true
  | .linkLoss _ => true
  | .frameReceive _ _ _ => true
  | .rekey _ _ => true
  | .pathNotice _ _ => true
  | .pathRestored _ _ => true
  | .endToEndReplay _ => true
  | .portRetry _ => true
  | .portHold _ => true
  | .sliceDefine _ => true
  | .mapStage _ => true
  | .mapCancel _ => true
  | .mapHorizon _ => true
  | .drainDone p => p.wf
  | .ledgerRead p => p.wf
  | .ledgerCas p => p.wf
  | .offer p => p.wf
  | .accept p => p.wf
  | .handoffOffer _ => true
  | .handoffLedgerRead _ => true
  | .handoffTimeout => true
  | .hostLinkChange speed width _ => decide (speed < 256) && decide (width < 32)
  | .bar2Read off len => decide (off < 2 ^ 36) && decide (len ≤ 4096)
  | .bar2Write off data => decide (off < 2 ^ 36) && decide (data.length ≤ 4096)
  | .sqTailDoorbell _ _ => true
  | .eqHeadDoorbell _ _ => true
  | .sysEqHeadWrite _ => true
  | .sqEnable _ => true
  | .sqDisable _ => true
  | .eqEnable _ => true
  | .eqDisable _ => true
  | .submissionFetch _ => true
  | .msixTimer _ => true
  | .msixUnmask _ _ _ => true
  | .flr => true
  | .dmaBusError _ _ _ _ => true
  | .dmaRestart _ => true
  | .spdmMessage _ => true
  | .attestationRequest _ => true
  | .periodicRelease _ => true
  | .seriesStop _ => true
  | .dspPolWrite _ => true
  | .dspCountClear _ _ => true
  | .trfIngDropClear _ => true
  | .gateListArm _ => true
  | .gateListCancel _ => true
  | .gateListHorizon port => decide (port < 9)
  | .gateWindowEdge port => decide (port < 9)
  | .egressServe port => decide (port < 9)
  | .sampleTick => true
  | .samplingEnable _ => true
  | .samplingDisable _ => true
  | .sampleHeadWrite _ => true
  | .domainCreate _ => true
  | .domainRelease _ => true
  | .domainReleaseDone => true
  | .heartbeat m => m.wf
  | .mgmtFence m => m.wf
  | .unfence m => m.wf
  | .expel m => m.wf
  | .readmit m => m.wf
  | .statusRequest m => m.wf
  | .leaseExpiry => true
  | .cfgArm _ => true
  | .cfgCancel _ => true
  | .cfgHorizon => true
  | .cfgGraceExpiry => true
  | .railsAndReference _ _ _ => true
  | .fuseLoad _ => true
  | .firstStageVerification _ => true
  | .unitBist bad => bad.all fun p => decide (p.1 < 7)
  | .yieldMapReconciliation => true
  | .firmwareImageLoad _ busError => match busError with | some a => decide (a < 2 ^ 64) | none => true
  | .firmwareBroadcast _ => true
  | .stackTraining bad => bad.all fun k => decide (k < 20)
  | .flashDiscovery part bad => part.wf && bad.all fun c => decide (c < 64)
  | .fabricTraining => true
  | .linkQualification => true
  | .fullPcieFunction => true
  | .timeSync => true
  | .configurationLoad _ _ => true
  | .ready => true
  | .stepComplete => true
  | .brownoutStart rails => decide (rails < 512)
  | .brownoutEnd lowMv => decide (lowMv < 65536)
  | .railResetLevel rail => decide (rail < 9)
  | .governorWindow power => decide (power < 4096)
  | .prbPowerClr _ => true
  | .thermalThrottle die tj => decide (die < 23) && decide (tj < 4096)
  | .thermalEmergency die tj => decide (die < 23) && decide (tj < 4096)
  | .emergencyEnd => true
  | .thermalTrip die tj => decide (die < 23) && decide (tj < 4096)
  | .prbThermClrMax _ => true
  | .powerStateEntry => true
  | .wakeComplete => true
  | .waketolWrite _ => true
  | .warmReset _ => true
  | .fabricIsolationReset _ => true
  | .coldResetCommand _ => true
  | .perst => true
  | .powerOn => true
  | .ref100Loss => true
  | .stackHeldOut stack => decide (stack < 20)
  | .stackPatrol stack => decide (stack < 20)
  | .quarantine cls unit => decide (unit < shadowUnits cls)
  | .shadowClear _ => true
  | .goProd _ => true
  | .lock _ => true
  | .thermalLevelNormal die tj => decide (die < 23) && decide (tj < 4096)
  | .replayRecordExpiry _ => true

end Sys2Proof
end

