-- ==== Sys2Proof/Decode.lean ====
section
/-!
DEFINITION. The decoder of the commands' words. The opcode table gives no row of this block any bits: its commands are accesses, messages
and events, not words. So no word spells a command.
-/

namespace Sys2Proof

/-- The command that a word of `nbits` bits spells by the table's bits: no row of the table gives bits. -/
def decodeTableWord (_nbits _w : Nat) : Option Instr := none

end Sys2Proof
end

