-- ==== Sys2Proof/Config.lean ====
section
/-!
DEFINITION. What one YS-20 part fixes and the manual does not give, and the free values:
constants without a body, of which no proof can know anything.
-/

namespace Sys2Proof.Config

/-- Fused variant of the part: 0 YS-20A, 1 YS-20B, 2 YS-20E (R6, R659); any other value names no variant, and step 2 fails (R575). -/
opaque variantFuse : Nat
/-- A free value: applied to the state's counter of free values and to a position within that value.
It stands for every result the manual leaves undefined or does not state. -/
opaque freeValue : Nat → Nat → BitVec 64
/-- A free list of numbers, as `freeValue` is a free word: what the surroundings of the part decide in a step of bring-up. -/
opaque freeList : Nat → List Nat
/-- Fused security version (R552). -/
opaque fusedSvn : Nat
/-- Key digest held in fuses (R552). -/
opaque keyDigest : Nat
/-- Die identifiers held in fuses, by die number (R584). -/
opaque dieId : Nat → BitVec 64
/-- The unique device secret held in fuses (R554). -/
opaque deviceSecret : Nat
/-- Units marked bad by fuse, by unit class and physical unit (R580). -/
opaque badByFuse : Nat → Nat → Bool
/-- SHAKE256 with a 256-bit result, of a list of bytes (R566). -/
opaque shake256 : List (BitVec 8) → BitVec 256
/-- The payload and sign of a NaN that an operation of the device produces, from its operands. -/
opaque nanBits : Nat → BitVec 32
/-- The value that an fp32 function of the scoring array (by number) returns where the manual bounds but does not fix it. -/
opaque fpFunction : Nat → Nat → BitVec 32
/-- Which free frame of a stack TIR takes for a page: the manual does not fix the choice (R382). -/
opaque frameChoice : Nat → List Nat → Nat
/-- Cryptographic operations of the trust unit that the manual names and does not define: by operation and input bytes. -/
opaque crypto : Nat → List (BitVec 8) → List (BitVec 8)

/-- The first-stage image in the SMC's store, written at manufacture (R552). -/
opaque firstStage : List (BitVec 8)
/-- Fused stepping: 0 A0, 1 B0 (R659). -/
opaque steppingFuse : Nat
/-- The version of the NBU library in a firmware image, and its entries (R586): the manual does not give the image's layout. -/
opaque libVersion : List (BitVec 8) → BitVec 16
opaque library : List (BitVec 8) → Nat → BitVec 32

/-- The domain in whose unified range the descriptors of `FAB_MAP_CMD` lie: the manual names none (R467, R479). -/
opaque mapDomain : Nat

/-- The die that a fault record of TIR names: its agents lie on CW, CE and IOD, and the manual does not say which one reports (R21, R620). -/
opaque tirDie : Nat

/-- Offset of a register within its block, which the part's directory gives (R653, R654). -/
opaque regOffset : Nat → Nat

end Sys2Proof.Config
end

