-- ==== Sys2Proof/Machine/Fp.lean ====
section
/-!
DEFINITION. Binary floating point as the engines use it: exact values, one rounding to nearest, ties to even, and the
formats of the manual (fp32, bf16, fp16, fp8, fp6, fp4, e8m0).
-/

namespace Sys2Proof.Machine

open Sys2Proof

/-- An exact value: `fin neg m e` is (-1)^neg x m x 2^e. -/
inductive Fv
  | nan
  | inf (neg : Bool)
  | fin (neg : Bool) (m : Nat) (e : Int)
deriving DecidableEq, Repr

/-- A binary format: exponent and fraction widths, bias, and whether the all-ones exponent holds infinities and NaNs. -/
structure Fmt where
  ew : Nat
  mw : Nat
  bias : Nat
  ieee : Bool
deriving DecidableEq, Repr

def fmt32 : Fmt := ⟨8, 23, 127, true⟩
def fmtBf16 : Fmt := ⟨8, 7, 127, true⟩
def fmt16 : Fmt := ⟨5, 10, 15, true⟩
def fmtE4M3 : Fmt := ⟨4, 3, 7, false⟩
def fmtE5M2 : Fmt := ⟨5, 2, 15, true⟩
def fmtE2M3 : Fmt := ⟨2, 3, 1, false⟩
def fmtE3M2 : Fmt := ⟨3, 2, 3, false⟩
def fmtE2M1 : Fmt := ⟨2, 1, 1, false⟩

/-- The value of a word in a format. In E4M3 the all-ones word is a NaN; the other formats without infinities have none. -/
def decodeFp (f : Fmt) (w : Nat) : Fv :=
  let neg := bitAt w (f.ew + f.mw)
  let x := bitsOf w f.mw f.ew
  let m := bitsOf w 0 f.mw
  if f.ieee && x = 2 ^ f.ew - 1 then (if m = 0 then .inf neg else .nan)
  else if f == fmtE4M3 && x = 15 && m = 7 then .nan
  else if x = 0 then .fin neg m (1 - (f.bias : Int) - f.mw)
  else .fin neg (2 ^ f.mw + m) ((x : Int) - f.bias - f.mw)

/-- A subnormal word read as a zero. -/
def flushIn (f : Fmt) (v : Fv) : Fv :=
  match v with
  | .fin neg m e => if e = 1 - (f.bias : Int) - f.mw && m < 2 ^ f.mw then .fin neg 0 0 else v
  | _ => v

/-- Value of an fp32 word. -/
def fp32 (w : BitVec 32) : Fv := decodeFp fmt32 w.toNat
/-- Value of a bf16 word. -/
def bf16 (w : Nat) : Fv := decodeFp fmtBf16 w
/-- Value of a bf16 word, subnormals as zero (R248, R289). -/
def bf16z (w : Nat) : Fv := flushIn fmtBf16 (decodeFp fmtBf16 w)
/-- Value of an fp32 word, subnormals as zero. -/
def fp32z (w : BitVec 32) : Fv := flushIn fmt32 (fp32 w)
/-- Value of an e8m0 scale: 0xFF is a NaN (R161). -/
def e8m0 (b : Nat) : Fv := if b % 256 = 255 then .nan else .fin false 1 ((b % 256 : Int) - 127)

/-- Number of bits of a positive number. -/
def bitLen (m : Nat) : Nat := if m = 0 then 0 else Nat.log2 m + 1

/-- `m / 2^k` rounded to nearest, ties to even. -/
def rne (m k : Nat) : Nat :=
  let q := m / 2 ^ k
  let r := 2 * (m % 2 ^ k)
  if r > 2 ^ k || (r = 2 ^ k && q % 2 = 1) then q + 1 else q

/-- A NaN of fp32: its sign and payload are not given by the manual. -/
def nan32 : BitVec 32 := 0x7FC00000#32 ||| (Config.nanBits 0 &&& 0x803FFFFF#32)
/-- An infinity of fp32. -/
def inf32 (neg : Bool) : BitVec 32 := if neg then 0xFF800000#32 else 0x7F800000#32

/-- The significand and exponent of a value rounded to a precision with a least exponent. -/
def roundTo (prec : Nat) (emin : Int) (m : Nat) (e : Int) : Nat × Int :=
  let t := max (e + bitLen m - prec) emin
  if t ≤ e then (m * 2 ^ (e - t).toNat, t) else (rne m (t - e).toNat, t)

/-- The word of a format nearest to a value; `sat` gives the largest finite word where the value is too large, else the
format's infinity. NaN words come from the caller. -/
def encodeFp (f : Fmt) (sat : Bool) (nanWord : Nat) (v : Fv) : Nat :=
  let sgn := fun (neg : Bool) => if neg then 2 ^ (f.ew + f.mw) else 0
  let top := if f.ieee then (2 ^ f.ew - 1) * 2 ^ f.mw - 1 else if f == fmtE4M3 then 2 ^ 7 - 2 else 2 ^ (f.ew + f.mw) - 1
  let big := fun neg => sgn neg + (if sat || !f.ieee then top else (2 ^ f.ew - 1) * 2 ^ f.mw)
  match v with
  | .nan => nanWord
  | .inf neg => big neg
  | .fin neg m e =>
    let emin := 1 - (f.bias : Int) - f.mw
    let (q, t) := roundTo (f.mw + 1) emin m e
    let body := if q < 2 ^ f.mw then q
      else let (q1, t1) := if q = 2 ^ (f.mw + 1) then (2 ^ f.mw, t + 1) else (q, t)
        ((t1 - emin).toNat + 1) * 2 ^ f.mw + (q1 - 2 ^ f.mw)
    if body > top then big neg else sgn neg + body

/-- The fp32 word of a value, rounded once. -/
def to32 (v : Fv) : BitVec 32 :=
  match v with
  | .nan => nan32
  | v => BitVec.ofNat 32 (encodeFp fmt32 false 0 v)

/-- The fp32 word of a value, a subnormal result as zero. -/
def to32z (v : Fv) : BitVec 32 :=
  let w := to32 v
  if (w >>> 23).setWidth 8 == 0#8 then w &&& 0x80000000#32 else w

/-- Whether an fp32 word is a NaN. -/
def isNan32 (w : BitVec 32) : Bool := fp32 w == .nan
/-- Whether a value is neither NaN nor infinite. -/
def Fv.finite : Fv → Bool
  | .fin _ _ _ => true
  | _ => false

/-- A signed significand at a smaller exponent. -/
def atExp (neg : Bool) (m : Nat) (e t : Int) : Int := (if neg then -1 else 1) * ((m * 2 ^ (e - t).toNat : Nat) : Int)
/-- The value of an integer times a power of two. -/
def fvInt (i : Int) (e : Int) : Fv := .fin (i < 0) i.natAbs e

/-- The opposite value. -/
def fvNeg : Fv → Fv
  | .nan => .nan
  | .inf n => .inf !n
  | .fin n m e => .fin (!n) m e
/-- Exact sum. -/
def fvAdd (a b : Fv) : Fv :=
  match a, b with
  | .nan, _ => .nan
  | _, .nan => .nan
  | .inf n, .inf k => if n = k then .inf n else .nan
  | .inf n, _ => .inf n
  | _, .inf n => .inf n
  | .fin n1 m1 e1, .fin n2 m2 e2 =>
    let t := min e1 e2
    let z := atExp n1 m1 e1 t + atExp n2 m2 e2 t
    if z = 0 then .fin (n1 && n2) 0 0 else fvInt z t
/-- Exact product. -/
def fvMul (a b : Fv) : Fv :=
  match a, b with
  | .nan, _ => .nan
  | _, .nan => .nan
  | .inf n, .inf k => .inf (n != k)
  | .inf n, .fin k m _ => if m = 0 then .nan else .inf (n != k)
  | .fin k m _, .inf n => if m = 0 then .nan else .inf (n != k)
  | .fin n1 m1 e1, .fin n2 m2 e2 => .fin (n1 != n2) (m1 * m2) (e1 + e2)
/-- Exact difference. -/
def fvSub (a b : Fv) : Fv := fvAdd a (fvNeg b)
/-- Exact sum of a list. -/
def fvSum (l : List Fv) : Fv := l.foldl fvAdd (.fin false 0 0)
/-- `a < b` on values that are not NaN. -/
def fvLt (a b : Fv) : Bool :=
  match a, b with
  | .nan, _ => false
  | _, .nan => false
  | .inf n, .inf k => n && !k
  | .inf n, _ => n
  | _, .inf k => !k
  | .fin n1 m1 e1, .fin n2 m2 e2 => let t := min e1 e2; atExp n1 m1 e1 t < atExp n2 m2 e2 t

/-- Sum of two fp32 words, rounded once. -/
def add32 (a b : BitVec 32) : BitVec 32 := to32 (fvAdd (fp32 a) (fp32 b))
/-- Product of two fp32 words, rounded once. -/
def mul32 (a b : BitVec 32) : BitVec 32 := to32 (fvMul (fp32 a) (fp32 b))

end Sys2Proof.Machine
end

