-- ==== Sys2Proof/Machine/Map.lean ====
section
/-!
DEFINITION. Tables keyed by numbers, in one canonical form: keys strictly rising and, where a table has a
default, no entry equal to it. Every numbered collection of the machine is read and written through these.
-/

namespace Sys2Proof.Machine

/-- The entry of key `k`, if listed. -/
def tfind {α : Type} : Table α → Nat → Option α
  | [], _ => none
  | (j, v) :: m, k => if j = k then some v else tfind m k

/-- The entry of key `k`, or the default of the table. -/
def tget {α : Type} (d : α) (m : Table α) (k : Nat) : α := (tfind m k).getD d

/-- The table without key `k`. -/
def tdel {α : Type} : Table α → Nat → Table α
  | [], _ => []
  | (j, v) :: m, k => if j = k then m else if k < j then (j, v) :: m else (j, v) :: tdel m k

/-- The table with `v` at key `k`, in rising order of keys. -/
def tins {α : Type} : Table α → Nat → α → Table α
  | [], k, v => [(k, v)]
  | (j, w) :: m, k, v => if k < j then (k, v) :: (j, w) :: m else if j = k then (k, v) :: m else (j, w) :: tins m k v

/-- The table with `v` at key `k`, where a key that is not listed reads as `d`. -/
def tput {α : Type} [DecidableEq α] (d : α) (m : Table α) (k : Nat) (v : α) : Table α :=
  if v = d then tdel m k else tins m k v

/-- The table with the entry of key `k`, if there is one, changed by `f`. -/
def tmod {α : Type} (m : Table α) (k : Nat) (f : α → α) : Table α :=
  m.map fun p => if p.1 = k then (p.1, f p.2) else p

/-- Canonical order: keys strictly rising. -/
def tsorted {α : Type} : Table α → Bool
  | [] => true
  | [_] => true
  | a :: b :: m => (a.1 < b.1) && tsorted (b :: m)

/-- Canonical form of a table with default `d`: keys strictly rising and no entry equal to `d`. -/
def tcanon {α : Type} [DecidableEq α] (d : α) (m : Table α) : Bool := tsorted m && m.all fun p => p.2 != d

/-- The first number from `n` on, within `fuel` tries, that satisfies `p`. -/
def firstFrom (p : Nat → Bool) : Nat → Nat → Option Nat
  | 0, _ => none
  | fuel + 1, n => if p n then some n else firstFrom p fuel (n + 1)

/-- The first `n` numbers `lo ≤ x < hi` that satisfy `p`, lowest first. -/
def pick (p : Nat → Bool) (lo hi n : Nat) : List Nat := (((List.range (hi - lo)).map (· + lo)).filter p).take n

/-- The element of a list that is least under `key`, the earlier one on a tie. -/
def leastBy {α : Type} (key : α → Nat) : List α → Option α
  | [] => none
  | x :: xs => match leastBy key xs with
    | none => some x
    | some y => if key y < key x then some y else some x

/-- The little-endian bytes of a number, `n` of them. -/
def bytesOf : Nat → Nat → List Byte
  | 0, _ => []
  | n + 1, v => BitVec.ofNat 8 v :: bytesOf n (v / 256)

/-- The number a list of bytes spells, least significant byte first. -/
def numOf : List Byte → Nat
  | [] => 0
  | b :: bs => b.toNat + 256 * numOf bs

/-- Bytes `off .. off + n` of a list of bytes as a number; bytes past the end read as zero. -/
def fieldOf (bs : List Byte) (off n : Nat) : Nat := numOf ((bs.drop off).take n)

end Sys2Proof.Machine
end

