-- ==== Sys2Proof/Machine/State.lean ====
section
/-!
DEFINITION. The state of the YS-20, all of it plain data: the register file of BAR0, the sequencers and jobs, the
engines, memories, tables and queues of every subsystem (R21), and the queue of commands that wait. Every field has its
reset value as default; `State.reset` is the state after power-on.
-/

namespace Sys2Proof.Machine

open Sys2Proof

/-- Access type of a register field (R12). -/
inductive FieldType | ro | rw | rwl | rw1c | wo
deriving DecidableEq, Repr

/-- One row of a register table: place, width, type and reset value of a field. -/
structure FieldSpec where
  lsb : Nat
  w : Nat
  ty : FieldType
  reset : Nat
deriving DecidableEq, Repr

/-- A named register field. -/
structure Fld where
  reg : Reg
  lsb : Nat
  w : Nat
deriving DecidableEq, Repr

/-! ### Ownership, plans and jobs (chapters 3 to 5) -/

/-- Issuer of a shared resource (R49, R50): none, a job by its tag, the NBU of a bank on behalf of a job (R59),
or a background agent (0 TIR migration agent, 1 FLS media processor, 2 SMC, 3 DSP). -/
inductive Owner
  | free
  | job (tag : Nat)
  | nbu (tag : Nat)
  | agent (n : Nat)
deriving DecidableEq, Repr

/-- A grant of DSP to a job, named by its handle: the instances of one class, or a share of a credit pool
with the credits now drawn from it (R54 to R56). -/
structure Grant where
  tag : Nat := 0
  cls : Nat := 0
  insts : List Nat := []
  credits : Nat := 0
  used : Nat := 0
  phase : Nat := 0
  entry : Nat := 0
  /-- It reached its job by handover (R57). -/
  handed : Bool := false
deriving DecidableEq, Repr

/-- The architectural state of a sequencer (R76). Selection-vector entry `i` of `v` is at key `1024 v + i`:
distance in bits [31:0], identifier in bits [95:32]. -/
structure Ctx where
  g : Table W64 := []
  d : Table W256 := []
  a : Table W64 := []
  t : Table W64 := []
  v : Table (BitVec 96) := []
  vn : Table Nat := []
  pc : W64 := 0
  flags : Byte := 0
deriving DecidableEq, Repr

/-- The instruction classes that issue command tokens (R130). -/
inductive EngKind | scan | rank | lrank | sel | merge | uniq | gath | scat | move | enc | maxsim
deriving DecidableEq, Repr

/-- The fabric instructions (R134). -/
inductive FabKind | fld | fst | fatom | push | pull
deriving DecidableEq, Repr

/-- What a waiting job waits for (R63, R82). A stalled instruction is kept with its fields and issues again. -/
inductive Wait
  | view (a n : Nat) (advance : Bool)
  | token (t : Nat)
  | fence (epoch : Nat) (node : Option Nat)
  | take (f : Spx)
  | claim (phase : Nat)
  | issue (k : EngKind) (f : Spx)
  | fabric (k : FabKind) (f : Spx)
  | post (f : Spx)
deriving DecidableEq, Repr

/-- The states of a job on or off a sequencer (R82). Placed is passed within JOB_PLACEMENT; an ended job has no entry. -/
inductive Phase | running | waiting | parked | resuming
deriving DecidableEq, Repr

/-- A taken request in a take slot (R142, R143). -/
structure Taken where
  tag : Nat := 0
  /-- Admission epoch (R92). -/
  epoch : Nat := 0
  sq : Nat := 0
  cookie : Nat := 0
  deadline : Nat := 0
  ovc : Bool := false
deriving DecidableEq, Repr

/-- A grant that a parked job returned and a resume claims again (R100): token, hold, and the entry of its plan, or, for a
grant that came by handover, the instances themselves. -/
structure Reclaim where
  tok : Nat := 0
  hold : Nat := 0
  g : Grant := {}
deriving DecidableEq, Repr

/-- A pending HAND (R125): its kind and, for kind 0b01, the receiving job and token. -/
structure Hand where
  kind : Nat := 0
  tag : Nat := 0
  tok : Nat := 0
deriving DecidableEq, Repr

/-- A job (R82): what DSP keeps of it and the sequencer state it carries. -/
structure Job where
  q : Nat := 0
  dom : Nat := 0
  be : Bool := false
  /-- Admission epoch (R77). -/
  epoch : Nat := 0
  plan : Nat := 0
  sq : Nat := 0
  cookie : Nat := 0
  deadline : Nat := 0
  series : Option Nat := none
  phase : Phase := .running
  wait : Option Wait := none
  timeout : Option Nat := none
  /-- Bytes of the instruction the job waits in. -/
  ilen : Nat := 8
  ctx : Ctx := {}
  /-- Steps since the last yield point (R64) and whether the overrun of R70 has been counted. -/
  steps : Nat := 0
  overrun : Bool := false
  /-- Order of the last placement or resume (R520), and of parking (R100). -/
  order : Nat := 0
  asked : Bool := false
  slot : Option Nat := none
  take : Table Taken := []
  hands : Table Hand := []
  fence : Nat := 0
  curPhase : Option Nat := none
  /-- What a resume claims again (R100). -/
  reclaim : List Reclaim := []
  /-- It was asked to make way and found no save slot (R99). -/
  noSlot : Bool := false
  ovc : Bool := false
deriving DecidableEq, Repr

/-- A claim that DSP holds (R57, R58); `reclaim` marks the one a resuming job makes (R100). -/
structure Held where
  tag : Nat
  phase : Nat
  be : Bool
  reclaim : Bool
deriving DecidableEq, Repr

/-- A phase-table entry (R81). -/
structure PhaseEnt where
  first : Nat := 0
  count : Nat := 0
  svc : Bool := false
deriving DecidableEq, Repr

/-- A loaded plan (R51, R80, R81). -/
structure Plan where
  id : Nat := 0
  dom : Nat := 0
  slice : Nat := 0
  unloading : Bool := false
  /-- The image's SHAKE256 digest inputs: address of the image (R566). -/
  image : List Byte := []
  entries : List (Nat × Nat) := []
  phases : List PhaseEnt := []
  masks : List Nat := []
  routes : List Nat := []
  shares : List Nat := []
  text : List W64 := []
  micro : List W32 := []
  /-- First entry of the plan's run in every NBU store (R251). -/
  run : Nat := 0
deriving DecidableEq, Repr

/-- An arrival counter (R88, R89). -/
structure Ctr where
  val : W32 := 0
  gen : BitVec 16 := 0
deriving DecidableEq, Repr

/-! ### Dispatch (chapter 19) -/

/-- A submission that DSP holds: pending placement, or a system operator in progress (R78, R494). -/
structure Pend where
  tag : Nat := 0
  dom : Nat := 0
  be : Bool := false
  sq : Nat := 0
  plan : Nat := 0
  op : Nat := 0
  cookie : Nat := 0
  deadline : Nat := 0
  entry : List Byte := []
  series : Option Nat := none
deriving DecidableEq, Repr

/-- A series of periodic instances (R522). -/
structure Series where
  sq : Nat := 0
  dom : Nat := 0
  t0 : Nat := 0
  period : Nat := 0
  next : Nat := 1
  entry : List Byte := []
  deadline : Nat := 0
deriving DecidableEq, Repr

/-- A completion posted while DMA commands of the job that may still write host memory are in progress (R144). -/
structure Posted where
  job : Nat := 0
  dom : Nat := 0
  planId : Nat := 0
  req : Taken := {}
  status : Nat := 0
  count0 : Nat := 0
  count1 : Nat := 0
  waits : List Nat := []
deriving DecidableEq, Repr

/-- A token bucket in device time: tokens in units of 1/10^6 of a token (R526, R528). -/
structure Bucket where
  level : Nat := 0
  last : Nat := 0
deriving DecidableEq, Repr

/-- The sequencers, jobs and plans, and DSP. -/
structure Exec where
  jobs : Table Job := []
  /-- Job tag by logical sequencer. -/
  seqs : Table Nat := []
  owner : Table Owner := []
  grants : Table Grant := []
  /-- Credits granted of each pool instance (R75), keyed like `owner`. -/
  shared : Table Nat := []
  plans : Table Plan := []
  ctrs : Table Ctr := []
  held : List Held := []
  pend : List Pend := []
  sysops : List Pend := []
  series : Table Series := []
  /-- Intake credits held, by domain (R23, R518). -/
  intake : Table Nat := []
  posts : List Posted := []
  bucket : Table Bucket := []
  slots : Table Nat := []
  /-- Resources that return to free once their last command completes (R98). -/
  pendFree : List Nat := []
  /-- Domain of the last holder of each tile region (R551), plus one. -/
  tileDom : Table Nat := []
  /-- Tile regions whose contents were lost in P3 or P4 and not granted since (R605). -/
  tileLost : List Nat := []
  nextTag : Nat := 1
  nextHandle : Nat := 1
  nextOrder : Nat := 1
  nextSeries : Nat := 1
deriving DecidableEq, Repr

/-! ### Engine commands (R85 to R87) -/

/-- A command token (R85), with the instruction class that issued it. -/
structure Token where
  kind : EngKind := .scan
  op : Byte := 0
  tok : Nat := 0
  counter : BitVec 12 := 0
  gen : BitVec 16 := 0
  inc : BitVec 16 := 0
  q : Nat := 0
  job : Nat := 0
  dom : Nat := 0
  desc : W256 := 0
  /-- Every instance the issue named, in the order of the grant. -/
  insts : List Nat := []
deriving DecidableEq, Repr

/-- Progress of an engine command. -/
inductive CmdPhase | queued | running | finishing
deriving DecidableEq, Repr

/-- A command at an engine instance with its result word so far (R129). `work` and `aux` are the engine's own progress. -/
structure Cmd where
  /-- Serial number of the command; candidates carry it to their lane. -/
  id : Nat := 0
  tok : Token := {}
  phase : CmdPhase := .queued
  status : Nat := 0
  reason : Nat := 0
  count : Nat := 0
  spec : Nat := 0
  work : Nat := 0
  aux : List Nat := []
  /-- 1: it writes no result word of its own; 2: nor makes a pulse (R311, R339). -/
  silent : Nat := 0
deriving DecidableEq, Repr

/-! ### Host interface (chapter 18) -/

/-- An event record before HIU writes it (R499); PHASE, LOST, SQ_HEAD and TIME are filled in as it is written. -/
structure Rec where
  ty : Nat := 0
  status : Nat := 0
  reason : Nat := 0
  ovc : Bool := false
  /-- Submission queue, or none for a device event. -/
  sq : Option Nat := none
  tag : Nat := 0
  planId : Nat := 0
  cookie : Nat := 0
  count0 : Nat := 0
  count1 : Nat := 0
  detail : List Byte := []
deriving DecidableEq, Repr

/-- What an event queue holds beside its registers (R496, R497, R504). -/
structure Evq where
  phase : Bool := true
  lost : Nat := 0
  unsignalled : Nat := 0
  first : Nat := 0
deriving DecidableEq, Repr

/-- One entry of the MSI-X table (R503). -/
structure Msix where
  addr : W64 := 0
  data : W32 := 0
  mask : Bool := true
  pba : Bool := false
deriving DecidableEq, Repr

/-! ### Traffic (chapter 19) -/

/-- An egress packet: line bytes, device time of arrival and, for a fabric packet, its content. -/
structure Egress where
  bytes : Nat := 64
  since : Nat := 0
  pkt : Option Pkt := none
  /-- A push segment whose payload is read when it is sent (R436): domain and address. -/
  src : Option (Nat × Nat) := none
deriving DecidableEq, Repr

/-- A gate list (R532, R533). -/
structure Gate where
  entries : List W64 := []
  pos : Nat := 0
  start : Nat := 0
deriving DecidableEq, Repr

/-- One egress port (R530 to R536). -/
structure Port where
  queues : Table (List Egress) := []
  tags : Table Nat := []
  vt : Nat := 0
  active : Option Gate := none
  words : Table W64 := []
  staged : Option (List W64 × Nat) := none
  busyUntil : Nat := 0
deriving DecidableEq, Repr

/-- TRF. -/
structure Trf where
  ports : Table Port := []
  ing : Table Bucket := []
  smpPhase : Bool := true
  smpStart : Nat := 0
  smpNext : Nat := 0
deriving DecidableEq, Repr

/-! ### Faults and shadow checking (chapter 23) -/

/-- A fault record (R620). -/
structure FaultRec where
  seq : Nat := 0
  block : Nat := 0
  kind : Nat := 0
  status : Nat := 0
  reason : Nat := 0
  time : Nat := 0
  die : Nat := 0
  cls : Nat := 0
  inst : Nat := 0
  planId : Nat := 0
  dom : Nat := 0
  tag : Nat := 0
  pc : Nat := 0
  owner : Nat := 0
  ownerSeq : Nat := 0
  offSeq : Nat := 0
  addr : Nat := 0
  info : Nat := 0
deriving DecidableEq, Repr

/-- The fault log and the shadow counters. -/
structure Flt where
  log : List FaultRec := []
  nextSeq : Nat := 1
  charge : Table Nat := []
  bins : Table Nat := []
  plans : List (Nat × Nat) := []
  quar : List Nat := []
  /-- Tj bin and plan identifier of each unit's last charge. -/
  last : Table (Nat × Nat) := []
  stacksOut : List Nat := []
  /-- Clusters of the scoring array out of service (R627). -/
  scaOut : List Nat := []
deriving DecidableEq, Repr

/-! ### Memories -/

/-- The byte-addressed memories (R116, R243, R371, R376), each a list of cells in canonical form; a byte that is not
listed reads as zero. Keys: `stk` bank x 2^27 + column x 32 + byte (R244); `tile` region x 65536 + offset, regions
numbered as in R49; `flash` domain x 2^56 + address, the newest content written for the byte; `host` host address.
`badStk` and `badTile` are the 4-byte words that are uncorrectable until written again (R616). -/
structure Mem where
  stk : List Host.Cell := []
  tile : List Host.Cell := []
  flash : List Host.Cell := []
  host : List Host.Cell := []
  badStk : List Nat := []
  badTile : List Nat := []
deriving DecidableEq, Repr

/-! ### Tiers (chapter 14) -/

/-- Park state of a region (R394). -/
inductive ParkState | active | parking | parked | unparking
deriving DecidableEq, Repr

/-- A region (R373). -/
structure Region where
  dom : Nat := 0
  cls : Nat := 0
  backing : Nat := 0
  home : Nat := 0
  preload : Bool := false
  rcache : Bool := false
  base : Nat := 0
  len : Nat := 0
  host : Nat := 0
  remote : Nat := 0
  node : Nat := 0
  park : ParkState := .active
  /-- From the OP write of a remove, the region refuses every new use (R656). -/
  removing : Bool := false
  /-- Park or unpark command in progress on it, by serial number. -/
  cmd : Nat := 0
deriving DecidableEq, Repr

/-- A migration in progress (R386): target tier, new frame, migration mask, passes made, final copy begun, waiting
writes (address, bytes), start of the final copy, flipped. -/
structure Mig where
  target : Nat := 0
  frame : Option Nat := none
  hostAddr : Nat := 0
  mask : BitVec 64 := 0
  passes : Nat := 0
  final : Bool := false
  flipped : Bool := false
  finalAt : Nat := 0
  waiting : List (Nat × List Byte) := []
  old : Option Nat := none
  /-- Once flipped: the tier of the old home. -/
  oldHome : Nat := 0
  /-- Command that asked for it, by serial number; 0 for a write to a flash home. -/
  cmd : Nat := 0
deriving DecidableEq, Repr

/-- What TIR holds of one 64 KiB page (R377): frame, tiles present, dirty sub-blocks, home (R385). -/
structure Page where
  frame : Option Nat := none
  present : BitVec 16 := 0
  dirty : BitVec 64 := 0
  home : Nat := 0
  hostAddr : Nat := 0
  former : Option Nat := none
  use : Nat := 0
  mig : Option Mig := none
deriving DecidableEq, Repr

/-! ### Near-bank units (chapter 9) -/

/-- A RANK command at one stack (R254, R258). -/
structure RankCmd where
  tok : Token := {}
  stack : Nat := 0
  word : Nat := 0
  banks : List Nat := []
  started : Bool := false
  left : List Nat := []
  query : List Byte := []
  share : Nat := 0
  count : Nat := 0
  stopped : Nat := 0
  status : Nat := 0
  reason : Nat := 0
deriving DecidableEq, Repr

/-- The state of one NBU (R243) and what STK keeps for its bank (R245, R261 to R264). -/
structure Nbu where
  n : Table W256 := []
  acc : Table (BitVec 48) := []
  cb : W256 := 0
  zb : W256 := 0
  sb : W256 := 0
  p : Table W32 := []
  wbuf : List (Nat × W256) := []
  ebuf : List (BitVec 192) := []
  pc : Byte := 0
  int16 : Bool := false
  fp16 : Bool := false
  /-- Serial number of the running command, and the queued ones in issue order. -/
  cmd : Option Nat := none
  queue : List Nat := []
  micro : Nat := 0
  overrun : Bool := false
  recalled : Nat := 0
  owed : Nat := 0
  /-- It stands at a yield point whose emits wait for credits; `ending` when the program ends there, `early` when it stopped. -/
  yielding : Bool := false
  ending : Bool := false
  early : Bool := false
  /-- The program's own region of the store. -/
  lo : Nat := 0
  hi : Nat := 0
  /-- The record being scored has met a shadow mismatch (R625). -/
  dropRec : Bool := false
deriving DecidableEq, Repr

/-- An access that STK defers (R262) or FAB holds (R443): by the host (BAR2) or by a fabric packet. -/
structure Defer where
  bank : Nat := 0
  dom : Nat := 0
  addr : Nat := 0
  len : Nat := 0
  data : Option (List Byte) := none
  pkt : Option Pkt := none
  since : Nat := 0
deriving DecidableEq, Repr

/-- The stack controllers and NBUs. -/
structure Stk where
  nbus : Table Nbu := []
  ranks : Table RankCmd := []
  /-- Deferred accesses in arrival order, by stack (R263). -/
  defer : Table (List Defer) := []
  /-- The micro-program store, the same in every NBU (R251). -/
  store : Table W32 := []
  patrol : Table Nat := []
deriving DecidableEq, Repr

/-! ### Selection (chapter 11) -/

/-- A candidate on its way to a lane: the entry (R237, R257, R287), the credit it holds and the command that made it. -/
structure Cand where
  e : BitVec 192 := 0
  share : Nat := 0
  tag : Nat := 0
  src : Nat := 0
deriving DecidableEq, Repr

/-- A candidate set (R303 to R312): the entries held in arrival order with their keys. -/
structure CSet where
  approx : Bool := false
  k : Nat := 0
  allot : Nat := 0
  collect : Bool := false
  spill : Nat := 0
  blocks : Nat := 0
  used : Nat := 0
  written : Nat := 0
  full : Bool := false
  entries : List (Nat × BitVec 192) := []
  /-- After a sieve: an arriving entry is accepted when its key is below this. -/
  below : Option Nat := none
  /-- Ties cut by sieves, with the key they had (R312); in APPROX mode every cut counts. -/
  cuts : List Nat := []
deriving DecidableEq, Repr

/-- A merge session (R315): identifiers emitted so far. -/
structure Session where
  runs : Nat := 0
  emitted : List Nat := []
deriving DecidableEq, Repr

/-- A SEL lane, or the merge stage (instance 16), which uses `sessions` only. -/
structure Lane where
  sets : Table CSet := []
  inq : List Cand := []
  /-- Boundary reports not yet delivered to the cluster: slot and value (R308). -/
  reports : List (Nat × Nat) := []
  sessions : Table Session := []
deriving DecidableEq, Repr

/-! ### Sketch scan (chapter 8) -/

/-- A slot of a resident query group (R220, R234, R235). -/
structure GSlot where
  epoch : Nat := 0
  mask : Nat := 0
  value : Nat := 0
  lo0 : Nat := 0
  hi0 : Nat := 0
  lo1 : Nat := 0
  hi1 : Nat := 0
  ctrl : Nat := 0
  thresh : Nat := 0
  sketch : Nat := 0
  matched : Nat := 0
  emitted : Nat := 0
  excluded : Nat := 0
deriving DecidableEq, Repr

/-- A resident query group (R218 to R221). -/
structure Group where
  addr : Nat := 0
  dom : Nat := 0
  index : Nat := 0
  width : Nat := 0
  slots : Table GSlot := []
deriving DecidableEq, Repr

/-! ### Indexes and live updates (chapters 6 and 7) -/

/-- An installed index: its descriptor (R147) and domain override (R173). -/
structure Index where
  dom : Nat := 0
  width : Nat := 0
  flags : Nat := 0
  recFmt : Nat := 0
  dim : Nat := 32
  metric : Nat := 0
  spill : Nat := 1
  repl : Nat := 1
  shard : Nat := 0
  lists : Nat := 1
  root : Nat := 0
  cent : Nat := 0
  dir : Nat := 0
  dirEnd : Nat := 0
  levels : List Nat := []
  replicas : List Nat := []
  permille : Nat := 50
  hazeMax : Nat := 65536
  commitTmo : Nat := 1000
  ovrCmd : Bool := false
  ovr : Bool := false
  ovrNext : Option Bool := none
  removing : Bool := false
  /-- What TIR has placed in the index area: offset and length of each extent. -/
  used : List (Nat × Nat) := []
deriving DecidableEq, Repr

/-- A haze entry of a batch: list, address of the entry, whether a tombstone, item, and its record in the journal. -/
structure BatchEnt where
  list : Nat := 0
  addr : Nat := 0
  tomb : Bool := false
  item : Nat := 0
  jnl : Nat := 0
deriving DecidableEq, Repr

/-- An append of a batch (R189, R190): kind, item, its lists, and the directory entry that it replaced (none: a new entry). -/
structure BatchOp where
  del : Bool := false
  item : Nat := 0
  lists : List Nat := []
  old : Option (List Byte) := none
deriving DecidableEq, Repr

/-- Progress of a commit (R170). -/
inductive CommitPhase | collecting | dead | waitAcks | waitNotices | decided | inDoubt | noticed
deriving DecidableEq, Repr

/-- A batch of appends (R189, R190): on the primary, of a job; on a replica, of its primary. -/
structure Batch where
  tag : Nat := 0
  index : Nat := 0
  primary : Nat := 0
  replica : Bool := false
  ents : List BatchEnt := []
  ops : List BatchOp := []
  phase : CommitPhase := .collecting
  /-- Serial number of the commit command, when its job still waits for it. -/
  cmd : Option Nat := none
  sentAt : Nat := 0
  acks : List (Nat × Nat) := []
  noticed : List Nat := []
  remoteId : Nat := 0
deriving DecidableEq, Repr

/-- A pin (R200). -/
structure Pin where
  dom : Nat := 0
  index : Nat := 0
  epoch : Nat := 0
deriving DecidableEq, Repr

/-- The step of a merge record that is expected next (R205, R206). -/
structure MergeRec where
  cut : Nat := 0
  job : Option Nat := none
  next : Nat := 1
  last : Nat := 0
  built : Nat := 0
  foldDone : Bool := false
  /-- The new chain: head address, entries in it, segments; and items folded. -/
  head : Nat := 0
  segs : Nat := 0
  items : Nat := 0
  tiles : Nat := 0
  newSegs : List Nat := []
  jnl : Nat := 0
  scheduled : Bool := false
  swapped : Bool := false
  swapEpoch : Nat := 0
  /-- Commands that report once the swap is done. -/
  cmds : List Nat := []
  hotset : Bool := false
  recovering : Bool := false
deriving DecidableEq, Repr

/-- An index or region command of the registers in progress (BUSY): operation, status and reason it will report. -/
structure RegCmd where
  op : Nat := 0
  status : Nat := 0
  reason : Nat := 0
  arg : Nat := 0
  args : List Nat := []
deriving DecidableEq, Repr

/-- A page that a park (1), unpark (2) or updraft (0) command still has to move: command, page, target tier, host address. -/
structure PageMove where
  cmd : Nat := 0
  page : Nat := 0
  target : Nat := 0
  host : Nat := 0
  kind : Nat := 0
deriving DecidableEq, Repr

/-- TIR: regions and pages, indexes, epochs, batches, pins, merges. -/
structure Tir where
  regions : Table Region := []
  nextRegion : Nat := 1
  pages : Table Page := []
  useCtr : Nat := 0
  indexes : Table Index := []
  epoch : Nat := 0
  reserve : Nat := 0
  epochHi : Nat := 0
  holdHi : Nat := 0xFFFF
  interval : Nat := 100
  nextCommit : Nat := 0
  batches : Table Batch := []
  nextBatch : Nat := 1
  pins : Table Pin := []
  merges : Table MergeRec := []
  /-- Retired roots: key of the list, address of the retired root, SWAP_EPOCH of the superseding entry. -/
  retired : List (Nat × Nat × Nat) := []
  idxCmd : Option RegCmd := none
  rgnCmd : Option RegCmd := none
  /-- Records written to the haze journal, and those known to be durable. -/
  jseq : Nat := 0
  jdone : Nat := 0
  /-- Cut of the last swap of a list (R209), keyed index x 2^24 + list. -/
  cuts : Table Nat := []
  /-- Outcomes of commits sent to replicas, by batch. -/
  outcomes : Table Bool := []
  moves : List PageMove := []
deriving DecidableEq, Repr

/-! ### Flash (chapters 10 and 15) -/

/-- A table of a scorer (R274, R275): the index it belongs to and the query it is built from, as bf16 words. -/
structure ScTable where
  index : Nat := 0
  query : List Nat := []
deriving DecidableEq, Repr

/-- An entry given to a scorer and not yet scored (R282, R283), with the table it is scored with (R277). -/
structure ScoreEnt where
  cmd : Nat := 0
  chan : Nat := 0
  ord : Nat := 0
  item : Nat := 0
  dom : Nat := 0
  index : Nat := 0
  recPage : Nat := 0
  recSlot : Nat := 0
  scalePage : Nat := 0
  scaleSlot : Nat := 0
  qslot : Nat := 0
  lane : Nat := 0
  share : Nat := 0
  table : List Nat := []
  haveRec : Bool := false
  haveScale : Bool := false
deriving DecidableEq, Repr

/-- A page read queued at a LUN or issued to it (R284, R285): source 0 scoring, 1 media, 2 TIR. -/
structure FRead where
  src : Nat := 0
  cmd : Nat := 0
  dom : Nat := 0
  lpage : Nat := 0
  plane : Nat := 0
  /-- The block it resolved to, once issued (R293). -/
  blk : Nat := 0
  since : Nat := 0
  issued : Bool := false
  share : Nat := 0
deriving DecidableEq, Repr

/-- A program of one flash page (R408): the logical page, its new place, and the content it replaces until durable. -/
structure Prog where
  dom : Nat := 0
  lpage : Nat := 0
  blk : Nat := 0
  page : Nat := 0
  seq : Nat := 0
  stream : Nat := 0
  old : List Byte := []
  had : Bool := false
deriving DecidableEq, Repr

/-- A LUN: its read queue, the program or erase in progress, suspends, and programs that wait (R285, R408, R416). -/
structure Lun where
  reads : List FRead := []
  progs : List Prog := []
  erase : Option Nat := none
  eraseTries : Nat := 0
  suspends : Nat := 0
  suspended : Bool := false
  started : Bool := false
  /-- Collection has started and the pool is not back at 3 % (R414). -/
  collecting : Bool := false
deriving DecidableEq, Repr

/-- A flash block (R410 to R414): its stream, pages used, whether open, retired, scheduled for rewrite (1 under R411,
2 under R412), and counts. Keyed channel x 2^40 + LUN x 2^32 + block. -/
structure Blk where
  stream : Nat := 3
  used : Nat := 0
  isOpen : Bool := false
  retired : Bool := false
  rewrite : Nat := 0
  reads : Nat := 0
  erases : Nat := 0
  patrolled : Nat := 0
deriving DecidableEq, Repr

/-- Where a logical page is (R406): channel, LUN, block and page, with its write sequence number; or lost. -/
structure Phys where
  chan : Nat := 0
  lun : Nat := 0
  blk : Nat := 0
  page : Nat := 0
  seq : Nat := 0
  lost : Bool := false
deriving DecidableEq, Repr

/-- The flash subsystem. Channels and scorers by number; the page map keyed domain x 2^42 + logical page. -/
structure Fls where
  inService : List Nat := []
  blocksPerLun : Nat := 0
  pagesPerBlock : Nat := 0
  planes : Nat := 1
  map : Table Phys := []
  luns : Table Lun := []
  blks : Table Blk := []
  seq : Nat := 1
  retired : Nat := 0
  capacity : Nat := 0
  work : List ScoreEnt := []
  tables : Table ScTable := []
  dsc : Option (List Nat) := none
  brownout : Bool := false
deriving DecidableEq, Repr

/-! ### Fabric (chapters 16 and 17) -/

/-- A slice (R466, R467): masks of clusters, stacks, ports and channels, and its composition (255: none). -/
structure Slice where
  comp : Nat := 255
  clusters : Nat := 0
  stackMask : Nat := 0
  portMask : Nat := 0
  channels : Nat := 0
deriving DecidableEq, Repr

/-- A fabric window (R432) with its ledger entry (R439). -/
structure Window where
  dom : Nat := 0
  foff : Nat := 0
  base : Nat := 0
  len : Nat := 0
  sdom : Nat := 0
  nodeLo : Nat := 0
  nodeHi : Nat := 0
  access : Nat := 0
  owner : Nat := 0
  gen : Nat := 0
  removing : Bool := false
deriving DecidableEq, Repr

/-- An operation of this node in flight (R435, R447, R463): the packet sent, what its reply writes, and its copy state.
`kind` is 0 for a job's instruction, 1 TIR, 2 TBE, 3 handoff. -/
structure FabOp where
  kind : Nat := 0
  job : Nat := 0
  pkt : Pkt
  statusReg : Nat := 0
  destReg : Nat := 0
  width : Nat := 0
  inc : Nat := 0
  counter : BitVec 12 := 0
  gen : BitVec 16 := 0
  share : Nat := 0
  fence : Nat := 0
  port : Nat := 0
  issued : Nat := 0
  sent : Nat := 0
  /-- Copies: local address and domain, segments still to send or to arrive. -/
  src : Nat := 0
  dom : Nat := 0
  segs : List Nat := []
  arg : Nat := 0
deriving DecidableEq, Repr

/-- An incoming copy or pull (R436, R447), keyed SRC x 2^32 + TAG. -/
structure CopyIn where
  pkt : Pkt
  got : List Nat := []
  last : Nat := 0
  /-- The reply with which the copy was refused (R437). -/
  refused : Option Pkt := none
deriving DecidableEq, Repr

/-- A replay record (R464): the reply kept, and when it expires. -/
structure Replay where
  reply : Option Pkt := none
  until_ : Nat := 0
deriving DecidableEq, Repr

/-- A routing map (R468): epoch, ranges (offset, length, node), members, horizon. -/
structure RMap where
  epoch : Nat := 0
  ents : List (Nat × Nat × Nat) := []
  members : List Nat := []
  horizon : Nat := 0
  /-- Its canonical bytes, for the configuration digest (R566). -/
  raw : List Byte := []
deriving DecidableEq, Repr

/-- A composition (R469, R471). DRAIN_DONE received: epoch x 4096 + node. -/
structure Comp where
  current : Option RMap := none
  draining : Option RMap := none
  staged : Option RMap := none
  done : List Nat := []
  sentDone : Bool := false
deriving DecidableEq, Repr

/-- The state of a port beyond its register (R457 to R461). -/
structure Link where
  losses : List Nat := []
  /-- Frames sent and key age of the transmit direction; frames replayed in a row. -/
  frames : Nat := 0
  keyed : Nat := 0
  replays : Nat := 0
  /-- Frames received and key age of the receive direction. -/
  rx : Nat := 0
  rxKeyed : Nat := 0
  qualify : Bool := false
  /-- Lanes that trained, and whether the host holds the port (HOLD). -/
  lanes : Nat := 0
  held : Bool := false
  /-- A brownout has discarded the results of the lane test that runs (R590). -/
  spoiled : Bool := false
deriving DecidableEq, Repr

/-- A handoff in progress (R473, R474, R481). Of the host command: role 0 offerer, 2 ledger read; of a receiver: role 1. Home,
window offset, peer, generation, domain, descriptor; when it was sent, whether it resolves from the ledger, and the tag it waits for. -/
structure Handoff where
  role : Nat := 0
  home : Nat := 0
  foff : Nat := 0
  peer : Nat := 0
  gen : Nat := 0
  dom : Nat := 0
  desc : Nat := 0
  sent : Bool := false
  start : Nat := 0
  resolving : Bool := false
  tag : Nat := 0
deriving DecidableEq, Repr

/-- FAB. -/
structure Fab where
  slices : Table Slice := []
  windows : Table Window := []
  winCmd : Option RegCmd := none
  ops : Table FabOp := []
  nextTag : Nat := 0
  copies : Table CopyIn := []
  records : Table Replay := []
  hold : List Defer := []
  comps : Table Comp := []
  links : Table Link := []
  /-- Destinations removed from a port's route (R462): port x 4096 + node. -/
  cut : List Nat := []
  /-- Completion pulses of operations whose job has ended, by tag: counter, generation, increment (R134). -/
  orphans : Table (Nat × Nat × Nat) := []
  handoff : Option Handoff := none
  receives : List Handoff := []
deriving DecidableEq, Repr

/-! ### Isolation, trust, configuration (chapter 20) -/

/-- A tenant domain (R540): 0 FREE, 1 ACTIVE, 2 RELEASING; partition; media key generation (R558). -/
structure Dom where
  state : Nat := 0
  part : Nat := 0
  gen : Nat := 0
deriving DecidableEq, Repr

/-- SMC. -/
structure Smc where
  doms : Table Dom := []
  /-- Managers' verdict on peers: nodes expelled by quorum (R563). -/
  expelled : List Nat := []
  /-- ISSUE_TIME of the last accepted message of each CMD (R560). -/
  issued : Table Nat := []
  /-- ISSUE_TIME that the lease runs from, and whether the expiry of that lease has come (R563). -/
  lease : Nat := 0
  leaseDone : Bool := false
  /-- Staged configuration: epoch, expected digest, horizon (R567); the published one whose grace runs: epoch, digest, end of grace;
  and the expected digest that MISMATCH is about. -/
  cfg : Option (Nat × BitVec 256 × Nat) := none
  cfgDue : Option (Nat × BitVec 256 × Nat) := none
  expect : BitVec 256 := 0
  /-- Domain being released (R543). -/
  releasing : Option Nat := none
  /-- The media root, once it has been generated (R558). -/
  root : Option (BitVec 256) := none
deriving DecidableEq, Repr

/-! ### Pace, device time and power (chapters 2 and 22) -/

/-- The pace limiter and the governor's cap (R34, R598), in Mstep/s: the setting now in force, the cap's new setting, the
device time of the last change of each, and of the last window reported (R35). -/
structure Pace where
  lim : Nat := 500
  cap : Nat := 1900
  capGoal : Nat := 1900
  limAt : Nat := 0
  capAt : Nat := 0
  window : Nat := 0
deriving DecidableEq, Repr

/-- PTP (R42 to R45): ports on which a grandmaster is heard (bit 0 MGA, bit 1 MGB), the last offset measured on each, and
the rate correction in ppm. -/
structure Ptp where
  heard : Nat := 0
  offA : W64 := 0
  offB : W64 := 0
  slew : Nat := 0
deriving DecidableEq, Repr

/-- A step of bring-up in progress (R573), with what its write named and what its environment decides: rails, reference, no die below
0 degrees; the parity of the fuses; a verification; the units that fail their test; the image, whether it verifies, and the address of
a failing read; a read-back; the stacks that fail training; the flash part and the channels that fail; a brownout during the lane test;
HOSTSET or the time limit; FORMAT, whether a journal copy is readable, and its records. -/
inductive StepRun
  | rails (rails ref warm : Bool)
  | fuses (parity : Bool)
  | firstStage (ok : Bool)
  | bist (bad : List (Nat × Nat))
  | ymap
  | image (addr len : Nat) (verifies : Bool) (busError : Option Nat)
  | broadcast (ok : Bool)
  | training (bad : List Nat)
  | discovery (part : FlashPart) (bad : List Nat)
  | ports (start : Nat)
  | lanes (warned : Bool)
  | pcie
  | time (set : Bool) (due : Nat)
  | config (format readable : Bool) (records : Nat)
  | ready
deriving DecidableEq, Repr

/-- A host access that can wait at HIU: a register write; a read that latches; a write of `PRB_STEP` with what surrounds the part in that step;
a BAR2 access with its offset, length and, for a write, its bytes; the doorbells of a submission queue; a write of the MSI-X table. -/
inductive HostAcc
  | reg (r : Reg) (inst : Nat) (v : W32)
  | read (r : Reg)
  | step (n : Nat) (run : StepRun)
  | bar2 (off n : Nat) (data : Option (List Byte))
  | sqTail (q v : Nat)
  | eqHead (q v : Nat)
  | msix (vec : Nat) (addr : W64) (data : W32)
deriving DecidableEq, Repr

/-- HIU: hidden state of queues, hold, MSI-X, DOE. -/
structure Hiu where
  evq : Table Evq := []
  hold : List (Nat × Rec) := []
  msix : Table Msix := []
  rr : Nat := 32767
  /-- Host accesses to BAR0, BAR2 and BAR4 that wait at HIU, in order of arrival (R488, R489, R607, R651, R656). -/
  waiting : List HostAcc := []
  /-- State of the SPDM responder (R556): 0 without a session. -/
  spdm : Nat := 0
deriving DecidableEq, Repr

/-- The journal and the flash copies of what step 14 restores (R211, R395, R593): what TIR holds, the domains and windows, and the
contents of the stack-resident structures: bytes of stack frames in index areas, and root tables and directories by domain and address. -/
structure Journal where
  tir : Tir := {}
  doms : Table Dom := []
  windows : Table Window := []
  area : List Host.Cell := []
  tables : List (Nat × Nat × List Byte) := []
deriving DecidableEq, Repr

/-- PRB beyond its registers. -/
structure Prb where
  pace : Pace := {}
  ptp : Ptp := {}
  /-- Since when a wake runs (R607), and the last moment at which the node was not idle (R606). -/
  waking : Option Nat := none
  lastActive : Nat := 0
  /-- The firmware store (R585). -/
  image : List Byte := []
  /-- Bring-up (R574): the step in progress, the failure of step 3, and the units that failed step 4. -/
  run : Option StepRun := none
  dead : Bool := false
  badTest : List (Nat × Nat) := []
  /-- Spares taken in and units taken out under quarantine (R627): class x 2^20 + physical unit, and its logical number. -/
  swaps : Table (Option Nat) := []
  /-- What flash keeps across every reset; none before the first discovery. -/
  journal : Option Journal := none
  /-- The stack contents are lost and not zeroed since (R587), nor restored from flash (R395); device time has not been set since cold reset (R43). -/
  stacksLost : Bool := true
  restoreDue : Bool := true
  timeOpen : Bool := true
  /-- Fuses burnt in the field (R553, R661). -/
  prodFuse : Bool := false
  svnBurn : Nat := 0
  /-- A brownout: its start, and the rails that fell below warning (R604). A warm reset that waits for its end (R612). -/
  brown : Option (Nat × Nat) := none
  warmWait : Bool := false
  /-- The last lowering of the cap for heat, since when every die is below Throttle, and the last power window (R598, R601). -/
  hotAt : Nat := 0
  cool : Option Nat := none
  govAt : Nat := 0
deriving DecidableEq, Repr

/-! ### Tables (chapter 13) -/

/-- A row request (R355): of a command (its serial number, engine instance and place in the command's list) or of the
fabric. Mode: 0 read, 1 overwrite, 2 add, 3 replace, 4 delete. `row` holds the new elements, in fp32 for an add and else in
the row's format; `node` and `off` name the home of a remote row; `copies` the other nodes of a replicated table. -/
structure RowReq where
  cmd : Nat := 0
  inst : Nat := 0
  ord : Nat := 0
  mode : Nat := 0
  dom : Nat := 0
  addr : Nat := 0
  slot : Nat := 0
  elem : Nat := 0
  dim : Nat := 0
  version : Nat := 0
  row : List Byte := []
  copies : List (Nat × Nat) := []
  node : Option Nat := none
  off : Nat := 0
  pkt : Option Pkt := none
deriving DecidableEq, Repr

/-- The answer to a row request: status and reason, the version, the row's elements (none: the DEFAULT row), and whether a
replacement was skipped. -/
structure RowAns where
  ord : Nat := 0
  status : Nat := 0
  reason : Nat := 0
  version : Nat := 0
  row : Option (List Byte) := none
  skipped : Bool := false
deriving DecidableEq, Repr

/-- A GATH or SCAT command in progress: requests still to send, answers so far of `total`, and what its end needs. -/
structure RowCmd where
  todo : List RowReq := []
  answers : List RowAns := []
  total : Nat := 0
  skipped : Nat := 0
  share : Nat := 0
  pool : Nat := 0
  outFmt : Nat := 0
  ver : Bool := false
  offsets : List Nat := []
  weights : List Nat := []
  out : Nat := 0
  verAddr : Nat := 0
  elem : Nat := 0
  dim : Nat := 0
  dflt : Nat := 0
deriving DecidableEq, Repr

/-- A replica copy that is not acknowledged (R365), and when it was sent last. -/
structure RowCopy where
  pkt : Pkt
  sent : Nat := 0
deriving DecidableEq, Repr

/-- TBE: the serving engines' queues by instance, the commands in progress by serial number, the copies by tag. -/
structure Tbe where
  queues : Table (List RowReq) := []
  cmds : Table RowCmd := []
  copies : Table RowCopy := []
deriving DecidableEq, Repr

/-! ### Outputs -/

/-- What the part sends to the outside: interrupt messages, host requests, packets, management replies, pins. -/
inductive Output
  | msix (vector : Nat) (addr : W64) (data : W32) (pasid : Option Nat)
  | hostWrite (pasid : Option Nat) (addr len : Nat)
  | hostRead (pasid : Option Nat) (addr len : Nat)
  | readReply (data : Option (List Byte))
  | packet (port : Nat) (p : Pkt)
  | pin (name : Nat) (level : Bool)
  | reply (bytes : List Byte)
deriving DecidableEq, Repr

/-! ### The state -/

/-- The state of one YS-20. `regs` is the BAR0 register file, keyed register x 65536 + bank, where the bank is the
instance or the selected unit; a register that is not listed holds its reset word. -/
structure State where
  pending : List Instr := []
  /-- Device time in nanoseconds (R40). -/
  now : Nat := 0
  regs : Table W32 := []
  mem : Mem := {}
  exec : Exec := {}
  /-- Commands at engine instances, keyed class x 2^32 + instance, oldest first. -/
  cmds : Table (List Cmd) := []
  nextCmd : Nat := 1
  stk : Stk := {}
  tir : Tir := {}
  lanes : Table Lane := []
  groups : Table Group := []
  hiu : Hiu := {}
  trf : Trf := {}
  fls : Fls := {}
  fab : Fab := {}
  tbe : Tbe := {}
  smc : Smc := {}
  flt : Flt := {}
  prb : Prb := {}
  /-- The model's own counter of free values drawn. -/
  freeCtr : Nat := 0
  /-- What left the part, newest first. -/
  out : List Output := []
deriving DecidableEq, Repr

/-- The state after power-on: every field at its reset value. -/
def State.reset : State := {}

/-- No command of the model faults: the manual gives every command an effect. Never raised; safe. -/
inductive Fault
  | never
deriving DecidableEq, Repr

/-- Why a command is refused. `notModelled` is raised by `exec` for a command without a meaning; safe. -/
inductive Refusal
  | notModelled (mnemonic : String)
deriving DecidableEq, Repr

/-- The outcome of every command of this model. -/
abbrev Out := Host.Outcome State Fault Refusal

end Sys2Proof.Machine
end

