-- ==== Sys2Proof/Machine/Registers.lean ====
section
/-!
DEFINITION. The fields of every BAR0 register, as the register tables of the manual give them (type, place, reset),
and the one access path to the register file.
-/

namespace Sys2Proof.Machine

/-- The fields of a register; bits not listed are reserved. -/
def regFields : Reg → List FieldSpec
  | .HIU_APT_BASE_HI => [⟨0, 24, .rw, 0x0⟩]
  | .HIU_APT_BASE_LO => [⟨24, 8, .rw, 0x0⟩]
  | .HIU_APT_DOM => [⟨0, 12, .rw, 0x0⟩, ⟨31, 1, .rw, 0x0⟩]
  | .HIU_APT_SEL => [⟨0, 12, .rw, 0x0⟩]
  | .HIU_DOM_PASID => [⟨0, 20, .rw, 0x0⟩, ⟨31, 1, .rw, 0x0⟩]
  | .HIU_DOM_SEL => [⟨0, 12, .rw, 0x0⟩]
  | .HIU_EQ_BASE_HI => [⟨0, 32, .rw, 0x0⟩]
  | .HIU_EQ_BASE_LO => [⟨12, 20, .rw, 0x0⟩]
  | .HIU_EQ_CTL => [⟨0, 4, .rw, 0x0⟩, ⟨4, 12, .rw, 0x0⟩, ⟨16, 1, .rw, 0x0⟩, ⟨17, 1, .rw, 0x0⟩, ⟨18, 8, .rw, 0x1⟩, ⟨26, 6, .rw, 0x0⟩]
  | .HIU_EQ_SEL => [⟨0, 11, .rw, 0x0⟩]
  | .HIU_EQ_STAT => [⟨0, 16, .ro, 0x0⟩, ⟨16, 16, .ro, 0x0⟩]
  | .HIU_EVQ_SYS => [⟨0, 11, .rw, 0x0⟩]
  | .HIU_EVQ_SYS_HEAD => [⟨0, 16, .rw, 0x0⟩]
  | .HIU_LINK_STAT => [⟨0, 8, .ro, 0x0⟩, ⟨8, 5, .ro, 0x0⟩, ⟨13, 1, .ro, 0x0⟩, ⟨14, 1, .ro, 0x0⟩, ⟨15, 1, .ro, 0x0⟩, ⟨16, 8, .rw1c, 0x0⟩]
  | .HIU_PAGE_DOM => [⟨0, 12, .rw, 0x0⟩, ⟨31, 1, .rw, 0x0⟩]
  | .HIU_PAGE_SEL => [⟨0, 11, .rw, 0x0⟩]
  | .HIU_SQ_BASE_HI => [⟨0, 32, .rw, 0x0⟩]
  | .HIU_SQ_BASE_LO => [⟨12, 20, .rw, 0x0⟩]
  | .HIU_SQ_CTL => [⟨0, 4, .rw, 0x0⟩, ⟨4, 11, .rw, 0x0⟩, ⟨15, 1, .rw, 0x0⟩, ⟨16, 1, .rw, 0x0⟩, ⟨17, 1, .ro, 0x0⟩, ⟨18, 1, .ro, 0x0⟩]
  | .HIU_SQ_SEL => [⟨0, 15, .rw, 0x0⟩]
  | .HIU_SQ_STAT => [⟨0, 16, .ro, 0x0⟩, ⟨16, 16, .ro, 0x0⟩]
  | .HIU_STAT => [⟨0, 8, .rw1c, 0x0⟩, ⟨8, 8, .rw1c, 0x0⟩, ⟨16, 8, .rw1c, 0x0⟩, ⟨24, 4, .rw1c, 0x0⟩, ⟨28, 4, .rw1c, 0x0⟩]
  | .DSP_BE_SET0 => [⟨0, 32, .rw, 0xFFFFFFFF⟩]
  | .DSP_BE_SET1 => [⟨0, 32, .rw, 0xFFFFFFFF⟩]
  | .DSP_BE_SET2 => [⟨0, 32, .rw, 0xFFFFFFFF⟩]
  | .DSP_BE_SET3 => [⟨0, 32, .rw, 0xFFFFFFFF⟩]
  | .DSP_CNT_ADM => [⟨0, 32, .ro, 0x0⟩]
  | .DSP_CNT_DONE => [⟨0, 32, .ro, 0x0⟩]
  | .DSP_CNT_LATE => [⟨0, 32, .ro, 0x0⟩]
  | .DSP_CNT_POL => [⟨0, 32, .ro, 0x0⟩]
  | .DSP_DOM_SEL => [⟨0, 12, .rw, 0x0⟩]
  | .DSP_INTAKE_CAP => [⟨0, 14, .rw, 0x2000⟩]
  | .DSP_LC_SET0 => [⟨0, 32, .rw, 0xFFFFFFFF⟩]
  | .DSP_LC_SET1 => [⟨0, 32, .rw, 0xFFFFFFFF⟩]
  | .DSP_LC_SET2 => [⟨0, 32, .rw, 0xFFFFFFFF⟩]
  | .DSP_LC_SET3 => [⟨0, 32, .rw, 0xFFFFFFFF⟩]
  | .DSP_POL => [⟨0, 16, .rw, 0x0⟩, ⟨16, 12, .rw, 0x40⟩]
  | .DSP_SERIES => [⟨0, 15, .rw, 0x0⟩, ⟨15, 1, .wo, 0x0⟩, ⟨16, 11, .ro, 0x0⟩]
  | .DSP_SET_STAT => [⟨0, 1, .rw1c, 0x0⟩]
  | .SEQ_BE_STAT => [⟨0, 8, .ro, 0x0⟩, ⟨8, 8, .rw1c, 0x0⟩]
  | .SEQ_OCCUPANCY => [⟨0, 8, .ro, 0x0⟩, ⟨8, 8, .ro, 0x80⟩]
  | .SEQ_OVERRIDE_CNT => [⟨0, 8, .rw1c, 0x0⟩, ⟨8, 8, .rw1c, 0x0⟩, ⟨16, 8, .rw1c, 0x0⟩, ⟨24, 8, .rw1c, 0x0⟩]
  | .SEQ_PLAN_CAP => [⟨0, 13, .ro, 0x1000⟩, ⟨16, 7, .ro, 0x40⟩, ⟨24, 8, .ro, 0xFF⟩]
  | .SEQ_PLAN_LOADED => [⟨0, 13, .ro, 0x0⟩]
  | .SEQ_STALE_PULSE => [⟨0, 32, .ro, 0x0⟩]
  | .SEQ_VIOL_CNT => [⟨0, 32, .ro, 0x0⟩]
  | .SKC_STAT => [⟨0, 8, .rw1c, 0x0⟩, ⟨8, 8, .rw1c, 0x0⟩, ⟨16, 8, .rw1c, 0x0⟩, ⟨24, 8, .rw1c, 0x0⟩]
  | .STK_DEFER_MAX => [⟨0, 16, .ro, 0x0⟩, ⟨31, 1, .wo, 0x0⟩]
  | .STK_ECC_STAT => [⟨0, 16, .rw1c, 0x0⟩, ⟨16, 8, .rw1c, 0x0⟩, ⟨31, 1, .ro, 0x0⟩]
  | .STK_NBU_STAT => [⟨0, 8, .rw1c, 0x0⟩, ⟨8, 8, .rw1c, 0x0⟩, ⟨16, 8, .rw1c, 0x0⟩, ⟨24, 8, .rw1c, 0x0⟩]
  | .STK_NBU_STORE => [⟨0, 8, .ro, 0x60⟩, ⟨8, 8, .ro, 0xA0⟩, ⟨16, 16, .ro, 0x0⟩]
  | .FLS_CAPACITY => [⟨0, 20, .ro, 0x0⟩]
  | .FLS_CHAN_HI => [⟨0, 32, .ro, 0x0⟩]
  | .FLS_CHAN_LO => [⟨0, 32, .ro, 0x0⟩]
  | .FLS_DSC_ADDR_HI => [⟨0, 24, .rw, 0x0⟩]
  | .FLS_DSC_ADDR_LO => [⟨0, 32, .rw, 0x0⟩]
  | .FLS_DSC_CMD => [⟨0, 12, .rw, 0x0⟩, ⟨12, 16, .rw, 0x0⟩, ⟨28, 1, .wo, 0x0⟩, ⟨29, 1, .ro, 0x0⟩, ⟨30, 1, .ro, 0x0⟩]
  | .FLS_GEOM => [⟨0, 4, .ro, 0x0⟩, ⟨4, 6, .ro, 0x0⟩, ⟨10, 2, .ro, 0x0⟩, ⟨12, 1, .ro, 0x0⟩, ⟨13, 1, .ro, 0x0⟩, ⟨14, 1, .ro, 0x0⟩, ⟨15, 1, .ro, 0x0⟩, ⟨16, 12, .ro, 0x0⟩]
  | .FLS_MEDIA_CTL => [⟨0, 8, .rwl, 0x50⟩, ⟨8, 8, .rwl, 0x7⟩, ⟨16, 16, .rwl, 0x64⟩]
  | .FLS_MEDIA_STAT => [⟨0, 8, .rw1c, 0x0⟩, ⟨8, 8, .rw1c, 0x0⟩, ⟨16, 8, .rw1c, 0x0⟩, ⟨24, 8, .rw1c, 0x0⟩]
  | .FLS_POL => [⟨0, 1, .rw, 0x1⟩, ⟨1, 1, .rw, 0x1⟩]
  | .FLS_POL_SEL => [⟨0, 8, .rw, 0x0⟩, ⟨8, 1, .rw, 0x0⟩]
  | .FLS_SCORE_CAP => [⟨0, 12, .ro, 0x800⟩, ⟨16, 5, .ro, 0x10⟩]
  | .FLS_SCORE_STAT => [⟨0, 8, .rw1c, 0x0⟩, ⟨8, 8, .rw1c, 0x0⟩, ⟨16, 8, .rw1c, 0x0⟩, ⟨24, 8, .rw1c, 0x0⟩]
  | .FLS_USED => [⟨0, 20, .ro, 0x0⟩]
  | .SEL_CAP => [⟨0, 8, .ro, 0x40⟩, ⟨8, 8, .ro, 0x8⟩, ⟨16, 8, .ro, 0x10⟩]
  | .SEL_STAT => [⟨0, 16, .rw1c, 0x0⟩, ⟨16, 8, .rw1c, 0x0⟩, ⟨24, 8, .rw1c, 0x0⟩]
  | .SCA_CAP => [⟨0, 4, .ro, 0x8⟩, ⟨8, 8, .ro, 0x20⟩, ⟨16, 8, .ro, 0x80⟩]
  | .SCA_STAT => [⟨0, 8, .rw1c, 0x0⟩, ⟨8, 8, .rw1c, 0x0⟩, ⟨16, 8, .rw1c, 0x0⟩, ⟨24, 8, .rw1c, 0x0⟩]
  | .TBE_CAP => [⟨0, 13, .ro, 0x1000⟩, ⟨16, 8, .ro, 0x2⟩]
  | .TBE_STAT => [⟨0, 16, .rw1c, 0x0⟩, ⟨16, 8, .rw1c, 0x0⟩, ⟨24, 8, .rw1c, 0x0⟩]
  | .TIR_EPOCH_CTL => [⟨0, 7, .rwl, 0x64⟩]
  | .TIR_EPOCH_HI => [⟨0, 16, .ro, 0x0⟩]
  | .TIR_EPOCH_LO => [⟨0, 32, .ro, 0x0⟩]
  | .TIR_HOLD_HI => [⟨0, 16, .ro, 0xFFFF⟩]
  | .TIR_HOLD_LO => [⟨0, 32, .ro, 0xFFFFFFFF⟩]
  | .TIR_IDX_CMD => [⟨0, 8, .rw, 0x0⟩, ⟨8, 12, .rw, 0x0⟩, ⟨20, 4, .wo, 0x0⟩]
  | .TIR_IDX_DESC_HI => [⟨0, 24, .rw, 0x0⟩]
  | .TIR_IDX_DESC_LO => [⟨0, 32, .rw, 0x0⟩]
  | .TIR_IDX_OVL => [⟨0, 32, .ro, 0x0⟩]
  | .TIR_IDX_STAT => [⟨0, 8, .ro, 0x0⟩, ⟨8, 1, .ro, 0x0⟩, ⟨9, 1, .ro, 0x0⟩, ⟨10, 1, .ro, 0x0⟩, ⟨16, 16, .rw1c, 0x0⟩]
  | .TIR_MERGE_DUE => [⟨0, 25, .ro, 0x0⟩]
  | .TIR_MERGE_STAT => [⟨0, 8, .ro, 0x0⟩, ⟨8, 1, .ro, 0x0⟩, ⟨16, 16, .rw1c, 0x0⟩]
  | .TIR_MIG_STAT => [⟨0, 8, .ro, 0x0⟩, ⟨8, 8, .rw1c, 0x0⟩, ⟨16, 8, .ro, 0x0⟩, ⟨31, 1, .wo, 0x0⟩]
  | .TIR_PIN_STAT => [⟨0, 11, .ro, 0x0⟩, ⟨16, 16, .rw1c, 0x0⟩]
  | .TIR_RGN_CMD => [⟨0, 12, .rw, 0x0⟩, ⟨12, 4, .wo, 0x0⟩]
  | .TIR_RGN_COUNT => [⟨0, 17, .ro, 0x0⟩, ⟨24, 8, .rw1c, 0x0⟩]
  | .TIR_RGN_DESC_HI => [⟨0, 24, .rw, 0x0⟩, ⟨31, 1, .rw, 0x0⟩]
  | .TIR_RGN_DESC_LO => [⟨0, 32, .rw, 0x0⟩]
  | .TIR_RGN_STAT => [⟨0, 8, .ro, 0x0⟩, ⟨8, 8, .ro, 0x0⟩, ⟨16, 1, .ro, 0x0⟩, ⟨24, 8, .rw1c, 0x0⟩]
  | .DMA_ERR => [⟨0, 6, .ro, 0x0⟩, ⟨6, 17, .ro, 0x0⟩, ⟨23, 1, .ro, 0x0⟩, ⟨24, 4, .rw1c, 0x0⟩, ⟨31, 1, .wo, 0x0⟩]
  | .DMA_ERR_ADDR_HI => [⟨0, 32, .ro, 0x0⟩]
  | .DMA_ERR_ADDR_LO => [⟨0, 32, .ro, 0x0⟩]
  | .FAB_HO_CMD => [⟨0, 12, .rw, 0x0⟩, ⟨12, 4, .wo, 0x0⟩, ⟨16, 1, .rw, 0x0⟩, ⟨17, 10, .rw, 0x3E8⟩, ⟨27, 1, .ro, 0x0⟩]
  | .FAB_HO_DESC_HI => [⟨0, 24, .rw, 0x0⟩]
  | .FAB_HO_DESC_LO => [⟨0, 32, .rw, 0x0⟩]
  | .FAB_HO_STAT => [⟨0, 8, .ro, 0x0⟩, ⟨8, 8, .ro, 0x0⟩]
  | .FAB_INFLIGHT => [⟨0, 15, .ro, 0x0⟩, ⟨16, 14, .ro, 0x0⟩]
  | .FAB_MAP_CMD => [⟨0, 8, .rw, 0x0⟩, ⟨8, 4, .wo, 0x0⟩]
  | .FAB_MAP_DESC_HI => [⟨0, 24, .rw, 0x0⟩]
  | .FAB_MAP_DESC_LO => [⟨0, 32, .rw, 0x0⟩]
  | .FAB_MAP_REASON => [⟨0, 8, .ro, 0x0⟩]
  | .FAB_MAP_STAT => [⟨0, 8, .ro, 0x0⟩, ⟨8, 1, .ro, 0x0⟩, ⟨9, 1, .ro, 0x0⟩, ⟨10, 1, .ro, 0x0⟩, ⟨16, 16, .ro, 0x0⟩]
  | .FAB_MINPORTS => [⟨0, 4, .rwl, 0x6⟩, ⟨4, 4, .ro, 0x0⟩, ⟨8, 1, .ro, 0x0⟩, ⟨9, 15, .rwl, 0x32⟩, ⟨24, 8, .rw1c, 0x0⟩]
  | .FAB_NODE => [⟨0, 12, .rwl, 0x0⟩, ⟨16, 1, .rwl, 0x0⟩]
  | .FAB_PORT_CMD => [⟨0, 8, .rw, 0x0⟩, ⟨8, 1, .wo, 0x0⟩, ⟨9, 1, .wo, 0x0⟩]
  | .FAB_PORT_STAT => [⟨0, 4, .ro, 0x0⟩, ⟨4, 2, .ro, 0x0⟩, ⟨6, 1, .ro, 0x0⟩, ⟨7, 1, .ro, 0x0⟩, ⟨8, 12, .ro, 0x0⟩, ⟨20, 4, .rw1c, 0x0⟩, ⟨24, 8, .rw1c, 0x0⟩]
  | .FAB_WIN_CMD => [⟨0, 12, .rw, 0x0⟩, ⟨12, 4, .wo, 0x0⟩, ⟨16, 12, .rw, 0x0⟩]
  | .FAB_WIN_DESC_HI => [⟨0, 24, .rw, 0x0⟩]
  | .FAB_WIN_DESC_LO => [⟨0, 32, .rw, 0x0⟩]
  | .FAB_WIN_STAT => [⟨0, 8, .ro, 0x0⟩, ⟨8, 8, .ro, 0x0⟩, ⟨16, 1, .ro, 0x0⟩, ⟨17, 1, .ro, 0x0⟩, ⟨18, 1, .ro, 0x0⟩]
  | .FAB_XACT_STAT => [⟨0, 8, .rw1c, 0x0⟩, ⟨8, 8, .rw1c, 0x0⟩, ⟨16, 8, .rw1c, 0x0⟩, ⟨24, 8, .rw1c, 0x0⟩]
  | .TRF_DOMQ => [⟨0, 4, .rw, 0x0⟩, ⟨4, 4, .rw, 0x1⟩]
  | .TRF_DOMQ_SEL => [⟨0, 12, .rw, 0x0⟩]
  | .TRF_GL_CTL => [⟨0, 9, .rw, 0x0⟩, ⟨9, 1, .wo, 0x0⟩, ⟨10, 1, .wo, 0x0⟩, ⟨11, 1, .ro, 0x0⟩, ⟨12, 1, .ro, 0x0⟩, ⟨13, 1, .rw1c, 0x0⟩]
  | .TRF_GL_HI => [⟨0, 32, .rw, 0x0⟩]
  | .TRF_GL_HZN_HI => [⟨0, 32, .rw, 0x0⟩]
  | .TRF_GL_HZN_LO => [⟨0, 32, .rw, 0x0⟩]
  | .TRF_GL_LO => [⟨0, 32, .rw, 0x0⟩]
  | .TRF_GL_SEL => [⟨0, 4, .rw, 0x0⟩, ⟨4, 8, .rw, 0x0⟩]
  | .TRF_ING => [⟨0, 16, .rw, 0x0⟩, ⟨16, 16, .rw, 0x40⟩]
  | .TRF_ING_DROP => [⟨0, 32, .ro, 0x0⟩]
  | .TRF_ING_SEL => [⟨0, 12, .rw, 0x0⟩]
  | .TRF_QW0 => [⟨0, 8, .rw, 0x1⟩, ⟨8, 8, .rw, 0x1⟩, ⟨16, 8, .rw, 0x1⟩, ⟨24, 8, .rw, 0x1⟩]
  | .TRF_QW1 => [⟨0, 8, .rw, 0x1⟩, ⟨8, 8, .rw, 0x1⟩, ⟨16, 8, .rw, 0x1⟩, ⟨24, 8, .rw, 0x1⟩]
  | .TRF_QW2 => [⟨0, 8, .rw, 0x1⟩, ⟨8, 8, .rw, 0x1⟩, ⟨16, 8, .rw, 0x1⟩, ⟨24, 8, .rw, 0x1⟩]
  | .TRF_QW3 => [⟨0, 8, .rw, 0x1⟩, ⟨8, 8, .rw, 0x1⟩, ⟨16, 8, .rw, 0x1⟩]
  | .TRF_QW_SEL => [⟨0, 4, .rw, 0x0⟩]
  | .TRF_SMP_BASE_HI => [⟨0, 32, .rw, 0x0⟩]
  | .TRF_SMP_BASE_LO => [⟨12, 20, .rw, 0x0⟩]
  | .TRF_SMP_CTL => [⟨0, 10, .rw, 0xA⟩, ⟨10, 9, .rw, 0x1FF⟩, ⟨19, 1, .rw, 0x0⟩, ⟨20, 4, .rw, 0x0⟩]
  | .TRF_SMP_DOM => [⟨0, 12, .rw, 0x0⟩]
  | .TRF_SMP_HEAD => [⟨0, 16, .rw, 0x0⟩]
  | .TRF_SMP_STAT => [⟨0, 16, .ro, 0x0⟩, ⟨16, 16, .rw1c, 0x0⟩]
  | .SMC_CFG_CTL => [⟨0, 1, .wo, 0x0⟩, ⟨1, 1, .wo, 0x0⟩, ⟨2, 1, .ro, 0x0⟩, ⟨3, 1, .ro, 0x0⟩, ⟨4, 1, .rw1c, 0x0⟩, ⟨16, 8, .rw, 0xA⟩]
  | .SMC_CFG_DIG0 => [⟨0, 32, .ro, 0x0⟩]
  | .SMC_CFG_DIG1 => [⟨0, 32, .ro, 0x0⟩]
  | .SMC_CFG_DIG2 => [⟨0, 32, .ro, 0x0⟩]
  | .SMC_CFG_DIG3 => [⟨0, 32, .ro, 0x0⟩]
  | .SMC_CFG_DIG4 => [⟨0, 32, .ro, 0x0⟩]
  | .SMC_CFG_DIG5 => [⟨0, 32, .ro, 0x0⟩]
  | .SMC_CFG_DIG6 => [⟨0, 32, .ro, 0x0⟩]
  | .SMC_CFG_DIG7 => [⟨0, 32, .ro, 0x0⟩]
  | .SMC_CFG_EPOCH_HI => [⟨0, 32, .ro, 0x0⟩]
  | .SMC_CFG_EPOCH_LO => [⟨0, 32, .ro, 0x0⟩]
  | .SMC_CFG_EXP0 => [⟨0, 32, .rw, 0x0⟩]
  | .SMC_CFG_EXP1 => [⟨0, 32, .rw, 0x0⟩]
  | .SMC_CFG_EXP2 => [⟨0, 32, .rw, 0x0⟩]
  | .SMC_CFG_EXP3 => [⟨0, 32, .rw, 0x0⟩]
  | .SMC_CFG_EXP4 => [⟨0, 32, .rw, 0x0⟩]
  | .SMC_CFG_EXP5 => [⟨0, 32, .rw, 0x0⟩]
  | .SMC_CFG_EXP6 => [⟨0, 32, .rw, 0x0⟩]
  | .SMC_CFG_EXP7 => [⟨0, 32, .rw, 0x0⟩]
  | .SMC_CFG_HZN_HI => [⟨0, 32, .rw, 0x0⟩]
  | .SMC_CFG_HZN_LO => [⟨0, 32, .rw, 0x0⟩]
  | .SMC_CFG_STG_HI => [⟨0, 32, .rw, 0x0⟩]
  | .SMC_CFG_STG_LO => [⟨0, 32, .rw, 0x0⟩]
  | .SMC_DOM_CMD => [⟨0, 12, .rw, 0x0⟩, ⟨12, 4, .wo, 0x0⟩, ⟨16, 4, .rw, 0x0⟩]
  | .SMC_DOM_STAT => [⟨0, 8, .ro, 0x0⟩, ⟨8, 8, .ro, 0x0⟩, ⟨16, 1, .ro, 0x0⟩, ⟨17, 2, .ro, 0x0⟩]
  | .SMC_EXPEL_SEL => [⟨0, 12, .rw, 0x0⟩]
  | .SMC_EXPEL_STAT => [⟨0, 1, .ro, 0x0⟩]
  | .SMC_FENCE_STAT => [⟨0, 1, .ro, 0x0⟩, ⟨1, 2, .ro, 0x0⟩, ⟨3, 1, .ro, 0x0⟩, ⟨16, 16, .rw1c, 0x0⟩]
  | .SMC_LIFECYCLE => [⟨0, 1, .ro, 0x0⟩, ⟨1, 1, .ro, 0x0⟩, ⟨8, 8, .wo, 0x0⟩, ⟨16, 1, .wo, 0x0⟩, ⟨17, 1, .wo, 0x0⟩, ⟨24, 8, .rw1c, 0x0⟩]
  | .SMC_MGMT_CTL => [⟨0, 4, .rwl, 0x3⟩, ⟨4, 1, .rwl, 0x0⟩, ⟨5, 13, .rwl, 0x1F4⟩]
  | .SMC_MGR_DIG0 => [⟨0, 32, .rwl, 0x0⟩]
  | .SMC_MGR_DIG1 => [⟨0, 32, .rwl, 0x0⟩]
  | .SMC_MGR_DIG2 => [⟨0, 32, .rwl, 0x0⟩]
  | .SMC_MGR_DIG3 => [⟨0, 32, .rwl, 0x0⟩]
  | .SMC_MGR_DIG4 => [⟨0, 32, .rwl, 0x0⟩]
  | .SMC_MGR_DIG5 => [⟨0, 32, .rwl, 0x0⟩]
  | .SMC_MGR_DIG6 => [⟨0, 32, .rwl, 0x0⟩]
  | .SMC_MGR_DIG7 => [⟨0, 32, .rwl, 0x0⟩]
  | .SMC_MGR_SEL => [⟨0, 4, .rw, 0x0⟩]
  | .SMC_PART_DMA_HI => [⟨0, 32, .rwl, 0x0⟩]
  | .SMC_PART_DMA_LO => [⟨0, 32, .rwl, 0x0⟩]
  | .SMC_PART_ENG => [⟨0, 8, .rwl, 0x0⟩, ⟨8, 2, .rwl, 0x0⟩, ⟨10, 15, .rwl, 0x0⟩]
  | .SMC_PART_SEL => [⟨0, 4, .rw, 0x0⟩]
  | .SMC_PART_SEQ0 => [⟨0, 32, .rwl, 0x0⟩]
  | .SMC_PART_SEQ1 => [⟨0, 32, .rwl, 0x0⟩]
  | .SMC_PART_SEQ2 => [⟨0, 32, .rwl, 0x0⟩]
  | .SMC_PART_SEQ3 => [⟨0, 32, .rwl, 0x0⟩]
  | .SMC_PTP_CTL => [⟨0, 8, .rwl, 0x0⟩, ⟨8, 2, .rwl, 0x3⟩, ⟨10, 1, .rwl, 0x0⟩]
  | .SMC_PTP_OFFSET => [⟨0, 32, .ro, 0x0⟩]
  | .SMC_PTP_STAT => [⟨0, 1, .ro, 0x0⟩, ⟨1, 2, .ro, 0x0⟩, ⟨3, 1, .ro, 0x0⟩, ⟨4, 1, .rw1c, 0x0⟩, ⟨5, 1, .rw1c, 0x0⟩]
  | .SMC_TENANCY => [⟨0, 1, .rwl, 0x0⟩, ⟨1, 1, .ro, 0x0⟩]
  | .SMC_TIME_HI => [⟨0, 32, .ro, 0x0⟩]
  | .SMC_TIME_LO => [⟨0, 32, .ro, 0x0⟩]
  | .PRB_DIE_ID_HI => [⟨0, 32, .ro, 0x0⟩]
  | .PRB_DIE_ID_LO => [⟨0, 32, .ro, 0x0⟩]
  | .PRB_DIE_SEL => [⟨0, 5, .rw, 0x0⟩]
  | .PRB_ECC_STAT => [⟨0, 16, .rw1c, 0x0⟩, ⟨16, 8, .rw1c, 0x0⟩]
  | .PRB_FDOM => [⟨0, 8, .rwl, 0xFF⟩, ⟨8, 8, .rwl, 0xFF⟩, ⟨16, 8, .rwl, 0xFF⟩, ⟨24, 8, .rwl, 0xFF⟩]
  | .PRB_FLT_NEWEST => [⟨0, 32, .ro, 0x0⟩]
  | .PRB_FLT_SEL => [⟨0, 32, .rw, 0x0⟩]
  | .PRB_FLT_STAT => [⟨0, 11, .ro, 0x0⟩, ⟨16, 16, .rw1c, 0x0⟩]
  | .PRB_FLT_WORD0 => [⟨0, 32, .ro, 0x0⟩]
  | .PRB_FLT_WORD1 => [⟨0, 32, .ro, 0x0⟩]
  | .PRB_FLT_WORD10 => [⟨0, 32, .ro, 0x0⟩]
  | .PRB_FLT_WORD11 => [⟨0, 32, .ro, 0x0⟩]
  | .PRB_FLT_WORD12 => [⟨0, 32, .ro, 0x0⟩]
  | .PRB_FLT_WORD13 => [⟨0, 32, .ro, 0x0⟩]
  | .PRB_FLT_WORD14 => [⟨0, 32, .ro, 0x0⟩]
  | .PRB_FLT_WORD15 => [⟨0, 32, .ro, 0x0⟩]
  | .PRB_FLT_WORD2 => [⟨0, 32, .ro, 0x0⟩]
  | .PRB_FLT_WORD3 => [⟨0, 32, .ro, 0x0⟩]
  | .PRB_FLT_WORD4 => [⟨0, 32, .ro, 0x0⟩]
  | .PRB_FLT_WORD5 => [⟨0, 32, .ro, 0x0⟩]
  | .PRB_FLT_WORD6 => [⟨0, 32, .ro, 0x0⟩]
  | .PRB_FLT_WORD7 => [⟨0, 32, .ro, 0x0⟩]
  | .PRB_FLT_WORD8 => [⟨0, 32, .ro, 0x0⟩]
  | .PRB_FLT_WORD9 => [⟨0, 32, .ro, 0x0⟩]
  | .PRB_GOV => [⟨0, 12, .rw, 0x0⟩, ⟨16, 12, .ro, 0x0⟩]
  | .PRB_ID => [⟨0, 16, .ro, 0x14⟩, ⟨16, 4, .ro, 0xF⟩, ⟨20, 4, .ro, 0xF⟩, ⟨24, 8, .ro, 0x1⟩]
  | .PRB_ID_FW => [⟨0, 8, .ro, 0x0⟩, ⟨8, 8, .ro, 0x0⟩, ⟨16, 1, .ro, 0x0⟩]
  | .PRB_OVC_STAT => [⟨0, 1, .ro, 0x0⟩, ⟨1, 4, .ro, 0x0⟩, ⟨5, 5, .ro, 0x0⟩, ⟨16, 8, .rw1c, 0x0⟩]
  | .PRB_PACE_CTL => [⟨0, 12, .rw, 0x0⟩, ⟨16, 12, .ro, 0x0⟩]
  | .PRB_PACE_MON => [⟨0, 12, .ro, 0x0⟩, ⟨16, 12, .ro, 0xFFF⟩, ⟨28, 1, .ro, 0x0⟩, ⟨29, 1, .ro, 0x0⟩, ⟨31, 1, .wo, 0x0⟩]
  | .PRB_POWER => [⟨0, 12, .ro, 0x0⟩, ⟨16, 12, .ro, 0x0⟩, ⟨31, 1, .wo, 0x0⟩]
  | .PRB_PWR_STAT => [⟨0, 3, .ro, 0x0⟩, ⟨3, 1, .ro, 0x0⟩, ⟨4, 1, .ro, 0x0⟩, ⟨5, 9, .ro, 0x0⟩, ⟨14, 1, .ro, 0x0⟩, ⟨15, 1, .ro, 0x0⟩, ⟨16, 8, .rw1c, 0x0⟩, ⟨24, 8, .rw1c, 0x0⟩]
  | .PRB_RESET => [⟨0, 4, .wo, 0x0⟩, ⟨8, 8, .wo, 0x0⟩, ⟨16, 4, .ro, 0x0⟩, ⟨20, 1, .ro, 0x0⟩]
  | .PRB_SHD_CTL => [⟨0, 8, .rwl, 0x3⟩, ⟨8, 1, .wo, 0x0⟩, ⟨16, 8, .rw1c, 0x0⟩]
  | .PRB_SHD_DATA => [⟨0, 16, .ro, 0x0⟩, ⟨16, 16, .ro, 0x0⟩]
  | .PRB_SHD_SEL => [⟨0, 2, .rw, 0x0⟩, ⟨4, 4, .rw, 0x0⟩, ⟨8, 15, .rw, 0x0⟩]
  | .PRB_STEP => [⟨0, 4, .wo, 0x0⟩, ⟨4, 4, .ro, 0x0⟩, ⟨8, 4, .ro, 0x0⟩, ⟨12, 1, .ro, 0x0⟩, ⟨13, 1, .ro, 0x0⟩]
  | .PRB_STEP_ARG0 => [⟨0, 32, .rw, 0x0⟩]
  | .PRB_STEP_ARG1 => [⟨0, 32, .rw, 0x0⟩]
  | .PRB_STEP_ARG2 => [⟨0, 32, .rw, 0x0⟩]
  | .PRB_STEP_STAT => [⟨0, 8, .ro, 0x0⟩, ⟨8, 8, .ro, 0x0⟩, ⟨16, 8, .rw1c, 0x0⟩]
  | .PRB_THERM => [⟨0, 12, .ro, 0x0⟩, ⟨12, 12, .ro, 0x0⟩, ⟨24, 2, .ro, 0x0⟩, ⟨31, 1, .wo, 0x0⟩]
  | .PRB_THERM_SEL => [⟨0, 5, .rw, 0x0⟩]
  | .PRB_WAKETOL => [⟨0, 24, .rw, 0x0⟩, ⟨24, 8, .rw, 0xA⟩]
  | .PRB_YMAP => [⟨0, 2, .ro, 0x0⟩, ⟨2, 11, .ro, 0x7FF⟩]
  | .PRB_YMAP_SEL => [⟨0, 4, .rw, 0x0⟩, ⟨4, 11, .rw, 0x0⟩]

/-! Named fields. -/

namespace F
/-- R488. -/
def HIU_APT_BASE_HI_V : Fld := ⟨.HIU_APT_BASE_HI, 0, 24⟩
/-- R488. -/
def HIU_APT_BASE_LO_V : Fld := ⟨.HIU_APT_BASE_LO, 24, 8⟩
/-- R488. -/
def HIU_APT_DOM_DOM : Fld := ⟨.HIU_APT_DOM, 0, 12⟩
/-- R488. -/
def HIU_APT_DOM_VALID : Fld := ⟨.HIU_APT_DOM, 31, 1⟩
/-- R488. -/
def HIU_APT_SEL_V : Fld := ⟨.HIU_APT_SEL, 0, 12⟩
/-- R505. -/
def HIU_DOM_PASID_PASID : Fld := ⟨.HIU_DOM_PASID, 0, 20⟩
/-- R505. -/
def HIU_DOM_PASID_ENABLE : Fld := ⟨.HIU_DOM_PASID, 31, 1⟩
/-- R505. -/
def HIU_DOM_SEL_V : Fld := ⟨.HIU_DOM_SEL, 0, 12⟩
/-- R498. -/
def HIU_EQ_BASE_HI_V : Fld := ⟨.HIU_EQ_BASE_HI, 0, 32⟩
/-- R498. -/
def HIU_EQ_BASE_LO_V : Fld := ⟨.HIU_EQ_BASE_LO, 12, 20⟩
/-- R498. -/
def HIU_EQ_CTL_SIZE : Fld := ⟨.HIU_EQ_CTL, 0, 4⟩
/-- R498. -/
def HIU_EQ_CTL_DOMAIN : Fld := ⟨.HIU_EQ_CTL, 4, 12⟩
/-- R498. -/
def HIU_EQ_CTL_ENABLE : Fld := ⟨.HIU_EQ_CTL, 16, 1⟩
/-- R498. -/
def HIU_EQ_CTL_MSIX : Fld := ⟨.HIU_EQ_CTL, 17, 1⟩
/-- R498. -/
def HIU_EQ_CTL_IRQ_COUNT : Fld := ⟨.HIU_EQ_CTL, 18, 8⟩
/-- R498. -/
def HIU_EQ_CTL_IRQ_US : Fld := ⟨.HIU_EQ_CTL, 26, 6⟩
/-- R498. -/
def HIU_EQ_SEL_V : Fld := ⟨.HIU_EQ_SEL, 0, 11⟩
/-- R498. -/
def HIU_EQ_STAT_TAIL : Fld := ⟨.HIU_EQ_STAT, 0, 16⟩
/-- R498. -/
def HIU_EQ_STAT_HEAD : Fld := ⟨.HIU_EQ_STAT, 16, 16⟩
/-- R500. -/
def HIU_EVQ_SYS_V : Fld := ⟨.HIU_EVQ_SYS, 0, 11⟩
/-- R672. -/
def HIU_EVQ_SYS_HEAD_V : Fld := ⟨.HIU_EVQ_SYS_HEAD, 0, 16⟩
/-- R484. -/
def HIU_LINK_STAT_SPEED : Fld := ⟨.HIU_LINK_STAT, 0, 8⟩
/-- R484. -/
def HIU_LINK_STAT_WIDTH : Fld := ⟨.HIU_LINK_STAT, 8, 5⟩
/-- R484. -/
def HIU_LINK_STAT_FLIT : Fld := ⟨.HIU_LINK_STAT, 13, 1⟩
/-- R484. -/
def HIU_LINK_STAT_USABLE : Fld := ⟨.HIU_LINK_STAT, 14, 1⟩
/-- R484. -/
def HIU_LINK_STAT_IDE_ON : Fld := ⟨.HIU_LINK_STAT, 15, 1⟩
/-- R484. -/
def HIU_LINK_STAT_RETRAINS : Fld := ⟨.HIU_LINK_STAT, 16, 8⟩
/-- R490. -/
def HIU_PAGE_DOM_DOM : Fld := ⟨.HIU_PAGE_DOM, 0, 12⟩
/-- R490. -/
def HIU_PAGE_DOM_VALID : Fld := ⟨.HIU_PAGE_DOM, 31, 1⟩
/-- R490. -/
def HIU_PAGE_SEL_V : Fld := ⟨.HIU_PAGE_SEL, 0, 11⟩
/-- R492. -/
def HIU_SQ_BASE_HI_V : Fld := ⟨.HIU_SQ_BASE_HI, 0, 32⟩
/-- R492. -/
def HIU_SQ_BASE_LO_V : Fld := ⟨.HIU_SQ_BASE_LO, 12, 20⟩
/-- R492. -/
def HIU_SQ_CTL_SIZE : Fld := ⟨.HIU_SQ_CTL, 0, 4⟩
/-- R492. -/
def HIU_SQ_CTL_EVQ : Fld := ⟨.HIU_SQ_CTL, 4, 11⟩
/-- R492. -/
def HIU_SQ_CTL_MODE : Fld := ⟨.HIU_SQ_CTL, 15, 1⟩
/-- R492. -/
def HIU_SQ_CTL_ENABLE : Fld := ⟨.HIU_SQ_CTL, 16, 1⟩
/-- R492. -/
def HIU_SQ_CTL_FETCH_ERR : Fld := ⟨.HIU_SQ_CTL, 17, 1⟩
/-- R492. -/
def HIU_SQ_CTL_REFUSED : Fld := ⟨.HIU_SQ_CTL, 18, 1⟩
/-- R492. -/
def HIU_SQ_SEL_V : Fld := ⟨.HIU_SQ_SEL, 0, 15⟩
/-- R492. -/
def HIU_SQ_STAT_HEAD : Fld := ⟨.HIU_SQ_STAT, 0, 16⟩
/-- R492. -/
def HIU_SQ_STAT_TAIL : Fld := ⟨.HIU_SQ_STAT, 16, 16⟩
/-- R513. -/
def HIU_STAT_BADDB : Fld := ⟨.HIU_STAT, 0, 8⟩
/-- R513. -/
def HIU_STAT_BAR2_WR : Fld := ⟨.HIU_STAT, 8, 8⟩
/-- R513. -/
def HIU_STAT_HOLD_FULL : Fld := ⟨.HIU_STAT, 16, 8⟩
/-- R513. -/
def HIU_STAT_EQ_DROP : Fld := ⟨.HIU_STAT, 24, 4⟩
/-- R513. -/
def HIU_STAT_BADACC : Fld := ⟨.HIU_STAT, 28, 4⟩
/-- R517. -/
def DSP_BE_SET0_MEMBERS : Fld := ⟨.DSP_BE_SET0, 0, 32⟩
/-- R517. -/
def DSP_BE_SET1_MEMBERS : Fld := ⟨.DSP_BE_SET1, 0, 32⟩
/-- R517. -/
def DSP_BE_SET2_MEMBERS : Fld := ⟨.DSP_BE_SET2, 0, 32⟩
/-- R517. -/
def DSP_BE_SET3_MEMBERS : Fld := ⟨.DSP_BE_SET3, 0, 32⟩
/-- R525. -/
def DSP_CNT_ADM_COUNT : Fld := ⟨.DSP_CNT_ADM, 0, 32⟩
/-- R525. -/
def DSP_CNT_DONE_COUNT : Fld := ⟨.DSP_CNT_DONE, 0, 32⟩
/-- R525. -/
def DSP_CNT_LATE_COUNT : Fld := ⟨.DSP_CNT_LATE, 0, 32⟩
/-- R525. -/
def DSP_CNT_POL_COUNT : Fld := ⟨.DSP_CNT_POL, 0, 32⟩
/-- R525. -/
def DSP_DOM_SEL_V : Fld := ⟨.DSP_DOM_SEL, 0, 12⟩
/-- R527. -/
def DSP_INTAKE_CAP_CAP : Fld := ⟨.DSP_INTAKE_CAP, 0, 14⟩
/-- R517. -/
def DSP_LC_SET0_MEMBERS : Fld := ⟨.DSP_LC_SET0, 0, 32⟩
/-- R517. -/
def DSP_LC_SET1_MEMBERS : Fld := ⟨.DSP_LC_SET1, 0, 32⟩
/-- R517. -/
def DSP_LC_SET2_MEMBERS : Fld := ⟨.DSP_LC_SET2, 0, 32⟩
/-- R517. -/
def DSP_LC_SET3_MEMBERS : Fld := ⟨.DSP_LC_SET3, 0, 32⟩
/-- R527. -/
def DSP_POL_RATE : Fld := ⟨.DSP_POL, 0, 16⟩
/-- R527. -/
def DSP_POL_BURST : Fld := ⟨.DSP_POL, 16, 12⟩
/-- R523. -/
def DSP_SERIES_QUEUE : Fld := ⟨.DSP_SERIES, 0, 15⟩
/-- R523. -/
def DSP_SERIES_STOP : Fld := ⟨.DSP_SERIES, 15, 1⟩
/-- R523. -/
def DSP_SERIES_ACTIVE : Fld := ⟨.DSP_SERIES, 16, 11⟩
/-- R517. -/
def DSP_SET_STAT_V : Fld := ⟨.DSP_SET_STAT, 0, 1⟩
/-- R104. -/
def SEQ_BE_STAT_PARKED : Fld := ⟨.SEQ_BE_STAT, 0, 8⟩
/-- R104. -/
def SEQ_BE_STAT_NOSLOT : Fld := ⟨.SEQ_BE_STAT, 8, 8⟩
/-- R103. -/
def SEQ_OCCUPANCY_RUNNING : Fld := ⟨.SEQ_OCCUPANCY, 0, 8⟩
/-- R103. -/
def SEQ_OCCUPANCY_ENABLED : Fld := ⟨.SEQ_OCCUPANCY, 8, 8⟩
/-- R74. -/
def SEQ_OVERRIDE_CNT_SEQ_OVR : Fld := ⟨.SEQ_OVERRIDE_CNT, 0, 8⟩
/-- R74. -/
def SEQ_OVERRIDE_CNT_NBU_OVR : Fld := ⟨.SEQ_OVERRIDE_CNT, 8, 8⟩
/-- R74. -/
def SEQ_OVERRIDE_CNT_SEQ_WDOG : Fld := ⟨.SEQ_OVERRIDE_CNT, 16, 8⟩
/-- R74. -/
def SEQ_OVERRIDE_CNT_NBU_WDOG : Fld := ⟨.SEQ_OVERRIDE_CNT, 24, 8⟩
/-- R71. -/
def SEQ_PLAN_CAP_PLANS : Fld := ⟨.SEQ_PLAN_CAP, 0, 13⟩
/-- R71. -/
def SEQ_PLAN_CAP_PHASES : Fld := ⟨.SEQ_PLAN_CAP, 16, 7⟩
/-- R71. -/
def SEQ_PLAN_CAP_ENTRIES : Fld := ⟨.SEQ_PLAN_CAP, 24, 8⟩
/-- R72. -/
def SEQ_PLAN_LOADED_V : Fld := ⟨.SEQ_PLAN_LOADED, 0, 13⟩
/-- R105. -/
def SEQ_STALE_PULSE_V : Fld := ⟨.SEQ_STALE_PULSE, 0, 32⟩
/-- R73. -/
def SEQ_VIOL_CNT_V : Fld := ⟨.SEQ_VIOL_CNT, 0, 32⟩
/-- R242. -/
def SKC_STAT_TILE_ERR : Fld := ⟨.SKC_STAT, 0, 8⟩
/-- R242. -/
def SKC_STAT_WS_SHORT : Fld := ⟨.SKC_STAT, 8, 8⟩
/-- R242. -/
def SKC_STAT_STALE_RES : Fld := ⟨.SKC_STAT, 16, 8⟩
/-- R242. -/
def SKC_STAT_EXCL : Fld := ⟨.SKC_STAT, 24, 8⟩
/-- R268. -/
def STK_DEFER_MAX_MAX : Fld := ⟨.STK_DEFER_MAX, 0, 16⟩
/-- R268. -/
def STK_DEFER_MAX_CLR : Fld := ⟨.STK_DEFER_MAX, 31, 1⟩
/-- R634. -/
def STK_ECC_STAT_CE : Fld := ⟨.STK_ECC_STAT, 0, 16⟩
/-- R634. -/
def STK_ECC_STAT_UE : Fld := ⟨.STK_ECC_STAT, 16, 8⟩
/-- R634. -/
def STK_ECC_STAT_OUT : Fld := ⟨.STK_ECC_STAT, 31, 1⟩
/-- R267. -/
def STK_NBU_STAT_FSUSP : Fld := ⟨.STK_NBU_STAT, 0, 8⟩
/-- R267. -/
def STK_NBU_STAT_DFULL : Fld := ⟨.STK_NBU_STAT, 8, 8⟩
/-- R267. -/
def STK_NBU_STAT_NBU_UE : Fld := ⟨.STK_NBU_STAT, 16, 8⟩
/-- R267. -/
def STK_NBU_STAT_BADREC : Fld := ⟨.STK_NBU_STAT, 24, 8⟩
/-- R269. -/
def STK_NBU_STORE_PLAN_FREE : Fld := ⟨.STK_NBU_STORE, 0, 8⟩
/-- R269. -/
def STK_NBU_STORE_LIB_ENTRIES : Fld := ⟨.STK_NBU_STORE, 8, 8⟩
/-- R269. -/
def STK_NBU_STORE_LIB_VERSION : Fld := ⟨.STK_NBU_STORE, 16, 16⟩
/-- R424. -/
def FLS_CAPACITY_V : Fld := ⟨.FLS_CAPACITY, 0, 20⟩
/-- R424. -/
def FLS_CHAN_HI_V : Fld := ⟨.FLS_CHAN_HI, 0, 32⟩
/-- R424. -/
def FLS_CHAN_LO_V : Fld := ⟨.FLS_CHAN_LO, 0, 32⟩
/-- R429. -/
def FLS_DSC_ADDR_HI_V : Fld := ⟨.FLS_DSC_ADDR_HI, 0, 24⟩
/-- R429. -/
def FLS_DSC_ADDR_LO_V : Fld := ⟨.FLS_DSC_ADDR_LO, 0, 32⟩
/-- R429. -/
def FLS_DSC_CMD_DOMAIN : Fld := ⟨.FLS_DSC_CMD, 0, 12⟩
/-- R429. -/
def FLS_DSC_CMD_PAGES : Fld := ⟨.FLS_DSC_CMD, 12, 16⟩
/-- R429. -/
def FLS_DSC_CMD_GO : Fld := ⟨.FLS_DSC_CMD, 28, 1⟩
/-- R429. -/
def FLS_DSC_CMD_BUSY : Fld := ⟨.FLS_DSC_CMD, 29, 1⟩
/-- R429. -/
def FLS_DSC_CMD_ERR : Fld := ⟨.FLS_DSC_CMD, 30, 1⟩
/-- R423. -/
def FLS_GEOM_TARGETS : Fld := ⟨.FLS_GEOM, 0, 4⟩
/-- R423. -/
def FLS_GEOM_LUNS : Fld := ⟨.FLS_GEOM, 4, 6⟩
/-- R423. -/
def FLS_GEOM_PLANES : Fld := ⟨.FLS_GEOM, 10, 2⟩
/-- R423. -/
def FLS_GEOM_MP_READ : Fld := ⟨.FLS_GEOM, 12, 1⟩
/-- R423. -/
def FLS_GEOM_MP_PROG : Fld := ⟨.FLS_GEOM, 13, 1⟩
/-- R423. -/
def FLS_GEOM_SUSPEND : Fld := ⟨.FLS_GEOM, 14, 1⟩
/-- R423. -/
def FLS_GEOM_VCCQ_LOW : Fld := ⟨.FLS_GEOM, 15, 1⟩
/-- R423. -/
def FLS_GEOM_RATE : Fld := ⟨.FLS_GEOM, 16, 12⟩
/-- R427. -/
def FLS_MEDIA_CTL_ERR_THRESH : Fld := ⟨.FLS_MEDIA_CTL, 0, 8⟩
/-- R427. -/
def FLS_MEDIA_CTL_PATROL_DAYS : Fld := ⟨.FLS_MEDIA_CTL, 8, 8⟩
/-- R427. -/
def FLS_MEDIA_CTL_RD_LIMIT : Fld := ⟨.FLS_MEDIA_CTL, 16, 16⟩
/-- R428. -/
def FLS_MEDIA_STAT_RETIRED : Fld := ⟨.FLS_MEDIA_STAT, 0, 8⟩
/-- R428. -/
def FLS_MEDIA_STAT_REWRITES : Fld := ⟨.FLS_MEDIA_STAT, 8, 8⟩
/-- R428. -/
def FLS_MEDIA_STAT_RD_REFRESH : Fld := ⟨.FLS_MEDIA_STAT, 16, 8⟩
/-- R428. -/
def FLS_MEDIA_STAT_LOST : Fld := ⟨.FLS_MEDIA_STAT, 24, 8⟩
/-- R426. -/
def FLS_POL_RETIRE_ERASE : Fld := ⟨.FLS_POL, 0, 1⟩
/-- R426. -/
def FLS_POL_READ_REWRITE : Fld := ⟨.FLS_POL, 1, 1⟩
/-- R425. -/
def FLS_POL_SEL_INDEX : Fld := ⟨.FLS_POL_SEL, 0, 8⟩
/-- R425. -/
def FLS_POL_SEL_DEFAULT : Fld := ⟨.FLS_POL_SEL, 8, 1⟩
/-- R296. -/
def FLS_SCORE_CAP_TABLE_KIB : Fld := ⟨.FLS_SCORE_CAP, 0, 12⟩
/-- R296. -/
def FLS_SCORE_CAP_MAX_TABLES : Fld := ⟨.FLS_SCORE_CAP, 16, 5⟩
/-- R297. -/
def FLS_SCORE_STAT_SOFT : Fld := ⟨.FLS_SCORE_STAT, 0, 8⟩
/-- R297. -/
def FLS_SCORE_STAT_LDPC_UE : Fld := ⟨.FLS_SCORE_STAT, 8, 8⟩
/-- R297. -/
def FLS_SCORE_STAT_BADSCALE : Fld := ⟨.FLS_SCORE_STAT, 16, 8⟩
/-- R297. -/
def FLS_SCORE_STAT_NOTFLASH : Fld := ⟨.FLS_SCORE_STAT, 24, 8⟩
/-- R424. -/
def FLS_USED_V : Fld := ⟨.FLS_USED, 0, 20⟩
/-- R324. -/
def SEL_CAP_STORE_K : Fld := ⟨.SEL_CAP, 0, 8⟩
/-- R324. -/
def SEL_CAP_SIEVE_K : Fld := ⟨.SEL_CAP, 8, 8⟩
/-- R324. -/
def SEL_CAP_INPUTS : Fld := ⟨.SEL_CAP, 16, 8⟩
/-- R325. -/
def SEL_STAT_ORPHAN : Fld := ⟨.SEL_STAT, 0, 16⟩
/-- R325. -/
def SEL_STAT_SPILL_FULL : Fld := ⟨.SEL_STAT, 16, 8⟩
/-- R325. -/
def SEL_STAT_SIEVE_REP : Fld := ⟨.SEL_STAT, 24, 8⟩
/-- R349. -/
def SCA_CAP_CLUSTERS : Fld := ⟨.SCA_CAP, 0, 4⟩
/-- R349. -/
def SCA_CAP_MACS_K : Fld := ⟨.SCA_CAP, 8, 8⟩
/-- R349. -/
def SCA_CAP_REGIONS : Fld := ⟨.SCA_CAP, 16, 8⟩
/-- R350. -/
def SCA_STAT_ABFT_MM : Fld := ⟨.SCA_STAT, 0, 8⟩
/-- R350. -/
def SCA_STAT_ABFT_UE : Fld := ⟨.SCA_STAT, 8, 8⟩
/-- R350. -/
def SCA_STAT_NAN_OUT : Fld := ⟨.SCA_STAT, 16, 8⟩
/-- R350. -/
def SCA_STAT_OVC_REF : Fld := ⟨.SCA_STAT, 24, 8⟩
/-- R369. -/
def TBE_CAP_DIM_MAX : Fld := ⟨.TBE_CAP, 0, 13⟩
/-- R369. -/
def TBE_CAP_INSTANCES : Fld := ⟨.TBE_CAP, 16, 8⟩
/-- R370. -/
def TBE_STAT_DEFAULT_HITS : Fld := ⟨.TBE_STAT, 0, 16⟩
/-- R370. -/
def TBE_STAT_STALE : Fld := ⟨.TBE_STAT, 16, 8⟩
/-- R370. -/
def TBE_STAT_COPY_RETRY : Fld := ⟨.TBE_STAT, 24, 8⟩
/-- R184. -/
def TIR_EPOCH_CTL_INTERVAL : Fld := ⟨.TIR_EPOCH_CTL, 0, 7⟩
/-- R183. -/
def TIR_EPOCH_HI_V : Fld := ⟨.TIR_EPOCH_HI, 0, 16⟩
/-- R183. -/
def TIR_EPOCH_LO_V : Fld := ⟨.TIR_EPOCH_LO, 0, 32⟩
/-- R203. -/
def TIR_HOLD_HI_V : Fld := ⟨.TIR_HOLD_HI, 0, 16⟩
/-- R203. -/
def TIR_HOLD_LO_V : Fld := ⟨.TIR_HOLD_LO, 0, 32⟩
/-- R174. -/
def TIR_IDX_CMD_INDEX : Fld := ⟨.TIR_IDX_CMD, 0, 8⟩
/-- R174. -/
def TIR_IDX_CMD_DOMAIN : Fld := ⟨.TIR_IDX_CMD, 8, 12⟩
/-- R174. -/
def TIR_IDX_CMD_OP : Fld := ⟨.TIR_IDX_CMD, 20, 4⟩
/-- R176. -/
def TIR_IDX_DESC_HI_V : Fld := ⟨.TIR_IDX_DESC_HI, 0, 24⟩
/-- R176. -/
def TIR_IDX_DESC_LO_V : Fld := ⟨.TIR_IDX_DESC_LO, 0, 32⟩
/-- R178. -/
def TIR_IDX_OVL_V : Fld := ⟨.TIR_IDX_OVL, 0, 32⟩
/-- R177. -/
def TIR_IDX_STAT_STATUS : Fld := ⟨.TIR_IDX_STAT, 0, 8⟩
/-- R177. -/
def TIR_IDX_STAT_BUSY : Fld := ⟨.TIR_IDX_STAT, 8, 1⟩
/-- R177. -/
def TIR_IDX_STAT_INSTALLED : Fld := ⟨.TIR_IDX_STAT, 9, 1⟩
/-- R177. -/
def TIR_IDX_STAT_OVERRIDE : Fld := ⟨.TIR_IDX_STAT, 10, 1⟩
/-- R177. -/
def TIR_IDX_STAT_REFUSED : Fld := ⟨.TIR_IDX_STAT, 16, 16⟩
/-- R212. -/
def TIR_MERGE_DUE_V : Fld := ⟨.TIR_MERGE_DUE, 0, 25⟩
/-- R212. -/
def TIR_MERGE_STAT_OPEN : Fld := ⟨.TIR_MERGE_STAT, 0, 8⟩
/-- R212. -/
def TIR_MERGE_STAT_RECOVERING : Fld := ⟨.TIR_MERGE_STAT, 8, 1⟩
/-- R212. -/
def TIR_MERGE_STAT_DEFERRED : Fld := ⟨.TIR_MERGE_STAT, 16, 16⟩
/-- R400. -/
def TIR_MIG_STAT_ACTIVE : Fld := ⟨.TIR_MIG_STAT, 0, 8⟩
/-- R400. -/
def TIR_MIG_STAT_ABANDONED : Fld := ⟨.TIR_MIG_STAT, 8, 8⟩
/-- R400. -/
def TIR_MIG_STAT_FINAL_MAX : Fld := ⟨.TIR_MIG_STAT, 16, 8⟩
/-- R400. -/
def TIR_MIG_STAT_CLR : Fld := ⟨.TIR_MIG_STAT, 31, 1⟩
/-- R202. -/
def TIR_PIN_STAT_PINS : Fld := ⟨.TIR_PIN_STAT, 0, 11⟩
/-- R202. -/
def TIR_PIN_STAT_REFUSED : Fld := ⟨.TIR_PIN_STAT, 16, 16⟩
/-- R397. -/
def TIR_RGN_CMD_DOMAIN : Fld := ⟨.TIR_RGN_CMD, 0, 12⟩
/-- R397. -/
def TIR_RGN_CMD_OP : Fld := ⟨.TIR_RGN_CMD, 12, 4⟩
/-- R399. -/
def TIR_RGN_COUNT_REGIONS : Fld := ⟨.TIR_RGN_COUNT, 0, 17⟩
/-- R399. -/
def TIR_RGN_COUNT_LOST : Fld := ⟨.TIR_RGN_COUNT, 24, 8⟩
/-- R397. -/
def TIR_RGN_DESC_HI_V : Fld := ⟨.TIR_RGN_DESC_HI, 0, 24⟩
/-- R397. -/
def TIR_RGN_DESC_HI_HOST : Fld := ⟨.TIR_RGN_DESC_HI, 31, 1⟩
/-- R397. -/
def TIR_RGN_DESC_LO_V : Fld := ⟨.TIR_RGN_DESC_LO, 0, 32⟩
/-- R398. -/
def TIR_RGN_STAT_STATUS : Fld := ⟨.TIR_RGN_STAT, 0, 8⟩
/-- R398. -/
def TIR_RGN_STAT_REASON : Fld := ⟨.TIR_RGN_STAT, 8, 8⟩
/-- R398. -/
def TIR_RGN_STAT_BUSY : Fld := ⟨.TIR_RGN_STAT, 16, 1⟩
/-- R398. -/
def TIR_RGN_STAT_REFUSED : Fld := ⟨.TIR_RGN_STAT, 24, 8⟩
/-- R512. -/
def DMA_ERR_CHANNEL : Fld := ⟨.DMA_ERR, 0, 6⟩
/-- R512. -/
def DMA_ERR_INDEX : Fld := ⟨.DMA_ERR, 6, 17⟩
/-- R512. -/
def DMA_ERR_VALID : Fld := ⟨.DMA_ERR, 23, 1⟩
/-- R512. -/
def DMA_ERR_LATER : Fld := ⟨.DMA_ERR, 24, 4⟩
/-- R512. -/
def DMA_ERR_RESTART : Fld := ⟨.DMA_ERR, 31, 1⟩
/-- R512. -/
def DMA_ERR_ADDR_HI_V : Fld := ⟨.DMA_ERR_ADDR_HI, 0, 32⟩
/-- R512. -/
def DMA_ERR_ADDR_LO_V : Fld := ⟨.DMA_ERR_ADDR_LO, 0, 32⟩
/-- R481. -/
def FAB_HO_CMD_DOMAIN : Fld := ⟨.FAB_HO_CMD, 0, 12⟩
/-- R481. -/
def FAB_HO_CMD_OP : Fld := ⟨.FAB_HO_CMD, 12, 4⟩
/-- R481. -/
def FAB_HO_CMD_ACCEPT : Fld := ⟨.FAB_HO_CMD, 16, 1⟩
/-- R481. -/
def FAB_HO_CMD_TMO : Fld := ⟨.FAB_HO_CMD, 17, 10⟩
/-- R481. -/
def FAB_HO_CMD_BUSY : Fld := ⟨.FAB_HO_CMD, 27, 1⟩
/-- R481. -/
def FAB_HO_DESC_HI_V : Fld := ⟨.FAB_HO_DESC_HI, 0, 24⟩
/-- R481. -/
def FAB_HO_DESC_LO_V : Fld := ⟨.FAB_HO_DESC_LO, 0, 32⟩
/-- R481. -/
def FAB_HO_STAT_STATUS : Fld := ⟨.FAB_HO_STAT, 0, 8⟩
/-- R481. -/
def FAB_HO_STAT_REASON : Fld := ⟨.FAB_HO_STAT, 8, 8⟩
/-- R455. -/
def FAB_INFLIGHT_REMOTE : Fld := ⟨.FAB_INFLIGHT, 0, 15⟩
/-- R455. -/
def FAB_INFLIGHT_COPIES_IN : Fld := ⟨.FAB_INFLIGHT, 16, 14⟩
/-- R479. -/
def FAB_MAP_CMD_COMP : Fld := ⟨.FAB_MAP_CMD, 0, 8⟩
/-- R479. -/
def FAB_MAP_CMD_OP : Fld := ⟨.FAB_MAP_CMD, 8, 4⟩
/-- R479. -/
def FAB_MAP_DESC_HI_V : Fld := ⟨.FAB_MAP_DESC_HI, 0, 24⟩
/-- R479. -/
def FAB_MAP_DESC_LO_V : Fld := ⟨.FAB_MAP_DESC_LO, 0, 32⟩
/-- R480. -/
def FAB_MAP_REASON_V : Fld := ⟨.FAB_MAP_REASON, 0, 8⟩
/-- R480. -/
def FAB_MAP_STAT_STATUS : Fld := ⟨.FAB_MAP_STAT, 0, 8⟩
/-- R480. -/
def FAB_MAP_STAT_BUSY : Fld := ⟨.FAB_MAP_STAT, 8, 1⟩
/-- R480. -/
def FAB_MAP_STAT_DRAINING : Fld := ⟨.FAB_MAP_STAT, 9, 1⟩
/-- R480. -/
def FAB_MAP_STAT_STAGED : Fld := ⟨.FAB_MAP_STAT, 10, 1⟩
/-- R480. -/
def FAB_MAP_STAT_EPOCH : Fld := ⟨.FAB_MAP_STAT, 16, 16⟩
/-- R478. -/
def FAB_MINPORTS_MIN : Fld := ⟨.FAB_MINPORTS, 0, 4⟩
/-- R478. -/
def FAB_MINPORTS_COUNT : Fld := ⟨.FAB_MINPORTS, 4, 4⟩
/-- R478. -/
def FAB_MINPORTS_BELOW : Fld := ⟨.FAB_MINPORTS, 8, 1⟩
/-- R478. -/
def FAB_MINPORTS_REPLAY_US : Fld := ⟨.FAB_MINPORTS, 9, 15⟩
/-- R478. -/
def FAB_MINPORTS_RECORD_FULL : Fld := ⟨.FAB_MINPORTS, 24, 8⟩
/-- R430. -/
def FAB_NODE_NODE : Fld := ⟨.FAB_NODE, 0, 12⟩
/-- R430. -/
def FAB_NODE_VALID : Fld := ⟨.FAB_NODE, 16, 1⟩
/-- R477. -/
def FAB_PORT_CMD_PORTS : Fld := ⟨.FAB_PORT_CMD, 0, 8⟩
/-- R477. -/
def FAB_PORT_CMD_RETRY : Fld := ⟨.FAB_PORT_CMD, 8, 1⟩
/-- R477. -/
def FAB_PORT_CMD_HOLD : Fld := ⟨.FAB_PORT_CMD, 9, 1⟩
/-- R476. -/
def FAB_PORT_STAT_STATE : Fld := ⟨.FAB_PORT_STAT, 0, 4⟩
/-- R476. -/
def FAB_PORT_STAT_WIDTH : Fld := ⟨.FAB_PORT_STAT, 4, 2⟩
/-- R476. -/
def FAB_PORT_STAT_DEGRADED : Fld := ⟨.FAB_PORT_STAT, 6, 1⟩
/-- R476. -/
def FAB_PORT_STAT_DIRECT : Fld := ⟨.FAB_PORT_STAT, 7, 1⟩
/-- R476. -/
def FAB_PORT_STAT_PEER : Fld := ⟨.FAB_PORT_STAT, 8, 12⟩
/-- R476. -/
def FAB_PORT_STAT_RETRAINS : Fld := ⟨.FAB_PORT_STAT, 20, 4⟩
/-- R476. -/
def FAB_PORT_STAT_AUTH_FAIL : Fld := ⟨.FAB_PORT_STAT, 24, 8⟩
/-- R452. -/
def FAB_WIN_CMD_WINDOW : Fld := ⟨.FAB_WIN_CMD, 0, 12⟩
/-- R452. -/
def FAB_WIN_CMD_OP : Fld := ⟨.FAB_WIN_CMD, 12, 4⟩
/-- R452. -/
def FAB_WIN_CMD_DOMAIN : Fld := ⟨.FAB_WIN_CMD, 16, 12⟩
/-- R452. -/
def FAB_WIN_DESC_HI_V : Fld := ⟨.FAB_WIN_DESC_HI, 0, 24⟩
/-- R452. -/
def FAB_WIN_DESC_LO_V : Fld := ⟨.FAB_WIN_DESC_LO, 0, 32⟩
/-- R453. -/
def FAB_WIN_STAT_STATUS : Fld := ⟨.FAB_WIN_STAT, 0, 8⟩
/-- R453. -/
def FAB_WIN_STAT_REASON : Fld := ⟨.FAB_WIN_STAT, 8, 8⟩
/-- R453. -/
def FAB_WIN_STAT_BUSY : Fld := ⟨.FAB_WIN_STAT, 16, 1⟩
/-- R453. -/
def FAB_WIN_STAT_EXISTS : Fld := ⟨.FAB_WIN_STAT, 17, 1⟩
/-- R453. -/
def FAB_WIN_STAT_LEDGERED : Fld := ⟨.FAB_WIN_STAT, 18, 1⟩
/-- R454. -/
def FAB_XACT_STAT_BADHDR : Fld := ⟨.FAB_XACT_STAT, 0, 8⟩
/-- R454. -/
def FAB_XACT_STAT_TMO : Fld := ⟨.FAB_XACT_STAT, 8, 8⟩
/-- R454. -/
def FAB_XACT_STAT_HELD_FULL : Fld := ⟨.FAB_XACT_STAT, 16, 8⟩
/-- R454. -/
def FAB_XACT_STAT_NOATOM : Fld := ⟨.FAB_XACT_STAT, 24, 8⟩
/-- R531. -/
def TRF_DOMQ_LC_Q : Fld := ⟨.TRF_DOMQ, 0, 4⟩
/-- R531. -/
def TRF_DOMQ_BE_Q : Fld := ⟨.TRF_DOMQ, 4, 4⟩
/-- R531. -/
def TRF_DOMQ_SEL_V : Fld := ⟨.TRF_DOMQ_SEL, 0, 12⟩
/-- R534. -/
def TRF_GL_CTL_LEN : Fld := ⟨.TRF_GL_CTL, 0, 9⟩
/-- R534. -/
def TRF_GL_CTL_ARM : Fld := ⟨.TRF_GL_CTL, 9, 1⟩
/-- R534. -/
def TRF_GL_CTL_CANCEL : Fld := ⟨.TRF_GL_CTL, 10, 1⟩
/-- R534. -/
def TRF_GL_CTL_STAGED : Fld := ⟨.TRF_GL_CTL, 11, 1⟩
/-- R534. -/
def TRF_GL_CTL_ACTIVE : Fld := ⟨.TRF_GL_CTL, 12, 1⟩
/-- R534. -/
def TRF_GL_CTL_ERR : Fld := ⟨.TRF_GL_CTL, 13, 1⟩
/-- R534. -/
def TRF_GL_HI_V : Fld := ⟨.TRF_GL_HI, 0, 32⟩
/-- R534. -/
def TRF_GL_HZN_HI_V : Fld := ⟨.TRF_GL_HZN_HI, 0, 32⟩
/-- R534. -/
def TRF_GL_HZN_LO_V : Fld := ⟨.TRF_GL_HZN_LO, 0, 32⟩
/-- R534. -/
def TRF_GL_LO_V : Fld := ⟨.TRF_GL_LO, 0, 32⟩
/-- R534. -/
def TRF_GL_SEL_PORT : Fld := ⟨.TRF_GL_SEL, 0, 4⟩
/-- R534. -/
def TRF_GL_SEL_ENTRY : Fld := ⟨.TRF_GL_SEL, 4, 8⟩
/-- R529. -/
def TRF_ING_RATE : Fld := ⟨.TRF_ING, 0, 16⟩
/-- R529. -/
def TRF_ING_BURST : Fld := ⟨.TRF_ING, 16, 16⟩
/-- R529. -/
def TRF_ING_DROP_V : Fld := ⟨.TRF_ING_DROP, 0, 32⟩
/-- R529. -/
def TRF_ING_SEL_V : Fld := ⟨.TRF_ING_SEL, 0, 12⟩
/-- R536. -/
def TRF_QW0_W0 : Fld := ⟨.TRF_QW0, 0, 8⟩
/-- R536. -/
def TRF_QW0_W1 : Fld := ⟨.TRF_QW0, 8, 8⟩
/-- R536. -/
def TRF_QW0_W2 : Fld := ⟨.TRF_QW0, 16, 8⟩
/-- R536. -/
def TRF_QW0_W3 : Fld := ⟨.TRF_QW0, 24, 8⟩
/-- R536. -/
def TRF_QW1_W0 : Fld := ⟨.TRF_QW1, 0, 8⟩
/-- R536. -/
def TRF_QW1_W1 : Fld := ⟨.TRF_QW1, 8, 8⟩
/-- R536. -/
def TRF_QW1_W2 : Fld := ⟨.TRF_QW1, 16, 8⟩
/-- R536. -/
def TRF_QW1_W3 : Fld := ⟨.TRF_QW1, 24, 8⟩
/-- R536. -/
def TRF_QW2_W0 : Fld := ⟨.TRF_QW2, 0, 8⟩
/-- R536. -/
def TRF_QW2_W1 : Fld := ⟨.TRF_QW2, 8, 8⟩
/-- R536. -/
def TRF_QW2_W2 : Fld := ⟨.TRF_QW2, 16, 8⟩
/-- R536. -/
def TRF_QW2_W3 : Fld := ⟨.TRF_QW2, 24, 8⟩
/-- R536. -/
def TRF_QW3_W0 : Fld := ⟨.TRF_QW3, 0, 8⟩
/-- R536. -/
def TRF_QW3_W1 : Fld := ⟨.TRF_QW3, 8, 8⟩
/-- R536. -/
def TRF_QW3_W2 : Fld := ⟨.TRF_QW3, 16, 8⟩
/-- R536. -/
def TRF_QW_SEL_V : Fld := ⟨.TRF_QW_SEL, 0, 4⟩
/-- R538. -/
def TRF_SMP_BASE_HI_V : Fld := ⟨.TRF_SMP_BASE_HI, 0, 32⟩
/-- R538. -/
def TRF_SMP_BASE_LO_V : Fld := ⟨.TRF_SMP_BASE_LO, 12, 20⟩
/-- R538. -/
def TRF_SMP_CTL_INTERVAL : Fld := ⟨.TRF_SMP_CTL, 0, 10⟩
/-- R538. -/
def TRF_SMP_CTL_PORTS : Fld := ⟨.TRF_SMP_CTL, 10, 9⟩
/-- R538. -/
def TRF_SMP_CTL_ENABLE : Fld := ⟨.TRF_SMP_CTL, 19, 1⟩
/-- R538. -/
def TRF_SMP_CTL_SIZE : Fld := ⟨.TRF_SMP_CTL, 20, 4⟩
/-- R537. -/
def TRF_SMP_DOM_V : Fld := ⟨.TRF_SMP_DOM, 0, 12⟩
/-- R538. -/
def TRF_SMP_HEAD_V : Fld := ⟨.TRF_SMP_HEAD, 0, 16⟩
/-- R538. -/
def TRF_SMP_STAT_TAIL : Fld := ⟨.TRF_SMP_STAT, 0, 16⟩
/-- R538. -/
def TRF_SMP_STAT_LOST : Fld := ⟨.TRF_SMP_STAT, 16, 16⟩
/-- R568. -/
def SMC_CFG_CTL_ARM : Fld := ⟨.SMC_CFG_CTL, 0, 1⟩
/-- R568. -/
def SMC_CFG_CTL_CANCEL : Fld := ⟨.SMC_CFG_CTL, 1, 1⟩
/-- R568. -/
def SMC_CFG_CTL_STAGED : Fld := ⟨.SMC_CFG_CTL, 2, 1⟩
/-- R568. -/
def SMC_CFG_CTL_MISMATCH : Fld := ⟨.SMC_CFG_CTL, 3, 1⟩
/-- R568. -/
def SMC_CFG_CTL_ERR : Fld := ⟨.SMC_CFG_CTL, 4, 1⟩
/-- R568. -/
def SMC_CFG_CTL_GRACE_MS : Fld := ⟨.SMC_CFG_CTL, 16, 8⟩
/-- R566. -/
def SMC_CFG_DIG0_V : Fld := ⟨.SMC_CFG_DIG0, 0, 32⟩
/-- R566. -/
def SMC_CFG_DIG1_V : Fld := ⟨.SMC_CFG_DIG1, 0, 32⟩
/-- R566. -/
def SMC_CFG_DIG2_V : Fld := ⟨.SMC_CFG_DIG2, 0, 32⟩
/-- R566. -/
def SMC_CFG_DIG3_V : Fld := ⟨.SMC_CFG_DIG3, 0, 32⟩
/-- R566. -/
def SMC_CFG_DIG4_V : Fld := ⟨.SMC_CFG_DIG4, 0, 32⟩
/-- R566. -/
def SMC_CFG_DIG5_V : Fld := ⟨.SMC_CFG_DIG5, 0, 32⟩
/-- R566. -/
def SMC_CFG_DIG6_V : Fld := ⟨.SMC_CFG_DIG6, 0, 32⟩
/-- R566. -/
def SMC_CFG_DIG7_V : Fld := ⟨.SMC_CFG_DIG7, 0, 32⟩
/-- R567. -/
def SMC_CFG_EPOCH_HI_V : Fld := ⟨.SMC_CFG_EPOCH_HI, 0, 32⟩
/-- R567. -/
def SMC_CFG_EPOCH_LO_V : Fld := ⟨.SMC_CFG_EPOCH_LO, 0, 32⟩
/-- R567. -/
def SMC_CFG_EXP0_V : Fld := ⟨.SMC_CFG_EXP0, 0, 32⟩
/-- R567. -/
def SMC_CFG_EXP1_V : Fld := ⟨.SMC_CFG_EXP1, 0, 32⟩
/-- R567. -/
def SMC_CFG_EXP2_V : Fld := ⟨.SMC_CFG_EXP2, 0, 32⟩
/-- R567. -/
def SMC_CFG_EXP3_V : Fld := ⟨.SMC_CFG_EXP3, 0, 32⟩
/-- R567. -/
def SMC_CFG_EXP4_V : Fld := ⟨.SMC_CFG_EXP4, 0, 32⟩
/-- R567. -/
def SMC_CFG_EXP5_V : Fld := ⟨.SMC_CFG_EXP5, 0, 32⟩
/-- R567. -/
def SMC_CFG_EXP6_V : Fld := ⟨.SMC_CFG_EXP6, 0, 32⟩
/-- R567. -/
def SMC_CFG_EXP7_V : Fld := ⟨.SMC_CFG_EXP7, 0, 32⟩
/-- R567. -/
def SMC_CFG_HZN_HI_V : Fld := ⟨.SMC_CFG_HZN_HI, 0, 32⟩
/-- R567. -/
def SMC_CFG_HZN_LO_V : Fld := ⟨.SMC_CFG_HZN_LO, 0, 32⟩
/-- R567. -/
def SMC_CFG_STG_HI_V : Fld := ⟨.SMC_CFG_STG_HI, 0, 32⟩
/-- R567. -/
def SMC_CFG_STG_LO_V : Fld := ⟨.SMC_CFG_STG_LO, 0, 32⟩
/-- R541. -/
def SMC_DOM_CMD_DOMAIN : Fld := ⟨.SMC_DOM_CMD, 0, 12⟩
/-- R541. -/
def SMC_DOM_CMD_OP : Fld := ⟨.SMC_DOM_CMD, 12, 4⟩
/-- R541. -/
def SMC_DOM_CMD_PART : Fld := ⟨.SMC_DOM_CMD, 16, 4⟩
/-- R541. -/
def SMC_DOM_STAT_STATUS : Fld := ⟨.SMC_DOM_STAT, 0, 8⟩
/-- R541. -/
def SMC_DOM_STAT_REASON : Fld := ⟨.SMC_DOM_STAT, 8, 8⟩
/-- R541. -/
def SMC_DOM_STAT_BUSY : Fld := ⟨.SMC_DOM_STAT, 16, 1⟩
/-- R541. -/
def SMC_DOM_STAT_STATE : Fld := ⟨.SMC_DOM_STAT, 17, 2⟩
/-- R570. -/
def SMC_EXPEL_SEL_V : Fld := ⟨.SMC_EXPEL_SEL, 0, 12⟩
/-- R570. -/
def SMC_EXPEL_STAT_V : Fld := ⟨.SMC_EXPEL_STAT, 0, 1⟩
/-- R570. -/
def SMC_FENCE_STAT_FENCED : Fld := ⟨.SMC_FENCE_STAT, 0, 1⟩
/-- R570. -/
def SMC_FENCE_STAT_CAUSE : Fld := ⟨.SMC_FENCE_STAT, 1, 2⟩
/-- R570. -/
def SMC_FENCE_STAT_ARMED : Fld := ⟨.SMC_FENCE_STAT, 3, 1⟩
/-- R570. -/
def SMC_FENCE_STAT_REJECTED : Fld := ⟨.SMC_FENCE_STAT, 16, 16⟩
/-- R664. -/
def SMC_LIFECYCLE_PRODUCTION : Fld := ⟨.SMC_LIFECYCLE, 0, 1⟩
/-- R664. -/
def SMC_LIFECYCLE_LOCKED : Fld := ⟨.SMC_LIFECYCLE, 1, 1⟩
/-- R664. -/
def SMC_LIFECYCLE_CONFIRM : Fld := ⟨.SMC_LIFECYCLE, 8, 8⟩
/-- R664. -/
def SMC_LIFECYCLE_GO_PROD : Fld := ⟨.SMC_LIFECYCLE, 16, 1⟩
/-- R664. -/
def SMC_LIFECYCLE_LOCK : Fld := ⟨.SMC_LIFECYCLE, 17, 1⟩
/-- R664. -/
def SMC_LIFECYCLE_REFUSED : Fld := ⟨.SMC_LIFECYCLE, 24, 8⟩
/-- R569. -/
def SMC_MGMT_CTL_Q : Fld := ⟨.SMC_MGMT_CTL, 0, 4⟩
/-- R569. -/
def SMC_MGMT_CTL_COMPAT : Fld := ⟨.SMC_MGMT_CTL, 4, 1⟩
/-- R569. -/
def SMC_MGMT_CTL_LEASE_MS : Fld := ⟨.SMC_MGMT_CTL, 5, 13⟩
/-- R569. -/
def SMC_MGR_DIG0_V : Fld := ⟨.SMC_MGR_DIG0, 0, 32⟩
/-- R569. -/
def SMC_MGR_DIG1_V : Fld := ⟨.SMC_MGR_DIG1, 0, 32⟩
/-- R569. -/
def SMC_MGR_DIG2_V : Fld := ⟨.SMC_MGR_DIG2, 0, 32⟩
/-- R569. -/
def SMC_MGR_DIG3_V : Fld := ⟨.SMC_MGR_DIG3, 0, 32⟩
/-- R569. -/
def SMC_MGR_DIG4_V : Fld := ⟨.SMC_MGR_DIG4, 0, 32⟩
/-- R569. -/
def SMC_MGR_DIG5_V : Fld := ⟨.SMC_MGR_DIG5, 0, 32⟩
/-- R569. -/
def SMC_MGR_DIG6_V : Fld := ⟨.SMC_MGR_DIG6, 0, 32⟩
/-- R569. -/
def SMC_MGR_DIG7_V : Fld := ⟨.SMC_MGR_DIG7, 0, 32⟩
/-- R569. -/
def SMC_MGR_SEL_V : Fld := ⟨.SMC_MGR_SEL, 0, 4⟩
/-- R548. -/
def SMC_PART_DMA_HI_V : Fld := ⟨.SMC_PART_DMA_HI, 0, 32⟩
/-- R548. -/
def SMC_PART_DMA_LO_V : Fld := ⟨.SMC_PART_DMA_LO, 0, 32⟩
/-- R548. -/
def SMC_PART_ENG_SCA : Fld := ⟨.SMC_PART_ENG, 0, 8⟩
/-- R548. -/
def SMC_PART_ENG_TBE : Fld := ⟨.SMC_PART_ENG, 8, 2⟩
/-- R548. -/
def SMC_PART_ENG_QUEUES : Fld := ⟨.SMC_PART_ENG, 10, 15⟩
/-- R548. -/
def SMC_PART_SEL_V : Fld := ⟨.SMC_PART_SEL, 0, 4⟩
/-- R548. -/
def SMC_PART_SEQ0_V : Fld := ⟨.SMC_PART_SEQ0, 0, 32⟩
/-- R548. -/
def SMC_PART_SEQ1_V : Fld := ⟨.SMC_PART_SEQ1, 0, 32⟩
/-- R548. -/
def SMC_PART_SEQ2_V : Fld := ⟨.SMC_PART_SEQ2, 0, 32⟩
/-- R548. -/
def SMC_PART_SEQ3_V : Fld := ⟨.SMC_PART_SEQ3, 0, 32⟩
/-- R47. -/
def SMC_PTP_CTL_DOMAIN : Fld := ⟨.SMC_PTP_CTL, 0, 8⟩
/-- R47. -/
def SMC_PTP_CTL_PORTS : Fld := ⟨.SMC_PTP_CTL, 8, 2⟩
/-- R47. -/
def SMC_PTP_CTL_P2P : Fld := ⟨.SMC_PTP_CTL, 10, 1⟩
/-- R48. -/
def SMC_PTP_OFFSET_V : Fld := ⟨.SMC_PTP_OFFSET, 0, 32⟩
/-- R48. -/
def SMC_PTP_STAT_SYNC : Fld := ⟨.SMC_PTP_STAT, 0, 1⟩
/-- R48. -/
def SMC_PTP_STAT_ACTIVE : Fld := ⟨.SMC_PTP_STAT, 1, 2⟩
/-- R48. -/
def SMC_PTP_STAT_SLEWING : Fld := ⟨.SMC_PTP_STAT, 3, 1⟩
/-- R48. -/
def SMC_PTP_STAT_HOLDOVER_SEEN : Fld := ⟨.SMC_PTP_STAT, 4, 1⟩
/-- R48. -/
def SMC_PTP_STAT_SWITCHOVER_SEEN : Fld := ⟨.SMC_PTP_STAT, 5, 1⟩
/-- R546. -/
def SMC_TENANCY_MODE : Fld := ⟨.SMC_TENANCY, 0, 1⟩
/-- R546. -/
def SMC_TENANCY_TIMING_CLEAN : Fld := ⟨.SMC_TENANCY, 1, 1⟩
/-- R46. -/
def SMC_TIME_HI_V : Fld := ⟨.SMC_TIME_HI, 0, 32⟩
/-- R46. -/
def SMC_TIME_LO_V : Fld := ⟨.SMC_TIME_LO, 0, 32⟩
/-- R584. -/
def PRB_DIE_ID_HI_V : Fld := ⟨.PRB_DIE_ID_HI, 0, 32⟩
/-- R584. -/
def PRB_DIE_ID_LO_V : Fld := ⟨.PRB_DIE_ID_LO, 0, 32⟩
/-- R584. -/
def PRB_DIE_SEL_V : Fld := ⟨.PRB_DIE_SEL, 0, 5⟩
/-- R634. -/
def PRB_ECC_STAT_CE : Fld := ⟨.PRB_ECC_STAT, 0, 16⟩
/-- R634. -/
def PRB_ECC_STAT_UE : Fld := ⟨.PRB_ECC_STAT, 16, 8⟩
/-- R18. -/
def PRB_FDOM_TRAY : Fld := ⟨.PRB_FDOM, 0, 8⟩
/-- R18. -/
def PRB_FDOM_PSHELF : Fld := ⟨.PRB_FDOM, 8, 8⟩
/-- R18. -/
def PRB_FDOM_COOL : Fld := ⟨.PRB_FDOM, 16, 8⟩
/-- R18. -/
def PRB_FDOM_SWITCH : Fld := ⟨.PRB_FDOM, 24, 8⟩
/-- R633. -/
def PRB_FLT_NEWEST_V : Fld := ⟨.PRB_FLT_NEWEST, 0, 32⟩
/-- R633. -/
def PRB_FLT_SEL_V : Fld := ⟨.PRB_FLT_SEL, 0, 32⟩
/-- R633. -/
def PRB_FLT_STAT_COUNT : Fld := ⟨.PRB_FLT_STAT, 0, 11⟩
/-- R633. -/
def PRB_FLT_STAT_OVERWRITTEN : Fld := ⟨.PRB_FLT_STAT, 16, 16⟩
/-- R633. -/
def PRB_FLT_WORD0_V : Fld := ⟨.PRB_FLT_WORD0, 0, 32⟩
/-- R633. -/
def PRB_FLT_WORD1_V : Fld := ⟨.PRB_FLT_WORD1, 0, 32⟩
/-- R633. -/
def PRB_FLT_WORD10_V : Fld := ⟨.PRB_FLT_WORD10, 0, 32⟩
/-- R633. -/
def PRB_FLT_WORD11_V : Fld := ⟨.PRB_FLT_WORD11, 0, 32⟩
/-- R633. -/
def PRB_FLT_WORD12_V : Fld := ⟨.PRB_FLT_WORD12, 0, 32⟩
/-- R633. -/
def PRB_FLT_WORD13_V : Fld := ⟨.PRB_FLT_WORD13, 0, 32⟩
/-- R633. -/
def PRB_FLT_WORD14_V : Fld := ⟨.PRB_FLT_WORD14, 0, 32⟩
/-- R633. -/
def PRB_FLT_WORD15_V : Fld := ⟨.PRB_FLT_WORD15, 0, 32⟩
/-- R633. -/
def PRB_FLT_WORD2_V : Fld := ⟨.PRB_FLT_WORD2, 0, 32⟩
/-- R633. -/
def PRB_FLT_WORD3_V : Fld := ⟨.PRB_FLT_WORD3, 0, 32⟩
/-- R633. -/
def PRB_FLT_WORD4_V : Fld := ⟨.PRB_FLT_WORD4, 0, 32⟩
/-- R633. -/
def PRB_FLT_WORD5_V : Fld := ⟨.PRB_FLT_WORD5, 0, 32⟩
/-- R633. -/
def PRB_FLT_WORD6_V : Fld := ⟨.PRB_FLT_WORD6, 0, 32⟩
/-- R633. -/
def PRB_FLT_WORD7_V : Fld := ⟨.PRB_FLT_WORD7, 0, 32⟩
/-- R633. -/
def PRB_FLT_WORD8_V : Fld := ⟨.PRB_FLT_WORD8, 0, 32⟩
/-- R633. -/
def PRB_FLT_WORD9_V : Fld := ⟨.PRB_FLT_WORD9, 0, 32⟩
/-- R599. -/
def PRB_GOV_CAP_W : Fld := ⟨.PRB_GOV, 0, 12⟩
/-- R599. -/
def PRB_GOV_CEIL_W : Fld := ⟨.PRB_GOV, 16, 12⟩
/-- R659. -/
def PRB_ID_PART : Fld := ⟨.PRB_ID, 0, 16⟩
/-- R659. -/
def PRB_ID_VARIANT : Fld := ⟨.PRB_ID, 16, 4⟩
/-- R659. -/
def PRB_ID_STEPPING : Fld := ⟨.PRB_ID, 20, 4⟩
/-- R659. -/
def PRB_ID_DIRFMT : Fld := ⟨.PRB_ID, 24, 8⟩
/-- R660. -/
def PRB_ID_FW_IMAGE_SVN : Fld := ⟨.PRB_ID_FW, 0, 8⟩
/-- R660. -/
def PRB_ID_FW_FUSED_SVN : Fld := ⟨.PRB_ID_FW, 8, 8⟩
/-- R660. -/
def PRB_ID_FW_IMAGE_VALID : Fld := ⟨.PRB_ID_FW, 16, 1⟩
/-- R637. -/
def PRB_OVC_STAT_OVERCAST : Fld := ⟨.PRB_OVC_STAT, 0, 1⟩
/-- R637. -/
def PRB_OVC_STAT_CAUSE : Fld := ⟨.PRB_OVC_STAT, 1, 4⟩
/-- R637. -/
def PRB_OVC_STAT_STACKS_OUT : Fld := ⟨.PRB_OVC_STAT, 5, 5⟩
/-- R637. -/
def PRB_OVC_STAT_ENTRIES : Fld := ⟨.PRB_OVC_STAT, 16, 8⟩
/-- R33. -/
def PRB_PACE_CTL_TARGET : Fld := ⟨.PRB_PACE_CTL, 0, 12⟩
/-- R33. -/
def PRB_PACE_CTL_CEILING : Fld := ⟨.PRB_PACE_CTL, 16, 12⟩
/-- R35. -/
def PRB_PACE_MON_NOW : Fld := ⟨.PRB_PACE_MON, 0, 12⟩
/-- R35. -/
def PRB_PACE_MON_MIN : Fld := ⟨.PRB_PACE_MON, 16, 12⟩
/-- R35. -/
def PRB_PACE_MON_LIMITED : Fld := ⟨.PRB_PACE_MON, 28, 1⟩
/-- R35. -/
def PRB_PACE_MON_GOVERNED : Fld := ⟨.PRB_PACE_MON, 29, 1⟩
/-- R35. -/
def PRB_PACE_MON_CLR_MIN : Fld := ⟨.PRB_PACE_MON, 31, 1⟩
/-- R600. -/
def PRB_POWER_NOW_W : Fld := ⟨.PRB_POWER, 0, 12⟩
/-- R600. -/
def PRB_POWER_MAX_W : Fld := ⟨.PRB_POWER, 16, 12⟩
/-- R600. -/
def PRB_POWER_CLR : Fld := ⟨.PRB_POWER, 31, 1⟩
/-- R609. -/
def PRB_PWR_STAT_STATE : Fld := ⟨.PRB_PWR_STAT, 0, 3⟩
/-- R609. -/
def PRB_PWR_STAT_P4_BLOCKED : Fld := ⟨.PRB_PWR_STAT, 3, 1⟩
/-- R609. -/
def PRB_PWR_STAT_BROWNOUT : Fld := ⟨.PRB_PWR_STAT, 4, 1⟩
/-- R609. -/
def PRB_PWR_STAT_RAILS : Fld := ⟨.PRB_PWR_STAT, 5, 9⟩
/-- R609. -/
def PRB_PWR_STAT_THROTTLE : Fld := ⟨.PRB_PWR_STAT, 14, 1⟩
/-- R609. -/
def PRB_PWR_STAT_EMERGENCY : Fld := ⟨.PRB_PWR_STAT, 15, 1⟩
/-- R609. -/
def PRB_PWR_STAT_WAKES : Fld := ⟨.PRB_PWR_STAT, 16, 8⟩
/-- R609. -/
def PRB_PWR_STAT_BROWNOUTS : Fld := ⟨.PRB_PWR_STAT, 24, 8⟩
/-- R613. -/
def PRB_RESET_KIND : Fld := ⟨.PRB_RESET, 0, 4⟩
/-- R613. -/
def PRB_RESET_CONFIRM : Fld := ⟨.PRB_RESET, 8, 8⟩
/-- R613. -/
def PRB_RESET_CAUSE : Fld := ⟨.PRB_RESET, 16, 4⟩
/-- R613. -/
def PRB_RESET_BUSY : Fld := ⟨.PRB_RESET, 20, 1⟩
/-- R636. -/
def PRB_SHD_CTL_QUAR_THRESH : Fld := ⟨.PRB_SHD_CTL, 0, 8⟩
/-- R636. -/
def PRB_SHD_CTL_CLR : Fld := ⟨.PRB_SHD_CTL, 8, 1⟩
/-- R636. -/
def PRB_SHD_CTL_PLAN_OVF : Fld := ⟨.PRB_SHD_CTL, 16, 8⟩
/-- R635. -/
def PRB_SHD_DATA_COUNT : Fld := ⟨.PRB_SHD_DATA, 0, 16⟩
/-- R635. -/
def PRB_SHD_DATA_TAG : Fld := ⟨.PRB_SHD_DATA, 16, 16⟩
/-- R635. -/
def PRB_SHD_SEL_VIEW : Fld := ⟨.PRB_SHD_SEL, 0, 2⟩
/-- R635. -/
def PRB_SHD_SEL_CLASS : Fld := ⟨.PRB_SHD_SEL, 4, 4⟩
/-- R635. -/
def PRB_SHD_SEL_INDEX : Fld := ⟨.PRB_SHD_SEL, 8, 15⟩
/-- R577. -/
def PRB_STEP_STEP : Fld := ⟨.PRB_STEP, 0, 4⟩
/-- R577. -/
def PRB_STEP_CURRENT : Fld := ⟨.PRB_STEP, 4, 4⟩
/-- R577. -/
def PRB_STEP_LAST : Fld := ⟨.PRB_STEP, 8, 4⟩
/-- R577. -/
def PRB_STEP_BUSY : Fld := ⟨.PRB_STEP, 12, 1⟩
/-- R577. -/
def PRB_STEP_READY : Fld := ⟨.PRB_STEP, 13, 1⟩
/-- R576. -/
def PRB_STEP_ARG0_V : Fld := ⟨.PRB_STEP_ARG0, 0, 32⟩
/-- R576. -/
def PRB_STEP_ARG1_V : Fld := ⟨.PRB_STEP_ARG1, 0, 32⟩
/-- R576. -/
def PRB_STEP_ARG2_V : Fld := ⟨.PRB_STEP_ARG2, 0, 32⟩
/-- R578. -/
def PRB_STEP_STAT_STATUS : Fld := ⟨.PRB_STEP_STAT, 0, 8⟩
/-- R578. -/
def PRB_STEP_STAT_REASON : Fld := ⟨.PRB_STEP_STAT, 8, 8⟩
/-- R578. -/
def PRB_STEP_STAT_REFUSED : Fld := ⟨.PRB_STEP_STAT, 16, 8⟩
/-- R602. -/
def PRB_THERM_TJ : Fld := ⟨.PRB_THERM, 0, 12⟩
/-- R602. -/
def PRB_THERM_MAX_TJ : Fld := ⟨.PRB_THERM, 12, 12⟩
/-- R602. -/
def PRB_THERM_LEVEL : Fld := ⟨.PRB_THERM, 24, 2⟩
/-- R602. -/
def PRB_THERM_CLR_MAX : Fld := ⟨.PRB_THERM, 31, 1⟩
/-- R602. -/
def PRB_THERM_SEL_V : Fld := ⟨.PRB_THERM_SEL, 0, 5⟩
/-- R608. -/
def PRB_WAKETOL_TOL : Fld := ⟨.PRB_WAKETOL, 0, 24⟩
/-- R608. -/
def PRB_WAKETOL_HYST : Fld := ⟨.PRB_WAKETOL, 24, 8⟩
/-- R583. -/
def PRB_YMAP_STATE : Fld := ⟨.PRB_YMAP, 0, 2⟩
/-- R583. -/
def PRB_YMAP_LOGICAL : Fld := ⟨.PRB_YMAP, 2, 11⟩
/-- R583. -/
def PRB_YMAP_SEL_CLASS : Fld := ⟨.PRB_YMAP_SEL, 0, 4⟩
/-- R583. -/
def PRB_YMAP_SEL_UNIT : Fld := ⟨.PRB_YMAP_SEL, 4, 11⟩
end F

end Sys2Proof.Machine
end

