-- ==== Sys2Proof/Machine/Regs.lean ====
section
/-!
DEFINITION. The register file of BAR0: reading and writing a register or a field of it, saturating counts, and the
access rules of R12, R13, R655 to R663. Every register access of the model goes through `rget` and `rset`.
-/

namespace Sys2Proof.Machine

open Sys2Proof

/-- Key of a register in the file: register and bank (instance or selected unit). -/
def regKey (r : Reg) (b : Nat) : Nat := r.ctorIdx * 65536 + b % 65536

/-- The number with `v` in `w` bits from bit `lsb`. -/
def putBits (n lsb w v : Nat) : Nat := n / 2 ^ (lsb + w) * 2 ^ (lsb + w) + v % 2 ^ w * 2 ^ lsb + n % 2 ^ lsb

/-- The word a register holds after cold reset: the Reset column of its table (R14). -/
def regReset (r : Reg) : W32 := BitVec.ofNat 32 ((regFields r).foldl (fun n f => putBits n f.lsb f.w f.reset) 0)

/-- The stored word of a register. -/
def rget (s : State) (r : Reg) (b : Nat) : W32 := tget (regReset r) s.regs (regKey r b)

/-- The state with `v` stored in a register. -/
def rset (s : State) (r : Reg) (b : Nat) (v : W32) : State := { s with regs := tput (regReset r) s.regs (regKey r b) v }

/-- The value of a field. -/
def fget (s : State) (f : Fld) (b : Nat := 0) : Nat := bitsOf (rget s f.reg b).toNat f.lsb f.w

/-- The state with `v` in a field. -/
def fset (s : State) (f : Fld) (v : Nat) (b : Nat := 0) : State :=
  rset s f.reg b (BitVec.ofNat 32 (putBits (rget s f.reg b).toNat f.lsb f.w v))

/-- A count field raised by `n`, saturating at all ones of the field. -/
def fadd (s : State) (f : Fld) (n : Nat) (b : Nat := 0) : State := fset s f (min (fget s f b + n) (2 ^ f.w - 1)) b

/-- A count field raised by one, saturating. -/
def fbump (s : State) (f : Fld) (b : Nat := 0) : State := fadd s f 1 b

/-- The 64-bit value of a _LO/_HI pair. -/
def rpair (s : State) (lo hi : Reg) (b : Nat := 0) : Nat := (rget s lo b).toNat + 2 ^ 32 * (rget s hi b).toNat

/-- What a host write of `v` leaves in one field whose register holds `old` (R12): RW and unlocked RWL fields take the
value, an RW1C field is cleared whole when a 1 is written to any of its bits, RO and WO fields keep theirs. -/
def writeField (locked : Bool) (v old : Nat) (f : FieldSpec) : Nat :=
  match f.ty with
  | .ro => old
  | .wo => old
  | .rw => putBits old f.lsb f.w (bitsOf v f.lsb f.w)
  | .rwl => if locked then old else putBits old f.lsb f.w (bitsOf v f.lsb f.w)
  | .rw1c => if bitsOf v f.lsb f.w = 0 then old else putBits old f.lsb f.w 0

/-- The word a register holds after a host write of `v` (R12, R13): reserved bits ignore what is written. -/
def writeWord (locked : Bool) (r : Reg) (old v : W32) : W32 :=
  BitVec.ofNat 32 ((regFields r).foldl (fun n f => writeField locked v.toNat n f) old.toNat)

/-- Whether a register holds an RWL field. -/
def hasRwl (r : Reg) : Bool := (regFields r).any fun f => f.ty == .rwl

/-- The register lock of R662. -/
def locked (s : State) : Bool := fget s F.SMC_LIFECYCLE_LOCKED == 1

/-- The plain effect of a host write (R12, R663): the fields take it by their types, and under the lock a write to a
register with RWL fields counts in REFUSED. -/
def regWritePlain (s : State) (r : Reg) (b : Nat) (v : W32) : State :=
  let s1 := rset s r b (writeWord (locked s) r (rget s r b) v)
  if locked s && hasRwl r then fbump s1 F.SMC_LIFECYCLE_REFUSED else s1

/-- The bank a register access reaches (R652, R657): the instance for stack and port registers, the selected unit for a
register that a selection register selects, and 0 for the others. -/
def regBank (s : State) (r : Reg) (inst : Nat) : Nat :=
  match r with
  | .STK_NBU_STAT | .STK_DEFER_MAX | .STK_NBU_STORE | .STK_ECC_STAT | .FAB_PORT_STAT => inst
  | .FLS_POL => if fget s F.FLS_POL_SEL_DEFAULT = 1 then 256 else fget s F.FLS_POL_SEL_INDEX
  | .HIU_APT_DOM | .HIU_APT_BASE_LO | .HIU_APT_BASE_HI => fget s F.HIU_APT_SEL_V
  | .HIU_PAGE_DOM => fget s F.HIU_PAGE_SEL_V
  | .HIU_SQ_BASE_LO | .HIU_SQ_BASE_HI | .HIU_SQ_CTL | .HIU_SQ_STAT => fget s F.HIU_SQ_SEL_V
  | .HIU_EQ_BASE_LO | .HIU_EQ_BASE_HI | .HIU_EQ_CTL | .HIU_EQ_STAT => fget s F.HIU_EQ_SEL_V
  | .HIU_DOM_PASID => fget s F.HIU_DOM_SEL_V
  | .DSP_CNT_ADM | .DSP_CNT_DONE | .DSP_CNT_LATE | .DSP_CNT_POL | .DSP_POL | .DSP_INTAKE_CAP => fget s F.DSP_DOM_SEL_V
  | .TRF_ING => fget s F.TRF_ING_SEL_V
  | .TRF_DOMQ => fget s F.TRF_DOMQ_SEL_V
  | .TRF_GL_CTL => fget s F.TRF_GL_SEL_PORT
  | .TRF_QW0 | .TRF_QW1 | .TRF_QW2 | .TRF_QW3 => fget s F.TRF_QW_SEL_V
  | .SMC_PART_SEQ0 | .SMC_PART_SEQ1 | .SMC_PART_SEQ2 | .SMC_PART_SEQ3 | .SMC_PART_DMA_LO | .SMC_PART_DMA_HI
  | .SMC_PART_ENG => fget s F.SMC_PART_SEL_V
  | .SMC_MGR_DIG0 | .SMC_MGR_DIG1 | .SMC_MGR_DIG2 | .SMC_MGR_DIG3 | .SMC_MGR_DIG4 | .SMC_MGR_DIG5 | .SMC_MGR_DIG6
  | .SMC_MGR_DIG7 => fget s F.SMC_MGR_SEL_V
  | .PRB_THERM => fget s F.PRB_THERM_SEL_V
  | .TIR_IDX_OVL => fget s F.TIR_IDX_CMD_INDEX
  | .FAB_MAP_STAT | .FAB_MAP_REASON => 0
  | _ => 0

/-- The block of R21 that a register lies in (R651). -/
def regBlock (r : Reg) : Nat :=
  let i := r.ctorIdx
  if i < Reg.DSP_BE_SET0.ctorIdx then 1 else if i < Reg.SEQ_BE_STAT.ctorIdx then 2 else if i < Reg.SKC_STAT.ctorIdx then 3
  else if i < Reg.STK_DEFER_MAX.ctorIdx then 4 else if i < Reg.FLS_CAPACITY.ctorIdx then 6 else if i < Reg.SEL_CAP.ctorIdx then 7
  else if i < Reg.SCA_CAP.ctorIdx then 8 else if i < Reg.TBE_CAP.ctorIdx then 9 else if i < Reg.TIR_EPOCH_CTL.ctorIdx then 10
  else if i < Reg.DMA_ERR.ctorIdx then 11 else if i < Reg.FAB_HO_CMD.ctorIdx then 12 else if i < Reg.TRF_DOMQ.ctorIdx then 13
  else if i < Reg.SMC_CFG_CTL.ctorIdx then 14 else if i < Reg.PRB_DIE_ID_HI.ctorIdx then 15 else 16

/-- A block that answers in every power state without waking the node (R651). -/
def earlyBlock (b : Nat) : Bool := b == 1 || b == 15 || b == 16
/-- Whether a block answers in BAR0 (R572, R651): the early blocks always, the others from the passing of step 7. -/
def blockAnswers (s : State) (block : Nat) : Bool :=
  earlyBlock block || fget s F.PRB_STEP_LAST ≥ 7

/-- Something wakes the node (R607): in P1 to P4 a wake starts, unless one runs. -/
def wakeNode (s : State) : State :=
  if fget s F.PRB_PWR_STAT_STATE = 0 || s.prb.waking.isSome then s
  else { s with prb := { s.prb with waking := some s.now } }

/-- The node is in P0 (R605). -/
def inP0 (s : State) : Bool := fget s F.PRB_PWR_STAT_STATE == 0

/-! ### Order at HIU (R656) -/

/-- A BAR2 write waits in the deferred queue of a stack (R261). -/
def writeDeferred (s : State) : Bool := s.stk.defer.any fun p => p.2.any fun d => d.pkt.isNone && d.data.isSome
/-- No host access that came before waits to take effect. -/
def hostFree (s : State) : Bool := s.hiu.waiting.isEmpty && !writeDeferred s
/-- A host access `a` that may have its effect now has it, unless earlier ones still wait; else it waits behind them (R656). -/
def hostTurn (s : State) (a : HostAcc) (ready : Bool) (f : State → State) : State :=
  if hostFree s && ready then f s else { s with hiu := { s.hiu with waiting := s.hiu.waiting ++ [a] } }
/-- A host access `a` to a register (R487, R607, R651, R656): where its block does not answer yet it is ignored and counted in
BADACC; a block that is not early wakes the node, and the access waits for P0; then it has its effect. -/
def hostReg (s : State) (r : Reg) (a : HostAcc) (f : State → State) : State :=
  let b := regBlock r
  let idle := earlyBlock b || !blockAnswers s b
  let s1 := if idle then s else wakeNode s
  hostTurn s1 a (idle || inP0 s1) fun s => if blockAnswers s b then f s else fbump s F.HIU_STAT_BADACC

end Sys2Proof.Machine
end

