-- ==== Sys2Proof/Machine/Events.lean ====
section
/-!
DEFINITION. Requests of the part to host memory, event records and MSI-X messages (R496 to R505), fault records (R619
to R622), charges (R626) and overcast mode (R629 to R632): the operations every subsystem reports through.
-/

namespace Sys2Proof.Machine

open Sys2Proof

/-- The state with one more output. -/
def emit (s : State) (o : Output) : State := { s with out := o :: s.out }

/-- Bytes `a .. a + n` of a memory; an unlisted byte is zero. -/
def cellsRead (m : List Host.Cell) (a n : Nat) : List Byte := (List.range n).map fun i => tget 0 m (a + i)

/-- The memory with `bs` from `a` on. -/
def cellsWrite : List Host.Cell → Nat → List Byte → List Host.Cell
  | m, _, [] => m
  | m, a, b :: bs => cellsWrite (tput 0 m a b) (a + 1) bs

/-- PASID carried by host requests of a domain (R505). -/
def pasidOf (s : State) (dom : Nat) : Option Nat :=
  if fget s F.HIU_DOM_PASID_ENABLE dom = 1 then some (fget s F.HIU_DOM_PASID_PASID dom) else none

/-- Write to host memory. -/
def hostWrite (s : State) (pasid : Option Nat) (a : Nat) (bs : List Byte) : State :=
  emit { s with mem := { s.mem with host := cellsWrite s.mem.host a bs } } (.hostWrite pasid a bs.length)

/-- Read of host memory. -/
def hostRead (s : State) (a n : Nat) : List Byte := cellsRead s.mem.host a n

/-! ### Event queues -/

/-- The hidden state of an event queue. -/
def evqOf (s : State) (e : Nat) : Evq := tget {} s.hiu.evq e
/-- The state with the hidden state of an event queue changed. -/
def setEvq (s : State) (e : Nat) (v : Evq) : State := { s with hiu := { s.hiu with evq := tput {} s.hiu.evq e v } }
/-- The device queue (R500). -/
def devQueue (s : State) : Nat := fget s F.HIU_EVQ_SYS_V
/-- Records in the ring of an event queue. -/
def eqSize (s : State) (e : Nat) : Nat := 2 ^ fget s F.HIU_EQ_CTL_SIZE e
/-- Whether the queue is full: advancing the tail would make it equal to the head (R496). -/
def eqFull (s : State) (e : Nat) : Bool := (fget s F.HIU_EQ_STAT_TAIL e + 1) % eqSize s e == fget s F.HIU_EQ_STAT_HEAD e
/-- PASID of an event queue's traffic: that of its domain, none for the device queue (R500, R505). -/
def eqPasid (s : State) (e : Nat) : Option Nat :=
  if e = devQueue s then none else pasidOf s (fget s F.HIU_EQ_CTL_DOMAIN e)
/-- MSI-X has been opened by step 12 (R500, R573). -/
def msixOpen (s : State) : Bool := fget s F.PRB_STEP_LAST ≥ 12

/-- Send the message of a vector, or set its PBA bit when it is masked (R504). -/
def msixSend (s : State) (v : Nat) : State :=
  let m := tget {} s.hiu.msix v
  if m.mask then { s with hiu := { s.hiu with msix := tput {} s.hiu.msix v { m with pba := true } } }
  else emit s (.msix v m.addr m.data (eqPasid s v))

/-- Count a written record towards the vector's message, and send it when IRQ_COUNT is reached (R504). -/
def msixCount (s : State) (e : Nat) : State :=
  if fget s F.HIU_EQ_CTL_MSIX e = 0 || !msixOpen s then s
  else
    let q := evqOf s e
    let n := q.unsignalled + 1
    let s1 := setEvq s e { q with unsignalled := n, first := if q.unsignalled = 0 then s.now else q.first }
    if n ≥ max 1 (fget s F.HIU_EQ_CTL_IRQ_COUNT e) then
      msixSend (setEvq s1 e { evqOf s1 e with unsignalled := 0 }) e
    else s1

/-- The 64 bytes of a record as HIU writes it (R499). -/
def recBytes (s : State) (q : Evq) (r : Rec) : List Byte :=
  bytesOf 1 r.ty ++ bytesOf 1 r.status ++ bytesOf 1 r.reason
    ++ bytesOf 1 ((if q.phase then 1 else 0) + if r.ovc then 2 else 0)
    ++ bytesOf 2 (r.sq.getD 0x8000)
    ++ bytesOf 2 (match r.sq with | some q => fget s F.HIU_SQ_STAT_HEAD q | none => 0)
    ++ bytesOf 4 r.tag ++ bytesOf 2 r.planId ++ bytesOf 2 q.lost ++ bytesOf 8 r.cookie ++ bytesOf 8 s.now
    ++ bytesOf 4 r.count0 ++ bytesOf 4 r.count1 ++ (r.detail ++ List.replicate 24 0).take 24

/-- Write one record at the tail of a queue that is not full (R496, R499, R504). -/
def eqPut (s : State) (e : Nat) (r : Rec) : State :=
  let q := evqOf s e
  let tail := fget s F.HIU_EQ_STAT_TAIL e
  let base := rpair s .HIU_EQ_BASE_LO .HIU_EQ_BASE_HI e
  let s1 := hostWrite s (eqPasid s e) (base + 64 * tail) (recBytes s q r)
  let next := (tail + 1) % eqSize s e
  let s2 := fset s1 F.HIU_EQ_STAT_TAIL next e
  msixCount (setEvq s2 e { evqOf s2 e with lost := 0, phase := if next = 0 then !q.phase else q.phase }) e

/-- Give a record to an event queue (R497, R500): dropped when the queue is not enabled, held while it is full or older
records are held for it, dropped and counted as lost when the hold is full. -/
def eqRecord (s : State) (e : Nat) (r : Rec) : State :=
  if fget s F.HIU_EQ_CTL_ENABLE e = 0 then fbump s F.HIU_STAT_EQ_DROP
  else if eqFull s e || s.hiu.hold.any (fun p => p.1 == e) then
    if s.hiu.hold.length < 4096 then { s with hiu := { s.hiu with hold := s.hiu.hold ++ [(e, r)] } }
    else fbump (setEvq s e { evqOf s e with lost := min 0xFFFF ((evqOf s e).lost + 1) }) F.HIU_STAT_HOLD_FULL
  else eqPut s e r

/-- Write held records of a queue as far as its ring has room (R497). -/
def eqDrain (e : Nat) : Nat → State → State
  | 0, s => s
  | n + 1, s =>
    if eqFull s e then s
    else match s.hiu.hold.find? (fun p => p.1 == e) with
      | none => s
      | some p => eqDrain e n (eqPut { s with hiu := { s.hiu with hold := s.hiu.hold.erase p } } e p.2)

/-- The event queue bound to a submission queue. -/
def sqEvq (s : State) (sq : Nat) : Nat := fget s F.HIU_SQ_CTL_EVQ sq

/-- A record of the work of a submission queue, to the event queue bound to it. -/
def jobRecord (s : State) (sq : Nat) (r : Rec) : State := eqRecord s (sqEvq s sq) { r with sq := some sq }

/-- A device event (R500). -/
def devEvent (s : State) (ty status reason : Nat) (detail : List Byte) : State :=
  eqRecord s (devQueue s) { ty := ty, status := status, reason := reason, detail := detail }

/-! ### Fault records -/

/-- The die that a fault record names (R21, R49, R581, R584, R620): that of the unit concerned, by block, class and instance; the records of
kinds 6 and 7 name the die of the unit they report. -/
def faultDie (r : FaultRec) : Nat :=
  if r.kind = 6 || r.kind = 7 then r.die
  else match r.block with
    | 3 => if r.offSeq < 64 then 0 else 1
    | 4 => if r.inst < (if r.cls = 1 then 3072 else 8) then 0 else 1
    | 5 => 3 + r.inst / 1024
    | 6 => if r.kind = 0x0B then 3 + r.inst else if r.cls = 0x0A then (if r.inst < 10 then 0 else 1) else 3 + r.inst / 1024
    | 8 => if r.inst < 8 then 0 else if r.inst < 16 then 1 else 2
    | 9 => if r.inst < (if r.cls = 1 then 6656 else 4) then 0 else 1
    | 10 => r.inst
    | 11 => Config.tirDie % 3
    | _ => 2
/-- Write a fault record: the log holds 1,024, the oldest is overwritten and counted (R619). -/
def faultRec (s : State) (r : FaultRec) : State :=
  let log := s.flt.log ++ [{ r with seq := s.flt.nextSeq, time := s.now, die := faultDie r }]
  let s1 := { s with flt := { s.flt with
    log := if log.length > 1024 then log.drop 1 else log
    nextSeq := if s.flt.nextSeq ≥ 2 ^ 32 - 1 then 1 else s.flt.nextSeq + 1 } }
  if log.length > 1024 then fbump s1 F.PRB_FLT_STAT_OVERWRITTEN else s1

/-- Sequence number of the newest fault record. -/
def newestFault (s : State) : Nat := match s.flt.log.getLast? with | some r => r.seq | none => 0

/-- Report a unit fault: a fault record and a `UNIT_FAULT` record that names it (R622). -/
def unitFault (s : State) (block kind status reason inst : Nat) (addr : Nat := 0) (info : Nat := 0) : State :=
  let s1 := faultRec s { block := block, kind := kind, status := status, reason := reason, inst := inst, addr := addr, info := info }
  devEvent s1 0x09 status reason
    (bytesOf 1 block ++ bytesOf 1 kind ++ bytesOf 2 0 ++ bytesOf 4 (newestFault s1) ++ bytesOf 4 inst)

/-! ### Overcast mode -/

/-- The causes of overcast mode in force (R629). -/
def ovcCauses (s : State) : Nat := fget s F.PRB_OVC_STAT_CAUSE
/-- The node is in overcast mode. -/
def overcast (s : State) : Bool := ovcCauses s != 0

/-- DETAIL of the overcast records (R629). -/
def ovcDetail (s : State) : List Byte := bytesOf 1 (ovcCauses s) ++ bytesOf 1 s.flt.stacksOut.length

/-- Set cause `bit`: entry into overcast mode when it is the first; every live job ran in it from then on (R629, R632). -/
def ovcSet (s : State) (bit : Nat) : State :=
  if bitAt (ovcCauses s) bit then s
  else
    let first := !overcast s
    let s1 := fset s F.PRB_OVC_STAT_CAUSE (ovcCauses s + 2 ^ bit)
    let s2 := fset s1 F.PRB_OVC_STAT_OVERCAST 1
    let s3 := { s2 with exec := { s2.exec with jobs := s2.exec.jobs.map fun p =>
      (p.1, { p.2 with ovc := true, take := p.2.take.map fun t => (t.1, { t.2 with ovc := true }) }) } }
    if first then devEvent (fbump s3 F.PRB_OVC_STAT_ENTRIES) 0x0E 0 0 (ovcDetail s3) else s3

/-- Clear cause `bit`: exit from overcast mode when it is the last (R629). -/
def ovcClear (s : State) (bit : Nat) : State :=
  if !bitAt (ovcCauses s) bit then s
  else
    let s1 := fset s F.PRB_OVC_STAT_CAUSE (ovcCauses s - 2 ^ bit)
    if overcast s1 then s1 else devEvent (fset s1 F.PRB_OVC_STAT_OVERCAST 0) 0x0F 0 0 (ovcDetail s1)

/-! ### Free values -/

/-- Word `i` of the next free value: nothing is known of it. -/
def freeWord (s : State) (i : Nat) : W64 := Config.freeValue s.freeCtr i
/-- The state after a free value has been drawn. -/
def freeNext (s : State) : State := { s with freeCtr := s.freeCtr + 1 }
/-- `n` free bytes. -/
def freeBytes (s : State) (n : Nat) : List Byte := (List.range n).map fun i => (freeWord s i).setWidth 8

end Sys2Proof.Machine
end

