-- ==== Sys2Proof/Machine/Memory.lean ====
section
/-!
DEFINITION. The memories behind a domain's unified range (R371 to R386): stack words and frames, pages and tiles,
flash pages, write-back, and the read and write of a range as every engine, the host and the fabric make them.
-/

namespace Sys2Proof.Machine

open Sys2Proof

/-! ### Stack words -/

/-- Stack that holds a physical byte. -/
def stackOf (a : Nat) : Nat := a / 2 ^ 37
/-- Some word of the range is uncorrectable, or lies in a stack held out of service (R616, R618). -/
def stkBad (s : State) (a n : Nat) : Bool :=
  (List.range n).any fun i => s.mem.badStk.contains ((a + i) / 4) || s.flt.stacksOut.contains (stackOf (a + i))
/-- Write to the stacks: a held-out stack discards it, a written word is correctable again (R616, R618). -/
def stkWrite (s : State) (a : Nat) (bs : List Byte) : State :=
  if s.flt.stacksOut.contains (stackOf a) then s
  else { s with mem := { s.mem with
    stk := cellsWrite s.mem.stk a bs
    badStk := s.mem.badStk.filter fun w => !(a / 4 ≤ w && w ≤ (a + bs.length - 1) / 4) } }
/-- Bytes of the stacks. -/
def stkBytes (s : State) (a n : Nat) : List Byte := cellsRead s.mem.stk a n
/-- A frame set to zeros (R551). -/
def scrubFrame (s : State) (f : Nat) : State :=
  { s with mem := { s.mem with
    stk := s.mem.stk.filter fun c => c.1 / 65536 != f
    badStk := s.mem.badStk.filter fun w => w / 16384 != f } }

/-- A tile SRAM region set to zeros (R551). -/
def scrubTile (s : State) (r : Nat) : State :=
  { s with mem := { s.mem with
    tile := s.mem.tile.filter fun c => c.1 / 65536 != r
    badTile := s.mem.badTile.filter fun w => w / 16384 != r } }
/-- Bytes of tile SRAM. -/
def tileBytes (s : State) (a n : Nat) : List Byte := cellsRead s.mem.tile a n
/-- Some word of the range of tile SRAM is uncorrectable. -/
def tileBad (s : State) (a n : Nat) : Bool := (List.range n).any fun i => s.mem.badTile.contains ((a + i) / 4)
/-- Write to tile SRAM. -/
def tileWrite (s : State) (a : Nat) (bs : List Byte) : State :=
  { s with mem := { s.mem with
    tile := cellsWrite s.mem.tile a bs
    badTile := s.mem.badTile.filter fun w => !(a / 4 ≤ w && w ≤ (a + bs.length - 1) / 4) } }

/-! ### Regions and pages -/

/-- Key of the page that holds an address of a domain. -/
def pageKey (dom a : Nat) : Nat := dom * 2 ^ 40 + a / 65536
/-- What TIR holds of a page. -/
def pageOf (s : State) (k : Nat) : Page := tget {} s.tir.pages k
/-- The state with a page changed. -/
def setPage (s : State) (k : Nat) (p : Page) : State := { s with tir := { s.tir with pages := tput {} s.tir.pages k p } }
/-- The region of the domain that covers an address (R371). -/
def regionAt (s : State) (dom a : Nat) : Option (Nat × Region) :=
  s.tir.regions.find? fun p => p.2.dom == dom && p.2.base ≤ a && a < p.2.base + p.2.len
/-- First byte of the index area of an index (R372). -/
def areaBase (i : Nat) : Nat := 2 ^ 55 + i * 2 ^ 47
/-- Offset in an index area from which TIR places what lives on flash; stack structures lie below. -/
def areaFlash : Nat := 2 ^ 46
/-- The installed index of the domain in whose area an address lies. -/
def areaAt (s : State) (dom a : Nat) : Option Nat :=
  if a < 2 ^ 55 then none
  else
    let i := (a - 2 ^ 55) / 2 ^ 47
    match tfind s.tir.indexes i with
    | some x => if i < 256 && x.dom == dom then some i else none
    | none => none

/-- Where a byte of a unified range is (R371 to R385). -/
inductive Loc
  | outside
  | stack (a : Nat)
  | flash
  | host (a : Nat)
  | remote (node off : Nat)
  | zero
deriving DecidableEq, Repr

/-- The backing of a byte of a write-back region or read-only mapping. -/
def backing (r : Region) (a : Nat) : Loc :=
  match r.backing with
  | 1 => .flash
  | 2 => .host (r.host + (a - r.base))
  | 3 => .remote r.node (r.remote + (a - r.base))
  | _ => .zero

/-- Where the byte at an address of a domain is now. A dirty sub-block is in the stacks though its tile be not present: a write of
whole sub-blocks fills nothing (R380). -/
def locate (s : State) (dom a : Nat) : Loc :=
  let p := pageOf s (pageKey dom a)
  match areaAt s dom a with
  | some i =>
    if a - areaBase i ≥ areaFlash then .flash
    else match p.frame with
      | some f => .stack (f * 65536 + a % 65536)
      | none => .zero
  | none => match regionAt s dom a with
    | none => .outside
    | some (_, r) =>
      if r.removing || r.park != .active then .outside
      else if r.cls = 1 then
        match p.home with
        | 2 => .flash
        | 3 => .host (p.hostAddr + a % 65536)
        | _ => match p.frame with
          | some f => .stack (f * 65536 + a % 65536)
          | none => .zero
      else match p.frame with
        | some f => if p.present.getLsbD (a % 65536 / 4096) || p.dirty.getLsbD (a % 65536 / 1024) then .stack (f * 65536 + a % 65536)
          else backing r a
        | none => backing r a

/-- A flash page that cannot be read: flash lost, page lost, channel out of service (R403, R404, R411). -/
def flashBad (s : State) (dom lpage : Nat) : Bool :=
  match tfind s.fls.map (dom * 2 ^ 42 + lpage) with
  | none => false
  | some p => bitAt (ovcCauses s) 0 || p.lost || !s.fls.inService.contains p.chan

/-- The newest byte that waits to be written at an address, in a page whose writes wait (R385, R386). -/
def waitingByte (s : State) (dom a : Nat) : Option Byte :=
  match (pageOf s (pageKey dom a)).mig with
  | none => none
  | some m => (m.waiting.foldl (fun o w => if w.1 ≤ a && a < w.1 + w.2.length then some (w.2.getD (a - w.1) 0) else o) none)

/-- One byte where it lies: `none` outside the range, `some none` when its word is uncorrectable. -/
def homeByte (s : State) (dom a : Nat) : Option (Option Byte) :=
  match locate s dom a with
  | .outside => none
  | .stack p => some (if stkBad s p 1 then none else some (tget 0 s.mem.stk p))
  | .flash => some (if flashBad s dom (a / 16384) then none else some (tget 0 s.mem.flash (dom * 2 ^ 56 + a)))
  | .host p => some (some (tget 0 s.mem.host p))
  | .remote _ off => some (some ((freeWord s off).setWidth 8))
  | .zero => some (some 0)

/-- One byte of a unified range: `none` outside it, `some none` when the word is uncorrectable. A byte of a remote
mapping is a free value, since the remote node's memory is no part of this machine. A write that waits for a migration is seen by
every later reader, as its completion has been. -/
def uByte (s : State) (dom a : Nat) : Option (Option Byte) :=
  match homeByte s dom a, waitingByte s dom a with
  | some _, some b => some (some b)
  | o, _ => o

/-- The outcome of a read of a unified range. -/
inductive URead
  | outside
  | ue
  | ok (bs : List Byte)
deriving DecidableEq, Repr

/-- Read of `n` bytes of a domain's unified range from `a` on. -/
def uRead (s : State) (dom a n : Nat) : URead :=
  let bs := (List.range n).map fun i => uByte s dom (a + i)
  if bs.any (fun b => b.isNone) then .outside
  else if bs.any (fun b => b == some none) then .ue
  else .ok (bs.map fun b => (b.getD none).getD 0)

/-- Where the first uncorrectable word of a range lies: its stack 0 to 19, or 21 for what neither a stack nor the die holds (flash). -/
def uWhere (s : State) (dom a n : Nat) : Nat :=
  match (List.range n).find? fun i => uByte s dom (a + i) == some none with
  | none => 21
  | some i => match locate s dom (a + i) with
    | .stack p => stackOf p
    | _ => 21

/-- An uncorrectable word met is counted (R634): `w` is a stack, or 20 for on-die state. -/
def countUE (s : State) (w : Nat) : State :=
  if w < 20 then fbump s F.STK_ECC_STAT_UE w else if w = 20 then fbump s F.PRB_ECC_STAT_UE else s

/-- The bytes of a read that succeeded, else nothing. -/
def uBytes (s : State) (dom a n : Nat) : Option (List Byte) :=
  match uRead s dom a n with
  | .ok bs => some bs
  | _ => none

/-- A little-endian number of a unified range; 0 where it cannot be read. -/
def uNum (s : State) (dom a n : Nat) : Nat := numOf ((uBytes s dom a n).getD [])

/-- Every byte of the range lies in the domain's unified range. -/
def inRange (s : State) (dom a n : Nat) : Bool := (List.range n).all fun i => locate s dom (a + i) != .outside

/-! ### Flash pages -/

/-- Write of a flash page's content: the newest content is visible from now on; the program that makes it durable is
queued by `flsProgram` of the media family. -/
def flashPut (s : State) (dom a : Nat) (bs : List Byte) : State :=
  { s with mem := { s.mem with flash := cellsWrite s.mem.flash (dom * 2 ^ 56 + a) bs } }

/-- The channel a first write of a logical page goes to (R407): the next one in service from (L + 5 D) mod 64. -/
def firstChannel (s : State) (dom lpage : Nat) : Option Nat :=
  (List.range 64).find? (fun i => s.fls.inService.contains ((lpage + 5 * dom + i) % 64))
    |>.map fun i => (lpage + 5 * dom + i) % 64

/-- The write stream of a logical page (R410): two policy bits of its index, or of the node default. -/
def streamOf (s : State) (dom lpage : Nat) : Nat :=
  let b := match areaAt s dom (lpage * 16384) with | some i => i | none => 256
  (rget s .FLS_POL b).toNat % 4

/-- The open block of a stream on a LUN, or the first erased one. -/
def openBlock (s : State) (chan lun stream : Nat) : Option Nat :=
  let key := fun b => chan * 2 ^ 40 + lun * 2 ^ 32 + b
  let usable := fun (b : Nat) => let k := tget {} s.fls.blks (key b)
    !k.retired && ((k.isOpen && k.stream == stream && k.used < s.fls.pagesPerBlock) )
  let fresh := fun (b : Nat) => let k := tget {} s.fls.blks (key b)
    !k.retired && !k.isOpen && k.used == 0
  match firstFrom usable s.fls.blocksPerLun 0 with
  | some b => some (key b)
  | none => (firstFrom fresh s.fls.blocksPerLun 0).map key

/-- Queue the program of a logical page whose content is now `bs` (R405 to R408, R410): its channel is that of the page,
or of its first write; its LUN the one of the channel with most erased blocks is not fixed by the manual for a first
write, so the lowest with room is taken. Answers none where no channel or no block has room. -/
def flashProgram (s : State) (dom lpage : Nat) (bs : List Byte) : Option State :=
  let mk := dom * 2 ^ 42 + lpage
  let chan := match tfind s.fls.map mk with
    | some p => if s.fls.inService.contains p.chan then some p.chan else firstChannel s dom lpage
    | none => firstChannel s dom lpage
  match chan with
  | none => none
  | some c =>
    let st := streamOf s dom lpage
    match ((List.range (fget s F.FLS_GEOM_LUNS)).filterMap fun l => (openBlock s c l st).map fun b => (l, b)).head? with
    | none => none
    | some (l, b) =>
      let k := tget {} s.fls.blks b
      let lk := c * 256 + l
      let lu := tget {} s.fls.luns lk
      let prev := cellsRead s.mem.flash (dom * 2 ^ 56 + lpage * 16384) 16384
      let s1 := flashPut s dom (lpage * 16384) bs
      some { s1 with fls := { s1.fls with
        blks := tput {} s1.fls.blks b { k with
          used := k.used + 1, stream := st, isOpen := decide (k.used + 1 < s.fls.pagesPerBlock) }
        luns := tput {} s1.fls.luns lk { lu with progs := lu.progs ++
          [{ dom := dom, lpage := lpage, blk := b, page := k.used, stream := st, seq := s.fls.seq,
             old := prev, had := (tfind s.fls.map mk).isSome }] }
        seq := s.fls.seq + 1 } }

/-- Logical pages mapped, of the usable capacity (R409). -/
def flashRoom (s : State) (dom lpage : Nat) : Bool :=
  (tfind s.fls.map (dom * 2 ^ 42 + lpage)).isSome || s.fls.map.length < s.fls.capacity

/-- Write one flash page (R381, R408): none when it has no room or the flash subsystem is lost. -/
def flashWrite (s : State) (dom lpage : Nat) (bs : List Byte) : Option State :=
  if bitAt (ovcCauses s) 0 || !flashRoom s dom lpage then none
  else match flashProgram s dom lpage bs with
    | none => none
    | some s1 =>
      if (tfind s.fls.map (dom * 2 ^ 42 + lpage)).isSome then some s1
      else
        let lk := (s1.fls.luns.find? fun p => p.2.progs.any fun g => g.dom == dom && g.lpage == lpage)
        match lk with
        | none => some s1
        | some (k, lu) =>
          match lu.progs.getLast? with
          | none => some s1
          | some g => some { s1 with fls := { s1.fls with
              map := tins s1.fls.map (dom * 2 ^ 42 + lpage)
                { chan := k / 256, lun := k % 256, blk := g.blk, page := g.page, seq := g.seq } } }

/-- Drop the map entries and contents of the flash pages of a range (R417, R418). -/
def flashDrop (s : State) (dom a n : Nat) : State :=
  { s with
    mem := { s.mem with flash := s.mem.flash.filter fun c =>
      !(c.1 / 2 ^ 56 == dom && a ≤ c.1 % 2 ^ 56 && c.1 % 2 ^ 56 < a + n) }
    fls := { s.fls with map := s.fls.map.filter fun p =>
      !(p.1 / 2 ^ 42 == dom && a ≤ p.1 % 2 ^ 42 * 16384 && p.1 % 2 ^ 42 * 16384 < a + n) } }

/-! ### Frames -/

/-- Frames in use by pages, homes and migrations. -/
def usedFrames (s : State) : List Nat :=
  s.tir.pages.flatMap fun p => p.2.frame.toList ++
    (match p.2.mig with | some m => m.frame.toList ++ m.old.toList | none => [])

/-- Stacks in service. -/
def liveStacks (s : State) : List Nat := (List.range 20).filter fun k => !s.flt.stacksOut.contains k

/-- A free frame among `banks` allowed ones: a free choice of TIR where it names one, else the lowest. -/
def findFrame (s : State) (sts : List Nat) (okBank : Nat → Bool) : Option Nat :=
  let used := usedFrames s
  let ok := fun f => f < 20480 * 2048 && sts.contains (f / 2048 / 1024) && okBank (f / 2048) && !used.contains f
  let c := Config.frameChoice s.freeCtr used
  if ok c then some c
  else ((sts.flatMap fun k => ((List.range 1024).filter fun b => okBank (k * 1024 + b)).take (used.length / 2048 + 1)
    |>.map fun b => k * 1024 + b).findSome? fun b => firstFrom ok 2048 (b * 2048))

/-- Whether a page is in the cache pool: a cached page of a write-back region with backing, or of a read-only mapping (R382). -/
def cached (s : State) (k : Nat) : Bool :=
  match regionAt s (k / 2 ^ 40) (k % 2 ^ 40 * 65536) with
  | some (_, r) => (r.cls == 0 && r.backing != 0) || r.cls == 2
  | none => false

/-- Write back the dirty sub-blocks of a page (R381): whole 16 KiB flash pages, or the sub-blocks to host memory.
A page whose write-back fails stays dirty, with a fault record and `UNIT_FAULT` from TIR. -/
def writeBack (s : State) (k : Nat) : State :=
  let p := pageOf s k
  let dom := k / 2 ^ 40
  let base := k % 2 ^ 40 * 65536
  match regionAt s dom base, p.frame with
  | some (_, r), some f =>
    if p.dirty = 0 || r.cls != 0 then s
    else if r.backing = 2 then
      let s1 := (List.range 64).foldl (fun s i =>
        if p.dirty.getLsbD i then hostWrite s (pasidOf s dom) (r.host + (base - r.base) + i * 1024)
          (stkBytes s (f * 65536 + i * 1024) 1024)
        else s) s
      setPage s1 k { p with dirty := 0 }
    else if r.backing = 1 then
      let res := (List.range 4).foldl (fun (o : Option State) i => match o with
        | none => none
        | some s => if (p.dirty >>> (16 * i)).setWidth 16 != 0#16 then
            flashWrite s dom (base / 16384 + i) ((List.range 16384).map fun j =>
              ((uByte s dom (base + i * 16384 + j)).getD none).getD 0)
          else some s) (some s)
      match res with
      | some s1 => setPage s1 k { pageOf s1 k with dirty := 0 }
      | none => unitFault s 11 0x0A 0 0 0 base base
    else s
  | _, _ => s

/-- Free the stack copy of a page and scrub its frame. -/
def dropCopy (s : State) (k : Nat) : State :=
  let p := pageOf s k
  match p.frame with
  | none => s
  | some f => setPage (scrubFrame s f) k { p with frame := none, present := 0, dirty := 0 }

/-- The stacks of a domain's frames: in partitioned tenancy those of its partition's slice (R379), else all. -/
def domStacks (s : State) (dom : Nat) : List Nat :=
  if fget s F.SMC_TENANCY_MODE = 1 then
    match tfind s.fab.slices (tget {} s.smc.doms dom).part with
    | some l => (liveStacks s).filter fun k => bitAt l.stackMask k
    | none => []
  else liveStacks s

/-- Take a frame for a page; when the pool is full, that of the least recently used cached page, PRELOAD pages last (R382). -/
def allocFrame (s : State) (dom : Nat) (okBank : Nat → Bool := fun _ => true) : Option (Nat × State) :=
  match findFrame s (domStacks s dom) okBank with
  | some f => some (f, freeNext (scrubFrame s f))
  | none =>
    let cand := s.tir.pages.filter fun p => p.2.frame.isSome && cached s p.1 &&
      (match p.2.frame with | some f => okBank (f / 2048) && (domStacks s dom).contains (f / 2 ^ 21) | none => false)
    let pre := fun (p : Nat × Page) => match regionAt s (p.1 / 2 ^ 40) (p.1 % 2 ^ 40 * 65536) with
      | some (_, r) => if r.preload then 2 ^ 64 else 0
      | none => 0
    match leastBy (fun p => pre p + p.2.use) cand with
    | none => none
    | some p =>
      let s1 := writeBack s p.1
      if (pageOf s1 p.1).dirty != 0 then none
      else match p.2.frame with
        | none => none
        | some f => some (f, dropCopy s1 p.1)

/-! ### Writes -/

/-- Mark a page used now. -/
def touch (s : State) (k : Nat) : State :=
  let p := pageOf s k
  let s1 := { s with tir := { s.tir with useCtr := s.tir.useCtr + 1 } }
  if p = {} then s else setPage s1 k { p with use := s.tir.useCtr + 1 }

/-- One sub-block of a tile arrives in the stacks, unless it is there already, dirty; one that its backing cannot deliver arrives as
uncorrectable words (R384, R403). -/
def fillSub (s : State) (dom pa a : Nat) (dirty : BitVec 64) : State :=
  if dirty.getLsbD (a % 65536 / 1024) then s
  else match uRead s dom a 1024 with
    | .ok bs => stkWrite s pa bs
    | _ => { s with mem := { s.mem with badStk := s.mem.badStk ++ (List.range 256).map fun i => pa / 4 + i } }

/-- Bring one tile of a write-back or cached page into the stacks (R377, R380). -/
def fillTile (s : State) (dom a : Nat) : State :=
  let k := pageKey dom a
  match regionAt s dom a with
  | none => s
  | some (_, r) =>
    if !(r.cls == 0 || (r.cls == 2 && r.rcache)) then s
    else
      let base := a / 4096 * 4096
      let sf := match (pageOf s k).frame with
        | some f => some (f, s)
        | none => (allocFrame s dom).map fun (f, s1) => (f, setPage s1 k { pageOf s1 k with frame := some f })
      match sf with
      | none => s
      | some (f, s1) =>
        let p := pageOf s1 k
        let t := a % 65536 / 4096
        if p.present.getLsbD t then s1
        else
          let pa := f * 65536 + t * 4096
          let s2 := (List.range 4).foldl (fun s i => fillSub s dom (pa + 1024 * i) (base + 1024 * i) p.dirty) s1
          setPage s2 k { p with present := p.present ||| (1#16 <<< t) }

/-- Read of a unified range as an access: the tiles it needs are brought in and its pages marked used. -/
def uLoad (s : State) (dom a n : Nat) : URead × State :=
  let met := if uRead s dom a n = .ue then countUE s (uWhere s dom a n) else s
  (uRead s dom a n,
    ((List.range (if n = 0 then 0 else (a + n - 1) / 4096 - a / 4096 + 1)).foldl
      (fun s i => touch (fillTile s dom ((a / 4096 + i) * 4096)) (pageKey dom ((a / 4096 + i) * 4096))) met))

/-- A write to a page homed on flash starts its migration to the stacks and waits in it (R385, R386). -/
def startMig (s : State) (k target cmd : Nat) (hostAddr : Nat := 0) : State :=
  let p := pageOf s k
  if p.mig.isSome then s
  else
    let fr := if target = 1 then (allocFrame s (k / 2 ^ 40)) else some (0, s)
    match fr with
    | none => fbump s F.TIR_MIG_STAT_ABANDONED
    | some (f, s1) =>
      let m : Mig := { target := target, frame := if target = 1 then some f else none, hostAddr := hostAddr, cmd := cmd }
      setPage s1 k { pageOf s1 k with mig := some m }

/-- Write of one byte at a unified-range address, which lies in the range and is writable. -/
def uPut (s : State) (dom a : Nat) (b : Byte) : State :=
  let k := pageKey dom a
  let p := pageOf s k
  match areaAt s dom a with
  | some i =>
    if a - areaBase i ≥ areaFlash then flashPut s dom a [b]
    else match p.frame with
      | some f => stkWrite s (f * 65536 + a % 65536) [b]
      | none => match allocFrame s dom with
        | some (f, s1) => stkWrite (setPage s1 k { pageOf s1 k with frame := some f }) (f * 65536 + a % 65536) [b]
        | none => s
  | none => match regionAt s dom a with
    | none => s
    | some (_, r) =>
      if r.cls = 1 then
        match p.mig.filter fun m => !m.flipped with
        | some m =>
          if m.final || p.home = 2 then setPage s k { p with mig := some { m with waiting := m.waiting ++ [(a, [b])] } }
          else
            let s1 := setPage s k { p with mig := some { m with mask := m.mask ||| (1#64 <<< (a % 65536 / 1024)) } }
            match p.home with
            | 3 => hostWrite s1 (pasidOf s dom) (p.hostAddr + a % 65536) [b]
            | _ => match p.frame with
              | some f => stkWrite s1 (f * 65536 + a % 65536) [b]
              | none => s1
        | none =>
          match p.home with
          | 2 =>
            let s1 := startMig s k 1 0
            let p1 := pageOf s1 k
            match p1.mig with
            | some m => setPage s1 k { p1 with mig := some { m with waiting := m.waiting ++ [(a, [b])] } }
            | none => flashPut s1 dom a [b]
          | 3 => hostWrite s (pasidOf s dom) (p.hostAddr + a % 65536) [b]
          | _ => match p.frame with
            | some f => stkWrite s (f * 65536 + a % 65536) [b]
            | none => s
      else if r.cls = 0 then
        let s1 := if p.dirty.getLsbD (a % 65536 / 1024) then s else fillTile s dom a
        let p1 := pageOf s1 k
        match p1.frame with
        | some f => setPage (stkWrite s1 (f * 65536 + a % 65536) [b]) k
            { p1 with dirty := p1.dirty ||| (1#64 <<< (a % 65536 / 1024)), use := s1.tir.useCtr }
        | none => s1
      else s

/-- A whole aligned sub-block of a write-back page is about to be written: it takes its place in the page's frame without a fill (R380). -/
def coverSub (s : State) (dom a : Nat) : State :=
  match regionAt s dom a with
  | none => s
  | some (_, r) =>
    if r.cls != 0 || r.backing = 0 then s
    else
      let k := pageKey dom a
      let sf := match (pageOf s k).frame with
        | some _ => some s
        | none => (allocFrame s dom).map fun (f, s1) => setPage s1 k { pageOf s1 k with frame := some f }
      match sf with
      | none => s
      | some s1 => setPage s1 k { pageOf s1 k with dirty := (pageOf s1 k).dirty ||| (1#64 <<< (a % 65536 / 1024)) }

/-- The writes of bytes one after another. -/
def pokeBytes (s : State) (dom a : Nat) : List Byte → State
  | [] => s
  | b :: bs => pokeBytes (uPut s dom a b) dom (a + 1) bs

/-- Write of bytes without checks: TIR's own writes. The whole sub-blocks of the range are not filled first. -/
def uPoke (s : State) (dom a : Nat) (bs : List Byte) : State :=
  let first := cdiv a 1024
  let subs := (List.range ((a + bs.length) / 1024 - first)).map fun i => (first + i) * 1024
  pokeBytes (subs.foldl (fun s x => coverSub s dom x) s) dom a bs

/-- A byte only TIR writes: root table and item directory of an installed index, and index areas (R149, R150, R372). -/
def tirOnly (s : State) (dom a : Nat) : Bool :=
  (areaAt s dom a).isSome || s.tir.indexes.any fun p => p.2.dom == dom &&
    ((p.2.root ≤ a && a < p.2.root + 64 * p.2.lists) || (p.2.dir ≤ a && a < p.2.dirEnd))

/-- A byte of a read-only mapping (R384). -/
def readOnly (s : State) (dom a : Nat) : Bool :=
  match regionAt s dom a with
  | some (_, r) => r.cls == 2
  | none => false

/-- The outcome of a checked write. -/
inductive UWrite
  | outside
  | violation
  | ok (s : State)
deriving DecidableEq, Repr

/-- Write as an access of a job or of the fabric: outside the range or in a read-only mapping it is `outside` (R129, R384),
in a table only TIR writes a violation (R149). -/
def uWrite (s : State) (dom a : Nat) (bs : List Byte) : UWrite :=
  let is := List.range bs.length
  if is.any (fun i => locate s dom (a + i) == .outside || readOnly s dom (a + i)) then .outside
  else if is.any (fun i => tirOnly s dom (a + i)) then .violation
  else .ok (uPoke s dom a bs)

end Sys2Proof.Machine
end

