-- ==== Sys2Proof/Machine/Access.lean ====
section
/-!
DEFINITION. Accessors of jobs, owners, grants, counters, slices and engine queues, arrival-counter pulses (R89), and
egress of packets and replies (R462, R530, R535): what several families share below the life of a job.
-/

namespace Sys2Proof.Machine

open Sys2Proof

/-! ### Owners and slices -/

/-- Key of an instance of a resource class (R49). -/
def okey (cls inst : Nat) : Nat := cls * 2 ^ 20 + inst
/-- Owner of an instance. -/
def ownerOf (s : State) (cls inst : Nat) : Owner := tget .free s.exec.owner (okey cls inst)
/-- The state with an owner written, without what a change of owner entails. -/
def putOwner (s : State) (cls inst : Nat) (o : Owner) : State :=
  { s with exec := { s.exec with owner := tput .free s.exec.owner (okey cls inst) o } }

/-- Numbers of the set bits of a mask of `n` bits, ascending. -/
def maskList (m n : Nat) : List Nat := (List.range n).filter fun i => bitAt m i
/-- A slice, if it exists: while no slice is defined, slice 0 is the whole node (R466). -/
def sliceOf (s : State) (k : Nat) : Option Slice :=
  if s.fab.slices = [] then
    if k = 0 then some { clusters := 2 ^ 16 - 1, stackMask := 2 ^ 20 - 1, portMask := 255, channels := 2 ^ 64 - 1 } else none
  else tfind s.fab.slices k

/-- The slice's units of a class that follow clusters, stacks, channels or ports, in ascending order. -/
def sliceUnits (l : Slice) (cls : Nat) : List Nat :=
  match cls with
  | 0 | 10 => maskList l.stackMask 20
  | 1 | 3 | 4 | 9 => maskList l.clusters 16
  | 6 | 11 => maskList l.channels 64
  | 12 => maskList l.portMask 8
  | _ => []

/-- The node's instance for a slice-relative one (R49, R54): `none` outside the slice's shape. Tile regions follow the
clusters in runs of 384 and then the scoring array's 1,024; relative lane 16 is the merge stage. -/
def absInst (l : Slice) (cls routes rel : Nat) : Option Nat :=
  let u := sliceUnits l cls
  match cls with
  | 0 => (u[rel / 1024]?).map fun k => k * 1024 + rel % 1024
  | 1 => if rel < u.length * 384 then (u[rel / 384]?).map fun k => k * 384 + rel % 384
    else if rel < u.length * 384 + 1024 then some (6144 + (rel - u.length * 384)) else none
  | 2 => if rel < routes then some rel else none
  | 4 => if rel = 16 then some 16 else u[rel]?
  | 5 => if rel < 8 then some rel else none
  | 7 => if rel < 2 then some rel else none
  | 8 => if rel < 64 then some rel else none
  | 13 => if rel < 4096 then some rel else none
  | 3 | 6 | 9 | 10 | 11 | 12 => u[rel]?
  | _ => none

/-- The slice-relative number of a node instance (R126). -/
def relInst (l : Slice) (cls inst : Nat) : Nat :=
  let u := sliceUnits l cls
  match cls with
  | 0 => u.idxOf (inst / 1024) * 1024 + inst % 1024
  | 1 => if inst < 6144 then u.idxOf (inst / 384) * 384 + inst % 384 else u.length * 384 + (inst - 6144)
  | 4 => if inst = 16 then 16 else u.idxOf inst
  | 3 | 6 | 9 | 10 | 11 | 12 => u.idxOf inst
  | _ => inst

/-- Hardware size of a credit pool (R23). -/
def poolSize (cls : Nat) : Nat :=
  match cls with
  | 9 => 4096
  | 10 => 6144
  | 11 => 128
  | 12 => 2048
  | _ => 0

/-! ### Jobs, plans, grants -/

/-- The job of a tag. -/
def jobOf (s : State) (tag : Nat) : Option Job := tfind s.exec.jobs tag
/-- The state with a job stored. -/
def setJob (s : State) (tag : Nat) (j : Job) : State := { s with exec := { s.exec with jobs := tins s.exec.jobs tag j } }
/-- The state with a job changed, when it exists. -/
def modJob (s : State) (tag : Nat) (f : Job → Job) : State :=
  match jobOf s tag with
  | some j => setJob s tag (f j)
  | none => s
/-- The loaded plan of a handle. -/
def planOf (s : State) (h : Nat) : Plan := tget {} s.exec.plans h
/-- A grant by its handle. -/
def grantOf (s : State) (h : Nat) : Option Grant := tfind s.exec.grants h
/-- The state with a grant stored. -/
def setGrant (s : State) (h : Nat) (g : Grant) : State := { s with exec := { s.exec with grants := tins s.exec.grants h g } }

/-- Fields of a token word (R122). -/
def tokValid (w : W64) : Bool := w.getLsbD 0
def tokHold (w : W64) : Nat := bitsOf w.toNat 1 2
def tokPhase (w : W64) : Nat := bitsOf w.toNat 3 6
def tokEntry (w : W64) : Nat := bitsOf w.toNat 9 8
def tokGrant (w : W64) : Nat := bitsOf w.toNat 32 32
/-- A token word (R122). -/
def tokWord (hold phase entry grant : Nat) : W64 := BitVec.ofNat 64 (1 + hold * 2 + phase * 8 + entry * 512 + grant * 2 ^ 32)
/-- The token word with another HOLD. -/
def tokSetHold (w : W64) (h : Nat) : W64 := BitVec.ofNat 64 (putBits w.toNat 1 2 h)

/-- Token register `t` of a job. -/
def tokOf (j : Job) (t : Nat) : W64 := tget 0 j.ctx.t t
/-- The job with token register `t` written. -/
def setTok (j : Job) (t : Nat) (w : W64) : Job := { j with ctx := { j.ctx with t := tput 0 j.ctx.t t w } }
/-- The grant a job's token holds. -/
def tokGrantOf (s : State) (j : Job) (t : Nat) : Option Grant :=
  let w := tokOf j t
  if tokValid w then grantOf s (tokGrant w) else none

/-- A job's grant of a credit share on a pool instance, with its handle. -/
def shareOf (s : State) (tag cls inst : Nat) : Option (Nat × Grant) :=
  s.exec.grants.find? fun p => p.2.tag == tag && p.2.cls == cls && p.2.insts == [inst]
/-- Draw a credit of a share. -/
def drawShare (s : State) (h : Nat) : State :=
  match grantOf s h with
  | some g => setGrant s h { g with used := g.used + 1 }
  | none => s
/-- Return a credit of a share. -/
def giveShare (s : State) (h : Nat) : State :=
  match grantOf s h with
  | some g => setGrant s h { g with used := g.used - 1 }
  | none => s

/-- Job on a sequencer. -/
def seqTag (s : State) (q : Nat) : Option Nat := tfind s.exec.seqs q

/-- State of the NBU of a bank. -/
def nbuOf (s : State) (bank : Nat) : Nbu := tget {} s.stk.nbus bank
/-- The state with an NBU written. -/
def setNbu (s : State) (bank : Nat) (n : Nbu) : State := { s with stk := { s.stk with nbus := tput {} s.stk.nbus bank n } }
/-- Whether an NBU runs a program. -/
def nbuRunning (n : Nbu) : Bool := n.cmd.isSome

/-! ### Arrival counters -/

/-- A counter. -/
def ctrOf (s : State) (i : Nat) : Ctr := tget {} s.exec.ctrs i
/-- The state with a counter written. -/
def setCtr (s : State) (i : Nat) (c : Ctr) : State := { s with exec := { s.exec with ctrs := tput {} s.exec.ctrs i c } }
/-- A pulse (R89): added when the counter is owned and the generation matches, else discarded and counted. -/
def pulseCtr (s : State) (i : Nat) (gen : BitVec 16) (inc : Nat) : State :=
  let c := ctrOf s i
  if ownerOf s 13 i != .free && c.gen == gen then setCtr s i { c with val := c.val + BitVec.ofNat 32 inc }
  else fbump s F.SEQ_STALE_PULSE_V

/-! ### Engine queues -/

/-- Key of an engine instance's command queue; class 14 is TIR, whose instances are job tags. -/
def ekey (cls inst : Nat) : Nat := cls * 2 ^ 32 + inst
/-- Commands at an engine instance, oldest first. -/
def cmdsOf (s : State) (cls inst : Nat) : List Cmd := tget [] s.cmds (ekey cls inst)
/-- The state with an engine's queue replaced. -/
def setCmds (s : State) (cls inst : Nat) (l : List Cmd) : State := { s with cmds := tput [] s.cmds (ekey cls inst) l }

/-! ### Egress -/

/-- The node number, when one is assigned (R430). -/
def myNode (s : State) : Option Nat := if fget s F.FAB_NODE_VALID = 1 then some (fget s F.FAB_NODE_NODE) else none
/-- A port carries traffic (R457). -/
def portUp (s : State) (p : Nat) : Bool := fget s F.FAB_PORT_STAT_STATE p == 3 || fget s F.FAB_PORT_STAT_STATE p == 4
/-- The route to a node: ports whose peer it is, else every port to a switch, without those cut by a path notice (R462). -/
def routeTo (s : State) (node : Nat) : List Nat :=
  let up := (List.range 8).filter fun p => portUp s p && !s.fab.cut.contains (p * 4096 + node)
  let direct := up.filter fun p => fget s F.FAB_PORT_STAT_DIRECT p == 1 && fget s F.FAB_PORT_STAT_PEER p == node
  if direct.isEmpty then up.filter fun p => fget s F.FAB_PORT_STAT_DIRECT p == 0 else direct
/-- The port an operation of `tag` takes to a node. -/
def routePort (s : State) (node tag : Nat) : Option Nat :=
  let r := routeTo s node
  r[tag % r.length]?

/-- TRF state of an egress port (8 is the host link). -/
def portOf (s : State) (p : Nat) : Port := tget {} s.trf.ports p
/-- The state with an egress port written. -/
def setPort (s : State) (p : Nat) (v : Port) : State := { s with trf := { s.trf with ports := tput {} s.trf.ports p v } }
/-- The egress queue of a domain's traffic (R530, R531). -/
def domQueue (s : State) (dom : Nat) (be : Bool) : Nat :=
  min 14 (if be then fget s F.TRF_DOMQ_BE_Q dom else fget s F.TRF_DOMQ_LC_Q dom)
/-- Line bytes of a packet: header flit and payload in whole flits (R434). -/
def pktBytes (p : Pkt) : Nat := 64 + cdiv p.payload.length 64 * 64
/-- Queue a packet at a port; a queue that was empty wakes with its start tag at V (R535). -/
def enqueue (s : State) (port queue : Nat) (p : Pkt) (src : Option (Nat × Nat) := none) : State :=
  let v := portOf s port
  let l := tget [] v.queues queue
  setPort s port { v with
    queues := tput [] v.queues queue (l ++ [{ bytes := if src.isSome then 64 + cdiv p.len.toNat 64 * 64 else pktBytes p, since := s.now, pkt := some p, src := src }])
    tags := if l.isEmpty then tput 0 v.tags queue v.vt else v.tags }
/-- The node is self-fenced (R564). -/
def fenced (s : State) : Bool := fget s F.SMC_FENCE_STAT_FENCED == 1
/-- The request writes at its target. -/
def writesAt (p : Pkt) : Bool := [2, 3, 4, 10].contains p.ty.toNat
/-- A write sent now carries SRC_FENCED while the node is self-fenced (R438, R564). -/
def fenceFlag (s : State) (p : Pkt) : Pkt :=
  if writesAt p && !p.flags.getLsbD 0 && fenced s then { p with flags := p.flags ||| 8 } else p

/-- Send a packet towards its DST: through TRF on the route's port, or, to this node itself, into FAB ingress. Answers the
port; 15 stands for the node itself and 14 for no route at this time. A node without a number sends nothing (R430). -/
def sendPkt (s : State) (queue : Nat) (p : Pkt) (src : Option (Nat × Nat) := none) : Nat × State :=
  if (myNode s).isNone then (14, s)
  else if myNode s = some p.dst.toNat then
    (15, emit s (.packet 15 (fenceFlag s (match src with
      | some (dom, a) => { p with payload := (uBytes s dom a p.len.toNat).getD [] }
      | none => p))))
  else match routePort s p.dst.toNat p.tag.toNat with
    | some port => (port, enqueue s port queue p src)
    | none => (14, s)

/-- Take the packets of a TYPE and TAG out of every egress queue. -/
def dropEgress (s : State) (ty : BitVec 8) (tag : BitVec 32) : State :=
  let keep := fun (e : Egress) => match e.pkt with
    | some p => !(p.ty == ty && p.tag == tag && p.flags.getLsbD 0 == false)
    | none => true
  { s with trf := { s.trf with ports := s.trf.ports.map fun p =>
    (p.1, { p.2 with queues := (p.2.queues.map fun q => (q.1, q.2.filter keep)).filter fun q => q.2 != [] }) } }

/-- An empty packet. -/
def noPkt : Pkt :=
  { ty := 0, flags := 0, dst := 0, src := 0, sdom := 0, tag := 0, fepoch := 0, mepoch := 0, off := 0, size := 0, atop := 0
    status := 0, len := 0, newNode := 0, total := 0, seg := 0, lastSeg := 0, rctr := 0, rgen := 0, rinc := 0, operand := 0
    compare := 0, bad := false, payload := [] }

/-- The reply to a request (R434, R435): its TYPE with RESP, its tag, a status. -/
def replyPkt (s : State) (p : Pkt) (status : Nat) (newNode : Nat := 0) (operand : W64 := 0) (data : List Byte := []) : Pkt :=
  { noPkt with
    ty := p.ty, flags := 1, dst := p.src, src := BitVec.ofNat 12 ((myNode s).getD 0), sdom := p.sdom, tag := p.tag
    fepoch := p.fepoch, mepoch := p.mepoch, size := p.size, status := BitVec.ofNat 8 status
    newNode := BitVec.ofNat 12 newNode, operand := operand, len := BitVec.ofNat 16 data.length, payload := data }
/-- Send a packet on the system queue (R530). -/
def sendSys (s : State) (p : Pkt) : State := (sendPkt s 15 p).2

end Sys2Proof.Machine
end

