-- ==== Sys2Proof/Machine/Fabric.lean ====
section
/-!
DEFINITION. What the target of a fabric request does once it is admitted (R441 to R446, R464): window lookup, the loads,
stores, atomics and copy segments, their replies and replay records; and the service of deferred accesses (R261, R443).
-/

namespace Sys2Proof.Machine

open Sys2Proof

/-- The window that covers `n` bytes from a fabric offset (R431). -/
def winFor (s : State) (off n : Nat) : Option (Nat × Window) :=
  s.fab.windows.find? fun p => p.2.foff ≤ off && off + n ≤ p.2.foff + p.2.len

/-- Bytes a request of a SIZE code moves (R435). -/
def sizeBytes (size : Nat) : Nat :=
  match size with
  | 0 => 8
  | 1 => 32
  | _ => 64

/-- Offset, length of the bytes a request concerns: the whole copy for copy types (R437). -/
def pktRange (p : Pkt) : Nat × Nat :=
  match p.ty.toNat with
  | 4 => (p.off.toNat - 1024 * p.seg.toNat, p.total.toNat)
  | 5 | 9 | 10 => (p.off.toNat, p.total.toNat)
  | 3 => (p.off.toNat / 8 * 8, 8)
  | _ => (p.off.toNat / sizeBytes p.size.toNat * sizeBytes p.size.toNat, sizeBytes p.size.toNat)

/-- An atomic operation (R135): the new value from the old one, the operand and the compare value. -/
def atomicOp (code : Nat) (old operand compare : W64) : W64 :=
  match code with
  | 0 => old + operand
  | 1 => operand
  | 2 => if old = compare then operand else old
  | 3 => old &&& operand
  | 4 => old ||| operand
  | 5 => old ^^^ operand
  | 6 => if old.ult operand then old else operand
  | 7 => if old.ult operand then operand else old
  | 8 => if old.slt operand then old else operand
  | 9 => if old.slt operand then operand else old
  | _ => old

/-- Key of a replay record: SRC, TAG and, for a copy segment, SEG (R464). -/
def recKey (p : Pkt) : Nat := (p.src.toNat * 2 ^ 32 + p.tag.toNat) * 2 ^ 17 + if p.ty = 4 then p.seg.toNat + 1 else 0
/-- Key of an incoming copy. -/
def copyKey (p : Pkt) : Nat := p.src.toNat * 2 ^ 32 + p.tag.toNat
/-- Replay records a node keeps (R464). -/
def maxRecords : Nat := 131072
/-- Keep a replay record for 10 ms (R464), and count when the records fill. -/
def keepRecord (s : State) (p : Pkt) (r : Option Pkt) : State :=
  let l := tins s.fab.records (recKey p) { reply := r, until_ := s.now + 10000000 }
  let s1 : State := { s with fab := { s.fab with records := l } }
  if l.length = maxRecords && s.fab.records.length < maxRecords then fbump s1 F.FAB_MINPORTS_RECORD_FULL else s1

/-- Accesses FAB holds at most (R443, R447). -/
def maxHeld : Nat := 1024
/-- Hold an access in FAB, and count when the hold fills. -/
def holdPkt (s : State) (d : Defer) : State :=
  let s1 : State := { s with fab := { s.fab with hold := s.fab.hold ++ [{ d with since := s.now }] } }
  if s1.fab.hold.length = maxHeld then fbump s1 F.FAB_XACT_STAT_HELD_FULL else s1
/-- Number under which FAB holds what waits for the routing map of a composition (R470). -/
def holdComp (c : Nat) : Nat := 2 ^ 70 + c
/-- Number under which FAB holds what waits for the migration of a page (R386, R442). -/
def holdPage (k : Nat) : Nat := 2 ^ 80 + k
/-- The page's writes wait: it is homed on flash or its final copy runs (R385, R386). -/
def pageWaits (s : State) (k : Nat) : Bool :=
  let p := pageOf s k
  match regionAt s (k / 2 ^ 40) (k % 2 ^ 40 * 65536) with
  | some (_, r) => r.cls == 1 && (p.home == 2 || match p.mig with | some m => m.final && !m.flipped | none => false)
  | none => false
/-- The bytes at an address are homed in host memory or lie in a region with host backing (R442). -/
def hostBacked (s : State) (dom a : Nat) : Bool :=
  match regionAt s dom a with
  | some (_, r) => r.backing == 2 || (match locate s dom a with | .host _ => true | _ => false)
  | none => false

/-- The remote pulse of a copy (R445): made when its window has the pulse bit and the counter's owner is of its domain. -/
def remotePulse (s : State) (p : Pkt) : State :=
  let c := p.rctr.toNat
  let ok := match winFor s (pktRange p).1 (pktRange p).2, ownerOf s 13 c with
    | some (_, w), .job t => bitAt w.access 3 && (match jobOf s t with | some j => j.dom == w.dom | none => false)
    | _, _ => false
  if ok then pulseCtr s c p.rgen p.rinc.toNat else fbump s F.SEQ_STALE_PULSE_V

/-- Segments a copy of `total` bytes is carried in (R436). -/
def segCount (total : Nat) : Nat := cdiv total 1024

/-- Apply an admitted LOAD, STORE, ATOMIC, COPY_PUSH segment or COPY_PULL, and answer it (R436, R441 to R446, R464). -/
def fabApply (s : State) (p : Pkt) : State :=
  let (off, n) := pktRange p
  match winFor s off n with
  | none => sendSys s (replyPkt s p 0x0C)
  | some (_, w) =>
    let a := w.base + (off - w.foff)
    match p.ty.toNat with
    | 1 => match uLoad s w.dom a n with
      | (.ok bs, s1) => sendSys s1 (replyPkt s1 p 0 0 0 bs)
      | (.ue, s1) => sendSys s1 (replyPkt s1 p 8)
      | (.outside, s1) => sendSys s1 (replyPkt s1 p 0x0C)
    | 2 => match uWrite s w.dom a ((p.payload ++ List.replicate 64 0).take n) with
      | .ok s1 => let r := replyPkt s1 p 0; sendSys (keepRecord s1 p (some r)) r
      | _ => sendSys s (replyPkt s p 0x0C)
    | 3 =>
      if hostBacked s w.dom a then sendSys (fbump s F.FAB_XACT_STAT_NOATOM) (replyPkt s p 0x0C)
      else if pageWaits s (pageKey w.dom a) then
        holdPkt (startMig s (pageKey w.dom a) 1 0) { bank := holdPage (pageKey w.dom a), pkt := some p }
      else match uBytes s w.dom a 8 with
      | none => sendSys s (replyPkt s p 8)
      | some bs =>
        let old := BitVec.ofNat 64 (numOf bs)
        match uWrite s w.dom a (bytesOf 8 (atomicOp p.atop.toNat old p.operand p.compare).toNat) with
        | .ok s1 => let r := replyPkt s1 p 0 0 old; sendSys (keepRecord s1 p (some r)) r
        | _ => sendSys s (replyPkt s p 0x0C)
    | 4 =>
      let sa := a + 1024 * p.seg.toNat
      match uWrite s w.dom sa (p.payload.take (min 1024 (n - 1024 * p.seg.toNat))) with
      | .ok s1 =>
        let c := tget { pkt := p } s1.fab.copies (copyKey p)
        let got := if c.got.contains p.seg.toNat then c.got else p.seg.toNat :: c.got
        if got.length ≥ segCount n then
          let s2 := { s1 with fab := { s1.fab with copies := tdel s1.fab.copies (copyKey p) } }
          let s3 := if p.flags.getLsbD 1 then remotePulse s2 p else s2
          let r := replyPkt s3 p 0
          sendSys (keepRecord s3 p (some r)) r
        else keepRecord { s1 with fab := { s1.fab with
          copies := tins s1.fab.copies (copyKey p) { pkt := p, got := got, last := s.now } } } p none
      | _ => sendSys s (replyPkt s p 0x0C)
    | 5 => match uLoad s w.dom a n with
      | (.ok bs, s1) =>
        let s2 := if p.flags.getLsbD 1 then { s1 with fab := { s1.fab with
          copies := tins s1.fab.copies (copyKey p) { pkt := p, last := s.now } } } else s1
        (List.range (segCount n)).foldl (fun s i => sendSys s { replyPkt s p 0 0 0 ((bs.drop (1024 * i)).take 1024) with
          ty := 6, flags := 0, seg := BitVec.ofNat 16 i, lastSeg := BitVec.ofNat 16 (segCount n - 1)
          total := p.total, off := p.off + BitVec.ofNat 48 (1024 * i) }) s2
      | (.ue, s1) => sendSys s1 (replyPkt s1 p 8)
      | (.outside, s1) => sendSys s1 (replyPkt s1 p 0x0C)
    | _ => s

/-- A reply kept for an operation that has been applied: for a copy, that of the whole copy (R464). -/
def keptReply (s : State) (p : Pkt) : Option Pkt :=
  if p.ty = 4 then s.fab.records.findSome? fun r => if r.1 / 2 ^ 17 = copyKey p then r.2.reply else none
  else (tfind s.fab.records (recKey p)).bind fun r => r.reply
/-- The request has been applied already (R464). -/
def applied (s : State) (p : Pkt) : Bool := p.flags.getLsbD 2 && (tfind s.fab.records (recKey p)).isSome
/-- Answer a replayed request that has been applied: its reply is sent again from the record (R464). -/
def answerAgain (s : State) (p : Pkt) : State :=
  match keptReply s p with
  | some r => sendSys s r
  | none => s

/-! ### Deferred accesses -/

/-- Bank of the first byte of an access that lies in the stacks. -/
def bankOfAccess (s : State) (dom a : Nat) : Option Nat :=
  match locate s dom a with
  | .stack p => some (p / 2 ^ 27)
  | _ => none

/-- Deferred accesses of a stack, in arrival order (R263). -/
def deferOf (s : State) (st : Nat) : List Defer := tget [] s.stk.defer st
/-- The state with a deferred queue replaced. -/
def setDefer (s : State) (st : Nat) (l : List Defer) : State := { s with stk := { s.stk with defer := tput [] s.stk.defer st l } }

/-! ### The BAR2 aperture (R488, R489) -/

/-- Domain and unified-range address that a BAR2 offset reaches, when its slice is valid and BAR2 is open (R573). -/
def aperture (s : State) (off : Nat) : Option (Nat × Nat) :=
  let k := off / 2 ^ 24 % 4096
  if fget s F.HIU_APT_DOM_VALID k = 1 && fget s F.PRB_STEP_LAST ≥ 12 then
    some (fget s F.HIU_APT_DOM_DOM k, rpair s .HIU_APT_BASE_LO .HIU_APT_BASE_HI k + off % 2 ^ 24)
  else none

/-- A byte of a region that is not in use because of a park (R394). -/
def parkedAt (s : State) (dom a : Nat) : Bool :=
  match regionAt s dom a with
  | some (_, r) => !r.removing && r.park != .active
  | none => false

/-- A host read: its bytes, or a Completer Abort, with a fault record for an uncorrectable word (R489). -/
def hostLoad (s : State) (dom a n : Nat) : State :=
  match uLoad s dom a n with
  | (.ok bs, s1) => emit s1 (.readReply (some bs))
  | (.ue, s1) =>
    let b := bankOfAccess s dom a
    emit (faultRec s1 { block := if b.isSome then 6 else 11, kind := 4, inst := b.getD 0, dom := dom, addr := a }) (.readReply none)
  | (.outside, s1) => emit s1 (.readReply none)

/-- A host write: applied, or discarded and counted as R149, R384, R394 and R489 say. -/
def hostStore (s : State) (dom a : Nat) (bs : List Byte) : State :=
  let is := List.range bs.length
  if is.any fun i => locate s dom (a + i) == .outside && !parkedAt s dom (a + i) then fbump s F.HIU_STAT_BAR2_WR
  else if is.any fun i => parkedAt s dom (a + i) || readOnly s dom (a + i) then fbump s F.TIR_RGN_STAT_REFUSED
  else if is.any fun i => tirOnly s dom (a + i) then fbump s F.TIR_IDX_STAT_REFUSED
  else uPoke s dom a bs

/-- A host access to a bank waits for a yield point of its owner: an NBU that runs, or a job that does not wait (R67, R262). -/
def hostDefers (s : State) (b : Nat) : Bool :=
  nbuRunning (nbuOf s b) || match ownerOf s 0 b with
    | .job t => (match jobOf s t with | some j => j.phase != .waiting | none => false)
    | _ => false

/-- Room for one more access in a stack's deferred queue (R263): the queue with it, and DFULL when it fills. -/
def deferPut (s : State) (d : Defer) : Option State :=
  let l := deferOf s (d.bank / 1024)
  if l.length ≥ 256 then none
  else
    let s1 := setDefer s (d.bank / 1024) (l ++ [{ d with since := s.now }])
    some (if l.length + 1 = 256 then fbump s1 F.STK_NBU_STAT_DFULL (d.bank / 1024) else s1)

/-- Carry out or defer one BAR2 access (R67, R488, R489); none while it must wait at HIU: outside P0 (R607), behind a
BAR2 write that is deferred (R488), or for room in the deferred queue (R263). -/
def bar2Try (s : State) (off n : Nat) (data : Option (List Byte)) : Option State :=
  if !inP0 s || writeDeferred s then none
  else match aperture s off with
    | none => some (match data with
      | some _ => fbump s F.HIU_STAT_BAR2_WR
      | none => emit s (.readReply none))
    | some (dom, a) =>
      let go := match data with
        | some bs => hostStore s dom a bs
        | none => hostLoad s dom a n
      match bankOfAccess s dom a with
      | none => some go
      | some b => if hostDefers s b then deferPut s { bank := b, dom := dom, addr := a, len := n, data := data } else some go

/-- Carry out the BAR2 accesses at the head of those that wait at HIU, in order of arrival, as far as they can go (R488). -/
def bar2Pump : Nat → State → State
  | 0, s => s
  | k + 1, s =>
    match s.hiu.waiting with
    | .bar2 off n data :: rest => match bar2Try { s with hiu := { s.hiu with waiting := rest } } off n data with
      | some s1 => bar2Pump k s1
      | none => s
    | _ => s

/-- Serve one access that was deferred: a fabric request, a host write or a host read (R261, R443, R489). A replay of a request that has
been applied meanwhile is not applied again (R464). -/
def serveOne (s : State) (d : Defer) : State :=
  match d.pkt with
  | some p => if applied s p then answerAgain s p else fabApply s p
  | none => match d.data with
    | some bs => hostStore s d.dom d.addr bs
    | none => hostLoad s d.dom d.addr d.len

/-- Serve a deferred access and note the longest deferral of its stack (R268). -/
def serveDeferred (s : State) (d : Defer) : State :=
  let st := d.bank / 1024
  let s1 := serveOne s d
  fset s1 F.STK_DEFER_MAX_MAX (max (fget s1 F.STK_DEFER_MAX_MAX st) (min 0xFFFF (s.now - d.since))) st

/-- Serve, in arrival order, up to `n` deferred accesses to one bank (R261); BAR2 accesses that waited for them go on. -/
def serveBank (s : State) (bank n : Nat) : State :=
  let l := deferOf s (bank / 1024)
  let mine := (l.filter fun d => d.bank == bank).take n
  let s1 := mine.foldl serveDeferred (setDefer s (bank / 1024) (mine.foldl (fun l d => l.erase d) l))
  bar2Pump s1.hiu.waiting.length s1

/-- Serve the accesses FAB holds for a bank, once it changes owner or its owner's phase declares a window (R443). -/
def serveHeld (s : State) (bank : Nat) : State :=
  let mine := s.fab.hold.filter fun d => d.bank == bank
  mine.foldl serveOne { s with fab := { s.fab with hold := s.fab.hold.filter fun d => d.bank != bank } }

end Sys2Proof.Machine
end

