-- ==== Sys2Proof/Machine/Ops.lean ====
section
/-!
DEFINITION. The shared operations of chapters 3, 4 and 19: ownership changes, claims, handovers, yield points, making way
and resuming, and the end of a job with its records (R49 to R70, R77 to R101, R516 to R524).
-/

namespace Sys2Proof.Machine

open Sys2Proof

/-! ### Status codes (R502) -/

def stOK := 0x00
def stSHORT := 0x01
def stLATE := 0x02
def stPOLICED := 0x03
def stMOVED := 0x04
def stPLAN_VIOLATION := 0x05
def stDOMAIN_OVERLAP := 0x06
def stMEDIA_ERROR := 0x07
def stUNCORRECTABLE := 0x08
def stOVERCAST := 0x09
def stFENCED := 0x0A
def stBAD_OPERATOR := 0x0B
def stNOT_OWNER := 0x0C
def stABORTED := 0x0D
def stPIN_LIMIT := 0x0E
def stDMA_ERR := 0x0F

/-! ### Ownership changes -/

/-- State of a SEL lane. -/
def laneOf (s : State) (l : Nat) : Lane := tget {} s.lanes l
/-- The state with a lane written. -/
def setLane (s : State) (l : Nat) (v : Lane) : State := { s with lanes := tput {} s.lanes l v }

/-- Discard a lane's waiting entries that satisfy `p`, with their credits returned (R26). -/
def dropCands (s : State) (l : Nat) (p : Cand → Bool) : State :=
  let v := laneOf s l
  (v.inq.filter p).foldl (fun s c => giveShare s c.share) (setLane s l { v with inq := v.inq.filter fun c => !p c })

/-- What a change of owner entails (R222, R278, R313, R443): a cluster drops its group, a lane its sets and reports, a
scorer its tables; STK and FAB serve the accesses they hold for a bank. -/
def ownerHook (s : State) (cls inst : Nat) : State :=
  match cls with
  | 0 => serveHeld (if nbuRunning (nbuOf s inst) then s else serveBank s inst (deferOf s (inst / 1024)).length) inst
  | 3 => { s with groups := tdel s.groups inst }
  | 4 => let s1 := dropCands s inst fun _ => true; { s1 with lanes := tdel s1.lanes inst }
  | 6 => { s with fls := { s.fls with tables := s.fls.tables.filter fun p => p.1 / 16 != inst } }
  | _ => s

/-- Change the owner of an instance (R59). A cluster of the scoring array that is out of service never becomes free (R627). -/
def setOwner (s : State) (cls inst : Nat) (o : Owner) : State :=
  let o := if o == .free && cls == 5 && s.flt.scaOut.contains inst then .agent 9 else o
  if ownerOf s cls inst = o then s else ownerHook (putOwner s cls inst o) cls inst

/-- Return one instance of a grant to free; a bank whose NBU runs goes there at the NBU's next yield (R125, R265). -/
def freeInst (s : State) (cls tag inst : Nat) : State :=
  match ownerOf s cls inst with
  | .job t => if t = tag then setOwner s cls inst .free else s
  | .nbu t => if t = tag then
      if nbuRunning (nbuOf s inst) then setNbu s inst { nbuOf s inst with recalled := 2 } else setOwner s cls inst .free
    else s
  | _ => s

/-- Whether a class is a credit pool. -/
def isPool (cls : Nat) : Bool := 9 ≤ cls && cls ≤ 12

/-- Return a grant: its instances to free, its credits to the pool (R61, R75). -/
def dropGrant (s : State) (h : Nat) : State :=
  match grantOf s h with
  | none => s
  | some g =>
    let s1 : State := { s with exec := { s.exec with grants := tdel s.exec.grants h } }
    if isPool g.cls then
      g.insts.foldl (fun s i => { s with exec := { s.exec with
        shared := tput 0 s.exec.shared (okey g.cls i) (tget 0 s.exec.shared (okey g.cls i) - g.credits) } }) s1
    else if g.cls = 2 then s1
    else g.insts.foldl (fun s i => freeInst s g.cls g.tag i) s1

/-- Some command of the job is at an engine, or a RANK command of it at a stack. -/
def jobBusy (s : State) (tag : Nat) : Bool :=
  s.cmds.any (fun p => p.2.any fun c => c.tok.job == tag) || s.stk.ranks.any fun p => p.2.tok.job == tag

/-- A grant that commands of its job still use (R98, R265). -/
def grantBusy (s : State) (g : Grant) : Bool :=
  if g.cls = 4 || isPool g.cls then jobBusy s g.tag
  else if g.cls = 0 then g.insts.any fun i => nbuRunning (nbuOf s i) || (nbuOf s i).queue != []
  else (g.insts.any fun i => (cmdsOf s g.cls i).any fun c => c.tok.job == g.tag) || (g.cls = 8 && cmdsOf s 14 g.tag != [])

/-- Return a grant now, or once the commands on it complete (R98). -/
def yieldGrant (s : State) (h : Nat) : State :=
  match grantOf s h with
  | none => s
  | some g => if grantBusy s g then { s with exec := { s.exec with pendFree := s.exec.pendFree ++ [h] } } else dropGrant s h

/-- Return the grants whose last command has completed (R98). -/
def sweepGrants (s : State) : State :=
  s.exec.pendFree.foldl (fun s h => match grantOf s h with
    | none => { s with exec := { s.exec with pendFree := s.exec.pendFree.erase h } }
    | some g => if grantBusy s g then s
      else dropGrant { s with exec := { s.exec with pendFree := s.exec.pendFree.erase h } } h) s

/-! ### Claims (R54 to R58) -/

/-- Fields of an ownership-mask entry (R54). -/
structure MaskEnt where
  cls : Nat
  mode : Nat
  base : Nat
  span : Nat
  count : Nat
  tok : Nat
deriving DecidableEq, Repr

/-- The mask entry a word spells. -/
def maskEnt (w : Nat) : MaskEnt :=
  { cls := bitsOf w 0 4, mode := bitsOf w 4 2, base := bitsOf w 8 16, span := bitsOf w 24 16, count := bitsOf w 40 16
    tok := bitsOf w 56 3 }

/-- The instances an entry is granted at this moment, if it can be (R55, R56). A route is never held by another job (R49). -/
def chooseInsts (s : State) (l : Slice) (routes : Nat) (m : MaskEnt) : Option (List Nat) :=
  let range := (List.range m.span).map fun i => absInst l m.cls routes (m.base + i)
  if range.any (fun o => o.isNone) then none
  else
    let insts := range.filterMap id
    if m.cls = 2 then some (if m.mode = 1 then insts.take m.count else insts)
    else match m.mode with
      | 0 => if insts.all fun i => ownerOf s m.cls i == .free then some insts else none
      | 1 =>
        let f := (insts.filter fun i => ownerOf s m.cls i == .free).take m.count
        if f.length = m.count then some f else none
      | _ => match insts with
        | [i] => if tget 0 s.exec.shared (okey m.cls i) + m.count ≤ poolSize m.cls then some [i] else none
        | _ => none

/-- A granted instance's own effects: a tile region last held by another domain is zeroed (R551), one whose contents were
lost in P3 holds free bytes (R605); a counter's generation rises (R88). -/
def grantInst (s : State) (dom tag cls i : Nat) : State :=
  let s1 := putOwner s cls i (.job tag)
  match cls with
  | 1 =>
    let s2 := if tget 0 s.exec.tileDom i != dom + 1 then scrubTile s1 i
      else if s.exec.tileLost.contains i then freeNext (tileWrite s1 (i * 65536) (freeBytes s1 65536))
      else s1
    { s2 with exec := { s2.exec with
      tileDom := tput 0 s2.exec.tileDom i (dom + 1), tileLost := s2.exec.tileLost.filter fun k => k != i } }
  | 13 => setCtr s1 i { ctrOf s1 i with gen := (ctrOf s1 i).gen + 1 }
  | _ => ownerHook s1 cls i

/-- Grant instances to a job's token (R56, R122), engine-held where `hold` is 2 (R125). -/
def grantTo (s : State) (tag tok hold : Nat) (dom : Nat) (g : Grant) : State :=
  let h := s.exec.nextHandle
  let s1 : State := { s with exec := { s.exec with nextHandle := h + 1, grants := tins s.exec.grants h g } }
  let s2 := if isPool g.cls then
      g.insts.foldl (fun s i => { s with exec := { s.exec with
        shared := tput 0 s.exec.shared (okey g.cls i) (tget 0 s.exec.shared (okey g.cls i) + g.credits) } }) s1
    else if g.cls = 2 then s1
    else g.insts.foldl (fun s i => grantInst s dom tag g.cls i) s1
  let s3 := if hold = 2 then g.insts.foldl (fun s i => putOwner s g.cls i (.nbu tag)) s2 else s2
  modJob s3 tag fun j => setTok j tok (tokWord hold g.phase g.entry h)

/-- Grant one mask entry to a job's token (R56): none when it cannot be granted. -/
def grantEntry (s : State) (tag : Nat) (j : Job) (phase entry hold : Nat) : Option State :=
  let pl := planOf s j.plan
  match sliceOf s pl.slice with
  | none => none
  | some l =>
    let m := maskEnt (pl.masks.getD entry 0)
    (chooseInsts s l pl.routes.length m).map fun insts =>
      grantTo s tag m.tok hold j.dom { tag := tag, cls := m.cls, insts := insts, credits := if m.mode = 2 then m.count else 0,
                                       phase := phase, entry := entry }

/-- Grant again one thing a parked job returned (R100): by its mask entry, or the same instances of a handed-over grant. -/
def regrant (s : State) (tag : Nat) (j : Job) (r : Reclaim) : Option State :=
  if !r.g.handed then grantEntry s tag j r.g.phase r.g.entry r.hold
  else
    let free := if isPool r.g.cls then
        r.g.insts.all fun i => tget 0 s.exec.shared (okey r.g.cls i) + r.g.credits ≤ poolSize r.g.cls
      else r.g.cls = 2 || r.g.insts.all fun i => ownerOf s r.g.cls i == .free
    if free then some (grantTo s tag r.tok r.hold j.dom r.g) else none

/-- Grant again everything a parked job returned, whole or not at all (R56, R100). -/
def regrantAll (s : State) (tag : Nat) : List Reclaim → Option State
  | [] => some s
  | r :: rs =>
    match jobOf s tag with
    | none => none
    | some j => match regrant s tag j r with
      | none => none
      | some s1 => regrantAll s1 tag rs

/-- The mask entries of a phase of a plan. -/
def phaseEntries (pl : Plan) (phase : Nat) : List Nat :=
  match pl.phases[phase]? with
  | some p => (List.range p.count).map (p.first + ·)
  | none => []

/-- Grant the entries of a phase whole, or not at all (R56). -/
def grantAll (s : State) (tag : Nat) (phase : Nat) : List Nat → Option State
  | [] => some s
  | e :: es =>
    match jobOf s tag with
    | none => none
    | some j => match grantEntry s tag j phase e 0 with
      | none => none
      | some s1 => grantAll s1 tag phase es

/-- The grant of a whole phase to a job (R56). -/
def claimPhase (s : State) (tag : Nat) (j : Job) (phase : Nat) : Option State :=
  (grantAll s tag phase (phaseEntries (planOf s j.plan) phase)).map fun s1 =>
    modJob s1 tag fun j => { j with curPhase := some phase }

/-! ### Flags of a waiting instruction -/

/-- The flags with CF (bit 3) at `b` (R112). -/
def setCF (fl : Byte) (b : Bool) : Byte := if b then fl ||| 8#8 else fl &&& 0xF7#8
/-- The context with the instruction of `n` bytes retired. -/
def stepPc (c : Ctx) (n : Nat) : Ctx := { c with pc := c.pc + BitVec.ofNat 64 n }
/-- The waiting instruction of a job retires with CF at `cf`; the job runs on (R112, R139). -/
def wakeJob (j : Job) (cf : Bool) : Job :=
  { j with phase := .running, wait := none, timeout := none, steps := 0, overrun := false
           ctx := stepPc { j.ctx with flags := setCF j.ctx.flags cf } j.ilen }

/-! ### Handovers and yield points (R59 to R63, R98, R125) -/

/-- A recall of banks to their job: each whose NBU is idle returns at once, the others at their next yield (R125). -/
def recallBank (s : State) (tag i : Nat) : State :=
  if nbuRunning (nbuOf s i) then setNbu s i { nbuOf s i with recalled := 1 } else setOwner s 0 i (.job tag)

/-- Token `t` shows job-held once every bank of its grant has returned (R125). -/
def recallDone (s : State) (tag t : Nat) : State :=
  match jobOf s tag with
  | none => s
  | some j => match tokGrantOf s j t with
    | none => s
    | some g => if g.insts.all fun i => ownerOf s 0 i == .job tag then setJob s tag (setTok j t (tokSetHold (tokOf j t) 0)) else s

/-- Complete one pending HAND at the giver's yield point (R59, R60, R125). -/
def completeHand (s : State) (tag t : Nat) (h : Hand) : State :=
  match jobOf s tag with
  | none => s
  | some j =>
    let w := tokOf j t
    let hd := tokGrant w
    let s0 := setJob s tag { j with hands := tdel j.hands t }
    let clear := fun s => modJob s tag fun j => setTok j t 0
    match h.kind with
    | 0 => clear (dropGrant s0 hd)
    | 1 =>
      let free := match jobOf s0 h.tag with
        | some r => if h.tag = tag then !tokValid (tokOf r h.tok) && h.tok != t else !tokValid (tokOf r h.tok)
        | none => false
      match free, grantOf s0 hd with
      | true, some g =>
        let s1 := setGrant s0 hd { g with tag := h.tag, handed := true }
        let dom := match jobOf s0 h.tag with | some r => r.dom | none => 0
        let s2 := if isPool g.cls || g.cls = 2 then s1
          else if g.cls = 1 then g.insts.foldl (fun s i => grantInst s dom h.tag 1 i) s1
          else g.insts.foldl (fun s i => setOwner s g.cls i (.job h.tag)) s1
        let s3 := clear s2
        modJob s3 h.tag fun r => setTok r h.tok (tokSetHold w 0)
      | _, _ => clear (dropGrant s0 hd)
    | 2 => match grantOf s0 hd with
      | some g =>
        let s1 := g.insts.foldl (fun s i => setOwner s 0 i (.nbu tag)) s0
        modJob s1 tag fun j => setTok j t (tokSetHold w 2)
      | none => s0
    | _ => match grantOf s0 hd with
      | some g => recallDone (g.insts.foldl (fun s i => recallBank s tag i) s0) tag t
      | none => s0

/-- Complete every pending HAND of a job. -/
def completeHands (s : State) (tag : Nat) : State :=
  match jobOf s tag with
  | none => s
  | some j => j.hands.foldl (fun s p => completeHand s tag p.1 p.2) s

/-- Banks that a job's own sequencer owns. -/
def jobBanks (s : State) (tag : Nat) : List Nat :=
  s.exec.grants.flatMap fun p => if p.2.tag = tag && p.2.cls = 0 then p.2.insts.filter fun i => ownerOf s 0 i == .job tag else []

/-- The job's current phase declares a service window (R443). -/
def hasWindow (s : State) (j : Job) : Bool :=
  match j.curPhase with
  | some p => match (planOf s j.plan).phases[p]? with
    | some e => e.svc
    | none => false
  | none => false

/-- Serve what waits for the yield of the job that owns the banks (R67, R443). -/
def serveJobBanks (s : State) (tag : Nat) (j : Job) : State :=
  (jobBanks s tag).foldl (fun s b =>
    let s1 := serveBank s b ((deferOf s (b / 1024)).length)
    if hasWindow s j then serveHeld s1 b else s1) s

/-- Number of parked jobs, shown in `SEQ_BE_STAT`. -/
def parkedCount (s : State) : Nat := (s.exec.jobs.filter fun p => p.2.phase == .parked).length
/-- The lowest free save slot (R96). -/
def freeSlot (s : State) : Option Nat := firstFrom (fun k => (tfind s.exec.slots k).isNone) 128 0
/-- Some fabric reply to a register of the job is outstanding (R137). -/
def fabricPending (s : State) (tag : Nat) : Bool := s.fab.ops.any fun p => p.2.kind == 0 && p.2.job == tag

/-- The classes a parked job keeps: tile SRAM regions and counter ranges (R62). -/
def keptClass (cls : Nat) : Bool := cls == 1 || cls == 13

/-- Park a job in a save slot: the held claim is withdrawn, the sequencer freed, and the grants that are not kept return
(R98). The tokens of returned grants are empty in the image (R76) and are noted for the reclaim (R100). -/
def parkJob (s : State) (tag slot : Nat) : State :=
  match jobOf s tag with
  | none => s
  | some j =>
    let lose := (List.range 8).filter fun t => match tokGrantOf s j t with
      | some g => !keptClass g.cls
      | none => false
    let back := lose.filterMap fun t => (tokGrantOf s j t).map fun g =>
      { tok := t, hold := if tokHold (tokOf j t) = 0 then 0 else 2, g := { g with used := 0 } : Reclaim }
    let j1 := lose.foldl (fun j t => setTok j t 0) j
    let s1 := setJob s tag { j1 with
      phase := .parked, asked := false, slot := some slot, reclaim := back, order := s.exec.nextOrder, steps := 0, overrun := false }
    let s2 : State := { s1 with exec := { s1.exec with
      slots := tins s1.exec.slots slot tag
      seqs := tdel s1.exec.seqs j.q
      held := s1.exec.held.filter fun h => h.tag != tag
      nextOrder := s1.exec.nextOrder + 1 } }
    lose.foldl (fun s t => yieldGrant s (tokGrant (tokOf j t))) s2

/-- Make way at a yield point when asked (R98, R99, R137): while a fabric reply is outstanding the request stays pending;
without a save slot the job runs on and the refusal is counted. -/
def makeWay (s : State) (tag : Nat) : State :=
  match jobOf s tag with
  | none => s
  | some j =>
    if !j.asked || fabricPending s tag then s
    else match freeSlot s with
      | none => fbump (setJob s tag { j with asked := false, noSlot := true }) F.SEQ_BE_STAT_NOSLOT
      | some k => parkJob s tag k

/-- A yield point of a sequencer (R63): handovers take effect, deferred accesses are served, making way happens. -/
def seqYield (s : State) (tag : Nat) : State :=
  let s1 := completeHands (modJob s tag fun j => { j with steps := 0, overrun := false }) tag
  match jobOf s1 tag with
  | none => s1
  | some j => makeWay (serveJobBanks s1 tag j) tag

/-- A waiting job is at a yield point throughout its wait (R63): put it to wait and take the yield. -/
def waitJob (s : State) (tag : Nat) (w : Wait) (timeout : Option Nat) (ilen : Nat) : State :=
  seqYield (modJob s tag fun j => { j with phase := .waiting, wait := some w, timeout := timeout, ilen := ilen }) tag

/-! ### The end of a job (R26, R61, R66, R83, R93, R94) -/

/-- Raise one of DSP's counts of a domain (R524). -/
def dspCount (s : State) (f : Fld) (dom : Nat) : State := fbump s f dom

/-- RANK command `i` exists and is not of the job. -/
def rankLives (s : State) (tag i : Nat) : Bool :=
  match tfind s.stk.ranks i with
  | some r => r.tok.job != tag
  | none => false

/-- Discard the job's items in flight (R26): its commands, its entries on the way to lanes, its fabric operations. A TIR
command in progress runs to its end (R170, R206); a push with segments unsent is cancelled at its target (R446). -/
def discardWork (s : State) (tag : Nat) : State :=
  let mine := s.cmds.flatMap fun p => (p.2.filter fun c => c.tok.job == tag).map fun c => c.id
  let cmds : Table (List Cmd) := (s.cmds.map fun p => (p.1, p.2.filter fun c => c.tok.job != tag || (p.1 / 2 ^ 32 == 14 && c.phase != .queued))).filter
    fun p => p.2 != []
  let s1 : State := { s with cmds := cmds }
  let s2 : State := (List.range 16).foldl (fun s l => if (laneOf s l).inq = [] then s else dropCands s l fun c => c.tag == tag) s1
  let s3 : State := { s2 with fls := { s2.fls with
    work := s2.fls.work.filter fun w => !mine.contains w.cmd
    luns := (s2.fls.luns.map fun p => (p.1, { p.2 with reads := p.2.reads.filter fun r => r.src != 0 || r.issued || r.cmd != tag })) } }
  let s4 : State := { s3 with
   stk := { s3.stk with
    nbus := s3.stk.nbus.map fun p => (p.1, { p.2 with queue := p.2.queue.filter (rankLives s3 tag) })
    ranks := s3.stk.ranks.filter fun p => p.2.tok.job != tag || p.2.started }
   tbe := { s3.tbe with
    cmds := s3.tbe.cmds.filter fun p => !mine.contains p.1
    queues := (s3.tbe.queues.map fun p => (p.1, p.2.filter fun r => r.cmd = 0 || !mine.contains r.cmd)).filter fun p => p.2 != [] } }
  let cancels := s4.fab.ops.filter fun p => p.2.kind == 0 && p.2.job == tag && p.2.pkt.ty == 4#8 && p.2.segs != []
  let s5 := cancels.foldl (fun s p => sendSys (dropEgress s 4 p.2.pkt.tag) { p.2.pkt with ty := 8, payload := [], len := 0 }) s4
  let stale := s5.fab.ops.filter fun p => p.2.kind == 0 && p.2.job == tag && p.2.inc != 0
  { s5 with fab := { s5.fab with
    ops := s5.fab.ops.filter fun p => !((p.2.kind == 0 || p.2.kind == 2) && p.2.job == tag)
    orphans := stale.foldl (fun m p => tins m p.1 (p.2.counter.toNat, p.2.gen.toNat, p.2.inc)) s5.fab.orphans } }

/-- What TIR keeps of a job that ends: uncovered appends are discarded (R193), its merge records detach (R206). -/
def detachTir (s : State) (tag : Nat) : State :=
  { s with tir := { s.tir with
    batches := s.tir.batches.map fun p => (p.1, if p.2.tag = tag && p.2.phase = .collecting && !p.2.replica then
      { p.2 with phase := .dead } else if p.2.tag = tag then { p.2 with cmd := none } else p.2)
    merges := s.tir.merges.map fun p => (p.1, if p.2.job = some tag then { p.2 with job := none } else p.2) } }

/-- The record of a job or taken request: `JOB_LATE` for status LATE, else `JOB_DONE`, counted under R524 (R501). -/
def workRecord (s : State) (dom sq tag planId cookie status reason : Nat) (ovc : Bool) (c0 c1 fault : Nat) : State :=
  let late := status == stLATE
  let s1 := dspCount s (if late then F.DSP_CNT_LATE_COUNT else F.DSP_CNT_DONE_COUNT) dom
  jobRecord s1 sq
    { ty := if late then 2 else 1, status := status, reason := reason, ovc := ovc, tag := tag, planId := planId, cookie := cookie
      count0 := if late then 0 else c0, count1 := if late then 0 else c1, detail := if late then [] else bytesOf 4 fault }

/-- An unloading plan leaves the store with its last job, and its run of the NBU store is free again (R53, R251). -/
def planLeave (s : State) (h : Nat) : State :=
  match tfind s.exec.plans h with
  | some p => if p.unloading && s.exec.jobs.all (fun q => q.2.plan != h) then
      { s with exec := { s.exec with plans := tdel s.exec.plans h } } else s
  | none => s

/-- A series ends when one of its instances ends with another status than OK, SHORT, LATE or POLICED (R522). -/
def seriesEnd (s : State) (id : Option Nat) (status : Nat) : State :=
  match id with
  | some k => if status ≤ 3 then s else { s with exec := { s.exec with series := tdel s.exec.series k } }
  | none => s

/-! ### Placement (R516 to R520) -/

/-- The partition of a domain. -/
def domPart (s : State) (dom : Nat) : Nat := (tget {} s.smc.doms dom).part
/-- Tenancy is partitioned (R546). -/
def partitioned (s : State) : Bool := fget s F.SMC_TENANCY_MODE == 1
/-- Word `i` of a class's allowed set (R517). -/
def setWord (s : State) (be : Bool) (i : Nat) : Nat :=
  (rget s (match be, i with
    | false, 0 => .DSP_LC_SET0 | false, 1 => .DSP_LC_SET1 | false, 2 => .DSP_LC_SET2 | false, _ => .DSP_LC_SET3
    | true, 0 => .DSP_BE_SET0 | true, 1 => .DSP_BE_SET1 | true, 2 => .DSP_BE_SET2 | true, _ => .DSP_BE_SET3) 0).toNat
/-- Word `i` of a partition's sequencer mask (R548). -/
def partSeqWord (s : State) (part i : Nat) : Nat :=
  (rget s (match i with | 0 => .SMC_PART_SEQ0 | 1 => .SMC_PART_SEQ1 | 2 => .SMC_PART_SEQ2 | _ => .SMC_PART_SEQ3) part).toNat
/-- A sequencer may hold a job of the class and domain (R516, R547). -/
def seqAllowed (s : State) (be : Bool) (dom q : Nat) : Bool :=
  bitAt (setWord s be (q / 32)) (q % 32) && (!partitioned s || bitAt (partSeqWord s (domPart s dom) (q / 32)) (q % 32))
/-- The lowest free sequencer for a job of the class and domain (R516). -/
def freeSeq (s : State) (be : Bool) (dom : Nat) : Option Nat :=
  firstFrom (fun q => (seqTag s q).isNone && seqAllowed s be dom q) 128 0

/-! ### The end of a job (R61, R94) -/

/-- Withdraw the latest request to make way among those that pass a test (R520). -/
def withdrawLatest (s : State) (ok : Nat × Job → Bool) : State :=
  match leastBy (fun p => 2 ^ 64 - p.2.order) (s.exec.jobs.filter fun p => p.2.asked && ok p) with
  | some p => setJob s p.1 { p.2 with asked := false }
  | none => s
/-- Sequencer `q` has freed: where a latency-critical job may use it, a pending request to make way is withdrawn, the latest one
first (R520). -/
def withdrawAsk (s : State) (q : Nat) : State := withdrawLatest s fun p => seqAllowed s false p.2.dom q

/-- Write the posted completions whose DMA commands have all ended (R144). -/
def flushPosts (s : State) : State :=
  let live := s.cmds.flatMap fun p => p.2.map (·.id)
  let ready := fun (p : Posted) => !p.waits.any fun i => live.contains i
  (s.exec.posts.filter ready).foldl
    (fun s p => workRecord s p.dom p.req.sq p.req.tag p.planId p.req.cookie p.status 0 p.req.ovc p.count0 p.count1 0)
    { s with exec := { s.exec with posts := s.exec.posts.filter fun p => !ready p } }

/-- The end of a job (R61): items in flight are discarded, pending handovers complete, the other grants return, taken
requests without completion and then the job itself get their records. `fault` is the sequence number of its fault record. -/
def finishJob (s : State) (tag status reason fault : Nat) : State :=
  match jobOf s tag with
  | none => s
  | some j =>
    let s1 := completeHands (flushPosts (discardWork s tag)) tag
    let hs := (s1.exec.grants.filter fun p => p.2.tag == tag).map (·.1)
    let s2 := hs.foldl dropGrant s1
    let s3 := detachTir s2 tag
    let s4 : State := { s3 with exec := { s3.exec with
      jobs := tdel s3.exec.jobs tag
      seqs := if j.phase = .parked then s3.exec.seqs else tdel s3.exec.seqs j.q
      slots := match j.slot with | some k => tdel s3.exec.slots k | none => s3.exec.slots
      pendFree := s3.exec.pendFree.filter fun h => !hs.contains h
      held := s3.exec.held.filter fun h => h.tag != tag } }
    let pid := (planOf s j.plan).id
    let c0 := (tget 0 j.ctx.g 4).toNat % 2 ^ 32
    let c1 := (tget 0 j.ctx.g 5).toNat % 2 ^ 32
    let s5 := j.take.foldl (fun s p => workRecord s j.dom p.2.sq p.2.tag pid p.2.cookie status reason p.2.ovc c0 c1 fault) s4
    let s6 := workRecord s5 j.dom j.sq tag pid j.cookie status reason j.ovc c0 c1 fault
    let s7 := seriesEnd (planLeave s6 j.plan) j.series status
    if j.phase = .parked || j.asked then s7 else withdrawAsk s7 j.q

/-- Number of an owner or offender in a fault record (R620): sequencer, or bit 15 with the agent. -/
def ownerSeq (s : State) : Owner → Nat
  | .free => 0
  | .job t => match jobOf s t with | some j => j.q | none => 0
  | .nbu t => match jobOf s t with | some j => j.q | none => 0
  | .agent n => 0x8000 + n
/-- Job tag of an owner in a fault record. -/
def ownerTag : Owner → Nat
  | .free => 0
  | .job t => t
  | .nbu t => t
  | .agent _ => 0

/-- A fault record that concerns a job, with its plan and pc (R94, R620). -/
def jobFaultRec (s : State) (tag : Nat) (j : Job) (block kind status reason cls inst addr info : Nat) (o : Owner := .free) : State :=
  faultRec s { block := block, kind := kind, status := status, reason := reason, cls := cls, inst := inst,
               planId := (planOf s j.plan).id, dom := j.dom, tag := tag, pc := j.ctx.pc.toNat,
               owner := ownerTag o, ownerSeq := ownerSeq s o, offSeq := j.q, addr := addr, info := info }

/-- A job ends by a terminating fault, with its fault record (R94). -/
def faultJob (s : State) (tag block kind status reason : Nat) (cls inst addr info : Nat := 0) : State :=
  match jobOf s tag with
  | none => s
  | some j =>
    let s1 := jobFaultRec s tag j block kind status reason cls inst addr info
    finishJob s1 tag status reason (newestFault s1)

/-- The block that holds the checker of an instance (R49). -/
def checkerBlock (cls inst : Nat) : Nat :=
  match cls with
  | 0 => 6
  | 1 => if inst < 6144 then 4 else 9
  | 2 => 3
  | 3 => 4
  | 4 => 8
  | 5 => 9
  | 6 => 7
  | 7 => 10
  | 8 => 12
  | 9 => 8
  | 10 => 6
  | 11 => 7
  | _ => 13

/-- A refused access: the offender ends with `PLAN_VIOLATION`, a fault record names owner and offender, and SEQ_VIOL_CNT
counts it (R65, R66). -/
def violation (s : State) (tag cls inst : Nat) : State :=
  match jobOf s tag with
  | none => s
  | some j =>
    let s1 := fbump (jobFaultRec s tag j (checkerBlock cls inst) 1 stPLAN_VIOLATION 0 cls inst 0 0 (ownerOf s cls inst)) F.SEQ_VIOL_CNT_V
    finishJob s1 tag stPLAN_VIOLATION 0 (newestFault s1)

/-- A job met an undefined encoding or another cause of ABORTED (R94). -/
def abortJob (s : State) (tag : Nat) : State := faultJob s tag 3 0x0C stABORTED 0
/-- A job named an address outside its domain's unified range (R94, R129). -/
def badAddress (s : State) (tag addr : Nat) : State := faultJob s tag 3 0x0C stBAD_OPERATOR 0 0 0 addr
/-- A job met an uncorrectable word (R94), counted where it lies (R634): 20 is on-die state. -/
def ueJob (s : State) (tag : Nat) (w : Nat := 20) : State := faultJob (countUE s w) tag 3 4 stUNCORRECTABLE 0


end Sys2Proof.Machine
end

