-- ==== Sys2Proof/Machine/Shadow.lean ====
section
/-!
DEFINITION. Shadow checking (R623 to R628): charges against units, their bins and plans, and quarantine.
-/

namespace Sys2Proof.Machine

open Sys2Proof

/-- Charge key of a unit: class (0 sketch core, 1 NBU, 2 LUT scorer, 3 SCA cell row, R635) and physical unit (R581). -/
def shdKey (cls unit : Nat) : Nat := cls * 2 ^ 20 + unit

/-- The die that holds a unit, as `PRB_THERM_SEL` numbers them (R584): clusters and cell rows on CW and CE by halves,
scorers on the IOD, NBUs on their stack. -/
def dieOf (cls unit : Nat) : Nat :=
  match cls with
  | 0 => if unit < 544 then 0 else 1
  | 1 => 3 + unit / 1024
  | 2 => 2
  | _ => if unit < 520 then 0 else 1

/-- The bin of a Tj in units of 0.125 degrees (R626). -/
def tjBin (tj : Nat) : Nat :=
  if tj < 320 then 0 else if tj < 440 then 1 else if tj < 560 then 2 else if tj < 640 then 3 else if tj < 720 then 4
  else if tj < 800 then 5 else if tj < 840 then 6 else 7

/-- A count of charges raised by one, saturating. -/
def bump16 (n : Nat) : Nat := min 0xFFFF (n + 1)

/-- The plan table with one more charge, or none when it is full and the plan is new (R626). -/
def planCharge : List (Nat × Nat) → Nat → Nat → Option (List (Nat × Nat))
  | [], pid, room => if room = 0 then none else some [(pid, 1)]
  | (p, n) :: l, pid, room =>
    if p = pid then some ((p, bump16 n) :: l) else (planCharge l pid (room - 1)).map fun l => (p, n) :: l

/-- A unit is charged for a mismatch met in the work of a plan: against the unit, its bin and the plan (R626). -/
def chargeUnit (s : State) (cls unit pid : Nat) : State :=
  let b := tjBin (fget s F.PRB_THERM_TJ (dieOf cls unit))
  let k := shdKey cls unit
  let s1 : State := { s with flt := { s.flt with
    charge := tput 0 s.flt.charge k (bump16 (tget 0 s.flt.charge k))
    bins := tput 0 s.flt.bins b (bump16 (tget 0 s.flt.bins b))
    last := tins s.flt.last k (b, pid) } }
  match planCharge s1.flt.plans pid 256 with
  | some l => { s1 with flt := { s1.flt with plans := l } }
  | none => fbump s1 F.PRB_SHD_CTL_PLAN_OVF

/-- The charges of a unit have reached the threshold (R627, R636). -/
def overThresh (s : State) (cls unit : Nat) : Bool :=
  decide (max 1 (fget s F.PRB_SHD_CTL_QUAR_THRESH) ≤ tget 0 s.flt.charge (shdKey cls unit))

/-- A unit is quarantined. -/
def quarantined (s : State) (cls unit : Nat) : Bool := s.flt.quar.contains (shdKey cls unit)

/-- Plan identifier of a job's plan; 0 when the job has ended. -/
def jobPlanId (s : State) (tag : Nat) : Nat :=
  match jobOf s tag with
  | some j => (planOf s j.plan).id
  | none => 0

end Sys2Proof.Machine
end

