-- ==== Sys2Proof/Machine/Engine.lean ====
section
/-!
DEFINITION. What every engine does with its command tokens (R85 to R87, R94, R128, R129): the checks at the start, the
ways a command stops, the result word and the pulse.
-/

namespace Sys2Proof.Machine

open Sys2Proof

/-- Lane `i` of a descriptor. -/
def lane64 (d : W256) (i : Nat) : Nat := bitsOf d.toNat (64 * i) 64
/-- Bits of a lane of a descriptor. -/
def laneBits (d : W256) (i lo w : Nat) : Nat := bitsOf d.toNat (64 * i + lo) w
/-- The result area is named: lane 3 is not zero (R129). -/
def hasResult (d : W256) : Bool := lane64 d 3 != 0
/-- Address of the result area. -/
def resAddr (d : W256) : Nat := laneBits d 3 0 56
/-- A result word (R129). -/
def resWord (status reason count spec : Nat) : List Byte :=
  bytesOf 1 status ++ bytesOf 1 reason ++ bytesOf 4 (min count (2 ^ 32 - 1)) ++ bytesOf 2 (min spec 0xFFFF)

/-- Why the work of a command stops: an address outside the range, an uncorrectable operand (where `countUE` counts it), a refused access, a refusal in
overcast mode (R94), or a status that the result word reports (R95). -/
inductive Stop
  | bad (addr : Nat)
  | ue (at_ : Nat)
  | violates (cls inst : Nat)
  | overcast
  | report (status reason count spec : Nat)
deriving DecidableEq, Repr

/-- Work that may stop. -/
abbrev Work := Except Stop

/-- A reported failure without count. -/
def failWith (status reason : Nat) {α : Type} : Work α := .error (.report status reason 0 0)
/-- Go on only if a condition holds. -/
def need (b : Bool) (e : Stop) : Work Unit := if b then .ok () else .error e
/-- Operand bytes of a domain's unified range. -/
def operand (s : State) (dom a n : Nat) : Work (List Byte) :=
  match uRead s dom a n with
  | .outside => .error (.bad a)
  | .ue => .error (.ue (uWhere s dom a n))
  | .ok bs => .ok bs
/-- An operand range lies in the unified range. -/
def within (s : State) (dom a n : Nat) : Work Unit := need (inRange s dom a n) (.bad a)
/-- A written range lies in the unified range and may be written. -/
def writable (s : State) (dom a n : Nat) (cls inst : Nat) : Work Unit :=
  let is := List.range n
  if is.any fun i => locate s dom (a + i) == .outside || readOnly s dom (a + i) then .error (.bad a)
  else need (!is.any fun i => tirOnly s dom (a + i)) (.violates cls inst)
/-- The tiles a read needs are brought in, its pages marked used (R377, R380). -/
def useRange (s : State) (dom a n : Nat) : State := (uLoad s dom a n).2

/-- First command of an engine instance that has not come to its end. -/
def engHead (s : State) (cls inst : Nat) : Option Cmd := (cmdsOf s cls inst).find? fun c => c.phase != .finishing
/-- Replace a command of an engine instance, by its serial number. -/
def putCmd (s : State) (cls inst : Nat) (c : Cmd) : State :=
  setCmds s cls inst ((cmdsOf s cls inst).map fun x => if x.id = c.id then c else x)
/-- A command comes to its end: its result word stands ready for `ENGINE_COMMAND_COMPLETE`. -/
def endCmd (s : State) (cls inst : Nat) (c : Cmd) (status reason count spec : Nat) : State :=
  putCmd s cls inst { c with phase := .finishing, status := status, reason := reason, count := count, spec := spec }

/-- Carry out a stop (R94, R95). -/
def stopCmd (s : State) (cls inst : Nat) (c : Cmd) : Stop → State
  | .bad a => badAddress s c.tok.job a
  | .ue w => ueJob s c.tok.job w
  | .violates k i => violation s c.tok.job k i
  | .overcast => faultJob s c.tok.job (checkerBlock cls inst) 0x0C stOVERCAST 0 cls inst
  | .report st rs n sp => endCmd s cls inst c st rs n sp

/-- Where the result word of an instance lies in the result area: scorers in ascending channel number (R287), SCA clusters
in the order of the grant (R336), every other engine at its start. -/
def resOff (c : Cmd) (inst : Nat) : Nat :=
  match c.tok.kind with
  | .lrank => 8 * (c.tok.insts.filter fun i => i < inst).length
  | .enc | .maxsim => 8 * c.tok.insts.idxOf inst
  | _ => 0

/-- The checks before any effect: the owner of the instance is the job (R85), the result area lies in the range (R129). -/
def startChecks (s : State) (cls inst : Nat) (c : Cmd) : Work Unit :=
  if ownerOf s cls inst != .job c.tok.job then .error (.violates cls inst)
  else if hasResult c.tok.desc then writable s c.tok.dom (resAddr c.tok.desc + resOff c inst) 8 cls inst
  else .ok ()

/-- Run a command of an engine instance, if it is the one the row names. The body gives the state with the command's
effects, or stops; the command's own entry is updated by the body through `endCmd` or `putCmd`. -/
def engineOn (sel : Option Cmd) (cls inst : Nat) (kind : EngKind) (op : Nat) (body : State → Cmd → Work State) (s : State) : State :=
  match sel with
  | none => s
  | some c =>
    if c.tok.kind != kind || c.tok.op.toNat != op then s
    else match (startChecks s cls inst c).bind fun _ => body s c with
      | .ok s1 => s1
      | .error e => stopCmd s cls inst c e

/-- Run the command at the head of an engine instance. -/
def engine (cls inst : Nat) (kind : EngKind) (op : Nat) (body : State → Cmd → Work State) (s : State) : State :=
  engineOn (engHead s cls inst) cls inst kind op body s

/-- A job's candidate share on a lane, which a command that emits must hold (R255, R276, R341). -/
def laneShare (s : State) (tag lane : Nat) : Work Nat :=
  if ownerOf s 4 lane != .job tag then .error (.violates 4 lane)
  else match shareOf s tag 9 lane with
    | some (h, _) => .ok h
    | none => .error (.violates 9 lane)

/-- The absolute instance that a descriptor's slice-relative number names (R49, R54). -/
def jobInst (s : State) (tag cls rel : Nat) : Work Nat :=
  match jobOf s tag with
  | none => .error (.violates cls rel)
  | some j =>
    let pl := planOf s j.plan
    match (sliceOf s pl.slice).bind fun l => absInst l cls pl.routes.length rel with
    | some i => .ok i
    | none => .error (.violates cls rel)

/-- A credit of the share is free. -/
def shareFree (s : State) (h : Nat) : Bool :=
  match grantOf s h with
  | some g => g.used < g.credits
  | none => false

/-- Send one candidate to a lane with a credit drawn (R23). -/
def sendCand (s : State) (lane share tag src : Nat) (e : BitVec 192) : State :=
  let v := laneOf s lane
  drawShare (setLane s lane { v with inq := v.inq ++ [{ e := e, share := share, tag := tag, src := src }] }) share

/-- Some candidate of a command has not been taken by its lane yet. -/
def candsWait (s : State) (src : Nat) : Bool := s.lanes.any fun p => p.2.inq.any fun c => c.src == src

/-- Pulse the counter that a token names (R85, R87). -/
def pulseTok (s : State) (t : Token) (inc : Nat) : State := if inc = 0 then s else pulseCtr s t.counter.toNat t.gen inc

/-- Write a result word, when the descriptor names an area, and go on; the job ends if it is not there any more (R129). -/
def writeResult (s : State) (cls inst : Nat) (t : Token) (off : Nat) (w : List Byte) (next : State → State) : State :=
  if !hasResult t.desc then next s
  else match uWrite s t.dom (resAddr t.desc + off) w with
    | .ok s1 => next s1
    | .outside => badAddress s t.job (resAddr t.desc + off)
    | .violation => violation s t.job cls inst

/-- A command leaves its engine: result word with the words of `aux` behind it, pulse, and the grants and posts that waited for it (R87, R98, R129, R144). -/
def completeCmd (s : State) (cls inst : Nat) (c : Cmd) : State :=
  let s1 := setCmds s cls inst ((cmdsOf s cls inst).filter fun x => x.id != c.id)
  let done := fun s2 => flushPosts (sweepGrants (if c.silent = 2 then s2
    else pulseTok s2 c.tok (c.tok.inc.toNat + if c.tok.kind = .enc then c.work else 0)))
  if c.silent != 0 then done s1
  else writeResult s1 cls inst c.tok (resOff c inst) (resWord c.status c.reason c.count c.spec ++ c.aux.flatMap (bytesOf 8)) done

end Sys2Proof.Machine
end

