-- ==== Sys2Proof/Machine/Flags.lean ====
section
/-!
DEFINITION. The flags of a sequencer (R112): C, Z, N and CF in bits [3:0]; bits [7:4] read as zero.
-/

namespace Sys2Proof.Machine

open Sys2Proof

/-- Flags with C, Z and N as given and CF as it was. -/
def packFlags (old : Byte) (c z n : Bool) : Byte :=
  BitVec.ofNat 8 ((if c then 1 else 0) + (if z then 2 else 0) + (if n then 4 else 0) + (if old.getLsbD 3 then 8 else 0))
/-- C, Z, N, CF. -/
def flC (fl : Byte) : Bool := fl.getLsbD 0
def flZ (fl : Byte) : Bool := fl.getLsbD 1
def flN (fl : Byte) : Bool := fl.getLsbD 2
def flCF (fl : Byte) : Bool := fl.getLsbD 3
/-- ADD: C is the unsigned carry out. -/
def addFlags (old : Byte) (a b : W64) : Byte := let r := a + b; packFlags old (r.ult a) (r == 0) r.msb
/-- SUB and CMP: C when the first operand is less unsigned, N when it is less signed. -/
def subFlags (old : Byte) (a b : W64) : Byte := packFlags old (a.ult b) (a - b == 0) (a.slt b)
/-- Every other arithmetic and logic instruction: C clear, N is bit 63. -/
def logicFlags (old : Byte) (r : W64) : Byte := packFlags old false (r == 0) r.msb
/-- The condition a BC tests (R113). -/
def condHolds (fn : Nat) (fl : Byte) : Bool :=
  match fn with
  | 0 => flZ fl
  | 1 => !flZ fl
  | 2 => flC fl
  | 3 => !flC fl
  | 4 => flN fl
  | 5 => !flN fl
  | 6 => flCF fl
  | _ => !flCF fl

end Sys2Proof.Machine
end

