-- ==== Sys2Proof/Machine/Operands.lean ====
section
/-!
DEFINITION. The operand forms of Spenex (R106 to R111, R116, R122): register fields, the encoding checks of R108, tile
addresses, and `spx`, what every Spenex instruction does before its own effect.
-/

namespace Sys2Proof.Machine

open Sys2Proof

/-! ### Register files of a context -/

def gReg (c : Ctx) (r : BitVec 5) : W64 := tget 0 c.g r.toNat
def setG (c : Ctx) (r : BitVec 5) (v : W64) : Ctx := { c with g := tput 0 c.g r.toNat v }
def dReg (c : Ctx) (r : Nat) : W256 := tget 0 c.d r
def setD (c : Ctx) (r : Nat) (v : W256) : Ctx := { c with d := tput 0 c.d r v }
def aReg (c : Ctx) (r : Nat) : W64 := tget 0 c.a r
def setA (c : Ctx) (r : Nat) (v : W64) : Ctx := { c with a := tput 0 c.a r v }
/-- An entry of a selection vector. -/
def vEnt (c : Ctx) (v i : Nat) : BitVec 96 := tget 0 c.v (v * 1024 + i)
def setV (c : Ctx) (v i : Nat) (e : BitVec 96) : Ctx := { c with v := tput 0 c.v (v * 1024 + i) e }
def vCount (c : Ctx) (v : Nat) : Nat := tget 0 c.vn v
def setVCount (c : Ctx) (v n : Nat) : Ctx := { c with vn := tput 0 c.vn v n }

/-- Fields of a view register (R76). -/
def viewIdx (w : W64) : Nat := bitsOf w.toNat 0 12
def viewGen (w : W64) : BitVec 16 := BitVec.ofNat 16 (bitsOf w.toNat 12 16)
def viewBase (w : W64) : Nat := bitsOf w.toNat 28 32
def viewBound (w : W64) : Bool := w.getLsbD 63
/-- A bound view. -/
def viewWord (idx gen base : Nat) : W64 := BitVec.ofNat 64 (idx % 4096 + gen % 65536 * 2 ^ 12 + base % 2 ^ 32 * 2 ^ 28 + 2 ^ 63)

/-! ### Fields (R106, R108) -/

/-- IMM, sign-extended. -/
def simm (f : Spx) : W64 := f.imm.signExtend 64
/-- Bytes of the instruction. -/
def ilen (f : Spx) : Nat := if f.x then 16 else 8
/-- FN as a number. -/
def fnN (f : Spx) : Nat := f.fn.toNat
/-- IMM as an unsigned number. -/
def immN (f : Spx) : Nat := f.imm.toNat
/-- The register fields a form does not use, or uses with a width, hold nothing beyond it. -/
def aIn (f : Spx) (n : Nat) : Bool := f.a.toNat < n
def bIn (f : Spx) (n : Nat) : Bool := f.b.toNat < n
def cIn (f : Spx) (n : Nat) : Bool := f.c.toNat < n

/-! ### Defined encodings (R108, R109) -/

/-- The two forms of R114: FN is 0 with IMM zero, or 1 with C zero; no extended form. -/
def twoForm (f : Spx) : Bool := !f.x && ((fnN f == 0 && f.imm == 0) || (fnN f == 1 && f.c == 0))
/-- One register operand: C, FN and IMM are zero. -/
def oneForm (f : Spx) : Bool := !f.x && fnN f == 0 && f.c == 0 && f.imm == 0
/-- Operands gA, dA or vA, gB, IMM of a memory instruction: C and FN are zero. -/
def memForm (f : Spx) (n : Nat) : Bool := !f.x && aIn f n && f.c == 0 && fnN f == 0
/-- No register operand. -/
def noRegs (f : Spx) : Bool := !f.x && f.a == 0 && f.b == 0 && f.c == 0
/-- An engine-issue instruction with one of the listed operations (R127, R130). -/
def issueForm (f : Spx) (ops : List Nat) : Bool :=
  !f.x && aIn f 16 && bIn f 8 && cIn f 16 && immN f < 2 ^ 24 && ops.contains (fnN f)
/-- The width field of FLD and FST (R134). -/
def fabWidth (f : Spx) : Nat := bitsOf (fnN f) 4 2
/-- The register field of FLD and FST fits its width. -/
def fabReg (f : Spx) : Bool :=
  match fabWidth f with
  | 0 => true
  | 1 => aIn f 16
  | 2 => aIn f 16 && f.a.toNat % 2 == 0
  | _ => false
/-- A quadruple of descriptor registers (R142, R144). -/
def quadReg (f : Spx) : Bool := aIn f 16 && f.a.toNat % 4 == 0

/-- Whether an instruction word of an opcode is defined, in a plan of `phases` phases (R109, R113, R114, R117, R121, R123,
R124, R127, R130 to R136, R138 to R144). -/
def defined (opc phases : Nat) (f : Spx) : Bool :=
  match opc with
  | 0x12 => twoForm f && f.a == 0
  | 0x13 => !f.x && f.c == 0 && ((fnN f == 0 && f.imm == 0) || (fnN f == 1 && f.b == 0))
  | 0x14 | 0x15 => oneForm f
  | 0x16 => f.x && f.b == 0 && f.c == 0 && fnN f == 0 && f.imm == 0
  | 0x20 | 0x21 => memForm f 32
  | 0x22 | 0x23 => memForm f 16
  | 0x24 => !f.x && aIn f 16 && f.c == 0 && fnN f < 4 && f.imm == 0
  | 0x25 => !f.x && bIn f 16 && f.c == 0 && fnN f < 4 && f.imm == 0
  | 0x26 | 0x27 => memForm f 4
  | 0x28 => !f.x && bIn f 4 && fnN f < 2 && f.imm == 0
  | 0x29 => !f.x && aIn f 4 && fnN f < 2 && f.imm == 0
  | 0x2A => oneForm f && bIn f 4
  | 0x2B => oneForm f && aIn f 4
  | 0x2C => oneForm f && f.b == 0
  | 0x40 => noRegs f && fnN f == 0
  | 0x41 => noRegs f && fnN f < 8
  | 0x42 => !f.x && f.b == 0 && f.c == 0 && fnN f == 0
  | 0x43 => oneForm f && f.b == 0
  | 0x44 => noRegs f && fnN f == 0 && f.imm == 0
  | 0x45 => noRegs f && fnN f < 2 && f.imm == 0
  | 0x60 => noRegs f && f.imm == 0 && fnN f < 128 && fnN f % 64 < phases
  | 0x61 => !f.x && f.imm == 0 && aIn f 8 && (if fnN f = 1 then cIn f 8 else fnN f < 4 && f.b == 0 && f.c == 0)
  | 0x62 => noRegs f && fnN f == 0 && f.imm == 0
  | 0x63 => !f.x && bIn f 8 && f.c == 0 && fnN f < 3 && immN f < 256
  | 0x80 => issueForm f [0, 1, 2]
  | 0x81 => issueForm f (List.range 256)
  | 0x82 => issueForm f [0, 1]
  | 0x83 => issueForm f [0, 1, 2]
  | 0x84 => issueForm f [0, 1, 2, 3]
  | 0x85 | 0x86 => issueForm f [0, 1]
  | 0x87 => issueForm f [0, 1, 2]
  | 0x88 => issueForm f [0, 1, 0x10, 0x11, 0x12, 0x13, 0x14, 0x15, 0x16, 0x17]
  | 0x89 => issueForm f [0, 1, 2, 3]
  | 0x8A => issueForm f [0]
  | 0xA0 | 0xA1 => !f.x && fnN f < 64 && fabReg f && immN f < 2 ^ 19
  | 0xA2 => f.x && fnN f < 16 && immN f < 2 ^ 19 && f.ext.toNat < 2 ^ 14 && f.ext.toNat % 16 < 10
  | 0xA3 => f.x && fnN f < 64 && immN f < 2 ^ 19 && f.ext.toNat < 2 ^ 48 && !f.ext.getLsbD 31 && f.ext.toNat % 2 ^ 26 != 0
  | 0xC0 => f.c == 0 && fnN f < 8 &&
      (if f.fn.getLsbD 2 then fnN f == 4 && aIn f 8 && f.b == 0 && f.imm == 0
       else aIn f 16 && (if f.fn.getLsbD 1 then f.imm == 0 else f.b == 0 && immN f < 2 ^ 31))
  | 0xC1 => f.a == 0 && f.c == 0 && f.imm == 0 && fnN f < 2 && (fnN f == 1 || f.b == 0)
  | 0xC2 => oneForm { f with fn := 0 } && aIn f 16 && fnN f < 2 && (fnN f == 0 || f.b == 0)
  | 0xC3 => oneForm f && bIn f 16
  | 0xC8 => quadReg f && fnN f == 0 && immN f < 2 ^ 15
  | 0xC9 => !f.x && f.c == 0 &&
      (if f.fn.getLsbD 0 then f.imm == 0 && bitsOf (fnN f) 5 2 == 0 && (f.fn.getLsbD 7 || f.b == 0)
       else fnN f == 0 && quadReg f && f.b == 0 && immN f < 2 ^ 15)
  | n => decide (n < 0x12) && twoForm f

/-! ### What every instruction does first -/

/-- The steps an instruction spends, its fetch included (R110). -/
def spent (f : Spx) (steps : Nat) : Nat := steps + min f.miss.toNat 192

/-- The instruction and its EXT word lie in the text section (R109). -/
def inText (s : State) (j : Job) (f : Spx) : Bool :=
  j.ctx.pc.toNat + ilen f ≤ 8 * (planOf s j.plan).text.length

/-- A sequencer may begin its next instruction: its job runs, has not reached the watchdog limit (R69) and has no deadline
reached (R84). -/
def mayRun (s : State) (j : Job) : Bool :=
  j.phase == .running && j.steps < 25600 && (j.deadline == 0 || s.now < j.deadline)

/-- One Spenex instruction of opcode `opc` and `steps` steps: a fetch outside the text section and an
undefined encoding end the job `ABORTED` (R94, R109), an uncorrectable word ends it `UNCORRECTABLE`; else its steps are
counted and `body` has its effect. A sequencer that may not begin an instruction does nothing. -/
def spx (q : BitVec 7) (f : Spx) (opc steps : Nat) (body : State → Nat → Job → State) (s : State) : State :=
  match seqTag s q.toNat with
  | none => s
  | some tag => match jobOf s tag with
    | none => s
    | some j =>
      if !mayRun s j then s
      else if f.ue then ueJob s tag
      else if !inText s j f || !defined opc (planOf s j.plan).phases.length f then abortJob s tag
      else
        let j1 := { j with steps := j.steps + spent f steps }
        body (setJob s tag j1) tag j1

/-- The instruction retires with the context changed by `g`. -/
def retire (f : Spx) (s : State) (tag : Nat) (j : Job) (g : Ctx → Ctx) : State :=
  setJob s tag { j with ctx := stepPc (g j.ctx) (ilen f) }

/-- An instruction whose whole effect is on the context. -/
def pureOp (q : BitVec 7) (f : Spx) (opc steps : Nat) (g : Ctx → Ctx) (s : State) : State :=
  spx q f opc steps (fun s tag j => retire f s tag j g) s

/-! ### Tile addresses (R116) -/

/-- Physical tile byte of an access of `size` bytes at the tile address in gB plus IMM, or none where the checker refuses it. -/
def tileAddr (s : State) (tag : Nat) (j : Job) (f : Spx) (align size : Nat) : Option Nat :=
  let w := (gReg j.ctx f.b).toNat
  if w ≥ 2 ^ 27 then none
  else match tokGrantOf s j (bitsOf w 24 3) with
    | none => none
    | some g =>
      if g.cls != 1 then none
      else match g.insts[bitsOf w 16 8]? with
        | none => none
        | some r =>
          let e : Int := ((w % 65536 : Nat) : Int) + f.imm.toInt
          let o := e.toNat / align * align
          if e < 0 || o + size > 65536 || ownerOf s 1 r != .job tag then none else some (r * 65536 + o)

/-- The region a refused tile access named, for its fault record. -/
def tileInst (s : State) (j : Job) (f : Spx) : Nat :=
  let w := (gReg j.ctx f.b).toNat
  match tokGrantOf s j (bitsOf w 24 3) with
  | some g => if g.cls = 1 then (g.insts[bitsOf w 16 8]?).getD 0 else 0
  | none => 0

/-- A load from tile SRAM: refused, uncorrectable, or retired with the bytes. -/
def tileLoad (f : Spx) (align size : Nat) (g : Ctx → List Byte → Ctx) (s : State) (tag : Nat) (j : Job) : State :=
  match tileAddr s tag j f align size with
  | none => violation s tag 1 (tileInst s j f)
  | some a => if tileBad s a size then ueJob s tag else retire f s tag j fun c => g c (tileBytes s a size)

/-- A store to tile SRAM: refused, or the bytes are written. -/
def tileStore (f : Spx) (align : Nat) (bs : Ctx → List Byte) (size : Nat) (s : State) (tag : Nat) (j : Job) : State :=
  match tileAddr s tag j f align size with
  | none => violation s tag 1 (tileInst s j f)
  | some a => retire f (tileWrite s a (bs j.ctx)) tag j id

end Sys2Proof.Machine
end

