-- ==== Sys2Proof/Machine/Intake.lean ====
section
/-!
DEFINITION. DSP's intake and placement (chapter 19, R494, R495): intake credits, policing, job tags, the checks of an entry,
its admission, and the state a job starts with (R77).
-/

namespace Sys2Proof.Machine

open Sys2Proof

/-! ### Credits, policing, tags -/

/-- Intake credits a domain holds. -/
def intakeHeld (s : State) (dom : Nat) : Nat := tget 0 s.exec.intake dom
/-- A domain may draw an intake credit (R23, R527): one of 8,192 is free and the domain is below its cap. -/
def intakeFree (s : State) (dom : Nat) : Bool :=
  (s.exec.intake.foldl (fun n p => n + p.2) 0) < 8192 && intakeHeld s dom < max 1 (fget s F.DSP_INTAKE_CAP_CAP dom)
/-- Draw an intake credit. -/
def intakeDraw (s : State) (dom : Nat) : State :=
  { s with exec := { s.exec with intake := tput 0 s.exec.intake dom (intakeHeld s dom + 1) } }
/-- Return an intake credit. -/
def intakeGive (s : State) (dom : Nat) : State :=
  { s with exec := { s.exec with intake := tput 0 s.exec.intake dom (intakeHeld s dom - 1) } }

/-- Policing of one entry of a domain (R526): whether it passes, and the bucket after it. -/
def police (s : State) (dom : Nat) : Bool × State :=
  let rate := fget s F.DSP_POL_RATE dom
  if rate = 0 then (true, s)
  else
    let b := tget {} s.exec.bucket dom
    let level := min (max 1 (fget s F.DSP_POL_BURST dom) * 1000000) (b.level + (s.now - b.last) * rate)
    let pass := level ≥ 1000000
    (pass, { s with exec := { s.exec with
      bucket := tput {} s.exec.bucket dom { level := if pass then level - 1000000 else level, last := s.now } } })

/-- Job tags still held (R495): pending entries, system operators, live jobs, outstanding taken requests. -/
def heldTags (s : State) : List Nat :=
  s.exec.pend.map (·.tag) ++ s.exec.sysops.map (·.tag) ++ s.exec.jobs.map (·.1)
    ++ s.exec.jobs.flatMap (fun p => p.2.take.map fun t => t.2.tag) ++ s.exec.posts.map fun p => p.req.tag
/-- The tag after `t`, skipping 0. -/
def tagAfter (t : Nat) : Nat := if t ≥ 2 ^ 32 - 1 then 1 else t + 1
/-- The first tag from `t` on that is not held. -/
def nextFree (held : List Nat) : Nat → Nat → Nat
  | 0, t => t
  | n + 1, t => if held.contains t then nextFree held n (tagAfter t) else t
/-- A new job tag (R495). -/
def newTag (s : State) : Nat × State :=
  let held := heldTags s
  let t := nextFree held (held.length + 1) s.exec.nextTag
  (t, { s with exec := { s.exec with nextTag := tagAfter t } })

/-! ### Entries (R493, R494) -/

/-- Fields of a submission entry. -/
def entOp (e : List Byte) : Nat := fieldOf e 0 2
def entPlan (e : List Byte) : Nat := fieldOf e 2 2
def entDom (e : List Byte) : Nat := fieldOf e 4 2 % 4096
def entBe (e : List Byte) : Bool := bitAt (fieldOf e 6 1) 0
def entCookie (e : List Byte) : Nat := fieldOf e 16 8
def entDeadline (e : List Byte) : Nat := fieldOf e 24 8
def entPeriod (e : List Byte) : Nat := fieldOf e 32 4
def entDesc (e : List Byte) (i : Nat) : Nat := fieldOf e (48 + 8 * i) 8

/-- A reserved field is not zero, or PLAN is above 4,095. -/
def entBad (e : List Byte) : Bool :=
  fieldOf e 4 2 ≥ 4096 || fieldOf e 6 1 ≥ 2 || fieldOf e 7 9 != 0 || fieldOf e 36 12 != 0 || entPlan e > 4095
    || (List.range 10).any fun i => entDesc e i ≥ 2 ^ 56

/-- The operator and plan checks of R53, R78 and R79 pass. -/
def planOk (s : State) (dom : Nat) (e : List Byte) : Bool :=
  if entOp e ≥ 0xFF00 then entOp e == 0xFF01 || entOp e == 0xFF02
  else match tfind s.exec.plans (entPlan e) with
    | some p => !p.unloading && p.dom == dom && entOp e < p.entries.length
    | none => false

/-- Reason with which the periodic checks of R522 refuse an entry. -/
def periodBad (s : State) (sq : Nat) (e : List Byte) : Option Nat :=
  if entPeriod e = 0 then none
  else if entDeadline e = 0 || entPeriod e < 10 || s.now + entPeriod e * 1000 < entDeadline e
      || fget s F.HIU_SQ_CTL_MODE sq = 1 || entOp e ≥ 0xFF00 then some 0xC2
  else if s.exec.series.length ≥ 1024 then some 0xC3
  else none

/-- Reason with which R494 refuses an entry of the page's domain; a child skips the DOMAIN check. -/
def entryBad (s : State) (sq dom : Nat) (child : Bool) (e : List Byte) : Option Nat :=
  if entBad e then some 0xC0
  else if !child && entDom e != dom then some 0xC1
  else if !planOk s dom e then some 0
  else periodBad s sq e

/-- A `JOB_DONE` record of work that was refused, with job tag 0 (R494). -/
def refuseEntry (s : State) (sq status reason : Nat) (e : List Byte) : State :=
  jobRecord s sq { ty := 1, status := status, reason := reason, cookie := entCookie e }
/-- A `POLICED` record (R526), counted. -/
def policedEntry (s : State) (sq dom : Nat) (e : List Byte) : State :=
  jobRecord (dspCount s F.DSP_CNT_POL_COUNT dom) sq { ty := 3, status := stPOLICED, cookie := entCookie e }

/-- Intake of an entry, child or periodic instance of a domain, its credit drawn (R494, R495, R522, R524, R526, R564): the
credit returns with a refusal. `series` names the series of an instance. -/
def admitEntry (s : State) (sq dom : Nat) (child : Bool) (series : Option Nat) (deadline : Nat) (e : List Byte) : State :=
  if fenced s then intakeGive (seriesEnd (refuseEntry s sq stFENCED 0 e) series stFENCED) dom
  else
    let bad := if series.isSome then (if planOk s dom e then none else some 0) else entryBad s sq dom child e
    match bad with
    | some r => intakeGive (seriesEnd (refuseEntry s sq stBAD_OPERATOR r e) series stBAD_OPERATOR) dom
    | none =>
      let (pass, s1) := police s dom
      if !pass then intakeGive (policedEntry s1 sq dom e) dom
      else
        let (tag, s2) := newTag (dspCount s1 F.DSP_CNT_ADM_COUNT dom)
        let id := s2.exec.nextSeries
        let fresh := series.isNone && entPeriod e != 0
        let p : Pend := { tag := tag, dom := dom, be := entBe e, sq := sq, plan := entPlan e, op := entOp e, cookie := entCookie e,
                          deadline := deadline, entry := e, series := if fresh then some id else series }
        if entOp e ≥ 0xFF00 then { s2 with exec := { s2.exec with sysops := s2.exec.sysops ++ [p] } }
        else
          let s3 : State := { s2 with exec := { s2.exec with pend := s2.exec.pend ++ [p] } }
          if fresh then { s3 with exec := { s3.exec with
            nextSeries := id + 1
            series := tins s3.exec.series id { sq := sq, dom := dom, t0 := s.now, period := entPeriod e, next := 1, entry := e
                                               deadline := entDeadline e } } }
          else s3

/-! ### Placement (R77, R516, R519) -/

/-- The state of a sequencer at placement (R77). -/
def placeCtx (s : State) (p : Pend) (q : Nat) : Ctx :=
  let d := fun i => BitVec.ofNat 256 (fieldOf p.entry (32 * i) 32)
  { g := tput 0 (tput 0 (tput 0 (tput 0 [] 0
        (BitVec.ofNat 64 (p.tag + p.dom * 2 ^ 32 + q * 2 ^ 44 + (if p.be then 2 ^ 51 else 0)))) 1 (BitVec.ofNat 64 s.now))
        2 (BitVec.ofNat 64 (s.tir.epoch % 2 ^ 48))) 3 (BitVec.ofNat 64 p.deadline)
    d := (List.range 4).foldl (fun m i => tput 0 m i (d i)) []
    pc := BitVec.ofNat 64 (((planOf s p.plan).entries[p.op]?).getD (0, 0)).1 }

/-- Place a pending job on a sequencer: its credit returns (R518). -/
def placeOn (s : State) (p : Pend) (q : Nat) : State :=
  let j : Job := { q := q, dom := p.dom, epoch := s.tir.epoch % 2 ^ 48, be := p.be, plan := p.plan, sq := p.sq, cookie := p.cookie, deadline := p.deadline
                   series := p.series, ctx := placeCtx s p q, order := s.exec.nextOrder, ovc := overcast s }
  let s1 := intakeGive s p.dom
  { s1 with exec := { s1.exec with
    pend := s1.exec.pend.filter fun x => x.tag != p.tag
    jobs := tins s1.exec.jobs p.tag j
    seqs := tins s1.exec.seqs q p.tag
    nextOrder := s1.exec.nextOrder + 1 } }

/-- Two domains compete for sequencers: always, but in partitioned tenancy only within one partition (R544, R550). -/
def samePart (s : State) (a b : Nat) : Bool := !partitioned s || domPart s a == domPart s b
/-- Pending entries whose deadline has not been reached. -/
def livePend (s : State) : List Pend := s.exec.pend.filter fun p => p.deadline == 0 || s.now < p.deadline
/-- A latency-critical job waits for a sequencer, seen from a domain (R519). -/
def lcWaits (s : State) (dom : Nat) : Bool := (livePend s).any fun p => !p.be && samePart s p.dom dom
/-- Parked jobs that could resume now, oldest first (R100). -/
def resumable (s : State) : List (Nat × Job) :=
  s.exec.jobs.filter fun p => p.2.phase == .parked && (p.2.deadline == 0 || s.now < p.2.deadline)
    && !lcWaits s p.2.dom && (freeSeq s true p.2.dom).isSome

/-- The pending job DSP places next (R519): the oldest latency-critical one with a free sequencer; else, while none waits and
no parked job can resume, the oldest best-effort one. -/
def nextPlaced (s : State) : Option Pend :=
  match (livePend s).find? fun p => !p.be && (freeSeq s false p.dom).isSome with
  | some p => some p
  | none => if resumable s != [] then none
    else (livePend s).find? fun p => p.be && !lcWaits s p.dom && (freeSeq s true p.dom).isSome

end Sys2Proof.Machine
end

