-- ==== Sys2Proof/Machine/Plans.lean ====
section
/-!
DEFINITION. Plan images and their checks at load (R51 to R54, R80, R81, R671), and the system operators PLAN_LOAD and
PLAN_UNLOAD (R78).
-/

namespace Sys2Proof.Machine

open Sys2Proof

/-! ### The image (R80, R81) -/

/-- The sections of an image in order: header, entry table, phases, masks, routes, shares, text, micro-programs. -/
structure Image where
  id : Nat
  entries : List Nat
  phases : List (List Byte)
  masks : List Nat
  routes : List Nat
  shares : List Nat
  text : List W64
  micro : List W32
deriving DecidableEq, Repr

/-- `n` rounded up to a multiple of 64. -/
def round64 (n : Nat) : Nat := cdiv n 64 * 64
/-- `n` little-endian numbers of `w` bytes from offset `o`. -/
def numsAt (bs : List Byte) (o w n : Nat) : List Nat := (List.range n).map fun i => fieldOf bs (o + w * i) w

/-- Sizes of the sections, in order, from the header. -/
def sectionSizes (h : List Byte) : List Nat :=
  [8 * fieldOf h 6 1, 16 * fieldOf h 7 1, 8 * fieldOf h 0x10 2, 8 * fieldOf h 0x12 2, 8 * fieldOf h 0x18 2, fieldOf h 8 4, fieldOf h 12 4]

/-- The header is well-formed and its sizes agree with IMAGE_BYTES and the limits of R51. -/
def headerOk (h : List Byte) : Bool :=
  fieldOf h 0 4 == 1 && fieldOf h 6 1 ≥ 1 && 1 ≤ fieldOf h 7 1 && fieldOf h 7 1 ≤ 64 && fieldOf h 8 4 % 8 == 0 && fieldOf h 12 4 % 4 == 0
    && 1 ≤ fieldOf h 0x10 2 && fieldOf h 0x10 2 ≤ 256 && fieldOf h 0x12 2 ≤ 4096 && fieldOf h 0x18 2 ≤ 1024 && fieldOf h 0x1A 6 == 0
    && fieldOf h 0x14 4 == 64 + (sectionSizes h).foldl (fun n k => n + round64 k) 0

/-- Offset of section `i`. -/
def sectionAt (h : List Byte) (i : Nat) : Nat := 64 + ((sectionSizes h).take i).foldl (fun n k => n + round64 k) 0

/-- The image a list of bytes spells, its header already checked. -/
def parseImage (b : List Byte) : Image :=
  { id := fieldOf b 4 2
    entries := numsAt b (sectionAt b 0) 8 (fieldOf b 6 1)
    phases := (List.range (fieldOf b 7 1)).map fun i => (b.drop (sectionAt b 1 + 16 * i)).take 16
    masks := numsAt b (sectionAt b 2) 8 (fieldOf b 0x10 2)
    routes := numsAt b (sectionAt b 3) 8 (fieldOf b 0x12 2)
    shares := numsAt b (sectionAt b 4) 8 (fieldOf b 0x18 2)
    text := (numsAt b (sectionAt b 5) 8 (fieldOf b 8 4 / 8)).map (BitVec.ofNat 64)
    micro := (numsAt b (sectionAt b 6) 4 (fieldOf b 12 4 / 4)).map (BitVec.ofNat 32) }

/-! ### The text -/

/-- The fields of an instruction word with its EXT (R106). -/
def spxOf (w ext : W64) : Spx :=
  { a := (w >>> 8).setWidth 5, b := (w >>> 13).setWidth 5, c := (w >>> 18).setWidth 5, x := w.getLsbD 23
    fn := (w >>> 24).setWidth 8, imm := (w >>> 32).setWidth 32, ext := ext, miss := 0, ue := false }
/-- The opcode of an instruction word. -/
def opcOf (w : W64) : Nat := w.toNat % 256

/-- The instructions of a text section in order: word index, opcode and fields; an EXT past the end reads as undefined. -/
def textInstrs : Nat → Nat → List W64 → List (Nat × Nat × Spx)
  | 0, _, _ => []
  | _, _, [] => []
  | n + 1, i, w :: ws =>
    if w.getLsbD 23 then
      match ws with
      | e :: ws' => (i, opcOf w, spxOf w e) :: textInstrs n (i + 2) ws'
      | [] => [(i, 0xFF, spxOf w 0)]
    else (i, opcOf w, spxOf w 0) :: textInstrs n (i + 1) ws

/-- Target of a branch as a word index, where it is not negative. -/
def branchIdx (i : Nat) (f : Spx) : Option Nat := let t := (i : Int) + f.imm.toInt; if t < 0 then none else some t.toNat

/-- Most targets an instruction that names token `t` with every ordinal may have. -/
def maxTargets (img : Image) (t : Nat) : Nat :=
  img.masks.foldl (fun n w => let m := maskEnt w
    if m.tok = t then max n (if m.cls = 0 then min 20 (cdiv m.span 1024 + 1) else if m.mode = 1 then m.count else m.span) else n) 1

/-- Cost of an instruction of R671: its steps when not waiting; a branch not taken. -/
def costOf (img : Image) (opc : Nat) (f : Spx) : Nat :=
  match opc with
  | 0x02 | 0x03 => 3
  | 0x04 | 0x05 | 0x06 | 0x07 => 34
  | 0x16 => 2
  | 0x20 | 0x22 => 8
  | 0x21 | 0x23 => 2
  | 0x26 => 265
  | 0x27 => 258
  | 0x28 | 0x29 => 2
  | 0x2C => 4
  | 0x40 | 0x42 | 0x43 | 0x45 => 2
  | 0x60 => 320
  | 0x61 | 0x63 => 2
  | 0xA0 | 0xA1 | 0xA2 | 0xA3 => 8
  | 0xC0 | 0xC3 => 2
  | 0xC1 | 0xC2 | 0xC9 => 4
  | 0xC8 => 12
  | n => if 0x80 ≤ n && n ≤ 0x8A then
      8 + 4 * ((if immN f / 65536 % 256 = 255 then maxTargets img f.b.toNat else 1) - 1)
    else 1

/-- Steps of the longest run from each instruction on, later instructions first (R671): a fetch of 192 counts with each. -/
def runLengths (img : Image) : List (Nat × Nat × Spx) → Table Nat
  | [] => []
  | (i, opc, f) :: rest =>
    let m := runLengths img rest
    let own := costOf img opc f + 192
    let after := tget 0 m (if f.x then i + 2 else i + 1)
    let fwd := match branchIdx i f with
      | some t => if t = i then 6401 else if t > i then tget 0 m t else 0
      | none => 0
    let n := match opc with
      | 0x62 | 0x45 | 0x43 => own
      | 0x40 | 0x42 => own + fwd
      | 0x41 => own + max after (1 + fwd)
      | _ => own + after
    tput 0 m i n

/-- Run starts (R671): the entry points, targets of backward branches, and what follows a JAL. -/
def runStarts (img : Image) (is : List (Nat × Nat × Spx)) : List Nat :=
  img.entries.map (fun e => e % 2 ^ 32 / 8) ++ is.flatMap fun (i, opc, f) =>
    (if opc = 0x40 || opc = 0x41 || opc = 0x42 then
      match branchIdx i f with
      | some t => if t < i then [t] else []
      | none => []
    else []) ++ (if opc = 0x42 then [i + 1] else [])

/-- Token registers an instruction names (R52). -/
def namedTokens (opc : Nat) (f : Spx) : List Nat :=
  if opc = 0x61 then [f.a.toNat]
  else if opc = 0x63 then [f.b.toNat]
  else if 0x80 ≤ opc && opc ≤ 0x8A then [f.b.toNat]
  else if 0xA0 ≤ opc && opc ≤ 0xA3 then [immN f / 65536 % 8]
  else if opc = 0xC0 && f.fn.getLsbD 2 then [f.a.toNat]
  else []

/-! ### Micro-programs (R246, R247, R671) -/

/-- OP of a micro-op word. -/
def mopOp (w : W32) : Nat := w.toNat / 2 ^ 27
/-- The other fields of a micro-op word. -/
def mopOf (w : W32) : Mop := { d := (w >>> 23).setWidth 4, a := (w >>> 19).setWidth 4, p := (w >>> 16).setWidth 3, imm := w.setWidth 16, mismatch := false }

/-- A micro-op word is defined: fields it does not use are zero (R246, R247), and C = 1 only with H = 1 (R248). -/
def mopDefined (op : Nat) (m : Mop) : Bool :=
  let i := m.imm.toNat
  match op with
  | 0x00 | 0x01 | 0x02 | 0x0B => m.d == 0 && m.a == 0 && m.p == 0 && i == 0
  | 0x03 | 0x04 => m.a == 0 && i < 4096
  | 0x05 => m.d == 0 && i < 4096
  | 0x06 | 0x07 => m.d == 0 && m.a == 0 && i < 4096
  | 0x08 => m.d == 0 && i < 0x3000
  | 0x09 => m.p == 0 && i < 0x3000 && i % 4096 == 0
  | 0x0A => m.d == 0 && i < 0x2000 && !(bitAt i 11 && !bitAt i 10)
  | 0x0C => m.p == 0 && i < 0x800 && bitsOf i 4 3 < 6
  | 0x0D => m.d == 0 && m.a == 0 && m.p == 0 && i < 8
  | 0x0E => m.d == 0 && m.a == 0
  | 0x0F => m.d == 0 && m.a == 0 && (!bitAt i 12 || bitsOf i 3 9 == 0)
  | 0x10 => m.d == 0 && i < 8
  | 0x11 => m.d == 0 && m.a == 0 && m.p == 0 && i < 1024
  | 0x12 | 0x13 => m.d == 0 && m.a == 0 && i < 1024
  | 0x14 => m.d == 0 && m.p == 0 && i == 0
  | _ => false

/-- Displacement of a micro-op branch. -/
def mopDisp (m : Mop) : Int := signedOf 10 m.imm.toNat

/-- Micro-ops of the longest run from each entry on, later entries first. -/
def microRuns : Nat → List W32 → Table Nat
  | _, [] => []
  | i, w :: ws =>
    let m := microRuns (i + 1) ws
    let op := mopOp w
    let t := (i : Int) + mopDisp (mopOf w)
    let fwd := if t = i then 129 else if t > i then tget 0 m t.toNat else 0
    let after := tget 0 m (i + 1)
    tput 0 m i (match op with
      | 0x01 | 0x02 => 1
      | 0x11 => 1 + fwd
      | 0x12 | 0x13 => 1 + max after fwd
      | _ => 1 + after)

/-! ### The checks of R52 -/

/-- A mask entry is a defined one (R54). -/
def maskOk (w : Nat) : Bool :=
  let m := maskEnt w
  bitsOf w 6 2 == 0 && bitsOf w 59 5 == 0 && m.cls ≤ 13 && (isPool m.cls == (m.mode == 2)) &&
    match m.mode with
    | 0 => m.span ≥ 1
    | 1 => 1 ≤ m.count && m.count ≤ m.span
    | 2 => m.span == 1 && m.count ≥ 1
    | _ => false

/-- The partition's masks accept an instance (R547). -/
def partAllows (s : State) (dom cls inst : Nat) : Bool :=
  !partitioned s ||
    let p := domPart s dom
    match cls with
    | 5 => bitAt (fget s F.SMC_PART_ENG_SCA p) inst
    | 7 => bitAt (fget s F.SMC_PART_ENG_TBE p) inst
    | 8 => bitAt ((rget s .SMC_PART_DMA_LO p).toNat + 2 ^ 32 * (rget s .SMC_PART_DMA_HI p).toNat) inst
    | _ => true

/-- A mask entry stays within the slice (R52, R54), names no save slot (R96) and nothing outside the partition (R547). -/
def maskInSlice (s : State) (l : Slice) (dom routes w : Nat) : Bool :=
  let m := maskEnt w
  (List.range m.span).all fun i => match absInst l m.cls routes (m.base + i) with
    | none => false
    | some k => !(m.cls == 1 && k < 6144 && k % 384 ≥ 376) && partAllows s dom m.cls k

/-- The entries of a phase-table entry. -/
def phaseOf (b : List Byte) : PhaseEnt := { first := fieldOf b 0 2, count := fieldOf b 2 2, svc := bitAt (fieldOf b 4 1) 0 }
/-- A phase-table entry is defined (R81). -/
def phaseOk (img : Image) (b : List Byte) : Bool :=
  fieldOf b 0 2 + fieldOf b 2 2 ≤ img.masks.length && fieldOf b 4 1 < 2 && fieldOf b 5 11 == 0
/-- A route-table entry is defined (R81). -/
def routeOk (w : Nat) : Bool :=
  w < 2 ^ 46 && (bitsOf w 0 4 == 15 && bitsOf w 4 16 == 0 || bitsOf w 0 4 ≤ 13) && bitsOf w 20 4 ≤ 13
/-- A credit-share entry is defined and names a mask entry of mode 0b10 (R81). -/
def shareOk (img : Image) (w : Nat) : Bool :=
  w < 2 ^ 28 && bitsOf w 0 8 < img.masks.length && (maskEnt (img.masks.getD (bitsOf w 0 8) 0)).mode == 2
    && (bitsOf w 8 4 == 15 && bitsOf w 12 16 == 0 || bitsOf w 8 4 ≤ 13)

/-- The mask entries of a phase. -/
def phaseMasks (img : Image) (b : List Byte) : List MaskEnt :=
  ((img.masks.drop (phaseOf b).first).take (phaseOf b).count).map maskEnt

/-- No share, and no sum of one phase's shares on one pool instance, exceeds the pool; each share is tied to a producer. -/
def sharesFit (img : Image) : Bool :=
  (img.masks.zipIdx.all fun (w, i) => let m := maskEnt w
    m.mode != 2 || (m.count ≤ poolSize m.cls && img.shares.any fun x => bitsOf x 0 8 == i)) &&
  img.phases.all fun b => (phaseMasks img b).all fun m => m.mode != 2 ||
    ((phaseMasks img b).filter fun k => k.mode == 2 && k.cls == m.cls && k.base == m.base).foldl (fun n k => n + k.count) 0 ≤ poolSize m.cls

/-- Token use (R52, R124): every token an instruction names is claimed by a phase, and no phase names a token twice. -/
def tokensOk (img : Image) (is : List (Nat × Nat × Spx)) : Bool :=
  let claimed := img.phases.flatMap fun b => (phaseMasks img b).map (·.tok)
  (is.all fun (_, opc, f) => (namedTokens opc f).all fun t => claimed.contains t) &&
    img.phases.all fun b => ((phaseMasks img b).map (·.tok)).Nodup

/-- Every check of R52 but the room in the NBU store. -/
def imageOk (s : State) (dom : Nat) (l : Slice) (img : Image) : Bool :=
  let is := textInstrs (img.text.length + 1) 0 img.text
  let runs := runLengths img is
  (img.entries.all fun e => e < 2 ^ 38 && e % 2 ^ 32 % 8 == 0 && e % 2 ^ 32 < 8 * img.text.length && e / 2 ^ 32 < img.phases.length)
    && (img.phases.all (phaseOk img)) && (img.masks.all maskOk) && (img.routes.all routeOk) && (img.shares.all (shareOk img))
    && (is.all fun (_, opc, f) => defined opc img.phases.length f)
    && (img.micro.all fun w => mopDefined (mopOp w) (mopOf w))
    && (img.masks.all (maskInSlice s l dom img.routes.length))
    && sharesFit img
    && ((runStarts img is).all fun i => tget 0 runs i ≤ 6400)
    && ((microRuns 0 img.micro).all fun p => p.2 ≤ 128)
    && tokensOk img is

/-! ### The NBU store (R251) -/

/-- The lowest free run of `n` entries of the plan region 0xA0 to 0xFF. -/
def freeRun (s : State) (n : Nat) : Option Nat :=
  firstFrom (fun a => a + n ≤ 256 && s.exec.plans.all fun p => a + n ≤ p.2.run || p.2.run + p.2.micro.length ≤ a || p.2.micro == []) 97 0xA0
/-- The store with words from an entry on. -/
def storePut : Table W32 → Nat → List W32 → Table W32
  | m, _, [] => m
  | m, i, w :: ws => storePut (tput 0 m i w) (i + 1) ws

/-! ### System operators (R78) -/

/-- A system operator completes: its record is written, its credit returns. -/
def endSysop (s : State) (p : Pend) (status reason : Nat) : State :=
  let s1 : State := intakeGive { s with exec := { s.exec with sysops := s.exec.sysops.filter fun x => x.tag != p.tag } } p.dom
  workRecord s1 p.dom p.sq p.tag 0 p.cookie status reason false 0 0 0

/-- The image of a PLAN_LOAD, if it can be read and its header is well-formed. -/
def loadImage (s : State) (p : Pend) : Option (List Byte) :=
  match uBytes s p.dom (entDesc p.entry 0) 32 with
  | none => none
  | some h => if headerOk h then uBytes s p.dom (entDesc p.entry 0) (fieldOf h 0x14 4) else none

/-- The slice a PLAN_LOAD names, where it may (R78). -/
def loadSlice (s : State) (p : Pend) : Option (Nat × Slice) :=
  let w := entDesc p.entry 1
  if w ≥ 16 || (partitioned s && w != domPart s p.dom) then none else (sliceOf s w).map fun l => (w, l)

/-- PLAN_LOAD (R52, R78, R251). -/
def planLoad (s : State) (p : Pend) : State :=
  let bad := fun r => endSysop s p stBAD_OPERATOR r
  if (tget {} s.smc.doms p.dom).state != 1 then bad 0xE3
  else if (tfind s.exec.plans p.plan).isSome then bad 0
  else match loadSlice s p, loadImage s p with
    | some (k, l), some b =>
      let img := parseImage b
      if !imageOk s p.dom l img then bad 0
      else match (if img.micro = [] then some 0xA0 else freeRun s img.micro.length) with
        | none => bad 0x41
        | some r =>
          let pl : Plan := { id := img.id, dom := p.dom, slice := k, image := b, run := r, micro := img.micro, text := img.text
                             entries := img.entries.map (fun e => (e % 2 ^ 32, e / 2 ^ 32)), phases := img.phases.map phaseOf
                             masks := img.masks, routes := img.routes, shares := img.shares }
          let s1 : State := { s with
            exec := { s.exec with plans := tins s.exec.plans p.plan pl }
            stk := { s.stk with store := storePut s.stk.store r img.micro } }
          endSysop s1 p stOK 0
    | _, _ => bad 0

/-- The system operator of a tag whose handle is `op`. -/
def sysopOf (s : State) (tag op : Nat) : Option Pend := s.exec.sysops.find? fun p => p.tag == tag && p.op == op

/-- PLAN_LOAD (R78). -/
def execPlanLoad (tag : W32) (s : State) : Out :=
  .next (match sysopOf s tag.toNat 0xFF01 with
    | some p => if inP0 s then planLoad s p else s
    | none => s)

/-- PLAN_UNLOAD (R53, R78): the plan takes no new jobs, and leaves when it has none. -/
def planUnload (s : State) (p : Pend) : State :=
  match tfind s.exec.plans p.plan with
  | some pl =>
    if pl.unloading || pl.dom != p.dom then endSysop s p stBAD_OPERATOR 0
    else endSysop (planLeave { s with exec := { s.exec with plans := tins s.exec.plans p.plan { pl with unloading := true } } } p.plan) p stOK 0
  | none => endSysop s p stBAD_OPERATOR 0

/-- PLAN_UNLOAD (R53, R78). -/
def execPlanUnload (tag : W32) (s : State) : Out :=
  .next (match sysopOf s tag.toNat 0xFF02 with
    | some p => if inP0 s then planUnload s p else s
    | none => s)

end Sys2Proof.Machine
end

