-- ==== Sys2Proof/Machine/Lists.lean ====
section
/-!
DEFINITION. The structures of the vector store as readers meet them (R147 to R162, R185 to R196): root entries and their
versions, segments, tiles, haze entries, and the epochs a job may read at.
-/

namespace Sys2Proof.Machine

open Sys2Proof

/-- Sketch width in bits (R147). -/
def skBits (width : Nat) : Nat := 256 * 2 ^ width
/-- Entries per tile (R158). -/
def tileItems (width : Nat) (ext : Bool) : Nat :=
  match width, ext with
  | 0, false => 84
  | 0, true => 63
  | 1, false => 50
  | 1, true => 42
  | 2, false => 28
  | 2, true => 25
  | _, _ => 14
/-- Offset of the attribute plane (R158). -/
def attrOff (width : Nat) (ext : Bool) : Nat := 64 + tileItems width ext * (skBits width / 8)
/-- Offset of the identifier plane. -/
def idOff (width : Nat) (ext : Bool) : Nat := attrOff width ext + 8 * tileItems width ext
/-- Offset of the extended plane; 0 without it. -/
def extOff (width : Nat) (ext : Bool) : Nat := if ext then idOff width ext + 8 * tileItems width ext else 0
/-- The index has the extended attribute block. -/
def Index.ext (x : Index) : Bool := bitAt x.flags 0
/-- Bytes per haze insert entry (R187). -/
def hazeStride (x : Index) : Nat := round64 (32 + skBits x.width / 8 + (if x.ext then 16 else 0) + 2 * x.dim)
/-- Insert entries per haze block (R185). -/
def perBlock (x : Index) : Nat := 65472 / hazeStride x
/-- The EPOCH of an uncommitted entry (R187). -/
def noEpoch : Nat := 2 ^ 48 - 1

/-- An installed index of a domain. -/
def indexOf (s : State) (dom i : Nat) : Option Index :=
  match tfind s.tir.indexes i with
  | some x => if x.dom = dom && !x.removing then some x else none
  | none => none

/-- The fields of a root entry (R152). -/
structure Root where
  addr : Nat
  head : Nat
  haze : Nat
  swap : Nat
  segs : Nat
  items : Nat
  hazeN : Nat
  tiles : Nat
  prev : Nat
deriving DecidableEq, Repr

/-- A root entry from its 64 bytes. -/
def parseRoot (a : Nat) (b : List Byte) : Root :=
  { addr := a, head := fieldOf b 0 8, haze := fieldOf b 8 8, swap := fieldOf b 0x10 6, segs := fieldOf b 0x16 2
    items := fieldOf b 0x18 4, hazeN := fieldOf b 0x1C 4, tiles := fieldOf b 0x20 4, prev := fieldOf b 0x28 8 }
/-- The 64 bytes of a root entry. -/
def rootBytes (r : Root) : List Byte :=
  bytesOf 8 r.head ++ bytesOf 8 r.haze ++ bytesOf 6 r.swap ++ bytesOf 2 r.segs ++ bytesOf 4 r.items ++ bytesOf 4 r.hazeN
    ++ bytesOf 4 r.tiles ++ bytesOf 4 0 ++ bytesOf 8 r.prev ++ bytesOf 8 0 ++ bytesOf 8 0
/-- Address of the root entry of a list. -/
def rootAddr (x : Index) (l : Nat) : Nat := x.root + 64 * l
/-- The root entry at an address; zero where it cannot be read. -/
def rootAt (s : State) (dom a : Nat) : Root := parseRoot a ((uBytes s dom a 64).getD [])

/-- The version for an epoch (R195), with the SWAP_EPOCH of the entry that superseded it when it is retired. -/
def versionFrom (s : State) (dom e : Nat) : Nat → Root → Option Nat → Root × Option Nat
  | 0, r, sup => (r, sup)
  | n + 1, r, sup => if e < r.swap && r.prev != 0 then versionFrom s dom e n (rootAt s dom r.prev) (some r.swap) else (r, sup)

/-- The version of a list for an epoch, from its root entry. -/
def versionAt (s : State) (dom root e : Nat) : Root × Option Nat := versionFrom s dom e 4096 (rootAt s dom root) none

/-- The fields of a segment header (R154). -/
structure Seg where
  addr : Nat
  index : Nat
  list : Nat
  seq : Nat
  items : Nat
  tiles : Nat
  tileItems : Nat
  width : Nat
  recFmt : Nat
  build : Nat
  next : Nat
  tileBase : Nat
  recBase : Nat
  scaleBase : Nat
  hotMap : Nat
  hotCount : Nat
deriving DecidableEq, Repr

/-- A segment header from its 128 bytes. -/
def parseSeg (a : Nat) (b : List Byte) : Seg :=
  { addr := a, index := fieldOf b 4 1, list := fieldOf b 5 3, seq := fieldOf b 8 4, items := fieldOf b 0xC 4, tiles := fieldOf b 0x10 4
    tileItems := fieldOf b 0x14 2, width := fieldOf b 0x16 1, recFmt := fieldOf b 0x17 1, build := fieldOf b 0x18 6
    next := fieldOf b 0x20 8, tileBase := fieldOf b 0x28 8, recBase := fieldOf b 0x30 8, scaleBase := fieldOf b 0x38 8
    hotMap := fieldOf b 0x40 8, hotCount := fieldOf b 0x48 4 }

/-- The segments of a chain, first to last; stops where a header cannot be read. -/
def chainFrom (s : State) (dom : Nat) : Nat → Nat → List Seg
  | 0, _ => []
  | n + 1, a =>
    if a = 0 then []
    else match uBytes s dom a 128 with
      | none => []
      | some b => let g := parseSeg a b; g :: chainFrom s dom n g.next

/-- An entry of a haze block: where it is, its item and epoch. -/
structure HEnt where
  addr : Nat
  block : Nat
  pos : Nat
  item : Nat
  epoch : Nat
deriving DecidableEq, Repr

/-- Blocks of a haze chain with their counts (R186). -/
def hazeBlocks (s : State) (dom : Nat) : Nat → Nat → List (Nat × Nat)
  | 0, _ => []
  | n + 1, a =>
    if a = 0 then []
    else match uBytes s dom a 64 with
      | none => []
      | some b => (a, fieldOf b 8 4) :: hazeBlocks s dom n (fieldOf b 0 8)

/-- The first `n` entries of a haze chain, of `stride` bytes each, in append order. -/
def hazeEnts (s : State) (dom first stride n : Nat) : List HEnt :=
  ((hazeBlocks s dom 65536 first).flatMap fun p => (List.range p.2).map fun i =>
    let a := p.1 + 64 + stride * i
    { addr := a, block := p.1, pos := i, item := uNum s dom a 8, epoch := uNum s dom (a + 8) 6 : HEnt }).take n

/-- The insert entries of a haze segment. -/
def hazeInserts (s : State) (dom : Nat) (x : Index) (haze : Nat) : List HEnt :=
  if haze = 0 then [] else hazeEnts s dom (uNum s dom (haze + 0x18) 8) (hazeStride x) (uNum s dom (haze + 0xC) 4)
/-- The tombstones of a haze segment. -/
def hazeTombs (s : State) (dom : Nat) (haze : Nat) : List HEnt :=
  if haze = 0 then [] else hazeEnts s dom (uNum s dom (haze + 0x28) 8) 16 (uNum s dom (haze + 0x10) 4)

/-- A tombstone hides an entry at an epoch (R196): `i` is the insert's epoch, none for a segment entry. -/
def hidden (tombs : List HEnt) (item : Nat) (i : Option Nat) (e : Nat) : Bool :=
  tombs.any fun t => t.item == item && t.epoch ≤ e && (match i with | some k => k < t.epoch | none => true)

/-- The epochs that a job may read an index at (R194). -/
def epochOk (s : State) (tag index e : Nat) : Bool :=
  match jobOf s tag with
  | none => false
  | some j => j.epoch == e || (j.take.any fun p => p.2.epoch == e)
      || s.tir.pins.any fun p => p.2.dom == j.dom && p.2.index == index && p.2.epoch == e

/-- Bits set in a number of `w` bits. -/
def popcount (n w : Nat) : Nat := ((List.range w).filter fun i => bitAt n i).length
/-- Hamming distance of two sketches (R156). -/
def hamming (a b w : Nat) : Nat := popcount (Nat.xor a b) w

end Sys2Proof.Machine
end

