-- ==== Sys2Proof/Machine/Scorer.lean ====
section
/-!
DEFINITION. Scoring beside the flash channels (R270 to R297): tables, work lists, page reads for scoring, the scores and
their entries.
-/

namespace Sys2Proof.Machine

open Sys2Proof

/-! ### Formats -/

/-- Tables a scorer holds (R275). -/
def tableCount (x : Index) : Nat := if x.recFmt = 1 then 16 else min 16 (2097152 / (256 * x.dim))
/-- Bytes of a flash record (R160, R162). -/
def recBytesOf (x : Index) : Nat := if x.recFmt = 1 then 2 * x.dim else x.dim / 2
/-- Bytes of a scale set. -/
def scaleBytesOf (x : Index) : Nat := x.dim / 32 * (if bitAt x.flags 4 then 2 else 1)
/-- Records per page. -/
def recPerPage (x : Index) : Nat := 16384 / recBytesOf x
/-- Scale sets per page; 0 for BF16. -/
def scalePerPage (x : Index) : Nat := if x.recFmt = 1 then 0 else 16384 / scaleBytesOf x
/-- A Q4P level (R147). -/
def levelOf (x : Index) (c : Nat) : Fv := decodeFp fmt16 (x.levels.getD c 0)
/-- A bf16 word that is a NaN or an infinity. -/
def badBf16 (w : Nat) : Bool := bitsOf w 7 8 == 255
/-- A scale of a scale set: none when it is no valid scale (R287). -/
def scaleAt (x : Index) (b : List Byte) (i : Nat) : Option Fv :=
  let v := if bitAt x.flags 4 then decodeFp fmt16 (fieldOf b (2 * i) 2) else e8m0 (fieldOf b i 1)
  if v.finite then some v else none

/-! ### Scores (R274, R288, R289) -/

/-- fp32 sum of a list in order. -/
def sum32 : List W32 → W32
  | [] => 0
  | x :: xs => xs.foldl add32 x
/-- An fp16 table entry: rounded and saturated. -/
def toF16 (w : W32) : Fv := decodeFp fmt16 (encodeFp fmt16 true 0x7E00 (fp32 w))
/-- Entry `e` of the table of a position with query elements `q0`, `q1`. -/
def tableEntry (x : Index) (q0 q1 e : Nat) : Fv :=
  toF16 (add32 (to32 (fvMul (levelOf x (e % 16)) (bf16 q0))) (to32 (fvMul (levelOf x (e / 16)) (bf16 q1))))
/-- Entry `e` of the square table. -/
def squareEntry (x : Index) (e : Nat) : Fv :=
  let sq := fun c => to32 (fvMul (levelOf x c) (levelOf x c))
  toF16 (add32 (sq (e % 16)) (sq (e / 16)))
/-- The squared norm of a query, in fp32. -/
def normSq (q : List Nat) : W32 := sum32 (q.map fun w => to32 (fvMul (bf16 w) (bf16 w)))

/-- Score of a Q4P record (R288); none when a scale is invalid. -/
def scoreQ4P (x : Index) (q : List Nat) (rec scales : List Byte) : Option W32 :=
  let sc := (List.range (x.dim / 32)).map (scaleAt x scales)
  if sc.any fun o => o.isNone then none
  else
    let code := fun j => (rec.getD j 0).toNat
    let a := fun b => sum32 ((List.range 16).map fun i => let j := 16 * b + i
      to32 (tableEntry x (q.getD (2 * j) 0) (q.getD (2 * j + 1) 0) (code j)))
    let c := fun b => sum32 ((List.range 16).map fun i => to32 (squareEntry x (code (16 * b + i))))
    let s := fun b => (sc.getD b none).getD (.fin false 0 0)
    let ip := sum32 ((List.range (x.dim / 32)).map fun b => to32 (fvMul (s b) (fp32 (a b))))
    if x.metric = 1 then
      let t := sum32 ((List.range (x.dim / 32)).map fun b => to32 (fvMul (fp32 (to32 (fvMul (s b) (s b)))) (fp32 (c b))))
      some (add32 (to32 (fvSub (fp32 t) (fp32 (to32 (fvMul (.fin false 2 0) (fp32 ip)))))) (normSq q))
    else some ip

/-- Score of a BF16 record (R289). -/
def scoreBf16 (x : Index) (q : List Nat) (rec : List Byte) : W32 :=
  (List.range x.dim).foldl (fun acc i =>
    let a := bf16z (fieldOf rec (2 * i) 2)
    let b := bf16z (q.getD i 0)
    let p := if x.metric = 1 then let d := fp32 (to32z (fvSub a b)); fp32 (to32z (fvMul d d)) else fvMul a b
    to32z (fvAdd (fp32 acc) p)) 0

/-! ### Loading tables (R276 to R278) -/

/-- The checks of a load and the table it builds. -/
def buildTable (s : State) (c : Cmd) : Work (Nat × ScTable) := do
  let d := c.tok.desc
  match indexOf s c.tok.dom (laneBits d 0 56 8) with
  | none => failWith stBAD_OPERATOR 0
  | some x => do
    need (laneBits d 1 0 4 < tableCount x) (.report stBAD_OPERATOR 0x53 0 0)
    let b ← operand s c.tok.dom (laneBits d 0 0 56) (2 * x.dim)
    let q := (List.range x.dim).map fun i => fieldOf b (2 * i) 2
    need (!q.any badBf16) (.report stBAD_OPERATOR 0x58 0 0)
    .ok (laneBits d 1 0 4, { index := laneBits d 0 56 8, query := q })

/-- The oldest command of a scorer that has not begun. -/
def scHead (s : State) (chan : Nat) : Option Cmd := (cmdsOf s 6 chan).find? fun c => c.phase == .queued

/-- LRANK_LOAD_TABLE. -/
def lrankLoadTable (chan : Nat) (s : State) : State :=
  engineOn (scHead s chan) 6 chan .lrank 0 (fun s c =>
    if overcast s then .error .overcast
    else
      let key := chan * 16 + laneBits c.tok.desc 1 0 4
      let gone : State := { s with fls := { s.fls with tables := tdel s.fls.tables key } }
      match buildTable s c with
      | .ok (l, t) =>
        let s1 := useRange s c.tok.dom (laneBits c.tok.desc 0 0 56) (2 * t.query.length)
        .ok (endCmd { s1 with fls := { s1.fls with tables := tins s1.fls.tables (chan * 16 + l) t } } 6 chan c stOK 0 t.query.length 0)
      | .error (.report st rs n sp) => .ok (endCmd gone 6 chan c st rs n sp)
      | .error e => .error e) s

/-! ### Page sets (R279 to R286) -/

/-- A work entry (R280). -/
structure WorkEnt where
  ord : Nat
  item : Nat
  recPage : Nat
  scalePage : Nat
  recSlot : Nat
  scaleSlot : Nat
  qslot : Nat
  table : Nat
deriving DecidableEq, Repr

/-- A work entry from its 32 bytes. -/
def parseWork (i : Nat) (b : List Byte) : WorkEnt :=
  { ord := i, item := fieldOf b 0 8, recPage := fieldOf b 8 7, scalePage := fieldOf b 0x10 7, recSlot := fieldOf b 0x18 2
    scaleSlot := fieldOf b 0x1A 2, qslot := fieldOf b 0x1C 1 % 64, table := fieldOf b 0x1D 1 % 16 }

/-- What holds a page for scoring: a channel, or the status and reason of the refusal (R282, R411). -/
def pageChannel (s : State) (dom a : Nat) : Except (Nat × Nat) Nat :=
  let home := match areaAt s dom a with
    | some i => a - areaBase i ≥ areaFlash
    | none => match regionAt s dom a with
      | some (_, r) => if r.cls = 1 then (pageOf s (pageKey dom a)).home == 2 else r.cls == 0 && r.backing == 1
      | none => false
  if !home then .error (stSHORT, 0x52)
  else match tfind s.fls.map (dom * 2 ^ 42 + a / 16384) with
    | none => .error (stSHORT, 0x54)
    | some p => if p.lost then .error (stMEDIA_ERROR, 0x51)
      else if !s.fls.inService.contains p.chan then .error (stMEDIA_ERROR, 0x55) else .ok p.chan

/-- The table number of a channel as it stands in issue order before a command of serial number `id` (R277, R281). -/
def tableBefore (s : State) (chan l id : Nat) : Option ScTable :=
  ((cmdsOf s 6 chan).filter fun c => c.phase == .queued && c.id < id && c.tok.op == 0 && laneBits c.tok.desc 1 0 4 == l).foldl
    (fun _ c => match buildTable s c with | .ok (_, t) => some t | .error _ => none) (tfind s.fls.tables (chan * 16 + l))

/-- Note an entry that is not emitted: its place in the work list, status and reason. -/
def noteFail (c : Cmd) (ord status reason : Nat) : Cmd := { c with aux := c.aux ++ [ord * 2 ^ 16 + status * 2 ^ 8 + reason] }

/-- The status and reason of a channel's word (R287): `MEDIA_ERROR` before `SHORT`, then the first in work-list order. -/
def failStatus (l : List Nat) : Nat × Nat :=
  let pickSt := fun (st : Nat) => leastBy id (l.filter fun w => w / 2 ^ 8 % 256 == st)
  match pickSt stMEDIA_ERROR, pickSt stSHORT with
  | some w, _ => (stMEDIA_ERROR, w % 256)
  | none, some w => (stSHORT, w % 256)
  | none, none => (stOK, 0)

/-- A channel's command ends when no entry of it is left at the scorer. -/
def scSettle (s : State) (chan id : Nat) : State :=
  if s.fls.work.any fun w => w.cmd == id && w.chan == chan then s
  else match (cmdsOf s 6 chan).find? fun c => c.id == id && c.phase == .running with
    | none => s
    | some c =>
      let (st, rs) := failStatus c.aux
      putCmd s 6 chan { c with phase := .finishing, status := st, reason := rs, spec := min 0xFFFF c.aux.length, aux := [] }

/-- An entry at a scorer is not emitted. -/
def failEntry (s : State) (w : ScoreEnt) (status reason : Nat) : State :=
  let s1 : State := { s with fls := { s.fls with work := s.fls.work.erase w } }
  let s2 := match (cmdsOf s1 6 w.chan).find? fun c => c.id == w.cmd with
    | some c => putCmd s1 6 w.chan (noteFail c w.ord status reason)
    | none => s1
  let s3 := if reason = 0x52 || reason = 0x54 || reason = 0x55 then fbump s2 F.FLS_SCORE_STAT_NOTFLASH else s2
  scSettle (if reason = 0x43 then fbump s3 F.FLS_SCORE_STAT_BADSCALE else s3) w.chan w.cmd

/-- The entry a scorer emits (R286). -/
def flashEntry (w : ScoreEnt) (score : W32) : BitVec 192 :=
  BitVec.ofNat 192 (w.qslot % 64 * 2 ^ 16 + 2 ^ 23 + w.index % 256 * 2 ^ 24 + w.item % 2 ^ 64 * 2 ^ 32 + score.toNat * 2 ^ 96
    + w.chan % 64 * 2 ^ 128 + 2 ^ 143)

/-- Score an entry whose record and scales have arrived, and emit it if a credit is free (R283, R286, R625, R627). -/
def scoreEntry (s : State) (w : ScoreEnt) (mismatch : Bool) : State :=
  match indexOf s w.dom w.index with
  | none => failEntry s w stMEDIA_ERROR 0x51
  | some x =>
    let rcd := cellsRead s.mem.flash (w.dom * 2 ^ 56 + w.recPage + w.recSlot * recBytesOf x) (recBytesOf x)
    let scales := cellsRead s.mem.flash (w.dom * 2 ^ 56 + w.scalePage + w.scaleSlot * scaleBytesOf x) (scaleBytesOf x)
    if quarantined s 2 w.chan then failEntry s w stMEDIA_ERROR 0x5A
    else match (if x.recFmt = 1 then some (scoreBf16 x w.table rcd) else scoreQ4P x w.table rcd scales) with
      | none => failEntry s w stMEDIA_ERROR 0x43
      | some score =>
        if mismatch then failEntry (chargeUnit s 2 w.chan (match (cmdsOf s 6 w.chan).find? fun c => c.id == w.cmd with
          | some c => jobPlanId s c.tok.job | none => 0)) w stMEDIA_ERROR 0x56
        else match (cmdsOf s 6 w.chan).find? fun c => c.id == w.cmd with
          | none => { s with fls := { s.fls with work := s.fls.work.erase w } }
          | some c => match laneShare s c.tok.job w.lane with
            | .error e => stopCmd s 6 w.chan c e
            | .ok share =>
              if !shareFree s share then s
              else
                let s1 : State := { s with fls := { s.fls with work := s.fls.work.erase w } }
                let s2 := putCmd s1 6 w.chan { c with count := c.count + 1 }
                scSettle (sendCand s2 w.lane share c.tok.job c.id (flashEntry w score)) w.chan w.cmd

/-- Both parts of an entry have arrived. -/
def entReady (w : ScoreEnt) : Bool := w.haveRec && w.haveScale

/-- Queue the read of a page for scoring, unless one of the job's stands already (R284); a dirty stack copy of the page is
written back first (R381). -/
def queueRead (s0 : State) (dom a job share : Nat) : State :=
  let s := writeBack s0 (pageKey dom a)
  match tfind s.fls.map (dom * 2 ^ 42 + a / 16384) with
  | none => s
  | some p =>
    let k := p.chan * 256 + p.lun
    let lu := tget {} s.fls.luns k
    let mine := fun (r : FRead) => r.src == 0 && r.dom == dom && r.lpage == a / 16384 && r.cmd == job
    if lu.reads.any mine then s
    else { s with fls := { s.fls with luns := tput {} s.fls.luns k { lu with reads := lu.reads ++
      [{ src := 0, cmd := job, dom := dom, lpage := a / 16384, plane := p.blk % max 1 s.fls.planes, since := s.now, share := share }] } } }

/-- Give the entries of a work list to their scorer (R282, R283): those of this channel, and, on the lowest channel of the
token, those that no channel of the token holds. -/
def giveEntries (s : State) (chan : Nat) (c : Cmd) (x : Index) (lane share fshare : Nat) (ents : List WorkEnt) : State :=
  let lowest := c.tok.insts.all fun i => chan ≤ i
  ents.foldl (fun s e =>
    let cc := match (cmdsOf s 6 chan).find? fun k => k.id == c.id with | some k => k | none => c
    let fail := fun (st rs : Nat) =>
      let s1 := putCmd s 6 chan (noteFail cc e.ord st rs)
      if rs = 0x52 || rs = 0x54 || rs = 0x55 then fbump s1 F.FLS_SCORE_STAT_NOTFLASH else s1
    match pageChannel s c.tok.dom e.recPage with
    | .error (st, rs) => if lowest then fail st rs else s
    | .ok ch =>
      if !c.tok.insts.contains ch then (if lowest then fail stSHORT 0x54 else s)
      else if ch != chan then s
      else
        let scale : Except (Nat × Nat) Nat := if x.recFmt = 1 then .ok chan else pageChannel s c.tok.dom e.scalePage
        match scale with
        | .error (st, rs) => fail st rs
        | .ok ch2 =>
          let w : ScoreEnt := { cmd := c.id, chan := chan, ord := e.ord, item := e.item, dom := c.tok.dom, index := laneBits c.tok.desc 0 56 8
                                recPage := e.recPage, recSlot := e.recSlot, scalePage := e.scalePage, scaleSlot := e.scaleSlot
                                qslot := e.qslot, lane := lane, share := share, haveScale := x.recFmt == 1
                                table := ((tfind s.fls.tables (chan * 16 + e.table)).getD {}).query }
          let s1 : State := { s with fls := { s.fls with work := s.fls.work ++ [w] } }
          let s2 := queueRead s1 c.tok.dom e.recPage c.tok.job fshare
          let fs2 := match shareOf s2 c.tok.job 11 ch2 with | some (h, _) => h | none => fshare
          if x.recFmt = 1 then s2 else queueRead s2 c.tok.dom e.scalePage c.tok.job fs2) s

/-- The start of a page set on one channel (R281, R282). -/
def scoreStart (chan : Nat) (s : State) (c : Cmd) : Work State := do
  let d := c.tok.desc
  let dom := c.tok.dom
  let tag := c.tok.job
  need (!overcast s) .overcast
  let lane ← jobInst s tag 4 (laneBits d 1 16 4)
  let share ← laneShare s tag lane
  need (c.tok.insts.all fun i => (shareOf s tag 11 i).isSome) (.violates 11 chan)
  let n := laneBits d 1 0 13
  let wl := laneBits d 0 0 56
  let b ← operand s dom wl (32 * min n 4096)
  let ents := (List.range (min n 4096)).map fun i => parseWork i ((b.drop (32 * i)).take 32)
  match ents.find? fun e => !inRange s dom e.recPage 1 || (e.scalePage != 0 && !inRange s dom e.scalePage 1) with
  | some e => .error (.bad (if inRange s dom e.recPage 1 then e.scalePage else e.recPage))
  | none => match indexOf s dom (laneBits d 0 56 8) with
    | none => failWith stBAD_OPERATOR 0
    | some x => do
      need (1 ≤ n && n ≤ 4096) (.report stBAD_OPERATOR 0x57 0 0)
      let idx := laneBits d 0 56 8
      let ord := c.tok.insts.idxOf chan
      let okTable := fun (e : WorkEnt) => match pageChannel s dom e.recPage with
        | .ok ch => if !c.tok.insts.contains ch then true
          else match tableBefore s ch e.table (c.id - ord + c.tok.insts.idxOf ch) with
            | some t => t.index == idx
            | none => false
        | .error _ => true
      need (ents.all okTable) (.report stBAD_OPERATOR 0x53 0 0)
      need (ents.all fun e => e.recSlot < recPerPage x && (x.recFmt == 1 || e.scaleSlot < scalePerPage x)) (.report stBAD_OPERATOR 0x59 0 0)
      let fshare := match shareOf s tag 11 chan with | some (h, _) => h | none => 0
      let s1 := putCmd (useRange s dom wl (32 * n)) 6 chan { c with phase := .running }
      .ok (scSettle (giveEntries s1 chan c x lane share fshare ents) chan c.id)

/-- LRANK_SCORE_PAGES: the start of a page set, or entries that waited in the emit buffer for credits. -/
def lrankScorePages (chan : Nat) (s : State) : State :=
  match (s.fls.work.find? fun w => w.chan == chan && entReady w) with
  | some w => scoreEntry s w false
  | none => engineOn (scHead s chan) 6 chan .lrank 1 (fun s c => scoreStart chan s c) s

/-- LRANK_LOAD_TABLE (R276). -/
def execLrankLoadTable (channel : BitVec 6) (s : State) : Out := .next (lrankLoadTable channel.toNat s)
/-- LRANK_SCORE_PAGES (R281). -/
def execLrankScorePages (channel : BitVec 6) (s : State) : Out := .next (lrankScorePages channel.toNat s)

end Sys2Proof.Machine
end

