-- ==== Sys2Proof/Machine/Jobs.lean ====
section
/-!
DEFINITION. Jobs from outside their program: placement, deadlines, held claims, the watchdog and overruns, making way and
resuming, pulses, and the counters of the sequencer block (R69, R70, R73, R84, R89, R93, R98 to R101, R105, R516 to R521).
-/

namespace Sys2Proof.Machine

open Sys2Proof

/-- Jobs being asked to make way. -/
def askedJobs (s : State) : List (Nat × Job) := s.exec.jobs.filter fun p => p.2.asked
/-- At no time are more jobs asked to make way than latency-critical jobs wait (R520): the latest request beyond that is withdrawn. -/
def trimAsks (s : State) : State :=
  if (askedJobs s).length > (s.exec.pend.filter fun p => !p.be).length then withdrawLatest s fun _ => true else s

/-- DSP places the next pending job (R516, R519), in P0; a job whose plan is unloading or gone ends `BAD_OPERATOR` (R53). -/
def jobPlacement (s : State) : State :=
  if !inP0 s then s
  else match nextPlaced s with
    | none => s
    | some p =>
      let dead := match tfind s.exec.plans p.plan with
        | some pl => pl.unloading || pl.dom != p.dom
        | none => true
      if dead then
        let s1 : State := trimAsks
          (intakeGive { s with exec := { s.exec with pend := s.exec.pend.filter fun x => x.tag != p.tag } } p.dom)
        seriesEnd (workRecord s1 p.dom p.sq p.tag 0 p.cookie stBAD_OPERATOR 0 false 0 0 0) p.series stBAD_OPERATOR
      else match freeSeq s p.be p.dom with
        | some q => trimAsks (placeOn s p q)
        | none => s
/-- Placement (R519). -/
def execJobPlacement (s : State) : Out := .next (jobPlacement s)

/-- A job has a deadline that device time has reached. -/
def deadlineMet (s : State) (d : Nat) : Bool := d != 0 && d ≤ s.now

/-- The deadline of a placed job is reached (R84, R101): it ends `LATE`, without a fault record (R94). -/
def deadlineReached (tag : W32) (s : State) : State :=
  match jobOf s tag.toNat with
  | some j => if deadlineMet s j.deadline then finishJob s tag.toNat stLATE 0 0 else s
  | none => s
/-- A job's deadline (R84). -/
def execDeadlineReached (tag : W32) (s : State) : Out := .next (deadlineReached tag s)

/-- A pending job whose deadline is reached is dropped (R521). -/
def pendingJobLate (tag : W32) (s : State) : State :=
  match s.exec.pend.find? fun p => p.tag == tag.toNat && deadlineMet s p.deadline with
  | none => s
  | some p =>
    let s1 : State := trimAsks (intakeGive { s with exec := { s.exec with pend := s.exec.pend.filter fun x => x.tag != p.tag } } p.dom)
    workRecord s1 p.dom p.sq p.tag (planOf s p.plan).id p.cookie stLATE 0 false 0 0 0
/-- A pending job's deadline (R521). -/
def execPendingJobLate (tag : W32) (s : State) : Out := .next (pendingJobLate tag s)

/-- A taken request's deadline is reached (R93): it completes `LATE` and its job goes on. -/
def takenLate (tag : W32) (slot : Nat) (s : State) : State :=
  match jobOf s tag.toNat with
  | none => s
  | some j => match tfind j.take slot with
    | none => s
    | some t => if deadlineMet s t.deadline then
        workRecord (setJob s tag.toNat { j with take := tdel j.take slot }) j.dom t.sq t.tag (planOf s j.plan).id t.cookie stLATE 0 t.ovc 0 0 0
      else s
/-- A taken request's deadline (R93). -/
def execTakenRequestLate (tag : W32) (slot : Nat) (s : State) : Out := .next (takenLate tag slot s)

/-! ### Held claims (R58, R100) -/

/-- A job whose reclaim is granted goes on from where it made way: running, or waiting again (R100). -/
def resumed (s : State) (tag : Nat) : State :=
  match jobOf s tag with
  | none => s
  | some j =>
    let s1 := setJob s tag { j with phase := if j.wait.isSome then .waiting else .running, reclaim := [] }
    match j.wait with
    | some (.claim p) => { s1 with exec := { s1.exec with held := s1.exec.held ++ [⟨tag, p, j.be, false⟩] } }
    | _ => s1

/-- Grant one held claim, if it can be granted whole. -/
def grantHeld (s : State) (h : Held) : Option State :=
  match jobOf s h.tag with
  | none => none
  | some j =>
    let drop := fun (s : State) => { s with exec := { s.exec with held := s.exec.held.erase h } }
    if h.reclaim then (regrantAll s h.tag j.reclaim).map fun s1 => resumed (drop s1) h.tag
    else (claimPhase s h.tag j h.phase).map fun s1 => modJob (drop s1) h.tag fun j => wakeJob j false

/-- DSP grants the first held claim that can be granted whole: latency-critical ones first, then in DSP's order (R58). -/
def heldClaimGrant (s : State) : State :=
  let order := s.exec.held.filter (fun h => !h.be) ++ s.exec.held.filter fun h => h.be
  let open_ := order.filter fun h => match jobOf s h.tag with
    | some j => !deadlineMet s j.deadline
    | none => false
  (open_.findSome? (grantHeld s)).getD s
/-- A held claim is granted (R58). -/
def execHeldClaimGrant (s : State) : Out := .next (heldClaimGrant s)

/-! ### Overruns and the watchdog (R69, R70) -/

/-- 25,600 steps without a yield point: the job ends `ABORTED` (R69). -/
def seqWatchdogAbort (q : BitVec 7) (s : State) : State :=
  match seqTag s q.toNat with
  | none => s
  | some tag => match jobOf s tag with
    | none => s
    | some j => if j.phase == .running && j.steps ≥ 25600 then
        faultJob (fbump s F.SEQ_OVERRIDE_CNT_SEQ_WDOG) tag 3 2 stABORTED 0 0 0 0 j.steps
      else s
/-- The watchdog stops a sequencer (R69). -/
def execSeqWatchdogAbort (q : BitVec 7) (s : State) : Out := .next (seqWatchdogAbort q s)

/-- More than 6,400 steps without a yield point are counted once (R70). -/
def seqOverrun (q : BitVec 7) (s : State) : State :=
  match seqTag s q.toNat with
  | none => s
  | some tag => match jobOf s tag with
    | none => s
    | some j => if j.phase == .running && j.steps > 6400 && !j.overrun then
        fbump (setJob s tag { j with overrun := true }) F.SEQ_OVERRIDE_CNT_SEQ_OVR
      else s
/-- A sequencer overruns its yield bound (R70). -/
def execSeqOverrun (q : BitVec 7) (s : State) : Out := .next (seqOverrun q s)

/-! ### Counters (R73, R89, R105) -/

/-- A write of any value clears `SEQ_VIOL_CNT` (R73). -/
def execSeqViolCntClear (v : W32) (s : State) : Out :=
  .next (hostReg s .SEQ_VIOL_CNT (.reg .SEQ_VIOL_CNT 0 v) fun s => rset s .SEQ_VIOL_CNT 0 0)
/-- A write of any value clears `SEQ_STALE_PULSE` (R105). -/
def execSeqStalePulseClear (v : W32) (s : State) : Out :=
  .next (hostReg s .SEQ_STALE_PULSE (.reg .SEQ_STALE_PULSE 0 v) fun s => rset s .SEQ_STALE_PULSE 0 0)
/-- A pulse arrives (R89). -/
def execPulse (idx : BitVec 12) (gen inc : BitVec 16) (s : State) : Out := .next (pulseCtr s idx.toNat gen inc.toNat)

/-! ### Making way and resuming (R98 to R101, R520) -/

/-- Latency-critical jobs that wait with no free sequencer of their set. -/
def lcStuck (s : State) : List Pend := (livePend s).filter fun p => !p.be && (freeSeq s false p.dom).isNone
/-- In the partition of a waiting job (R547), fewer jobs are being asked than wait. -/
def askMore (s : State) (w : Pend) : Bool :=
  decide (((askedJobs s).filter fun p => samePart s p.2.dom w.dom).length < ((lcStuck s).filter fun p => samePart s p.dom w.dom).length)
/-- The jobs DSP may ask for a waiting job: best-effort, running or waiting on a sequencer of its set, not already asked, of its
partition, and not one that found no save slot while none is free (R99, R520, R547). -/
def mayAsk (s : State) (w : Pend) : List (Nat × Job) :=
  s.exec.jobs.filter fun p => p.2.be && (p.2.phase == .running || p.2.phase == .waiting) && !p.2.asked
    && seqAllowed s false w.dom p.2.q && samePart s p.2.dom w.dom && !(p.2.noSlot && (freeSlot s).isNone)

/-- DSP asks the best-effort job most recently placed or resumed to make way (R520); one that waits is at its yield point. -/
def makeWayRequest (s : State) : State :=
  match (lcStuck s).findSome? fun w =>
      if askMore s w then leastBy (fun (p : Nat × Job) => (2 ^ 64 - p.2.order) * 128 + p.2.q) (mayAsk s w) else none with
  | none => s
  | some (tag, j) =>
    let s1 := setJob s tag { j with asked := true, noSlot := false }
    if j.phase == .waiting then makeWay s1 tag else s1
/-- A request to make way (R520). -/
def execMakeWayRequest (s : State) : Out := .next (makeWayRequest s)

/-- DSP resumes the oldest parked job that can have a sequencer (R100): the image is reloaded, its slot freed, and what was
returned claimed again with wait; an uncorrectable word in the image ends the job (R101). -/
def jobResume (ue : Bool) (s : State) : State :=
  if !inP0 s then s
  else match leastBy (fun p => p.2.order) (resumable s) with
    | none => s
    | some (tag, j) =>
      if ue then ueJob s tag
      else match freeSeq s true j.dom with
        | none => s
        | some q =>
          let s1 := setJob s tag { j with q := q, phase := .resuming, slot := none, order := s.exec.nextOrder, steps := 0
                                          ovc := j.ovc || overcast s }
          let s2 : State := { s1 with exec := { s1.exec with
            seqs := tins s1.exec.seqs q tag
            slots := match j.slot with | some k => tdel s1.exec.slots k | none => s1.exec.slots
            nextOrder := s1.exec.nextOrder + 1 } }
          if j.reclaim = [] then resumed s2 tag
          else { s2 with exec := { s2.exec with held := s2.exec.held ++ [⟨tag, 0, j.be, true⟩] } }
/-- A parked job resumes (R100). -/
def execJobResume (ue : Bool) (s : State) : Out := .next (jobResume ue s)

end Sys2Proof.Machine
end

