-- ==== Sys2Proof/Machine/Token.lean ====
section
/-!
DEFINITION. Token and ownership instructions of Spenex (R122 to R126).
-/

namespace Sys2Proof.Machine

open Sys2Proof

/-- The job holds a grant that it claimed itself (R57). -/
def holdsClaimed (s : State) (tag : Nat) : Bool := s.exec.grants.any fun p => p.2.tag == tag && !p.2.handed

/-- CLAIM (R56, R57, R124): granted whole; else held where it may wait, else CF is set. A token the phase writes that is
already valid is a violation. -/
def claimBody (f : Spx) (s : State) (tag : Nat) (j : Job) : State :=
  let pl := planOf s j.plan
  let phase := fnN f % 64
  let ents := (phaseEntries pl phase).map fun e => maskEnt (pl.masks.getD e 0)
  match ents.find? fun m => tokValid (tokOf j m.tok) with
  | some m => violation s tag m.cls 0
  | none => match claimPhase s tag j phase with
    | some s1 => modJob s1 tag fun j => { j with ctx := stepPc { j.ctx with flags := setCF j.ctx.flags false } 8 }
    | none =>
      if fnN f ≥ 64 && !holdsClaimed s tag then
        waitJob { s with exec := { s.exec with held := s.exec.held ++ [⟨tag, phase, j.be, false⟩] } } tag (.claim phase) none 8
      else modJob s tag fun j => { j with ctx := stepPc { j.ctx with flags := setCF j.ctx.flags true } 8 }
/-- CLAIM (R124). -/
def execClaim (q : BitVec 7) (f : Spx) (s : State) : Out := .next (spx q f 0x60 320 (claimBody f) s)

/-- HAND of a kind (R125): noted for the next yield point, where the token is fit for it; else a violation. -/
def handBody (f : Spx) (kind : Nat) (s : State) (tag : Nat) (j : Job) : State :=
  let t := f.a.toNat
  match tokGrantOf s j t with
  | none => violation s tag 0 0
  | some g =>
    let hold := tokHold (tokOf j t)
    let inst := g.insts.headD 0
    if (kind = 3 && hold != 2) || (kind != 3 && hold != 0) || (kind = 2 && g.cls != 0) then violation s tag g.cls inst
    else
      let h : Hand := { kind := kind, tag := if kind = 1 then (gReg j.ctx f.b).toNat % 2 ^ 32 else 0
                        tok := if kind = 1 then f.c.toNat else 0 }
      retire f s tag { setTok j t (tokSetHold (tokOf j t) 1) with hands := tins j.hands t h } id

/-- A HAND row acts on its own kind only. -/
def hand (q : BitVec 7) (f : Spx) (kind : Nat) (s : State) : State :=
  if fnN f % 4 = kind then spx q f 0x61 2 (handBody f kind) s else s

/-- HAND to free (R125). -/
def execHandFree (q : BitVec 7) (f : Spx) (s : State) : Out := .next (hand q f 0 s)
/-- HAND to a token of another job (R125). -/
def execHandToJob (q : BitVec 7) (f : Spx) (s : State) : Out := .next (hand q f 1 s)
/-- HAND to the NBUs of the banks (R125). -/
def execHandToEngine (q : BitVec 7) (f : Spx) (s : State) : Out := .next (hand q f 2 s)
/-- HAND that recalls engine-held banks (R125). -/
def execHandRecall (q : BitVec 7) (f : Spx) (s : State) : Out := .next (hand q f 3 s)

/-- YIELD (R63, R123). -/
def execYieldPoint (q : BitVec 7) (f : Spx) (s : State) : Out :=
  .next (spx q f 0x62 1 (fun s tag j => seqYield (retire f s tag j id) tag) s)

/-- What TINST reads (R126). -/
def tinstValue (s : State) (j : Job) (f : Spx) : W64 :=
  let w := tokOf j f.b.toNat
  match fnN f, tokGrantOf s j f.b.toNat with
  | 2, none => 0
  | _, none => BitVec.allOnes 64
  | 0, some g =>
    match g.insts[immN f]?, sliceOf s (planOf s j.plan).slice with
    | some i, some l => BitVec.ofNat 64 (relInst l g.cls i)
    | _, _ => BitVec.allOnes 64
  | 1, some g => BitVec.ofNat 64 (if isPool g.cls then g.credits else g.insts.length)
  | _, some _ => w
/-- TINST (R126). -/
def execTinst (q : BitVec 7) (f : Spx) (s : State) : Out :=
  .next (spx q f 0x63 2 (fun s tag j => retire f s tag j fun c => setG c f.a (tinstValue s j f)) s)

end Sys2Proof.Machine
end

