-- ==== Sys2Proof/Machine/Issue.lean ====
section
/-!
DEFINITION. Engine-issue instructions of Spenex (R85, R86, R127 to R130): the checks of an issue, its command tokens and its
stall.
-/

namespace Sys2Proof.Machine

open Sys2Proof

/-- Class of the instances an engine-issue instruction targets (R130). -/
def kindClass : EngKind → Nat
  | .scan => 3
  | .rank => 0
  | .lrank => 6
  | .sel | .merge | .uniq => 4
  | .gath | .scat => 7
  | .move => 8
  | .enc | .maxsim => 5

/-- Opcode of an engine-issue instruction (R130). -/
def kindOpc : EngKind → Nat
  | .scan => 0x80
  | .rank => 0x81
  | .lrank => 0x82
  | .sel => 0x83
  | .merge => 0x84
  | .uniq => 0x85
  | .gath => 0x86
  | .scat => 0x87
  | .move => 0x88
  | .enc => 0x89
  | .maxsim => 0x8A

/-- Instances the instruction names: one by its ordinal, or every one. -/
def issueInsts (g : Grant) (f : Spx) : List Nat :=
  let o := immN f / 65536 % 256
  if o = 255 then g.insts else (g.insts[o]?).toList

/-- The command token of an issue (R85). -/
def mkToken (k : EngKind) (f : Spx) (tag : Nat) (j : Job) : Token :=
  let v := aReg j.ctx f.c.toNat
  let inc := immN f % 65536
  { kind := k, op := f.fn, tok := f.b.toNat, counter := BitVec.ofNat 12 (if inc = 0 then 0 else viewIdx v)
    gen := if inc = 0 then 0 else viewGen v, inc := BitVec.ofNat 16 inc, q := j.q, job := tag, dom := j.dom
    desc := dReg j.ctx f.a.toNat }

/-- Queue a command token at an engine instance. -/
def pushCmd (s : State) (cls inst : Nat) (t : Token) : State :=
  { setCmds s cls inst (cmdsOf s cls inst ++ [{ id := s.nextCmd, tok := t }]) with nextCmd := s.nextCmd + 1 }

/-- Tokens of the job at an engine instance. -/
def held (s : State) (cls inst tag : Nat) : Nat := ((cmdsOf s cls inst).filter fun c => c.tok.job == tag).length

/-- Commands at a bank's NBU, the running one included. -/
def nbuHeld (s : State) (bank : Nat) : Nat := (nbuOf s bank).queue.length + (if nbuRunning (nbuOf s bank) then 1 else 0)

/-- Send a RANK token to one stack for some of its banks (R128, R258): `word` is its place among the result words. -/
def pushRank (t : Token) (s : State) (stack word : Nat) (banks : List Nat) : State :=
  let id := s.nextCmd
  let s1 : State := { s with nextCmd := id + 1, stk := { s.stk with
    ranks := tins s.stk.ranks id { tok := t, stack := stack, word := word, banks := banks } } }
  banks.foldl (fun s b => setNbu s b { nbuOf s b with queue := (nbuOf s b).queue ++ [id] }) s1

/-- The stacks of a list of banks, ascending (R128, R258). -/
def stacksOf (banks : List Nat) : List Nat := (List.range 20).filter fun k => banks.any fun b => b / 1024 == k

/-- Number of command tokens an issue sends. -/
def tokenCount (k : EngKind) (insts : List Nat) : Nat := if k = .rank then (stacksOf insts).length else insts.length

/-- Send the tokens of an issue (R128): for banks one to each stack, for TIR operations of MOVE to TIR, else one to each
instance. -/
def sendTokens (k : EngKind) (t : Token) (tag : Nat) (insts : List Nat) (s : State) : State :=
  if k = .rank then
    (stacksOf insts).zipIdx.foldl (fun s p => pushRank t s p.1 p.2 (insts.filter fun b => b / 1024 == p.1)) s
  else if k = .move && t.op.toNat ≥ 0x10 then insts.foldl (fun s _ => pushCmd s 14 tag t) s
  else insts.foldl (fun s i => pushCmd s (kindClass k) i t) s

/-- An engine instance named holds 16 tokens from the job (R86). -/
def issueFull (s : State) (k : EngKind) (op tag : Nat) (insts : List Nat) : Bool :=
  if k = .rank then insts.any fun b => nbuHeld s b ≥ 16
  else if k = .move && op ≥ 0x10 then decide (held s 14 tag tag + insts.length > 16)
  else insts.any fun i => held s (kindClass k) i tag ≥ 16

/-- What an attempt at an issue comes to (R128): the violation of a check, a stall, or the state with the tokens sent. -/
inductive Issued
  | violates (cls inst : Nat)
  | stalls
  | sent (n : Nat) (s : State)
deriving DecidableEq, Repr

/-- Attempt an engine issue (R128, R130). -/
def tryIssue (k : EngKind) (f : Spx) (s : State) (tag : Nat) (j : Job) : Issued :=
  match tokGrantOf s j f.b.toNat with
  | none => .violates (kindClass k) 0
  | some g =>
    let insts := issueInsts g f
    let engineHeld := tokHold (tokOf j f.b.toNat) == 2
    let first := g.insts.headD 0
    if g.cls != kindClass k || (engineHeld != (k == .rank)) || (immN f / 65536 % 256 != 255 && insts == []) then .violates g.cls first
    else if immN f % 65536 != 0 && !viewBound (aReg j.ctx f.c.toNat) then .violates 13 (viewIdx (aReg j.ctx f.c.toNat))
    else if issueFull s k f.fn.toNat tag insts then .stalls
    else .sent (tokenCount k insts) (sendTokens k { mkToken k f tag j with insts := insts } tag insts s)

/-- An engine-issue instruction: it retires when its last token has left, and waits at a yield point while it stalls. -/
def issueBody (k : EngKind) (f : Spx) (s : State) (tag : Nat) (j : Job) : State :=
  match tryIssue k f s tag j with
  | .violates c i => violation s tag c i
  | .stalls => waitJob s tag (.issue k f) none 8
  | .sent n s1 => retire f s1 tag { j with steps := j.steps + 4 * (n - 1) } id

/-- A stalled issue tries again (R22, R100). -/
def reissue (k : EngKind) (f : Spx) (s : State) (tag : Nat) (j : Job) : State :=
  match tryIssue k f s tag j with
  | .violates c i => violation s tag c i
  | .stalls => s
  | .sent _ s1 => modJob s1 tag fun j => { wakeJob j (flCF j.ctx.flags) with steps := 0 }

/-- An engine-issue row. -/
def issue (k : EngKind) (q : BitVec 7) (f : Spx) (s : State) : State := spx q f (kindOpc k) 8 (issueBody k f) s

/-- SCAN (R130). -/
def execScan (q : BitVec 7) (f : Spx) (s : State) : Out := .next (issue .scan q f s)
/-- RANK (R130). -/
def execRank (q : BitVec 7) (f : Spx) (s : State) : Out := .next (issue .rank q f s)
/-- LRANK (R130). -/
def execLrank (q : BitVec 7) (f : Spx) (s : State) : Out := .next (issue .lrank q f s)
/-- SEL (R130). -/
def execSel (q : BitVec 7) (f : Spx) (s : State) : Out := .next (issue .sel q f s)
/-- MERGE (R130). -/
def execMerge (q : BitVec 7) (f : Spx) (s : State) : Out := .next (issue .merge q f s)
/-- UNIQ (R130). -/
def execUniq (q : BitVec 7) (f : Spx) (s : State) : Out := .next (issue .uniq q f s)
/-- GATH (R130). -/
def execGath (q : BitVec 7) (f : Spx) (s : State) : Out := .next (issue .gath q f s)
/-- SCAT (R130). -/
def execScat (q : BitVec 7) (f : Spx) (s : State) : Out := .next (issue .scat q f s)
/-- MOVE (R130): copies to the DMA channels, the other operations to TIR. -/
def execMove (q : BitVec 7) (f : Spx) (s : State) : Out := .next (issue .move q f s)
/-- ENC (R130). -/
def execEnc (q : BitVec 7) (f : Spx) (s : State) : Out := .next (issue .enc q f s)
/-- MAXSIM (R130). -/
def execMaxsim (q : BitVec 7) (f : Spx) (s : State) : Out := .next (issue .maxsim q f s)

end Sys2Proof.Machine
end

