-- ==== Sys2Proof/Machine/FabIssue.lean ====
section
/-!
DEFINITION. Fabric instructions of Spenex (R131 to R136): the checks of an issue, its packets, and its stall.
-/

namespace Sys2Proof.Machine

open Sys2Proof

/-- The current map of a composition. -/
def mapOf (s : State) (comp : Nat) : Option RMap := (tget {} s.fab.comps comp).current
/-- The composition of a slice, if it has one. -/
def sliceComp (s : State) (slice : Nat) : Option Nat :=
  match tfind s.fab.slices slice with
  | some l => if l.comp = 255 then none else some l.comp
  | none => none
/-- MEPOCH of a job's requests (R470): the current epoch of its slice's composition, or 0. -/
def mepochOf (s : State) (j : Job) : Nat :=
  match sliceComp s (planOf s j.plan).slice with
  | some c => match mapOf s c with
    | some m => m.epoch
    | none => 0
  | none => 0

/-- A tag that no operation in flight holds (R435). -/
def newFabTag (s : State) : Nat :=
  let used := s.fab.ops.map (·.1) ++ s.tbe.copies.map (·.1)
  (firstFrom (fun i => !used.contains ((s.fab.nextTag + i) % 2 ^ 32)) (used.length + 1) 0).elim s.fab.nextTag
    fun i => (s.fab.nextTag + i) % 2 ^ 32

/-- An operation leaves the tables of the node. -/
def dropOp (s : State) (tag : Nat) : State := { s with fab := { s.fab with ops := tdel s.fab.ops tag } }

/-- Write a register of the job that an operation's reply names. -/
def replyRegs (c : Ctx) (o : FabOp) (p : Pkt) : Ctx :=
  let g := BitVec.ofNat 5 o.destReg
  match o.pkt.ty.toNat with
  | 1 => match o.width with
    | 0 => setG c g (BitVec.ofNat 64 (fieldOf p.payload 0 8))
    | 1 => setD c o.destReg (BitVec.ofNat 256 (fieldOf p.payload 0 32))
    | _ => setD (setD c o.destReg (BitVec.ofNat 256 (fieldOf p.payload 0 32))) (o.destReg + 1) (BitVec.ofNat 256 (fieldOf p.payload 32 32))
  | 3 => setG c g p.operand
  | _ => c

/-- Statuses a status register receives (R133). -/
def fabStatus (st : Nat) : Bool := [stOK, stNOT_OWNER, stMOVED, stFENCED, stUNCORRECTABLE, stPOLICED].contains st

/-- The end of a job's operation (R133): destination on `OK`, then the status register, then the completion pulse; its credit returns. -/
def jobReply (s : State) (tag : Nat) (o : FabOp) (p : Pkt) : State :=
  let st := p.status.toNat
  let word := BitVec.ofNat 64 (st + if st = stMOVED then p.newNode.toNat * 256 else 0)
  let s1 := modJob (giveShare (dropOp s tag) o.share) o.job fun j =>
    let c := if st = 0 then replyRegs j.ctx o p else j.ctx
    { j with ctx := setG c (BitVec.ofNat 5 o.statusReg) word }
  if o.inc = 0 then s1 else pulseCtr s1 o.counter.toNat o.gen o.inc

/-- A push whose source meets an uncorrectable word (R446): no further segment leaves, COPY_CANCEL goes to the target, and the
status is `UNCORRECTABLE`. -/
def pushFails (s : State) (tag : Nat) (o : FabOp) : State :=
  jobReply (sendSys (dropEgress s 4 o.pkt.tag) { o.pkt with ty := 8, payload := [], len := 0 }) tag o { noPkt with ty := 4, status := 8 }

/-- Put an operation in flight under a new tag and send its packets (R435, R436, R463): a push sends its segments, which
read their source as they leave. -/
def launch (s : State) (queue : Nat) (op : FabOp) : State :=
  let tag := newFabTag s
  let p := { op.pkt with tag := BitVec.ofNat 32 tag }
  let put := fun (s : State) (o : FabOp) => { s with fab := { s.fab with ops := tins s.fab.ops tag o, nextTag := (tag + 1) % 2 ^ 32 } }
  if p.ty = 4 then
    let n := segCount p.total.toNat
    let seg := fun i => { p with seg := BitVec.ofNat 16 i, off := p.off + BitVec.ofNat 48 (1024 * i)
                                 len := BitVec.ofNat 16 (min 1024 (p.total.toNat - 1024 * i)) }
    let s1 := put s { op with pkt := p, segs := List.range n, issued := s.now, sent := s.now
                              port := (routePort s p.dst.toNat tag).getD 14 }
    if myNode s = some p.dst.toNat then
      let o1 : FabOp := { op with pkt := p, segs := [], issued := s.now, sent := s.now, port := 15 }
      let good := (List.range n).takeWhile fun i => (uBytes s op.dom (op.src + 1024 * i) (min 1024 (p.total.toNat - 1024 * i))).isSome
      let s2 := put (good.foldl (fun s i => (sendPkt s queue (seg i) (some (op.dom, op.src + 1024 * i))).2) s1) o1
      if good.length = n then s2 else pushFails s2 tag o1
    else (List.range n).foldl (fun s i => (sendPkt s queue (seg i) (some (op.dom, op.src + 1024 * i))).2) s1
  else
    let segs := if p.ty = 5 then List.range (segCount p.total.toNat) else []
    let (port, s1) := sendPkt s queue p
    put s1 { op with pkt := p, segs := segs, issued := s.now, sent := s.now, port := port }

/-- Opcode of a fabric instruction. -/
def fabOpc : FabKind → Nat
  | .fld => 0xA0
  | .fst => 0xA1
  | .fatom => 0xA2
  | .push | .pull => 0xA3

/-- Whether the instruction writes at its target. -/
def fabWrites : FabKind → Bool
  | .fld | .pull => false
  | _ => true

/-- Bytes an access of a width moves. -/
def widthBytes (w : Nat) : Nat := sizeBytes w

/-- The request packet of a fabric instruction (R131, R134 to R136, R435). -/
def fabPkt (s : State) (k : FabKind) (f : Spx) (j : Job) : Pkt :=
  let c := j.ctx
  let addr := (gReg c f.b).toNat
  let w := fabWidth f
  let al := match k with
    | .fld | .fst => widthBytes w
    | .fatom => 8
    | _ => 1
  let e := f.ext.toNat
  let pulse := f.fn.getLsbD 5
  let rc := (gReg c (BitVec.ofNat 5 (bitsOf e 26 5))).toNat
  let base : Pkt := { noPkt with
    flags := if fabWrites k && fenced s then 8 else 0
    dst := BitVec.ofNat 12 (bitsOf addr 48 12), src := BitVec.ofNat 12 ((myNode s).getD 0), sdom := BitVec.ofNat 12 j.dom
    fepoch := BitVec.ofNat 16 j.fence, mepoch := BitVec.ofNat 16 (mepochOf s j)
    off := BitVec.ofNat 48 (bitsOf addr 0 48 / al * al) }
  match k with
  | .fld => { base with ty := 1, size := BitVec.ofNat 8 w }
  | .fst =>
    let bs := match w with
      | 0 => bytesOf 8 (gReg c f.a).toNat
      | 1 => bytesOf 32 (dReg c f.a.toNat).toNat
      | _ => bytesOf 32 (dReg c f.a.toNat).toNat ++ bytesOf 32 (dReg c (f.a.toNat + 1)).toNat
    { base with ty := 2, size := BitVec.ofNat 8 w, payload := bs, len := BitVec.ofNat 16 bs.length }
  | .fatom => { base with
      ty := 3, atop := BitVec.ofNat 8 (e % 16), operand := gReg c (BitVec.ofNat 5 (bitsOf e 4 5))
      compare := if e % 16 = 2 then gReg c (BitVec.ofNat 5 (bitsOf e 9 5)) else 0 }
  | _ =>
    let total := e % 2 ^ 26
    { base with
      ty := if k = .push then 4 else 5, flags := base.flags ||| (if pulse then 2 else 0), size := 3
      total := BitVec.ofNat 26 total, lastSeg := BitVec.ofNat 16 (segCount total - 1)
      rctr := if pulse then BitVec.ofNat 12 (bitsOf rc 0 12) else 0, rgen := if pulse then BitVec.ofNat 16 (bitsOf rc 12 16) else 0
      rinc := if pulse then BitVec.ofNat 16 (bitsOf e 32 16) else 0 }

/-- What an attempt at a fabric instruction comes to. -/
inductive FabTry
  | violates (cls inst : Nat)
  | outside (addr : Nat)
  | stalls
  | sent (s : State)
deriving DecidableEq, Repr

/-- Attempt a fabric instruction (R132, R133, R136, R430): its credit is drawn from the share in the named token, gC reads
0xFF until the reply. -/
def tryFabric (k : FabKind) (f : Spx) (s : State) (tag : Nat) (j : Job) : FabTry :=
  let v := aReg j.ctx (fnN f % 16)
  let inc := immN f % 65536
  match tokGrantOf s j (immN f / 65536 % 8) with
  | none => .violates 12 0
  | some g =>
    let copy := k = .push || k = .pull
    let la := bitsOf (gReg j.ctx f.a).toNat 0 56
    if g.cls != 12 then .violates g.cls (g.insts.headD 0)
    else if inc != 0 && !viewBound v then .violates 13 (viewIdx v)
    else if copy && !inRange s j.dom la (f.ext.toNat % 2 ^ 26) then .outside la
    else if (myNode s).isNone || g.used ≥ g.credits || s.fab.ops.length ≥ 16384 then .stalls
    else
      let h := tokGrant (tokOf j (immN f / 65536 % 8))
      let s1 := drawShare s h
      .sent (launch (modJob s1 tag fun j => { j with ctx := setG j.ctx f.c 0xFF })
        (domQueue s j.dom j.be)
        { kind := 0, job := tag, pkt := fabPkt s k f j, statusReg := f.c.toNat, destReg := f.a.toNat, width := fabWidth f
          inc := inc, counter := BitVec.ofNat 12 (viewIdx v), gen := viewGen v, share := h, fence := j.fence, src := la, dom := j.dom })

/-- A fabric instruction: it retires when its request has left. -/
def fabricBody (k : FabKind) (f : Spx) (s : State) (tag : Nat) (j : Job) : State :=
  match tryFabric k f s tag j with
  | .violates c i => violation s tag c i
  | .outside a => badAddress s tag a
  | .stalls => waitJob s tag (.fabric k f) none (ilen f)
  | .sent s1 => modJob s1 tag fun j => { j with ctx := stepPc j.ctx (ilen f) }

/-- A stalled fabric instruction tries again. -/
def refabric (k : FabKind) (f : Spx) (s : State) (tag : Nat) (j : Job) : State :=
  match tryFabric k f s tag j with
  | .violates c i => violation s tag c i
  | .outside a => badAddress s tag a
  | .stalls => s
  | .sent s1 => modJob s1 tag fun j => wakeJob j (flCF j.ctx.flags)

/-- A fabric row. -/
def fabric (k : FabKind) (q : BitVec 7) (f : Spx) (s : State) : State := spx q f (fabOpc k) 8 (fabricBody k f) s

/-- FLD (R134). -/
def execFld (q : BitVec 7) (f : Spx) (s : State) : Out := .next (fabric .fld q f s)
/-- FST (R134). -/
def execFst (q : BitVec 7) (f : Spx) (s : State) : Out := .next (fabric .fst q f s)
/-- FATOM (R134, R135). -/
def execFatom (q : BitVec 7) (f : Spx) (s : State) : Out := .next (fabric .fatom q f s)
/-- ACOPY that pushes (R134, R136): the row of FN[4] = 0. -/
def execAcopyPush (q : BitVec 7) (f : Spx) (s : State) : Out := .next (if f.fn.getLsbD 4 then s else fabric .push q f s)
/-- ACOPY that pulls (R134, R136): the row of FN[4] = 1. -/
def execAcopyPull (q : BitVec 7) (f : Spx) (s : State) : Out := .next (if f.fn.getLsbD 4 then fabric .pull q f s else s)

end Sys2Proof.Machine
end

