-- ==== Sys2Proof/Machine/Store.lean ====
section
/-!
DEFINITION. What TIR keeps of an index below its commands (R149 to R153, R167, R185 to R193, R372): space in the index area,
the item directory, haze segments, batches; and how a command of a job's TIR queue runs (R130).
-/

namespace Sys2Proof.Machine

open Sys2Proof

/-! ### Commands of TIR -/

/-- The next command of a job's TIR queue: they start in issue order (R130). -/
def tirHead (s : State) (tag : Nat) : Option Cmd := (cmdsOf s 14 tag).find? fun c => c.phase == .queued

/-- The checks before any effect: the job owns the DMA channels it issued on (R85), the result area lies in the range (R129). -/
def tirChecks (s : State) (c : Cmd) : Work Unit :=
  match c.tok.insts.find? fun i => ownerOf s 8 i != .job c.tok.job with
  | some i => .error (.violates 8 i)
  | none => if hasResult c.tok.desc then writable s c.tok.dom (resAddr c.tok.desc) 8 8 (c.tok.insts.headD 0) else .ok ()

/-- Run the next TIR command of a job when it is of the operation, and of the form, that the row names. -/
def tirCmd (tag op : Nat) (form : Cmd → Bool) (body : State → Cmd → Work State) (s : State) : State :=
  match tirHead s tag with
  | none => s
  | some c =>
    if c.tok.op.toNat != op || !form c then s
    else match (tirChecks s c).bind fun _ => body s c with
      | .ok s1 => s1
      | .error e => stopCmd s 14 tag c e

/-- A command of TIR ends: its result stands ready, or, when its job has ended, it leaves without one (R170). -/
def endTir (s : State) (tag : Nat) (c : Cmd) (status reason count spec : Nat) : State :=
  match jobOf s tag with
  | some _ => endCmd s 14 tag c status reason count spec
  | none => setCmds s 14 tag ((cmdsOf s 14 tag).filter fun x => x.id != c.id)

/-- A TIR command by its serial number, with its job's tag. -/
def findTir (s : State) (id : Nat) : Option (Nat × Cmd) :=
  s.cmds.findSome? fun p => if p.1 / 2 ^ 32 = 14 then (p.2.find? fun c => c.id == id).map fun c => (p.1 % 2 ^ 32, c) else none

/-- End the command of a serial number, if it is still there. -/
def endTirId (s : State) (id status reason count spec : Nat) : State :=
  match findTir s id with
  | some (tag, c) => endTir s tag c status reason count spec
  | none => s

/-! ### The index area (R372) -/

/-- The state with an index stored. -/
def setIndex (s : State) (i : Nat) (x : Index) : State := { s with tir := { s.tir with indexes := tins s.tir.indexes i x } }
/-- Index `i`, installed or not. -/
def idx (s : State) (i : Nat) : Index := tget {} s.tir.indexes i

/-- Two ranges meet. -/
def meets (l : List (Nat × Nat)) (a n : Nat) : Bool := l.any fun p => a < p.1 + p.2 && p.1 < a + n

/-- A free place for `n` bytes in an index area: the one `choice` names when it is free, else the lowest after an extent. -/
def findSpace (x : Index) (flash : Bool) (n al choice : Nat) : Option Nat :=
  let lo := if flash then areaFlash else 0
  let hi := if flash then 2 ^ 47 else areaFlash
  let ok := fun a => lo ≤ a && a + n ≤ hi && a % al == 0 && !meets x.used a n
  if ok (choice % 2 ^ 47) then some (choice % 2 ^ 47)
  else leastBy id (((lo :: x.used.map fun p => p.1 + p.2).map fun a => cdiv a al * al).filter ok)

/-- Frames for the pages of a range that have none (R372): none where the stacks have no room. -/
def backPages (s : State) (dom a : Nat) (okBank : Nat → Bool) : Nat → Option State
  | 0 => some s
  | n + 1 => match backPages s dom a okBank n with
    | none => none
    | some s1 =>
      let k := pageKey dom (a + n * 65536)
      if (pageOf s1 k).frame.isSome then some s1
      else (allocFrame s1 dom okBank).map fun (f, s2) => setPage s2 k { pageOf s2 k with frame := some f }

/-- Allocate `n` bytes of an index area: its address, and the state with the extent noted and its stack pages backed. -/
def areaAlloc (s : State) (i : Nat) (flash : Bool) (n al : Nat) (okBank : Nat → Bool := fun _ => true) : Option (Nat × State) :=
  let x := idx s i
  match findSpace x flash n al (freeWord s 0).toNat with
  | none => none
  | some o =>
    let a := areaBase i + o
    let s1 := setIndex (freeNext s) i { x with used := x.used ++ [(o, n)] }
    if flash then some (a, s1)
    else (backPages s1 x.dom (a / 65536 * 65536) okBank ((a + n - 1) / 65536 - a / 65536 + 1)).map fun s2 => (a, s2)

/-- Free the extent at an address: pages without any other extent lose their frames, zeroed (R551), flash pages their
contents. -/
def areaFree (s : State) (i a : Nat) : State :=
  let x := idx s i
  let o := a - areaBase i
  match x.used.find? fun p => p.1 == o with
  | none => s
  | some (_, n) =>
    let x1 := { x with used := x.used.filter fun p => p.1 != o }
    let s1 := setIndex s i x1
    if o ≥ areaFlash then flashDrop s1 x.dom a n
    else (List.range ((o + n - 1) / 65536 - o / 65536 + 1)).foldl (fun s k =>
      let p := o / 65536 + k
      if meets x1.used (p * 65536) 65536 then s else dropCopy s (pageKey x.dom (areaBase i + p * 65536))) s1

/-- Write flash pages of an index area, zero-padded to whole pages. -/
def flashPages (s : State) (dom a : Nat) (bs : List Byte) : Option State :=
  (List.range (cdiv bs.length 16384)).foldl (fun (o : Option State) k => o.bind fun s =>
    flashWrite s dom (a / 16384 + k) (((bs.drop (16384 * k)).take 16384 ++ List.replicate 16384 (0 : Byte)).take 16384)) (some s)

/-! ### The item directory (R167, R189) -/

/-- Slots of the directory. -/
def dirSlots (x : Index) : Nat := (x.dirEnd - x.dir) / 32
/-- Bytes of a directory slot. -/
def dirSlot (s : State) (x : Index) (k : Nat) : List Byte := (uBytes s x.dom (x.dir + 32 * k) 32).getD (List.replicate 32 0)
/-- The valid lists of a LISTS field. -/
def listSlots (b : List Byte) : List Nat :=
  ((List.range 4).filter fun k => bitAt (fieldOf b (4 * k) 4) 31).map fun k => bitsOf (fieldOf b (4 * k) 4) 0 24
/-- Lists of a directory entry. -/
def dirLists (b : List Byte) : List Nat := listSlots (b.drop 8)
/-- Epoch and tombstone flag of a directory entry. -/
def dirEpoch (b : List Byte) : Nat := fieldOf b 0x18 6
def dirTomb (b : List Byte) : Bool := bitAt (fieldOf b 0x1E 2) 0
/-- A slot without a valid list is empty. -/
def dirEmpty (b : List Byte) : Bool := dirLists b == []
/-- The slot of an item. -/
def dirFind (s : State) (x : Index) (item : Nat) : Option Nat :=
  firstFrom (fun k => let b := dirSlot s x k; !dirEmpty b && fieldOf b 0 8 == item) (dirSlots x) 0
/-- An empty slot: the one TIR's table names, which the manual does not give, when it is empty, else the lowest. -/
def dirRoom (s : State) (x : Index) : Option Nat :=
  let c := (freeWord s 0).toNat % max 1 (dirSlots x)
  if c < dirSlots x && dirEmpty (dirSlot s x c) then some c else firstFrom (fun k => dirEmpty (dirSlot s x k)) (dirSlots x) 0
/-- The bytes of a directory entry. -/
def dirBytes (item : Nat) (lists : List Nat) (epoch : Nat) (tomb : Bool) : List Byte :=
  bytesOf 8 item ++ (List.range 4).flatMap (fun k => bytesOf 4 (match lists[k]? with | some l => l + 2 ^ 31 | none => 0))
    ++ bytesOf 6 epoch ++ bytesOf 2 (if tomb then 1 else 0)
/-- Write a directory slot. -/
def dirPut (s : State) (x : Index) (k : Nat) (b : List Byte) : State := uPoke s x.dom (x.dir + 32 * k) b

/-! ### Haze segments (R185 to R188) -/

/-- A new haze header for a list. -/
def newHaze (s : State) (i l : Nat) : Option (Nat × State) :=
  let x := idx s i
  (areaAlloc s i false 64 64).map fun (a, s1) =>
    (a, uPoke s1 x.dom a (bytesOf 4 1 ++ bytesOf 1 i ++ bytesOf 3 l ++ bytesOf 2 (hazeStride x) ++ bytesOf 2 (perBlock x) ++ List.replicate 52 (0 : Byte)))

/-- Append one entry to a chain of a haze segment: its address. Chain fields lie at `o` (first), `o + 8` (last) and the count
at `cnt`. -/
def hazePush (s : State) (i haze : Nat) (tomb : Bool) (bs : List Byte) : Option (Nat × State) :=
  let x := idx s i
  let dom := x.dom
  let o := haze + if tomb then 0x28 else 0x18
  let cnt := haze + if tomb then 0x10 else 0xC
  let stride := if tomb then 16 else hazeStride x
  let per := if tomb then 4092 else perBlock x
  let last := uNum s dom (o + 8) 8
  let put := fun (s : State) (b k : Nat) =>
    let s1 := uPoke s dom (b + 64 + stride * k) bs
    let s2 := uPoke s1 dom (b + 8) (bytesOf 4 (k + 1))
    (b + 64 + stride * k, uPoke s2 dom cnt (bytesOf 4 (uNum s2 dom cnt 4 + 1)))
  if last != 0 && uNum s dom (last + 8) 4 < per then some (put s last (uNum s dom (last + 8) 4))
  else (areaAlloc s i false 65536 65536).map fun (b, s1) =>
    let s2 := uPoke s1 dom b (bytesOf 8 0 ++ bytesOf 4 0 ++ bytesOf 1 (if tomb then 1 else 0) ++ List.replicate 51 (0 : Byte))
    let s3 := if last = 0 then uPoke s2 dom o (bytesOf 8 b) else uPoke s2 dom last (bytesOf 8 b)
    put (uPoke s3 dom (o + 8) (bytesOf 8 b)) b 0

/-- Append an entry to a list's haze, with its root entry changed in one piece (R153). -/
def listPush (s : State) (i l : Nat) (tomb : Bool) (bs : List Byte) : Option (Nat × State) :=
  let x := idx s i
  let r := rootAt s x.dom (rootAddr x l)
  let h := if r.haze = 0 then newHaze s i l else some (r.haze, s)
  match h with
  | none => none
  | some (haze, s1) => (hazePush s1 i haze tomb bs).map fun (a, s2) =>
    (a, uPoke s2 x.dom (rootAddr x l) (rootBytes { r with haze := haze, hazeN := r.hazeN + 1 }))

/-- The bytes of a haze insert entry, uncommitted (R187). -/
def insertBytes (x : Index) (item attr : Nat) (body : List Byte) : List Byte :=
  ((bytesOf 8 item ++ bytesOf 6 noEpoch ++ bytesOf 1 (if x.ext then 1 else 0) ++ bytesOf 1 0 ++ bytesOf 8 attr ++ bytesOf 8 0 ++ body)
    ++ List.replicate (hazeStride x) (0 : Byte)).take (hazeStride x)
/-- The bytes of a tombstone, uncommitted (R188). -/
def tombEntry (item : Nat) : List Byte := bytesOf 8 item ++ bytesOf 6 noEpoch ++ bytesOf 2 0
/-- Bytes that follow the attribute word's part of a source block: sketch, extended block and record. -/
def bodyBytes (x : Index) : Nat := skBits x.width / 8 + (if x.ext then 16 else 0) + 2 * x.dim

/-! ### Batches (R189 to R193) -/

/-- The state with a batch stored. -/
def setBatch (s : State) (b : Nat) (v : Batch) : State := { s with tir := { s.tir with batches := tins s.tir.batches b v } }
/-- The batch that a job collects for an index. -/
def collecting (s : State) (tag i : Nat) : Option (Nat × Batch) :=
  s.tir.batches.find? fun p => p.2.tag == tag && p.2.index == i && p.2.phase == .collecting && !p.2.replica
/-- The batch that reserves an item of an index. -/
def reserver (s : State) (i item : Nat) : Option (Nat × Batch) :=
  s.tir.batches.find? fun p => p.2.index == i && p.2.ops.any fun o => o.item == item

/-- Append to every list of an item: the entries written, or none where space is missing. -/
def pushAll (s : State) (i item : Nat) (tomb : Bool) (bs : List Byte) : List Nat → Option (List BatchEnt × State)
  | [] => some ([], s)
  | l :: ls => match listPush s i l tomb bs with
    | none => none
    | some (a, s1) => match pushAll s1 i item tomb bs ls with
      | none => none
      | some (es, s2) => some ({ list := l, addr := a, tomb := tomb, item := item, jnl := s.tir.jseq + 1 } :: es, s2)

/-- Append one operation to a batch (R189, R190, R193): haze entries, the directory entry that reserves the item, and the
record in the journal. `slot` is the item's directory slot. None where space is missing. -/
def appendOp (s : State) (b i : Nat) (v : Batch) (del : Bool) (item : Nat) (lists : List Nat) (bs : List Byte) (slot : Nat) (had : Bool) :
    Option State :=
  let x := idx s i
  if s.fls.map.length ≥ s.fls.capacity || bitAt (ovcCauses s) 0 then none
  else match pushAll s i item del bs lists with
    | none => none
    | some (es, s1) =>
      let old := dirSlot s x slot
      let s2 := dirPut s1 x slot (dirBytes item lists noEpoch false)
      let op : BatchOp := { del := del, item := item, lists := lists, old := if had && (!v.ops.any fun o => o.item == item) then some old else none }
      let s3 := setBatch s2 b { v with ents := v.ents ++ es, ops := v.ops ++ [op] }
      some { s3 with tir := { s3.tir with jseq := s3.tir.jseq + 1 } }

/-- A directory entry as an append meets it. -/
inductive DirState
  | absent
  | live (slot : Nat) (lists : List Nat)
  | tombed
  | reserved (slot : Nat) (mine : Bool) (b : Nat)
deriving DecidableEq, Repr

/-- What the directory holds of an item, seen by a batch (R167, R189). -/
def dirState (s : State) (i item tag : Nat) : DirState :=
  let x := idx s i
  match dirFind s x item with
  | none => .absent
  | some k =>
    let e := dirSlot s x k
    if dirEpoch e = noEpoch then
      match reserver s i item with
      | some (b, v) => .reserved k (v.tag == tag && !v.replica) b
      | none => .tombed
    else if dirTomb e then .tombed
    else .live k (dirLists e)

/-- The state with an empty batch of a job made, when it has none: the batch's number. -/
def openBatch (s : State) (tag i : Nat) : Nat × Batch × State :=
  match collecting s tag i with
  | some (b, v) => (b, v, s)
  | none =>
    let v : Batch := { tag := tag, index := i, primary := (myNode s).getD 0 }
    (s.tir.nextBatch, v, { s with tir := { s.tir with nextBatch := s.tir.nextBatch + 1 } })

/-- The node in slot `k` of an index's REPLICAS. -/
def replicaAt (x : Index) (k : Nat) : Option Nat := x.replicas[k]?
/-- This node is the primary of an index (R147, R430). -/
def isPrimary (s : State) (x : Index) : Bool := (myNode s).isSome && replicaAt x 0 == myNode s

/-- HAZE_APPEND (R190, R191). -/
def hazeAppend (tag : Nat) : State → State :=
  tirCmd tag 0x10 (fun _ => true) fun s c => do
    need (!overcast s) (.report stOVERCAST 0 0 0)
    let d := c.tok.desc
    let dom := c.tok.dom
    let src := laneBits d 0 0 56
    let i := laneBits d 0 56 8
    let item := lane64 d 1
    let del := laneBits d 2 0 1 == 1
    let h ← if del then .ok [] else operand s dom src 64
    need (laneBits d 2 1 63 == 0 && item / 2 ^ 48 != 0xFFFF && (del || (src % 64 == 0 && fieldOf h 0x18 40 == 0
      && (List.range 4).all fun k => bitsOf (fieldOf h (4 * k) 4) 24 7 == 0))) (.report stBAD_OPERATOR 0 0 0)
    match indexOf s dom i with
    | none => failWith stBAD_OPERATOR 0
    | some x => do
      need (isPrimary s x) (.report stBAD_OPERATOR 0 0 0)
      let body ← if del then .ok [] else operand s dom (src + 64) (bodyBytes x)
      let (b, v, s1) := openBatch s tag i
      let full := fun (l : Nat) => decide ((rootAt s dom (rootAddr x l)).hazeN ≥ 262144)
      let done := fun (o : Option State) n => match o with
        | some s2 => Except.ok (endTir s2 tag c stOK 0 n 0)
        | none => Except.error (.report stABORTED 0x29 0 0)
      if del then
        match dirState s i item tag with
        | .live k lists => do
          need (!lists.any full) (.report stBAD_OPERATOR 0x24 0 0)
          done (appendOp s1 b i v true item lists (tombEntry item) k true) lists.length
        | .reserved _ false _ => failWith stBAD_OPERATOR 0x26
        | _ => .ok (endTir s tag c stOK 0 0 0)
      else do
        let lists := listSlots h
        let inBatch := v.ops.any (fun o => o.item == item && o.del) && !v.ops.any fun o => o.item == item && !o.del
        let st := dirState s i item tag
        let okId := match st with
          | .absent => true
          | .reserved _ true rb => rb == b && inBatch
          | _ => false
        need okId (.report stBAD_OPERATOR 0x22 0 0)
        need (1 ≤ lists.length && lists.length ≤ x.spill && lists.all fun l => l < x.lists) (.report stBAD_OPERATOR 0x20 0 0)
        need (!lists.any full) (.report stBAD_OPERATOR 0x24 0 0)
        let bs := insertBytes x item (fieldOf h 0x10 8) body
        match st with
        | .reserved k _ _ => done (appendOp s1 b i v false item lists bs k true) lists.length
        | _ => match dirRoom s x with
          | none => failWith stBAD_OPERATOR 0x21
          | some k => done (appendOp (freeNext s1) b i v false item lists bs k false) lists.length

/-- HAZE_APPEND. -/
def execHazeAppend (tag : W32) (s : State) : Out := .next (hazeAppend tag.toNat s)

end Sys2Proof.Machine
end

