-- ==== Sys2Proof/Machine/Merge.lean ====
section
/-!
DEFINITION. Merges and hot-set updraft (R162 to R165, R204 to R210, R388 to R392): building segments, records and hot copies,
the four merge steps, the root swap and the reclaim of retired versions.
-/

namespace Sys2Proof.Machine

open Sys2Proof

/-! ### Conversions (R207, R391) -/

/-- Magnitude of a value. -/
def fvAbs : Fv → Fv
  | .fin _ m e => .fin false m e
  | .inf _ => .inf false
  | .nan => .nan
/-- The larger and the smaller of two values. -/
def fvMax (a b : Fv) : Fv := if fvLt a b then b else a
def fvMin (a b : Fv) : Fv := if fvLt b a then b else a
/-- Quotient of two finite values, kept exactly enough for one rounding. -/
def fvDiv (a b : Fv) : Fv :=
  match a, b with
  | .fin n1 m1 e1, .fin n2 m2 e2 =>
    if m2 = 0 then .nan else .fin (n1 != n2) (2 * (m1 * 2 ^ 64 / m2) + if m1 * 2 ^ 64 % m2 = 0 then 0 else 1) (e1 - e2 - 65)
  | _, _ => .nan
/-- An fp32 word rounded to the nearest integer, ties to even. -/
def rint32 (w : W32) : Int :=
  match fp32 w with
  | .fin neg m e => (if neg then -1 else 1) * ((if 0 ≤ e then m * 2 ^ e.toNat else rne m (-e).toNat : Nat) : Int)
  | _ => 0

/-- A scale word of a format: fp16 or e8m0. -/
def scaleVal (half : Bool) (w : Nat) : Fv := if half then decodeFp fmt16 w else e8m0 w
/-- Smallest positive and largest finite word of a scale format. -/
def scaleLow (half : Bool) : Nat := if half then 1 else 0
def scaleTop (half : Bool) : Nat := if half then 0x7BFF else 0xFE
/-- Bytes of a scale. -/
def scaleW (half : Bool) : Nat := if half then 2 else 1
/-- The smallest scale with scale x `k` not below `bound`; the largest finite scale where there is none. -/
def scaleFor (half : Bool) (k bound : Fv) : Nat :=
  (firstFrom (fun w => !fvLt (fvMul (scaleVal half w) k) bound) (scaleTop half + 1 - scaleLow half) (scaleLow half)).getD (scaleTop half)

/-- The code whose level is nearest to an element, the lower code on a tie (R207); an element without a finite value has a code
the manual does not state. -/
def codeFor (levels : List Fv) (s x : Fv) : Nat :=
  match x with
  | .fin _ _ _ =>
    let dist := fun c => fvAbs (fvSub (fvMul (levels.getD c .nan) s) x)
    (List.range levels.length).foldl (fun best c => if fvLt (dist c) (dist best) then c else best) 0
  | _ => (Config.fpFunction 15 0).toNat % 16

/-- A block of 32 elements as Q4P (R207): scale word and codes. -/
def toQ4p (half : Bool) (levels xs : List Fv) : Nat × List Nat :=
  let zero := xs.all fun v => match v with
    | .fin _ m _ => m == 0
    | _ => false
  let mx := xs.foldl (fun a v => fvMax a (fvAbs v)) (.fin false 0 0)
  let ml := levels.foldl (fun a v => fvMax a (fvAbs v)) (.fin false 0 0)
  let w := if xs.contains .nan then (Config.fpFunction 14 0).toNat % (scaleTop half + 1)
    else if zero then scaleLow half else scaleFor half ml mx
  (w, xs.map (codeFor levels (scaleVal half w)))

/-- A block of 32 elements as Q8Z (R391): scale word, zero point, codes. -/
def toQ8z (half : Bool) (xs : List Fv) : Nat × Nat × List Nat :=
  let zero : Fv := .fin false 0 0
  let lo := xs.foldl fvMin zero
  let hi := xs.foldl fvMax zero
  let span := fp32 (to32 (fvSub hi lo))
  let flat := match span with
    | .fin _ m _ => m == 0
    | _ => false
  let w := if flat then scaleLow half else scaleFor half (.fin false 255 0) span
  let sv := scaleVal half w
  let clamp := fun (z : Int) => (max 0 (min 255 z)).toNat
  let z := clamp (rint32 (to32 (fvDiv (fvNeg lo) sv)))
  (w, z, xs.map fun x => match x with
    | .fin _ _ _ => clamp (rint32 (to32 (fvDiv x sv)) + z)
    | _ => (Config.fpFunction 16 0).toNat % 256)

/-! ### Entries of a new segment -/

/-- An entry on its way into a segment. -/
structure MEnt where
  item : Nat
  attr : List Byte
  ext : List Byte
  sketch : List Byte
  recB : List Byte
  scale : List Byte
  hot : Bool
deriving DecidableEq, Repr

/-- Flash scales are fp16 (R147); hot-copy scales are fp16. -/
def recHalf (x : Index) : Bool := bitAt x.flags 4
def hotHalf (x : Index) : Bool := bitAt x.flags 3

/-- The levels of an index as values. -/
def levelsOf (x : Index) : List Fv := (List.range 16).map (levelOf x)

/-- The elements of a flash record, dequantised in fp32 (R391). -/
def recVals (x : Index) (recB scale : List Byte) : List Fv :=
  (List.range x.dim).map fun i =>
    if x.recFmt = 1 then bf16 (fieldOf recB (2 * i) 2)
    else
      let c := bitsOf (fieldOf recB (i / 2) 1) (4 * (i % 2)) 4
      let w := fieldOf scale (scaleW (recHalf x) * (i / 32)) (scaleW (recHalf x))
      fp32 (to32 (fvMul (levelOf x c) (scaleVal (recHalf x) w)))

/-- A BF16 record in the index's flash format with its scale set (R162, R207). -/
def toRecord (x : Index) (b : List Byte) : List Byte × List Byte :=
  if x.recFmt = 1 then (b, [])
  else
    let blocks := (List.range (x.dim / 32)).map fun k =>
      toQ4p (recHalf x) (levelsOf x) ((List.range 32).map fun i => bf16 (fieldOf b (2 * (32 * k + i)) 2))
    let codes := blocks.flatMap (·.2)
    ((List.range (x.dim / 2)).map fun j => BitVec.ofNat 8 (codes.getD (2 * j) 0 + 16 * codes.getD (2 * j + 1) 0),
      blocks.flatMap fun p => bytesOf (scaleW (recHalf x)) p.1)

/-- Bytes padded to whole columns. -/
def padColumn (b : List Byte) : List Byte := b ++ List.replicate ((32 - b.length % 32) % 32) (0 : Byte)

/-- The Q8Z extent of a record (R161, R391). -/
def hotExtent (x : Index) (m : MEnt) : List Byte :=
  let vs := recVals x m.recB m.scale
  let blocks := (List.range (x.dim / 32)).map fun k => toQ8z (hotHalf x) ((vs.drop (32 * k)).take 32)
  (blocks.flatMap fun p => p.2.2.map fun c => BitVec.ofNat 8 c) ++ padColumn (blocks.map fun p => BitVec.ofNat 8 p.2.1)
    ++ padColumn (blocks.flatMap fun p => bytesOf (scaleW (hotHalf x)) p.1)

/-- Ordinals that a segment's hot map lists (R164). -/
def hotOrds (s : State) (dom : Nat) (g : Seg) : List Nat :=
  if g.hotMap = 0 then [] else (List.range g.hotCount).map fun k => bitsOf (uNum s dom (g.hotMap + 8 * k) 8) 0 24

/-- Identifier of entry `n` of a segment. -/
def segItem (s : State) (x : Index) (g : Seg) (n : Nat) : Nat :=
  let ti := tileItems x.width x.ext
  uNum s x.dom (g.tileBase + 4096 * (n / ti) + idOff x.width x.ext + 8 * (n % ti)) 8

/-- Record and scale set of entry `n` of a segment. -/
def segRecord (s : State) (x : Index) (g : Seg) (n : Nat) : Option (List Byte × List Byte) :=
  let rp := recPerPage x
  match uBytes s x.dom (g.recBase + 16384 * (n / rp) + (n % rp) * recBytesOf x) (recBytesOf x) with
  | none => none
  | some b =>
    if x.recFmt = 1 then some (b, [])
    else
      let sp := scalePerPage x
      (uBytes s x.dom (g.scaleBase + 16384 * (n / sp) + (n % sp) * scaleBytesOf x) (scaleBytesOf x)).map fun c => (b, c)

/-- Entry `n` of a segment. -/
def segEnt (s : State) (x : Index) (g : Seg) (hot : List Nat) (n : Nat) : Option MEnt :=
  let ti := tileItems x.width x.ext
  let w := skBits x.width / 8
  match uBytes s x.dom (g.tileBase + 4096 * (n / ti)) 4096, segRecord s x g n with
  | some t, some (b, c) =>
    let k := n % ti
    some { item := fieldOf t (idOff x.width x.ext + 8 * k) 8, attr := (t.drop (attrOff x.width x.ext + 8 * k)).take 8
           ext := if x.ext then (t.drop (extOff x.width x.ext + 16 * k)).take 16 else [], sketch := (t.drop (64 + w * k)).take w
           recB := b, scale := c, hot := hot.contains n }
  | _, _ => none

/-- A haze insert as an entry of a segment (R207). -/
def hazeMEnt (s : State) (x : Index) (h : HEnt) : Option MEnt :=
  let w := skBits x.width / 8
  let e := if x.ext then 16 else 0
  (uBytes s x.dom h.addr (hazeStride x)).map fun b =>
    let (r, c) := toRecord x ((b.drop (0x20 + w + e)).take (2 * x.dim))
    { item := h.item, attr := (b.drop 0x10).take 8, ext := (b.drop (0x20 + w)).take e, sketch := (b.drop 0x20).take w
      recB := r, scale := c, hot := false }

/-! ### Building a segment (R154, R158, R159, R162 to R165) -/

/-- Pad a plane to a size. -/
def padTo (n : Nat) (b : List Byte) : List Byte := (b ++ List.replicate n (0 : Byte)).take n

/-- A tile (R158, R159). -/
def tileOf (x : Index) (i l seq t : Nat) (es : List MEnt) : List Byte :=
  let ti := tileItems x.width x.ext
  let hd := padTo 64 (bytesOf 2 1 ++ bytesOf 1 x.width ++ bytesOf 1 (if x.ext then 1 else 0) ++ bytesOf 2 es.length ++ bytesOf 2 0
    ++ bytesOf 3 l ++ bytesOf 1 i ++ bytesOf 4 seq ++ bytesOf 4 t ++ bytesOf 2 (attrOff x.width x.ext) ++ bytesOf 2 (idOff x.width x.ext)
    ++ bytesOf 2 (extOff x.width x.ext))
  padTo 4096 (hd ++ padTo (ti * (skBits x.width / 8)) (es.flatMap (·.sketch)) ++ padTo (8 * ti) (es.flatMap (·.attr))
    ++ padTo (8 * ti) (es.flatMap fun e => bytesOf 8 e.item) ++ if x.ext then padTo (16 * ti) (es.flatMap (·.ext)) else [])

/-- Whole flash pages of items of a fixed size, `per` to a page. -/
def packPages (per : Nat) (l : List (List Byte)) : List Byte :=
  (List.range (cdiv l.length (max 1 per))).flatMap fun k => padTo 16384 (((l.drop (per * k)).take per).flatMap id)

/-- Write items into fresh flash pages: their address, 0 where there is nothing to write. -/
def putPages (s : State) (i per : Nat) (l : List (List Byte)) : Option (Nat × State) :=
  let b := packPages per l
  if b = [] then some (0, s)
  else match areaAlloc s i true b.length 16384 with
    | none => none
    | some (a, s1) => (flashPages s1 (idx s i).dom a b).map fun s2 => (a, s2)

/-- The banks that hot copies of an index go to (R165): none whose NBU is quarantined (R627). -/
def hotBanks (s : State) (x : Index) : List Nat := (domStacks s x.dom).flatMap fun k =>
  ((List.range 1024).map fun b => k * 1024 + b).filter fun b => !quarantined s 1 b

/-- Put one page of extents into a bank: their hot-map entries (R163, R164). -/
def hotPage (s : State) (i bank : Nat) (es : List (Nat × List Byte)) : Option (List (Nat × Nat) × State) :=
  match areaAlloc s i false 65536 65536 (fun b => b == bank) with
  | none => none
  | some (a, s1) =>
    let dom := (idx s i).dom
    match (pageOf s1 (pageKey dom a)).frame with
    | none => none
    | some f =>
      let n := (es.headD (0, [])).2.length
      let col := fun (k : Nat) => f % 2048 * 2048 + k * n / 32
      some (es.zipIdx.map fun p => (p.1.1, p.1.1 + bank * 2 ^ 27 + col p.2 * 2 ^ 42), uPoke s1 dom a (es.flatMap (·.2)))

/-- Place extents across the banks in round-robin order of ordinal (R165): the hot map's entries in that order. -/
def placeHot (s : State) (i : Nat) (es : List (Nat × List Byte)) : Option (List (Nat × Nat) × State) :=
  let banks := hotBanks s (idx s i)
  let nb := banks.length
  if es = [] then some ([], s)
  else if nb = 0 then none
  else
    let per := 65536 / max 1 (es.headD (0, [])).2.length
    let mine := fun j => (es.zipIdx.filter fun p => p.2 % nb == j).map (·.1)
    (List.range (min nb es.length)).foldl (fun (o : Option (List (Nat × Nat) × State)) j =>
      let m := mine j
      (List.range (cdiv m.length per)).foldl (fun o k => match o with
        | none => none
        | some (out, s) => (hotPage s i (banks.getD j 0) ((m.drop (per * k)).take per)).map fun (e, s1) => (out ++ e, s1)) o) (some ([], s))

/-- Write a hot map for extents: its address, 0 without entries. -/
def putHotMap (s : State) (i : Nat) (es : List (Nat × List Byte)) : Option (Nat × State) :=
  match placeHot s i es with
  | none => none
  | some ([], s1) => some (0, s1)
  | some (l, s1) =>
    (areaAlloc s1 i false (8 * l.length) 64).map fun (a, s2) =>
      (a, uPoke s2 (idx s i).dom a ((l.mergeSort fun p q => p.1 ≤ q.1).flatMap fun p => bytesOf 8 p.2))

/-- The bytes of a segment header (R154). -/
def segBytes (g : Seg) (rp sp : Nat) : List Byte :=
  padTo 128 (bytesOf 4 1 ++ bytesOf 1 g.index ++ bytesOf 3 g.list ++ bytesOf 4 g.seq ++ bytesOf 4 g.items ++ bytesOf 4 g.tiles
    ++ bytesOf 2 g.tileItems ++ bytesOf 1 g.width ++ bytesOf 1 g.recFmt ++ bytesOf 6 g.build ++ bytesOf 2 0 ++ bytesOf 8 g.next
    ++ bytesOf 8 g.tileBase ++ bytesOf 8 g.recBase ++ bytesOf 8 g.scaleBase ++ bytesOf 8 g.hotMap ++ bytesOf 4 g.hotCount
    ++ bytesOf 2 rp ++ bytesOf 2 sp)

/-- Build one segment from its entries: its header, and the state with all its parts written. None where space is missing. -/
def buildSeg (s : State) (i l seq next : Nat) (es : List MEnt) : Option (Seg × State) :=
  let x := idx s i
  let ti := tileItems x.width x.ext
  let nt := cdiv es.length ti
  match areaAlloc s i false 128 64 with
  | none => none
  | some (a, s1) => match areaAlloc s1 i false (4096 * nt) 4096 with
    | none => none
    | some (tb, s2) =>
      let s3 := (List.range nt).foldl (fun s t => uPoke s x.dom (tb + 4096 * t) (tileOf x i l seq t ((es.drop (ti * t)).take ti))) s2
      match putPages s3 i (recPerPage x) (es.map (·.recB)) with
      | none => none
      | some (rb, s4) =>
        match (if x.recFmt = 1 then some (0, s4) else putPages s4 i (scalePerPage x) (es.map (·.scale))) with
        | none => none
        | some (sb, s5) =>
          let hot := (es.zipIdx.filter fun p => p.1.hot).map fun p => (p.2, hotExtent x p.1)
          (putHotMap s5 i hot).map fun (hm, s6) =>
            let g : Seg := { addr := a, index := i, list := l, seq := seq, items := es.length, tiles := nt, tileItems := ti, width := x.width
                             recFmt := x.recFmt, build := 0, next := next, tileBase := tb, recBase := rb, scaleBase := sb, hotMap := hm
                             hotCount := hot.length }
            (g, uPoke s6 x.dom a (segBytes g (recPerPage x) (scalePerPage x)))

/-! ### Merge records (R204 to R206) -/

/-- Key of a list. -/
def listKey (i l : Nat) : Nat := i * 2 ^ 24 + l
/-- The open merge record of a list. -/
def mergeOf (s : State) (k : Nat) : Option MergeRec := (tfind s.tir.merges k).filter fun m => !m.hotset
/-- A hot-set swap of the list is scheduled (R390). -/
def hotPending (s : State) (k : Nat) : Bool := match tfind s.tir.merges k with | some m => m.hotset | none => false
/-- The state with a merge record stored. -/
def setMerge (s : State) (k : Nat) (m : MergeRec) : State := { s with tir := { s.tir with merges := tins s.tir.merges k m } }
/-- A record is written to the journal: its number, and the state. -/
def journal (s : State) : Nat × State := (s.tir.jseq + 1, { s with tir := { s.tir with jseq := s.tir.jseq + 1 } })
/-- A list is due for a merge. -/
def listDue (x : Index) (r : Root) : Bool := r.hazeN * 1000 > x.permille * r.items || r.hazeN > x.hazeMax
/-- The root entry of a list of an index. -/
def listRoot (s : State) (i l : Nat) : Root := let x := idx s i; rootAt s x.dom (rootAddr x l)

/-- Fields of a merge step descriptor. -/
def mIndex (c : Cmd) : Nat := laneBits c.tok.desc 0 0 8
def mStep (c : Cmd) : Nat := laneBits c.tok.desc 0 8 8
def mList (c : Cmd) : Nat := laneBits c.tok.desc 0 16 24
def mEvent (c : Cmd) : Bool := laneBits c.tok.desc 0 40 1 == 1
def mChoose (c : Cmd) : Bool := laneBits c.tok.desc 0 41 1 == 1

/-- The checks of R206 before the order of steps. -/
def mergeChecks (s : State) (c : Cmd) : Work Unit := do
  let d := c.tok.desc
  need (!overcast s) (.report stOVERCAST 0 0 0)
  let ok := match indexOf s c.tok.dom (mIndex c) with
    | some x => mChoose c || mList c < x.lists
    | none => false
  need (laneBits d 0 42 22 == 0 && lane64 d 1 == 0 && lane64 d 2 == 0 && mStep c ≤ 3 && ok) (.report stBAD_OPERATOR 0 0 0)
  need (!mChoose c || mStep c == 0) (.report stBAD_OPERATOR 0x2A 0 0)

/-- The record that a step other than OPEN works on, once the job and the order are right (R206). -/
def stepRec (s : State) (c : Cmd) (step : Nat) : Work MergeRec :=
  match mergeOf s (listKey (mIndex c) (mList c)) with
  | none => failWith stBAD_OPERATOR 0x2A
  | some m => if m.job = some c.tok.job && (m.next = step || (m.last = step && step != 0)) then .ok m else failWith stBAD_OPERATOR 0x2A

/-- Bits [63:48] of the result of OPEN: resumed, and the next step expected. -/
def openSpec (resumed : Bool) (next : Nat) : Nat := (if resumed then 1 else 0) + 2 * next

/-- MERGE_OPEN (R205, R206). -/
def mergeOpen (tag : Nat) : State → State :=
  tirCmd tag 0x17 (fun c => mStep c = 0 || mStep c > 3) fun s c => do
    mergeChecks s c
    let i := mIndex c
    let x := idx s i
    let fresh := fun (l : Nat) =>
      if hotPending s (listKey i l) then s
      else
        let (_, s1) := journal s
        endTir (setMerge s1 (listKey i l) { cut := s.tir.epoch, job := some tag, next := 1, last := 0 }) tag c stOK 0 l (openSpec false 1)
    if !mChoose c then do
      need ((mergeOf s (listKey i (mList c))).isNone) (.report stBAD_OPERATOR 0x2A 0 0)
      .ok (fresh (mList c))
    else
      match (s.tir.merges.filter fun p => p.1 / 2 ^ 24 == i && p.2.job.isNone && !p.2.hotset).head? with
      | some (k, m) => .ok (endTir (setMerge s k { m with job := some tag }) tag c stOK 0 (k % 2 ^ 24) (openSpec true m.next))
      | none =>
        let due := (List.range x.lists).filter fun l => listDue x (listRoot s i l) && (mergeOf s (listKey i l)).isNone
        match leastBy (fun l => 2 ^ 33 - (listRoot s i l).hazeN) due with
        | some l => .ok (fresh l)
        | none => failWith stSHORT 0x28

/-- What a fold makes of a list (R207): the segments to rewrite with the ordinals that survive, the haze inserts to fold, and
the first segment kept. -/
structure FoldPlan where
  rewrite : List (Seg × List Nat)
  inserts : List HEnt
  kept : List Seg

/-- The plan of a fold at cut `c`. -/
def foldPlan (s : State) (x : Index) (r : Root) (c : Nat) : FoldPlan :=
  let tombs := hazeTombs s x.dom r.haze
  let segs := chainFrom s x.dom 65536 r.head
  let live := segs.map fun g => (g, (List.range g.items).filter fun n => !hidden tombs (segItem s x g n) none c)
  let n := (live.zipIdx.filter fun p => p.1.2.length < p.1.1.items).foldl (fun k p => max k (p.2 + 1)) 0
  { rewrite := live.take n, kept := segs.drop n
    inserts := (hazeInserts s x.dom x r.haze).filter fun h => h.epoch ≤ c && !hidden tombs h.item (some h.epoch) c }

/-- Entries that a fold builds. -/
def FoldPlan.total (f : FoldPlan) : Nat := (f.rewrite.map fun p => p.2.length).foldl (· + ·) 0 + f.inserts.length

/-- All of a list of optional values, or none. -/
def allSome {α : Type} : List (Option α) → Option (List α)
  | [] => some []
  | none :: _ => none
  | some a :: l => (allSome l).map (a :: ·)

/-- Build the new chain of a fold, last segment first: its segments in chain order. -/
def buildChain (i l : Nat) : List (Nat × List MEnt) → Nat → State → Option (List Seg × State)
  | [], _, s => some ([], s)
  | (seq, es) :: rest, tail, s =>
    match buildChain i l rest tail s with
    | none => none
    | some (gs, s1) =>
      if es = [] then some (gs, s1)
      else (buildSeg s1 i l seq (match gs.head? with | some g => g.addr | none => tail) es).map fun (g, s2) => (g :: gs, s2)

/-- MERGE_FOLD (R205, R207): the entries are counted off 65,536 a step; the chain stands complete with the last of them. -/
def mergeFold (tag : Nat) : State → State :=
  tirCmd tag 0x17 (fun c => mStep c = 1) fun s c => do
    mergeChecks s c
    let m ← stepRec s c 1
    let i := mIndex c
    let l := mList c
    let x := idx s i
    if m.foldDone then .ok (endTir s tag c stOK 0 0 0)
    else
      let r := listRoot s i l
      let f := foldPlan s x r m.cut
      let left := f.total - m.built
      let (j, s0) := journal s
      if left > 65536 then
        .ok (endTir (setMerge s0 (listKey i l) { m with built := m.built + 65536, next := 1, last := 1, jnl := j }) tag c stOK 0 (left - 65536) 0)
      else
        let ents := f.rewrite.map fun p => allSome (p.2.map (segEnt s x p.1 (hotOrds s x.dom p.1)))
        match allSome ents, allSome (f.inserts.map (hazeMEnt s x)) with
        | some old, some new =>
          let top := (f.rewrite.map fun p => p.1.seq).foldl max (f.kept.foldl (fun n g => max n g.seq) 0)
          let tail := match f.kept.head? with | some g => g.addr | none => 0
          let parts := (new :: old).zipIdx.map fun p => (top + 1 + p.2, p.1)
          match buildChain i l parts tail s0 with
          | none => .ok (endTir (fbump s F.TIR_MERGE_STAT_DEFERRED) tag c stABORTED 0x29 0 0)
          | some (gs, s1) =>
            let all := gs ++ f.kept
            .ok (endTir (setMerge s1 (listKey i l) { m with
              built := f.total, foldDone := true, next := 2, last := 1, jnl := j, head := match all.head? with | some g => g.addr | none => 0
              segs := all.length, items := (all.map (·.items)).foldl (· + ·) 0, tiles := (all.map (·.tiles)).foldl (· + ·) 0
              newSegs := gs.map (·.addr) }) tag c stOK 0 0 0)
        | _, _ => .error (.ue 21)

/-- MERGE_SWAP (R205, R206, R208): it reports once the group commit has swapped. -/
def mergeSwap (tag : Nat) : State → State :=
  tirCmd tag 0x17 (fun c => mStep c = 2) fun s c => do
    mergeChecks s c
    let m ← stepRec s c 2
    let k := listKey (mIndex c) (mList c)
    if m.swapped then .ok (endTir s tag c stOK 0 0 0)
    else
      let (j, s1) := journal s
      .ok (putCmd (setMerge s1 k { m with scheduled := true, next := 3, last := 2, jnl := max m.jnl j, cmds := m.cmds ++ [c.id] }) 14 tag
        { c with phase := .running })

/-- MERGE_CLOSE (R205, R206): it waits for a scheduled swap. -/
def mergeClose (tag : Nat) : State → State :=
  tirCmd tag 0x17 (fun c => mStep c = 3) fun s c => do
    mergeChecks s c
    let m ← stepRec s c 3
    let k := listKey (mIndex c) (mList c)
    if !m.swapped then .ok s
    else
      let (_, s1) := journal { s with tir := { s.tir with merges := tdel s.tir.merges k } }
      let s2 := match mEvent c, jobOf s1 tag with
        | true, some j => jobRecord s1 j.sq { ty := 0x0D, tag := tag, planId := (planOf s1 j.plan).id, cookie := j.cookie, ovc := j.ovc
                                              detail := bytesOf 1 (mIndex c) ++ bytesOf 1 0 ++ bytesOf 3 (mList c) ++ bytesOf 3 0 ++ bytesOf 6 m.swapEpoch }
        | _, _ => s1
      .ok (endTir s2 tag c stOK 0 0 0)

/-! ### The root swap (R208, R390) -/

/-- An uncommitted entry of the haze still belongs to a batch. -/
def inBatch (s : State) (a : Nat) : Bool := s.tir.batches.any fun p => p.2.phase != .dead && p.2.ents.any fun e => e.addr == a

/-- Copy the entries of a haze that a swap keeps into a new haze segment; batches follow their entries. -/
def copyEnts (i haze : Nat) (tomb : Bool) : List HEnt → State → Option State
  | [], s => some s
  | h :: hs, s =>
    let x := idx s i
    match uBytes s x.dom h.addr (if tomb then 16 else hazeStride x) with
    | none => copyEnts i haze tomb hs s
    | some b => match hazePush s i haze tomb b with
      | none => none
      | some (a, s1) =>
        let move := fun (e : BatchEnt) => if e.addr = h.addr then { e with addr := a } else e
        copyEnts i haze tomb hs { s1 with tir := { s1.tir with batches := s1.tir.batches.map fun p => (p.1, { p.2 with ents := p.2.ents.map move }) } }

/-- The new haze of a swap with cut `c`: its address and entries; none where space is missing. -/
def swapHaze (s : State) (i l c : Nat) (r : Root) : Option (Nat × Nat × State) :=
  let x := idx s i
  let keep := fun (h : HEnt) => h.epoch > c && (h.epoch != noEpoch || inBatch s h.addr)
  let ins := (hazeInserts s x.dom x r.haze).filter keep
  let tmb := (hazeTombs s x.dom r.haze).filter keep
  if ins = [] && tmb = [] then some (0, 0, s)
  else match newHaze s i l with
    | none => none
    | some (h, s1) => ((copyEnts i h false ins s1).bind (copyEnts i h true tmb)).map fun s2 => (h, ins.length + tmb.length, s2)

/-- Perform a scheduled swap at epoch `e` (R208): none where space is missing. -/
def performSwap (s : State) (k : Nat) (m : MergeRec) (e : Nat) : Option State :=
  let i := k / 2 ^ 24
  let l := k % 2 ^ 24
  let x := idx s i
  let r := listRoot s i l
  let hz := if m.hotset then some (r.haze, r.hazeN, s) else swapHaze s i l m.cut r
  match hz with
  | none => none
  | some (h, n, s1) => (areaAlloc s1 i false 64 64).map fun (ra, s2) =>
    let s3 := uPoke s2 x.dom ra (rootBytes r)
    let root : Root := if m.hotset then { r with head := m.head, swap := e, prev := ra }
      else { r with head := m.head, haze := h, hazeN := n, swap := e, segs := m.segs, items := m.items, tiles := m.tiles, prev := ra }
    let s4 := uPoke s3 x.dom (rootAddr x l) (rootBytes root)
    let s5 := m.newSegs.foldl (fun s a => uPoke s x.dom (a + 0x18) (bytesOf 6 e)) s4
    let s6 : State := { s5 with tir := { s5.tir with
      retired := s5.tir.retired ++ [(k, ra, e)]
      cuts := if m.hotset then s5.tir.cuts else tins s5.tir.cuts k m.cut
      jseq := s5.tir.jseq + 1
      merges := if m.hotset then tdel s5.tir.merges k else tins s5.tir.merges k { m with swapped := true, swapEpoch := e, cmds := [] } } }
    m.cmds.foldl (fun s id => endTirId s id stOK 0 (if m.hotset then m.built else 0) 0) s6

/-- A scheduled swap that finds no space (R206, R390): its steps end `ABORTED` with reason 0x29; a merge's record stays open with
SWAP expected, and the step counts in DEFERRED. -/
def swapFails (s : State) (k : Nat) (m : MergeRec) : State :=
  let s1 := if m.hotset then { s with tir := { s.tir with merges := tdel s.tir.merges k } }
    else fbump (setMerge s k { m with scheduled := false, next := 2, cmds := [] }) F.TIR_MERGE_STAT_DEFERRED
  m.cmds.foldl (fun s id => endTirId s id stABORTED 0x29 0 0) s1

/-- Group commit step 3 (R181): the swaps whose records are durable. -/
def performSwaps (s : State) (e : Nat) : State :=
  (s.tir.merges.filter fun p => p.2.scheduled && !p.2.swapped && p.2.jnl ≤ s.tir.jdone).foldl
    (fun s p => (performSwap s p.1 p.2 e).getD (swapFails s p.1 p.2)) s

/-! ### Reclaim (R210) -/

/-- Every hold (R200, R203): admission epochs of jobs and of taken requests, and pins. -/
def holds (s : State) : List Nat :=
  s.exec.jobs.flatMap (fun p => p.2.epoch :: p.2.take.map fun t => t.2.epoch) ++ s.tir.pins.map fun p => p.2.epoch
/-- The oldest epoch held, or all ones (R203). -/
def oldestHold (s : State) : Nat := (holds s).foldl min noEpoch

/-- Pages of an index area that lie in a frame. -/
def areaPageOf (s : State) (i f : Nat) : Option Nat :=
  (s.tir.pages.find? fun p => p.2.frame == some f && p.1 / 2 ^ 40 == (idx s i).dom && areaBase i ≤ p.1 % 2 ^ 40 * 65536
    && p.1 % 2 ^ 40 * 65536 < areaBase i + areaFlash).map fun p => p.1 % 2 ^ 40 * 65536

/-- Free what a segment holds that no segment of `rest` shares. -/
def freeSeg (s : State) (i : Nat) (rest : List Seg) (g : Seg) : State :=
  let dom := (idx s i).dom
  let free := fun (a : Nat) (used : Seg → Nat) (s : State) => if a = 0 || rest.any (fun h => used h == a) then s else areaFree s i a
  let hotPages := if g.hotMap = 0 || rest.any (fun h => h.hotMap == g.hotMap) then []
    else ((List.range g.hotCount).filterMap fun k =>
      let w := uNum s dom (g.hotMap + 8 * k) 8
      areaPageOf s i (bitsOf w 27 15 * 2048 + bitsOf w 42 22 / 2048)).eraseDups
  let s1 := hotPages.foldl (fun s a => areaFree s i a) s
  free g.addr (·.addr) (free g.tileBase (·.tileBase) (free g.recBase (·.recBase) (free g.scaleBase (·.scaleBase) (free g.hotMap (·.hotMap) s1))))

/-- Reclaim the oldest retired version of a list (R210). -/
def reclaim (s : State) (k a : Nat) : State :=
  let i := k / 2 ^ 24
  let x := idx s i
  let old := rootAt s x.dom a
  let mine := s.tir.retired.filter fun p => p.1 == k && p.2.1 != a
  let na := match mine.head? with | some p => p.2.1 | none => rootAddr x (k % 2 ^ 24)
  let new := rootAt s x.dom na
  let rest := chainFrom s x.dom 65536 new.head
  let s1 := (chainFrom s x.dom 65536 old.head).foldl (fun s g => freeSeg s i rest g) s
  let s2 := if old.haze = 0 || old.haze = new.haze then s1
    else
      let blocks := (hazeBlocks s x.dom 65536 (uNum s x.dom (old.haze + 0x18) 8)) ++ hazeBlocks s x.dom 65536 (uNum s x.dom (old.haze + 0x28) 8)
      areaFree (blocks.foldl (fun s b => areaFree s i b.1) s1) i old.haze
  let s3 := uPoke (areaFree s2 i a) x.dom (na + 0x28) (bytesOf 8 0)
  { s3 with tir := { s3.tir with retired := s3.tir.retired.filter fun p => p.2.1 != a } }

/-- Reclaim every retired version that no hold needs, oldest first for each list. -/
def reclaimAll : Nat → State → State
  | 0, s => s
  | n + 1, s =>
    let h := oldestHold s
    let first := fun (p : Nat × Nat × Nat) => (s.tir.retired.find? fun q => q.1 == p.1) == some p
    match s.tir.retired.find? fun p => first p && p.2.2 ≤ h with
    | some (k, a, _) => reclaimAll n (reclaim s k a)
    | none => s

/-! ### Hot-set updraft (R388, R390) -/

/-- New headers for the segments of a chain with fresh hot maps, last first: the new headers, and the copies made. -/
def hotChain (i : Nat) (want : List Nat) : List Seg → State → Option (List Seg × Nat × State)
  | [], s => some ([], 0, s)
  | g :: gs, s =>
    let x := idx s i
    match hotChain i want gs s with
    | none => none
    | some (new, n, s1) =>
      let ords := (List.range g.items).filter fun k => want.contains (segItem s x g k)
      match allSome (ords.map fun k => (segEnt s x g [] k).map fun e => (k, hotExtent x e)) with
      | none => none
      | some es => match putHotMap s1 i es with
        | none => none
        | some (hm, s2) => (areaAlloc s2 i false 128 64).map fun (a, s3) =>
          let h := { g with addr := a, next := (match new.head? with | some q => q.addr | none => 0), build := 0, hotMap := hm, hotCount := es.length }
          (h :: new, n + es.length, uPoke s3 x.dom a (segBytes h (recPerPage x) (scalePerPage x)))

/-- UPDRAFT_HOTSET (R388, R390). -/
def updraftHotset (tag : Nat) : State → State :=
  tirCmd tag 0x16 (fun c => laneBits c.tok.desc 0 56 8 != 0) fun s c => do
    let d := c.tok.desc
    let dom := c.tok.dom
    need (!overcast s) (.report stOVERCAST 0 0 0)
    need (laneBits d 0 56 8 == 1 && laneBits d 1 32 16 == 0 && lane64 d 2 == 0) (.report stBAD_OPERATOR 0 0 0)
    let i := laneBits d 1 24 8
    let l := laneBits d 1 0 24
    let n := laneBits d 1 48 16
    match indexOf s dom i with
    | none => failWith stBAD_OPERATOR 0
    | some x => do
      need (l < x.lists) (.report stBAD_OPERATOR 0 0 0)
      need (bitAt x.flags 1) (.report stBAD_OPERATOR 0x97 0 0)
      need ((mergeOf s (listKey i l)).isNone) (.report stBAD_OPERATOR 0x96 0 0)
      let b ← operand s dom (laneBits d 0 0 56) (8 * n)
      if hotPending s (listKey i l) then .ok s
      else
        let r := listRoot s i l
        let want := (List.range n).map fun k => fieldOf b (8 * k) 8
        let chain := chainFrom s dom 65536 r.head
        if chain.any fun g => (List.range g.items).any fun k => want.contains (segItem s x g k) && (segEnt s x g [] k).isNone then .error (.ue 21)
        else match hotChain i want chain s with
          | none => failWith stABORTED 0x29
          | some (gs, m, s1) =>
            let (j, s2) := journal s1
            .ok (putCmd (setMerge s2 (listKey i l)
              { hotset := true, scheduled := true, head := (match gs.head? with | some g => g.addr | none => 0), newSegs := gs.map (·.addr)
                built := m, jnl := j, cmds := [c.id], job := some tag }) 14 tag { c with phase := .running })

/-! ### Rows -/

/-- MERGE_OPEN. -/
def execMergeOpen (tag : W32) (s : State) : Out := .next (mergeOpen tag.toNat s)
/-- MERGE_FOLD. -/
def execMergeFold (tag : W32) (s : State) : Out := .next (mergeFold tag.toNat s)
/-- MERGE_SWAP. -/
def execMergeSwap (tag : W32) (s : State) : Out := .next (mergeSwap tag.toNat s)
/-- MERGE_CLOSE. -/
def execMergeClose (tag : W32) (s : State) : Out := .next (mergeClose tag.toNat s)
/-- UPDRAFT_HOTSET. -/
def execUpdraftHotset (tag : W32) (s : State) : Out := .next (updraftHotset tag.toNat s)

end Sys2Proof.Machine
end

