-- ==== Sys2Proof/Machine/Commit.lean ====
section
/-!
DEFINITION. Commits (R170 to R173, R180 to R184, R192, R193), pins and holds (R200 to R203): commit requests, the group
commit, the messages between the nodes of a replica set, and the epoch registers.
-/

namespace Sys2Proof.Machine

open Sys2Proof

/-! ### Messages of a replicated commit (R170 to R172) -/

/-- A message of a replicated commit to a node. The manual gives their types the range 0x20 to 0x27 (R434) and leaves open
which is which and what they carry beyond the batch. -/
def commitMsg (s : State) (ty node id : Nat) (index : Nat) (payload : List Byte) : State :=
  sendSys s { noPkt with
    ty := BitVec.ofNat 8 ty, dst := BitVec.ofNat 12 node, src := BitVec.ofNat 12 ((myNode s).getD 0), operand := BitVec.ofNat 64 id
    compare := BitVec.ofNat 64 index, len := BitVec.ofNat 16 payload.length, payload := payload }

/-- The replicas of an index that this node sends to. -/
def replicasOf (x : Index) : List Nat := (x.replicas.drop 1).take (x.repl - 1)

/-- The appends of a batch as its message carries them: for each, its kind, item and lists, and an insert's entry. -/
def batchBytes (s : State) (x : Index) (v : Batch) : List Byte :=
  v.ops.flatMap fun o => bytesOf 1 (if o.del then 1 else 0) ++ bytesOf 8 o.item
    ++ if o.del then [] else match v.ents.find? fun e => e.item == o.item && !e.tomb with
      | some e => (uBytes s x.dom e.addr (hazeStride x)).getD []
      | none => []

/-- Answer 0 of an acknowledgement is an acceptance; these are the refusals (R171). -/
def refNoIndex := 1
def refFenced := 2
def refOvercast := 3

/-- A commit fails (R171): its batch is discarded, every replica that it was sent to and that did not answer that it has no such
index gets a discard notice, the command ends with the status. -/
def failCommit (s : State) (b : Nat) (v : Batch) (status reason : Nat) (sent : Bool) (except : List Nat) : State :=
  let x := idx s v.index
  let s1 := setBatch s b { v with phase := .dead, cmd := none }
  let s2 : State := { s1 with tir := { s1.tir with outcomes := tins s1.tir.outcomes b false } }
  let s3 := if sent then ((replicasOf x).filter fun n => !except.contains n).foldl (fun s n => commitMsg s 0x24 n b v.index []) s2 else s2
  match v.cmd with
  | some id => endTirId s3 id status reason 0 0
  | none => s3

/-- Write the epoch of a commit, where its request names a place (R192). -/
def putEpoch (s : State) (c : Cmd) (e : Nat) : State :=
  let a := laneBits c.tok.desc 1 0 56
  if lane64 c.tok.desc 1 = 0 then s
  else match uWrite s c.tok.dom a (bytesOf 8 e) with
    | .ok s1 => s1
    | .outside => badAddress s c.tok.job a
    | .violation => violation s c.tok.job 8 (c.tok.insts.headD 0)

/-- COMMIT_REQUEST (R170, R171, R192). -/
def commitRequest (tag : Nat) : State → State :=
  tirCmd tag 0x11 (fun _ => true) fun s c => do
    let d := c.tok.desc
    let dom := c.tok.dom
    let i := laneBits d 0 0 8
    let a := laneBits d 1 0 56
    let b := collecting s tag i
    let drop := fun (st : Nat) => match b with
      | some (k, v) => endTir (failCommit s k v st 0 false []) tag c st 0 0 0
      | none => endTir s tag c st 0 0 0
    if fenced s && b.isSome then .ok (drop stFENCED)
    else if overcast s && b.isSome then .ok (drop stOVERCAST)
    else do
      need (laneBits d 0 8 56 == 0 && lane64 d 2 == 0 && laneBits d 1 56 8 == 0 && a % 8 == 0) (.report stBAD_OPERATOR 0 0 0)
      match indexOf s dom i with
      | none => failWith stBAD_OPERATOR 0
      | some x => do
        if lane64 d 1 = 0 then .ok () else writable s dom a 8 8 (c.tok.insts.headD 0)
        match b with
        | none => .ok (endTir (putEpoch s c s.tir.epoch) tag c stOK 0 0 0)
        | some (k, v) =>
          if x.repl > 1 && (myNode s).isNone then .ok (drop stBAD_OPERATOR)
          else
            let s1 := setBatch s k { v with phase := .waitAcks, cmd := some c.id, sentAt := s.now }
            let s2 := putCmd s1 14 tag { c with phase := .running }
            .ok ((replicasOf x).foldl (fun s n => commitMsg s 0x20 n k i (batchBytes s x v)) s2)

/-! ### The group commit (R181, R182) -/

/-- Two sets of failure-domain tags overlap (R19). -/
def tagsOverlap (a b : Nat) : Bool :=
  (List.range 4).any fun k => let p := bitsOf a (8 * k) 8; let q := bitsOf b (8 * k) 8; p == q || p == 255 || q == 255
/-- A set of tags overlaps (R19). -/
def setOverlaps : List Nat → Bool
  | [] => false
  | t :: ts => ts.any (tagsOverlap t) || setOverlaps ts

/-- The commit decision on a batch whose acknowledgements are all there (R170 step 3, R171, R173, R670). -/
def decide1 (s : State) (b : Nat) (v : Batch) : State :=
  let x := idx s v.index
  let reps := replicasOf x
  if v.replica || v.phase != .waitAcks || (reps.any fun n => !(v.acks.any fun a => a.1 == n)) then s
  else if fenced s then failCommit s b v stFENCED 0 true []
  else if overcast s then failCommit s b v stOVERCAST 0 true []
  else if reps = [] then setBatch s b { v with phase := .decided }
  else
    let tags := (rget s .PRB_FDOM 0).toNat :: reps.map fun n => tget 0 v.acks n
    let ovl := setOverlaps tags
    if ovl && !x.ovr then failCommit s b v stDOMAIN_OVERLAP 0 true []
    else
      let s1 := if ovl then
          let c := (rget s .TIR_IDX_OVL v.index).toNat
          rset s .TIR_IDX_OVL v.index (BitVec.ofNat 32 (min (c + 1) (2 ^ 32 - 1)))
        else s
      reps.foldl (fun s n => commitMsg s 0x22 n b v.index []) (setBatch s1 b { v with phase := .waitNotices })

/-- A batch is ready (R181 step 1): allowed, notices acknowledged, durable in the journal. -/
def batchReady (s : State) (v : Batch) : Bool :=
  let x := idx s v.index
  (v.ents.all fun e => e.jnl ≤ s.tir.jdone) && match v.phase with
    | .decided => true
    | .waitNotices => (replicasOf x).all fun n => v.noticed.contains n
    | .noticed => true
    | _ => false

/-- Mark the entries of a batch and its directory entries with an epoch (R181 step 2). -/
def markBatch (s : State) (v : Batch) (e : Nat) : State :=
  let x := idx s v.index
  let s1 := v.ents.foldl (fun s h => uPoke s x.dom (h.addr + 8) (bytesOf 6 e)) s
  v.ops.foldl (fun s o => match dirFind s x o.item with
    | none => s
    | some k =>
      if !o.del then dirPut s x k (dirBytes o.item o.lists e false)
      else if v.ops.any fun q => q.item == o.item && !q.del then s
      else dirPut s x k (dirBytes o.item (dirLists (dirSlot s x k)) e true)) s1

/-- A committed batch leaves (R170 step 5): its command reports the epoch. -/
def leaveBatch (s : State) (b : Nat) (v : Batch) (e : Nat) : State :=
  let s1 : State := { s with tir := { s.tir with
    batches := tdel s.tir.batches b, outcomes := if v.replica then s.tir.outcomes else tins s.tir.outcomes b true } }
  match v.cmd with
  | none => s1
  | some id => match findTir s1 id with
    | some (tag, c) => match jobOf s1 tag with
      | some _ => endTir (putEpoch s1 c e) tag c stOK 0 0 0
      | none => endTir s1 tag c stOK 0 0 0
    | none => s1

/-- Release what a discarded batch reserved (R193): the directory entries stand as before its appends. -/
def releaseBatch (s : State) (b : Nat) (v : Batch) : State :=
  let x := idx s v.index
  let s1 := (v.ops.map (·.item)).eraseDups.foldl (fun s item => match dirFind s x item with
    | none => s
    | some k =>
      let old := match v.ops.find? fun o => o.item == item with
        | some o => o.old
        | none => none
      dirPut s x k (old.getD (List.replicate 32 (0 : Byte)))) s
  { s1 with tir := { s1.tir with batches := tdel s1.tir.batches b } }

/-- Remove the directory entries whose tombstones every list has merged (R209). -/
def sweepDirectory (s : State) (i : Nat) : State :=
  let x := idx s i
  (List.range (dirSlots x)).foldl (fun s k =>
    let e := dirSlot s x k
    if !dirEmpty e && dirTomb e && dirEpoch e != noEpoch &&
        (dirLists e).all (fun l => match tfind s.tir.cuts (listKey i l) with | some c => dirEpoch e ≤ c | none => false)
      then dirPut s x k (List.replicate 32 (0 : Byte)) else s) s

/-- The interval of the next group commit (R184), in ns. -/
def commitInterval (s : State) : Nat := max 10 (min 100 (fget s F.TIR_EPOCH_CTL_INTERVAL)) * 1000
/-- The flash subsystem is lost (R404). -/
def flashGone (s : State) : Bool := bitAt (ovcCauses s) 0
/-- Group commits run from ready on (R594), in P0 to P2 (R180). -/
def commitsRun (s : State) : Bool := fget s F.PRB_STEP_READY == 1 && fget s F.PRB_PWR_STAT_STATE ≤ 2
/-- The next group commit has work: a batch ready or a swap scheduled (R605, R607). -/
def commitWork (s : State) : Bool :=
  s.tir.batches.any (fun p => batchReady s p.2) || s.tir.merges.any fun p => p.2.scheduled && !p.2.swapped

/-- The overrides that commands have set take effect (R173). -/
def applyOverrides (s : State) : State :=
  { s with tir := { s.tir with indexes := s.tir.indexes.map fun p => (p.1, match p.2.ovrNext with
    | some b => { p.2 with ovr := b, ovrNext := none }
    | none => p.2) } }

/-- A new reserve once the published epoch comes within 2^19 of it (R182). -/
def keepReserve (s : State) : State :=
  if s.tir.reserve < s.tir.epoch + 2 ^ 19 && !flashGone s then { s with tir := { s.tir with reserve := s.tir.epoch + 2 ^ 20 } } else s

/-- One group commit, with the journal known durable up to record `journaled`. Outside P0 one with work wakes the node instead. The
directory entries that go are those whose lists had all swapped before it (R209); the reservations released are those of batches
discarded before it (R193). -/
def groupCommit (journaled : Nat) (s : State) : State :=
  if s.now < s.tir.nextCommit then s
  else if !inP0 s && commitWork s then wakeNode s
  else if !commitsRun s then s
  else
    let s0 := keepReserve { s with tir := { s.tir with
      jdone := if flashGone s then s.tir.jdone else max s.tir.jdone (min journaled s.tir.jseq), nextCommit := s.now + commitInterval s } }
    let e := s0.tir.epoch + 1
    if e > s0.tir.reserve then s0
    else
      let s1 := applyOverrides s0
      let s2 := s1.tir.batches.foldl (fun s p => match tfind s.tir.batches p.1 with | some v => decide1 s p.1 v | none => s) s1
      let ready := s2.tir.batches.filter fun p => batchReady s2 p.2
      let s3 := ready.foldl (fun s p => match tfind s.tir.batches p.1 with | some v => markBatch s v e | none => s) s2
      let s4 := s3.tir.indexes.foldl (fun s p => sweepDirectory s p.1) s3
      let s5 := performSwaps s4 e
      let s6 : State := { s5 with tir := { s5.tir with epoch := e } }
      let s7 := ready.foldl (fun s p => leaveBatch s p.1 p.2 e) s6
      let s8 := (s1.tir.batches.filter fun p => p.2.phase == .dead).foldl (fun s p => releaseBatch s p.1 p.2) s7
      reclaimAll s8.tir.retired.length s8

/-! ### Replicas (R170 to R172) -/

/-- An installed index, whatever its domain, whose REPLICAS name a node: what admits its messages (R434). -/
def repIndex (s : State) (i src : Nat) : Option Index :=
  match tfind s.tir.indexes i with
  | some x => if x.replicas.contains src && !x.removing then some x else none
  | none => none

/-- Append the operations of a batch on a replica: none where one cannot be stored. -/
def repAppend (b i : Nat) : List RepOp → State → Option State
  | [], s => some s
  | o :: os, s =>
    let x := idx s i
    let item := o.item.toNat
    match tfind s.tir.batches b with
    | none => none
    | some v =>
      let next : Option State := if o.del then
          match dirState s i item 0 with
          | .live k lists => appendOp s b i v true item lists (tombEntry item) k true
          | _ => some s
        else match dirFind s x item with
          | some k => appendOp s b i v false item o.lists (insertBytes x item o.attr.toNat o.body) k true
          | none => match dirRoom s x with
            | some k => appendOp (freeNext s) b i v false item o.lists (insertBytes x item o.attr.toNat o.body) k false
            | none => none
      next.bind (repAppend b i os)

/-- The batch that a replica holds under a primary's number. -/
def repBatch (s : State) (src id : Nat) : Option (Nat × Batch) :=
  s.tir.batches.find? fun p => p.2.replica && p.2.primary == src && p.2.remoteId == id

/-- A primary's batch arrives (R170 steps 1 and 2, R171). -/
def replicaBatch (src i id : Nat) (ops : List RepOp) (s : State) : State :=
  if (myNode s).isNone then s
  else match tfind s.tir.indexes i with
    | none => commitMsg s 0x21 src id i (bytesOf 4 (rget s .PRB_FDOM 0).toNat ++ bytesOf 1 refNoIndex)
    | some x =>
      let ack := fun (s : State) (r : Nat) => commitMsg s 0x21 src id i (bytesOf 4 (rget s .PRB_FDOM 0).toNat ++ bytesOf 1 r)
      if x.removing then ack s refNoIndex
      else if !x.replicas.contains src then s
      else if fenced s then ack s refFenced
      else if overcast s then ack s refOvercast
      else if (repBatch s src id).isSome then ack s 0
      else
        let b := s.tir.nextBatch
        let s1 := setBatch { s with tir := { s.tir with nextBatch := b + 1 } } b
          { index := i, primary := src, replica := true, phase := .inDoubt, remoteId := id, sentAt := s.now }
        match repAppend b i ops s1 with
        | some s2 => ack s2 0
        | none => s

/-- A replica answers the primary (R170 step 3, R171). -/
def replicaAck (src id tags refusal : Nat) (s : State) : State :=
  match tfind s.tir.batches id with
  | none => s
  | some v =>
    if v.replica || v.phase != .waitAcks || !(replicasOf (idx s v.index)).contains src then s
    else if refusal = refNoIndex then failCommit s id v stNOT_OWNER 0 true [src]
    else if refusal = refFenced then failCommit s id v stFENCED 0 true []
    else if refusal = refOvercast then failCommit s id v stOVERCAST 0 true []
    else setBatch s id { v with acks := tins v.acks src tags }

/-- A commit notice arrives at a replica (R170 steps 4 and 6): it is acknowledged. -/
def commitNotice (src id : Nat) (s : State) : State :=
  match repBatch s src id with
  | none => if (s.tir.indexes.any fun p => p.2.replicas.contains src) then commitMsg s 0x23 src id 0 [] else s
  | some (b, v) => commitMsg (if v.phase = .inDoubt then setBatch s b { v with phase := .noticed } else s) 0x23 src id v.index []

/-- A replica acknowledges a notice (R170 step 4). -/
def noticeAck (src id : Nat) (s : State) : State :=
  match tfind s.tir.batches id with
  | some v => if v.phase = .waitNotices && !v.noticed.contains src then setBatch s id { v with noticed := src :: v.noticed } else s
  | none => s

/-- A discard notice arrives at a replica (R171): its batch is discarded; without it the notice is ignored. -/
def discardNotice (src id : Nat) (s : State) : State :=
  match repBatch s src id with
  | some (b, v) => if v.phase = .inDoubt then setBatch s b { v with phase := .dead } else s
  | none => s

/-- COMMIT_TMO of an index in ns (R147). -/
def commitTmo (x : Index) : Nat := x.commitTmo * 1000

/-- Acknowledgements are missing COMMIT_TMO after the batch was sent (R171). -/
def commitTimeout (id : Nat) (s : State) : State :=
  match tfind s.tir.batches id with
  | none => s
  | some v =>
    let x := idx s v.index
    if v.replica || v.phase != .waitAcks || s.now < v.sentAt + commitTmo x
      || (replicasOf x).all (fun n => v.acks.any fun a => a.1 == n) then s
    else failCommit s id v stABORTED 0x23 true []

/-- A replica asks for the outcome of a batch in doubt every COMMIT_TMO; the batch of an expelled primary becomes visible at
the next group commit (R172). -/
def outcomeQueryTimer (id : Nat) (s : State) : State :=
  match tfind s.tir.batches id with
  | none => s
  | some v =>
    if !v.replica || v.phase != .inDoubt then s
    else if s.smc.expelled.contains v.primary then setBatch s id { v with phase := .noticed }
    else if s.now < v.sentAt + commitTmo (idx s v.index) then s
    else commitMsg (setBatch s id { v with sentAt := s.now }) 0x25 v.primary v.remoteId v.index []

/-- The primary answers a replica (R171, R172): the notice or the discard, once the commit is decided. -/
def outcomeQuery (src id : Nat) (s : State) : State :=
  match tfind s.tir.batches id with
  | some v =>
    if v.replica then s
    else match v.phase with
      | .waitNotices => commitMsg s 0x22 src id v.index []
      | .dead => commitMsg s 0x24 src id v.index []
      | _ => s
  | none => if tget false s.tir.outcomes id then commitMsg s 0x22 src id 0 [] else commitMsg s 0x24 src id 0 []

/-! ### Pins (R200 to R202) -/

/-- PIN (R200). -/
def pinCmd (tag : Nat) : State → State :=
  tirCmd tag 0x12 (fun _ => true) fun s c => do
    let d := c.tok.desc
    let dom := c.tok.dom
    let i := laneBits d 0 0 8
    let given := laneBits d 0 8 1 == 1
    let e := if given then laneBits d 1 0 48 else match jobOf s tag with | some j => j.epoch | none => 0
    need ((indexOf s dom i).isSome && laneBits d 0 9 55 == 0 && laneBits d 1 48 16 == 0 && lane64 d 2 == 0)
      (.report stBAD_OPERATOR 0 0 0)
    need (!given || epochOk s tag i e) (.report stBAD_OPERATOR 0x27 0 0)
    match firstFrom (fun h => (tfind s.tir.pins h).isNone) 1024 0 with
    | none => .ok (endTir (fbump s F.TIR_PIN_STAT_REFUSED) tag c stPIN_LIMIT 0 0 0)
    | some h => .ok (endTir { s with tir := { s.tir with pins := tins s.tir.pins h { dom := dom, index := i, epoch := e } } } tag c stOK 0 h 0)

/-- UNPIN (R200). -/
def unpinCmd (tag : Nat) : State → State :=
  tirCmd tag 0x13 (fun _ => true) fun s c => do
    let d := c.tok.desc
    let dom := c.tok.dom
    let i := laneBits d 0 0 8
    let h := laneBits d 1 0 10
    let mine := match tfind s.tir.pins h with
      | some p => p.dom == dom && p.index == i
      | none => false
    need ((indexOf s dom i).isSome && laneBits d 0 8 56 == 0 && laneBits d 1 10 54 == 0 && lane64 d 2 == 0 && mine) (.report stBAD_OPERATOR 0 0 0)
    .ok (endTir { s with tir := { s.tir with pins := tdel s.tir.pins h } } tag c stOK 0 0 0)

/-! ### Rows -/

/-- COMMIT_REQUEST. -/
def execCommitRequest (tag : W32) (s : State) : Out := .next (commitRequest tag.toNat s)
/-- GROUP_COMMIT (R180, R181). -/
def execGroupCommit (journaled : Nat) (s : State) : Out := .next (groupCommit journaled s)
/-- REPLICA_BATCH. -/
def execReplicaBatch (src : BitVec 12) (index : BitVec 8) (id : Nat) (ops : List RepOp) (s : State) : Out :=
  .next (replicaBatch src.toNat index.toNat id ops s)
/-- REPLICA_ACK. -/
def execReplicaAck (src : BitVec 12) (id : Nat) (tags : W32) (refusal : BitVec 8) (s : State) : Out :=
  .next (replicaAck src.toNat id tags.toNat refusal.toNat s)
/-- COMMIT_NOTICE. -/
def execCommitNotice (src : BitVec 12) (id : Nat) (s : State) : Out := .next (commitNotice src.toNat id s)
/-- NOTICE_ACK. -/
def execNoticeAck (src : BitVec 12) (id : Nat) (s : State) : Out := .next (noticeAck src.toNat id s)
/-- DISCARD_NOTICE. -/
def execDiscardNotice (src : BitVec 12) (id : Nat) (s : State) : Out := .next (discardNotice src.toNat id s)
/-- COMMIT_TIMEOUT. -/
def execCommitTimeout (id : Nat) (s : State) : Out := .next (commitTimeout id s)
/-- OUTCOME_QUERY_TIMER. -/
def execOutcomeQueryTimer (id : Nat) (s : State) : Out := .next (outcomeQueryTimer id s)
/-- OUTCOME_QUERY. -/
def execOutcomeQuery (src : BitVec 12) (id : Nat) (s : State) : Out := .next (outcomeQuery src.toNat id s)
/-- PIN. -/
def execPin (tag : W32) (s : State) : Out := .next (pinCmd tag.toNat s)
/-- UNPIN. -/
def execUnpin (tag : W32) (s : State) : Out := .next (unpinCmd tag.toNat s)
/-- The upper parts that a read of a low part latches (R183, R203). -/
def epochLatch (s : State) : State := { s with tir := { s.tir with epochHi := s.tir.epoch / 2 ^ 32 } }
def holdLatch (s : State) : State := { s with tir := { s.tir with holdHi := oldestHold s / 2 ^ 32 } }
/-- EPOCH_LO_READ (R183): a read of the low part of the published epoch latches the upper part. -/
def execEpochLoRead (s : State) : Out :=
  .next (hostReg s .TIR_EPOCH_LO (.read .TIR_EPOCH_LO) epochLatch)
/-- HOLD_LO_READ (R203): a read of the low part of the oldest hold latches the upper part. -/
def execHoldLoRead (s : State) : Out :=
  .next (hostReg s .TIR_HOLD_LO (.read .TIR_HOLD_LO) holdLatch)

end Sys2Proof.Machine
end

