-- ==== Sys2Proof/Machine/Tiers.lean ====
section
/-!
DEFINITION. Tiers (chapter 14): migration of pages (R386, R387), the page form of updraft (R388, R389), parking of regions
(R393, R394), and the region commands of the register file (R373 to R375, R397).
-/

namespace Sys2Proof.Machine

open Sys2Proof

/-- The domain is ACTIVE (R540). -/
def domActive (s : State) (dom : Nat) : Bool := (tget {} s.smc.doms dom).state == 1

/-! ### Pages of a region -/

/-- First address of a page. -/
def pageAddr (k : Nat) : Nat := k % 2 ^ 40 * 65536
/-- Domain of a page. -/
def pageDom (k : Nat) : Nat := k / 2 ^ 40
/-- Region of a page. -/
def pageRegion (s : State) (k : Nat) : Option (Nat × Region) := regionAt s (pageDom k) (pageAddr k)
/-- Pages of a region, ascending. -/
def regionPages (r : Region) : List Nat := (List.range (r.len / 65536)).map fun i => pageKey r.dom (r.base + i * 65536)
/-- Every page of a range is in the domain's unified range. -/
def pagesIn (s : State) (dom a n : Nat) : Bool :=
  (List.range (if n = 0 then 0 else (a + n - 1) / 65536 - a / 65536 + 1)).all fun i =>
    locate s dom (if i = 0 then a else (a / 65536 + i) * 65536) != .outside

/-- The content of a page at its home. -/
def homeBytes (s : State) (k : Nat) : List Byte :=
  let p := pageOf s k
  match p.home, p.frame with
  | 2, _ => cellsRead s.mem.flash (pageDom k * 2 ^ 56 + pageAddr k) 65536
  | 3, _ => hostRead s p.hostAddr 65536
  | _, some f => stkBytes s (f * 65536) 65536
  | _, none => List.replicate 65536 0

/-- A sub-block of a page cannot be read at its home. -/
def homeBad (s : State) (k i : Nat) : Bool :=
  let p := pageOf s k
  match p.home, p.frame with
  | 2, _ => flashBad s (pageDom k) (pageAddr k / 16384 + i / 16)
  | 3, _ => false
  | _, some f => (List.range 256).any (fun j => s.mem.badStk.contains (f * 16384 + i * 256 + j)) || s.flt.stacksOut.contains (stackOf (f * 65536))
  | _, none => false

/-! ### Commands that move pages -/

/-- A command learns what became of one of its pages: moved, skipped, or its migration abandoned (R387, R389). -/
def noteMove (s : State) (id moved skipped : Nat) (abandoned : Bool) : State :=
  match findTir s id with
  | none => s
  | some (tag, c) => putCmd s 14 tag { c with
      count := c.count + moved, spec := c.spec + skipped
      status := if abandoned then stABORTED else c.status, reason := if abandoned then 0x94 else c.reason }

/-- Some page of a command has not come to its end. -/
def movesLeft (s : State) (id : Nat) : Bool :=
  s.tir.moves.any (fun m => m.cmd == id) || s.tir.pages.any fun p => match p.2.mig with | some m => m.cmd == id | none => false

/-- The end of a command whose pages are all done: its regions become parked or active (R394). A region some page of which could
not be moved returns to the state it had. -/
def movesEnd (s : State) (id : Nat) : State :=
  match findTir s id with
  | none => s
  | some (tag, c) =>
    if movesLeft s id then s
    else
      let ok := c.status == stOK
      let next := fun (p : ParkState) => match p with
        | .parking => if ok then ParkState.parked else .active
        | .unparking => if ok then .active else .parked
        | q => q
      let mine : Nat → Bool := fun k => match pageRegion s k with | some (_, r) => r.cmd == id && next r.park == .active | none => false
      let s1 : State := { s with tir := { s.tir with
        pages := s.tir.pages.map fun p => (p.1, if mine p.1 then { p.2 with former := none } else p.2)
        regions := s.tir.regions.map fun p => (p.1, if p.2.cmd = id then { p.2 with park := next p.2.park, cmd := 0 } else p.2) } }
      endTir s1 tag c c.status c.reason c.count c.spec

/-- Fill every tile of a page that is not present (R389). -/
def fillPage (s : State) (k : Nat) : State := (List.range 16).foldl (fun s t => fillTile s (pageDom k) (pageAddr k + t * 4096)) s

/-- Act on one page of a command (R389, R394): cached pages at once, single-home pages by a migration. A page at the target tier
already is neither acted on nor skipped. -/
def movePage (s0 : State) (m : PageMove) : State :=
  let s : State := { s0 with tir := { s0.tir with moves := s0.tir.moves.filter fun x => x != m } }
  let p := pageOf s m.page
  match pageRegion s m.page with
  | none => noteMove s m.cmd 0 1 false
  | some (_, r) =>
    if r.cls = 1 then
      if p.home = m.target && (m.target != 3 || p.hostAddr = m.host) then s
      else if m.kind = 0 && m.target = 3 && r.host = 0 then noteMove s m.cmd 0 1 false
      else
        let s1 := startMig (setPage s m.page { p with former := if m.kind = 1 then some p.home else p.former }) m.page m.target m.cmd m.host
        if (pageOf s1 m.page).mig.isSome then s1 else noteMove s1 m.cmd 0 1 true
    else if m.target = 1 && (r.cls = 0 || r.rcache) then
      if r.backing = 0 || p.present = BitVec.allOnes 16 then s else noteMove (fillPage s m.page) m.cmd 1 0 false
    else if r.cls = 0 && r.backing = m.target - 1 && r.backing != 0 then
      if p.frame.isNone then s
      else
        let s1 := if m.target = 2 && flashGone s then s else writeBack s m.page
        if (pageOf s1 m.page).dirty != 0 then noteMove s1 m.cmd 0 1 false else noteMove (dropCopy s1 m.page) m.cmd 1 0 false
    else if r.cls = 2 && r.backing = m.target - 1 && r.backing != 0 && p.frame.isNone then s
    else noteMove s m.cmd 0 1 false

/-- Act on every page that waits for no migration (R387), and end the commands that have no page left. -/
def runMoves (s : State) : State :=
  let go := s.tir.moves.filter fun m => (pageOf s m.page).mig.isNone
  let s1 := go.foldl (fun s m => if (pageOf s m.page).mig.isNone then movePage s m else s) s
  (s1.cmds.flatMap fun p => if p.1 / 2 ^ 32 = 14 then
    (p.2.filter fun c => c.phase == .running && [0x14, 0x15, 0x16].contains c.tok.op.toNat && laneBits c.tok.desc 0 56 8 == 0).map fun c => c.id
    else []).foldl movesEnd s1

/-! ### Migration (R386, R387) -/

/-- The writes that waited are applied, in arrival order. -/
def applyWaiting (s : State) (k : Nat) (ws : List (Nat × List Byte)) : State :=
  ws.foldl (fun s w => uPoke s (pageDom k) w.1 w.2) s

/-- A migration stops before its flip: the page stays, waiting writes proceed at the old home, the new frame is freed. -/
def abandonMig (s : State) (k : Nat) (m : Mig) : State :=
  let s1 := setPage s k { pageOf s k with mig := none }
  let s2 := (fun s => if (pageOf s k).home = 2 then m.waiting.foldl (fun s w => flashPut s (pageDom k) w.1 w.2) s else applyWaiting s k m.waiting)
    (fbump s1 F.TIR_MIG_STAT_ABANDONED)
  runMoves (noteMove (serveHeld s2 (holdPage k)) m.cmd 0 1 true)

/-- MIGRATION_PASS_END (R386). -/
def migrationPassEnd (k : Nat) (s : State) : State :=
  let p := pageOf s k
  match p.mig with
  | none => s
  | some m =>
    if m.final || m.flipped then s
    else if (List.range 64).any (fun i => (m.passes = 0 || m.mask.getLsbD i) && homeBad s k i) || (m.target = 2 && flashGone s) then abandonMig s k m
    else
      let n := m.passes + 1
      if (2 ≤ n && popcount m.mask.toNat 64 ≤ 16) || 3 ≤ n then setPage s k { p with mig := some { m with passes := n, final := true, finalAt := s.now } }
      else setPage s k { p with mig := some { m with passes := n, mask := 0 } }

/-- Write a whole page at its new home: none where it has no room. -/
def writeHome (s : State) (k : Nat) (m : Mig) (bs : List Byte) : Option State :=
  match m.target, m.frame with
  | 2, _ => (List.range 4).foldl (fun (o : Option State) i => o.bind fun s =>
      flashWrite s (pageDom k) (pageAddr k / 16384 + i) ((bs.drop (16384 * i)).take 16384)) (some s)
  | 3, _ => some (hostWrite s (pasidOf s (pageDom k)) m.hostAddr bs)
  | _, some f => some (stkWrite s (f * 65536) bs)
  | _, none => none

/-- MIGRATION_FLIP (R386): the final copy ends, the page is at its new home, waiting writes are applied there. -/
def migrationFlip (k : Nat) (s : State) : State :=
  let p := pageOf s k
  match p.mig with
  | none => s
  | some m =>
    if !m.final || m.flipped then s
    else if (List.range 64).any fun i => m.mask.getLsbD i && homeBad s k i then abandonMig s k m
    else match writeHome s k m (homeBytes s k) with
      | none => abandonMig s k m
      | some s1 =>
        let s2 := setPage s1 k { pageOf s1 k with
          home := m.target, hostAddr := m.hostAddr, frame := m.frame
          present := if m.target = 1 then BitVec.allOnes 16 else 0
          mig := some { m with flipped := true, old := if p.home = 2 || p.home = 3 then none else p.frame, waiting := [], oldHome := p.home } }
        let s3 := fset s2 F.TIR_MIG_STAT_FINAL_MAX (max (fget s2 F.TIR_MIG_STAT_FINAL_MAX) (min 0xFF (cdiv (s.now - m.finalAt) 100)))
        serveHeld (applyWaiting s3 k m.waiting) (holdPage k)

/-- MIGRATION_DRAIN (R386): the old frame is scrubbed and freed, pages of an old flash home are dropped. -/
def migrationDrain (k : Nat) (s : State) : State :=
  let p := pageOf s k
  match p.mig with
  | none => s
  | some m =>
    if !m.flipped then s
    else
      let s1 := match m.old with
        | some f => scrubFrame s f
        | none => if m.oldHome = 2 then flashDrop s (pageDom k) (pageAddr k) 65536 else s
      let s2 := setPage s1 k { p with mig := none }
      runMoves (noteMove (serveHeld (applyWaiting s2 k m.waiting) (holdPage k)) m.cmd 1 0 false)

/-! ### Updraft of pages and parking -/

/-- UPDRAFT_PAGE (R388, R389). -/
def updraftPage (tag : Nat) : State → State :=
  tirCmd tag 0x16 (fun c => laneBits c.tok.desc 0 56 8 == 0) fun s c => do
    let d := c.tok.desc
    let dom := c.tok.dom
    let a := laneBits d 0 0 56
    let n := laneBits d 1 0 32
    let t := laneBits d 1 32 4
    need (a % 65536 == 0 && 1 ≤ n && n ≤ 65536 && 1 ≤ t && t ≤ 3 && laneBits d 1 36 28 == 0 && lane64 d 2 == 0)
      (.report stBAD_OPERATOR 0 0 0)
    need (pagesIn s dom a (n * 65536)) (.bad a)
    let mv := fun (i : Nat) =>
      let k := pageKey dom (a + i * 65536)
      ({ cmd := c.id, page := k, target := t, host := match pageRegion s k with
           | some (_, r) => if t = 3 then r.host + (pageAddr k - r.base) else 0
           | none => 0 } : PageMove)
    let s1 := putCmd s 14 tag { c with phase := .running }
    .ok (runMoves { s1 with tir := { s1.tir with moves := s1.tir.moves ++ (List.range n).map mv } })

/-- The regions that a session block names, by region number (R393): none when the block is malformed. -/
def sessionRegions (s : State) (dom : Nat) (hdr body : List Byte) : Option (List (Nat × Region)) :=
  let n := fieldOf hdr 4 1
  if fieldOf hdr 0 4 != 1 || n = 0 || n > 64 || fieldOf hdr 5 3 != 0 || fieldOf hdr 0x10 48 != 0 || fieldOf hdr 8 8 % 65536 != 0 then none
  else allSome ((List.range n).map fun i =>
    s.tir.regions.find? fun p => p.2.dom == dom && p.2.base == fieldOf body (8 * i) 8 && p.2.cls == 1 && !p.2.removing)

/-- The pages a park moves (R394): those not on flash, to flash, or, with the flash subsystem lost, to the space at FALLBACK in the
order of the block. -/
def parkMoves (s : State) (id fallback : Nat) : List (Nat × Region) → Nat → List PageMove
  | [], _ => []
  | (_, r) :: l, off =>
    ((regionPages r).filter fun k => (pageOf s k).home != 2).map (fun k =>
      if flashGone s then { cmd := id, page := k, target := 3, host := fallback + off + (pageAddr k - r.base), kind := 1 }
      else { cmd := id, page := k, target := 2, kind := 1 }) ++ parkMoves s id fallback l (off + r.len)

/-- The pages an unpark moves: each back to its former home. -/
def unparkMoves (s : State) (id : Nat) (l : List (Nat × Region)) : List PageMove :=
  l.flatMap fun p => (regionPages p.2).filterMap fun k => (pageOf s k).former.map fun h =>
    { cmd := id, page := k, target := h, host := if h = 3 then p.2.host + (pageAddr k - p.2.base) else 0, kind := 2 }

/-- Park and unpark (R393, R394). -/
def parkCmd (op : Nat) (tag : Nat) : State → State :=
  tirCmd tag op (fun _ => true) fun s c => do
    let d := c.tok.desc
    let dom := c.tok.dom
    let a := laneBits d 0 0 56
    need (laneBits d 0 56 8 == 0 && lane64 d 1 == 0 && lane64 d 2 == 0) (.report stBAD_OPERATOR 0 0 0)
    let hdr ← operand s dom a 64
    let body ← operand s dom (a + 64) (8 * min 64 (fieldOf hdr 4 1))
    match sessionRegions s dom hdr body with
    | none => failWith stBAD_OPERATOR 0x98
    | some l => do
      let park := op == 0x14
      need ((l.map (·.1)).Nodup && l.all fun p => p.2.park == (if park then .active else .parked)) (.report stBAD_OPERATOR 0x92 0 0)
      need (!flashGone s || fieldOf hdr 8 8 != 0) (.report stMEDIA_ERROR 0x95 0 0)
      let s1 := putCmd (useRange s dom a (64 + 8 * l.length)) 14 tag { c with phase := .running }
      let mv := if park then parkMoves s1 c.id (fieldOf hdr 8 8) l 0 else unparkMoves s1 c.id l
      .ok (runMoves { s1 with tir := { s1.tir with
        regions := s1.tir.regions.map fun p => (p.1, if l.any fun x => x.1 == p.1 then
          { p.2 with park := if park then .parking else .unparking, cmd := c.id } else p.2)
        moves := s1.tir.moves ++ mv } })

/-! ### Region commands -/

/-- A descriptor of `n` bytes at an address that a command register gives (R397): none where it cannot be read. -/
def readDesc (s : State) (dom a n : Nat) (host busError : Bool) : Option (List Byte) :=
  if a % 64 != 0 then none
  else if host then (if busError then none else some (hostRead s a n))
  else uBytes s dom a n

/-- Fields of a region descriptor (R373). -/
def rdBase (b : List Byte) : Nat := fieldOf b 8 8
def rdLen (b : List Byte) : Nat := fieldOf b 0x10 8

/-- The region a descriptor describes, with the home its pages begin at: none outside R373 and R374. -/
def parseRegion (dom : Nat) (b : List Byte) : Option Region :=
  let cls := fieldOf b 4 1
  let bk := fieldOf b 5 1
  let home := fieldOf b 6 1
  let fl := fieldOf b 7 1
  let host := fieldOf b 0x18 8
  let rem := fieldOf b 0x20 8
  let pre := bitAt fl 0
  let rc := bitAt fl 1
  let combo := match cls with
    | 0 => bk ≤ 2 && home == 0 && (!pre || bk != 0) && !rc
    | 1 => bk == 0 && 1 ≤ home && home ≤ 3 && !pre && !rc
    | 2 => (bk == 2 || bk == 3) && home == 0 && !pre
    | _ => false
  let hosted := bk == 2 || home == 3
  if fieldOf b 0 4 != 1 || fl ≥ 4 || rdBase b ≥ 2 ^ 56 || rdBase b % 65536 != 0 || rdLen b = 0 || rdLen b % 65536 != 0
      || (if hosted then host % 65536 != 0 else host != 0) || (if bk == 3 then rem ≥ 2 ^ 60 else rem != 0)
      || fieldOf b 0x28 24 != 0 || rdBase b + rdLen b > 2 ^ 55 || !combo then none
  else some { dom := dom, cls := cls, backing := bk, home := home, preload := pre, rcache := rc, base := rdBase b, len := rdLen b
              host := host, remote := rem % 2 ^ 48, node := rem / 2 ^ 48 }

/-- The region needs stack frames from the first (R374, R385). -/
def needsFrames (r : Region) : Bool := (r.cls = 0 && r.backing = 0) || (r.cls = 1 && r.home = 1)
/-- Frames of the cache pool that a domain may use (R382). -/
def poolFrames (s : State) (dom : Nat) : Nat :=
  let st := domStacks s dom
  let taken := (s.tir.pages.flatMap fun p => (if cached s p.1 then [] else p.2.frame.toList)
    ++ match p.2.mig with | some m => m.frame.toList ++ m.old.toList | none => []).eraseDups
  st.length * 2 ^ 21 - (taken.filter fun f => st.contains (f / 2 ^ 21)).length

/-- Give the pages of a new region their homes. -/
def homePages (r : Region) : List Nat → State → Option State
  | [], s => some s
  | k :: ks, s =>
    if needsFrames r then
      match allocFrame s r.dom with
      | none => none
      | some (f, s1) => homePages r ks (setPage s1 k { frame := some f, present := BitVec.allOnes 16, home := r.home })
    else if r.cls = 1 then
      homePages r ks (setPage s k { home := r.home, hostAddr := if r.home = 3 then r.host + (pageAddr k - r.base) else 0 })
    else some s

/-- The region of a domain that a remove names: the same BASE and LENGTH. -/
def exactRegion (s : State) (dom : Nat) (b : List Byte) : Option (Nat × Region) :=
  s.tir.regions.find? fun p => p.2.dom == dom && p.2.base == rdBase b && p.2.len == rdLen b
/-- An address lies in a region. -/
def inRegion (r : Region) (a : Nat) : Bool := r.base ≤ a && a < r.base + r.len
/-- Two ranges meet. -/
def crosses (a n b m : Nat) : Bool := a < b + m && b < a + n

/-- Addresses that a command names in its descriptor and in the blocks and lists that it points to (R375). -/
def namedAddrs (s : State) (t : Token) : List Nat :=
  let l := fun i => laneBits t.desc i 0 56
  let top := laneBits t.desc 0 56 8
  let w := fun a => uNum s t.dom a 8 % 2 ^ 56
  let words := fun a n stride off => (List.range n).map fun i => w (a + stride * i + off)
  let sp := fun i => laneBits t.desc 2 i 2 == 0
  let list := fun lane n space => l lane :: if sp space then words (l lane) n 16 0 else []
  l 3 :: match t.kind, t.op.toNat with
  | .scan, 2 => []
  | .scan, _ => [l 0]
  | .rank, _ => [l 2]
  | .lrank, 0 => [l 0]
  | .lrank, _ => l 0 :: words (l 0) (laneBits t.desc 1 0 13) 32 8 ++ words (l 0) (laneBits t.desc 1 0 13) 32 16
  | .sel, 1 => [l 2]
  | .sel, _ => [l 1, l 2]
  | .merge, 1 => l 0 :: l 1 :: words (l 0) top 16 0
  | .merge, 2 => [l 0, l 2]
  | .merge, 3 => l 0 :: words (l 0) 3 8 0x10
  | .merge, _ => l 0 :: l 1 :: words (l 0) top 8 0
  | .uniq, _ => l 0 :: l 1 :: words (l 0) top 8 0
  | .gath, _ => l 0 :: words (l 0) 6 8 0x10
  | .scat, _ => l 0 :: words (l 0) 6 8 0x10
  | .move, 0 => (if sp 32 then [l 0] else []) ++ if sp 34 then [l 1] else []
  | .move, 1 => list 0 (laneBits t.desc 2 0 17) 34 ++ list 1 (laneBits t.desc 2 17 17) 36
  | .move, 0x11 => [l 1]
  | .move, 0x14 => l 0 :: words (l 0) (min 64 (uNum s t.dom (l 0 + 4) 1)) 8 64
  | .move, 0x15 => l 0 :: words (l 0) (min 64 (uNum s t.dom (l 0 + 4) 1)) 8 64
  | .move, 0x16 => if top = 0 then (List.range (min 65536 (laneBits t.desc 1 0 32))).map fun i => l 0 + 65536 * i else [l 0]
  | .move, 0x10 => [l 0]
  | .move, _ => []
  | .enc, 0 => l 0 :: words (l 0) 7 8 0x20
  | .enc, 2 => l 0 :: words (l 0) 7 8 0x20
  | .enc, 1 => l 0 :: words (l 0) 4 8 0x10
  | .enc, _ => l 0 :: words (l 0) 2 8 0x10 ++ words (l 0) 1 8 0x28
  | .maxsim, _ => l 0 :: words (l 0) 2 8 0x10 ++ words (w (l 0 + 0x18)) (uNum s t.dom (l 0 + 8) 4) 32 8

/-- What refuses the removal of a region (R375). -/
def regionBusy (s : State) (r : Region) : Bool :=
  s.tir.indexes.any (fun p => p.2.dom == r.dom && (crosses p.2.root (64 * p.2.lists) r.base r.len
    || crosses p.2.cent (p.2.lists * round64 (2 * p.2.dim)) r.base r.len || crosses p.2.dir (p.2.dirEnd - p.2.dir) r.base r.len))
  || s.cmds.any (fun p => p.2.any fun c => c.phase != .finishing && c.tok.dom == r.dom && (namedAddrs s c.tok).any (inRegion r))
  || s.stk.ranks.any (fun p => p.2.tok.dom == r.dom && (namedAddrs s p.2.tok).any (inRegion r))
  || r.cmd != 0
  || s.tir.pages.any (fun p => p.2.mig.isSome && pageDom p.1 == r.dom && inRegion r (pageAddr p.1))
  || s.tir.moves.any fun m => pageDom m.page == r.dom && inRegion r (pageAddr m.page)

/-- The pages TIR knows of in the part of a range that lies in regions of a domain. -/
def rangePages (s : State) (dom a n : Nat) : List Nat :=
  (s.tir.pages.map (·.1)).filter fun k => pageDom k == dom && a ≤ pageAddr k && pageAddr k < a + n && (pageRegion s k).isSome

/-- Discard the stack copy of a page (R383, R397): of write-back pages with a backing, and of cached mappings. -/
def invalidate (s : State) (k : Nat) : State := if cached s k then dropCopy s k else s

/-- Outcome of a region command: status, reason, and the state with its effects. -/
def createRegion (s : State) (dom : Nat) (b : List Byte) : Nat × Nat × State :=
  match parseRegion dom b with
  | none => (stBAD_OPERATOR, 0x90, s)
  | some r =>
    if s.tir.regions.length ≥ 65536 || s.tir.regions.any (fun p => p.2.dom == dom && crosses p.2.base p.2.len r.base r.len) then
      (stBAD_OPERATOR, 0x90, s)
    else if needsFrames r && poolFrames s dom < r.len / 65536 then (stBAD_OPERATOR, 0x91, s)
    else match homePages r (regionPages r) s with
      | none => (stBAD_OPERATOR, 0x91, s)
      | some s1 => (stOK, 0, { s1 with tir := { s1.tir with
          regions := tins s1.tir.regions s1.tir.nextRegion r, nextRegion := s1.tir.nextRegion + 1 } })

/-- Removal: the stack frames are scrubbed, the flash pages discarded (R375). -/
def dropRegion (s : State) (id : Nat) : State :=
  match tfind s.tir.regions id with
  | none => s
  | some r =>
    let mine := (s.tir.pages.map (·.1)).filter fun k => pageDom k == r.dom && inRegion r (pageAddr k)
    let s1 := flashDrop (mine.foldl dropCopy s) r.dom r.base r.len
    { s1 with tir := { s1.tir with
      pages := s1.tir.pages.filter fun p => !mine.contains p.1, regions := tdel s1.tir.regions id } }

/-- The checks a region command makes as it starts (R375): status, reason, and the region that a remove names. -/
def regionChecks (s : State) (op dom : Nat) (b : Option (List Byte)) : Nat × Nat × Nat :=
  if !domActive s dom then (stBAD_OPERATOR, 0xE3, 0)
  else match b with
    | none => (stBAD_OPERATOR, 0x90, 0)
    | some b => match op with
      | 1 => (stOK, 0, 0)
      | 2 => match exactRegion s dom b with
        | none => (stBAD_OPERATOR, 0x90, 0)
        | some (id, r) => if regionBusy s r then (stBAD_OPERATOR, 0x99, 0) else (stOK, 0, id)
      | _ =>
        if rdBase b % 65536 != 0 || rdLen b = 0 || rdLen b % 65536 != 0
            || !s.tir.regions.any (fun p => p.2.dom == dom && crosses p.2.base p.2.len (rdBase b) (rdLen b)) then (stBAD_OPERATOR, 0x90, 0)
        else (stOK, 0, 0)

/-- A write of `TIR_RGN_CMD` that names an operation (R397, R656): the command starts, and a remove that will succeed refuses
every new use of its region from now on. -/
def regionBegin (op : Nat) (s : State) : State :=
  if fget s F.TIR_RGN_STAT_BUSY = 1 then s
  else
    let dom := fget s F.TIR_RGN_CMD_DOMAIN
    let a := fget s F.TIR_RGN_DESC_LO_V + 2 ^ 32 * fget s F.TIR_RGN_DESC_HI_V
    let host := fget s F.TIR_RGN_DESC_HI_HOST
    let id := if op = 2 then (match regionChecks s 2 dom (readDesc s dom a 64 (host == 1) false) with | (0, _, i) => i | _ => 0) else 0
    let s1 := fset s F.TIR_RGN_STAT_BUSY 1
    { s1 with tir := { s1.tir with
      rgnCmd := some { op := op, arg := dom, args := [a, host, id] }
      regions := if id = 0 then s1.tir.regions else tmod s1.tir.regions id fun r => { r with removing := true } } }

/-- The effect of a region command as it completes (R375, R397). -/
def regionEffect (c : RegCmd) (busError : Bool) (s : State) : Nat × Nat × State :=
  match c.args with
  | [a, host, id] =>
    let s0 : State := { s with tir := { s.tir with regions := tmod s.tir.regions id fun r => { r with removing := false } } }
    let d := readDesc s0 c.arg a 64 (host == 1) busError
    if 5 < c.op || c.op = 0 then (stBAD_OPERATOR, 0, s0)
    else match regionChecks s0 c.op c.arg d, d with
      | (0, _, _), some b => match c.op with
        | 1 => createRegion s0 c.arg b
        | 2 => if id = 0 then (stBAD_OPERATOR, 0x90, s0) else (stOK, 0, dropRegion s0 id)
        | 3 => (stOK, 0, (rangePages s0 c.arg (rdBase b) (rdLen b)).foldl writeBack s0)
        | 4 => (stOK, 0, (rangePages s0 c.arg (rdBase b) (rdLen b)).foldl invalidate s0)
        | _ => (stOK, 0, (rangePages s0 c.arg (rdBase b) (rdLen b)).foldl (fun s k => invalidate (writeBack s k) k) s0)
      | (st, rs, _), _ => (st, rs, s0)
  | _ => (stBAD_OPERATOR, 0, s)

/-- REGION_COMMAND_COMPLETE (R375, R398, R656). -/
def regionComplete (busError : Bool) (s : State) : State :=
  match s.tir.rgnCmd with
  | none => s
  | some c =>
    let (st, rs, s1) := regionEffect c busError s
    let s2 : State := { s1 with tir := { s1.tir with rgnCmd := none } }
    fset (fset (fset s2 F.TIR_RGN_STAT_STATUS st) F.TIR_RGN_STAT_REASON rs) F.TIR_RGN_STAT_BUSY 0

/-- A write of `TIR_RGN_CMD` with the operation of a row. -/
def regionWrite (op : Nat) (v : W32) (s : State) : State :=
  hostReg s .TIR_RGN_CMD (.reg .TIR_RGN_CMD 0 (if bitsOf v.toNat 12 4 = op then v else v &&& 0xFFFF0FFF)) fun s =>
    let s1 := regWritePlain s .TIR_RGN_CMD 0 v
    if bitsOf v.toNat 12 4 = op && op != 0 then regionBegin op s1 else s1

/-! ### Rows -/

/-- PARK. -/
def execPark (tag : W32) (s : State) : Out := .next (parkCmd 0x14 tag.toNat s)
/-- UNPARK. -/
def execUnpark (tag : W32) (s : State) : Out := .next (parkCmd 0x15 tag.toNat s)
/-- UPDRAFT_PAGE. -/
def execUpdraftPage (tag : W32) (s : State) : Out := .next (updraftPage tag.toNat s)
/-- REGION_CREATE. -/
def execRegionCreate (v : W32) (s : State) : Out := .next (regionWrite 1 v s)
/-- REGION_REMOVE. -/
def execRegionRemove (v : W32) (s : State) : Out := .next (regionWrite 2 v s)
/-- REGION_CLEAN. -/
def execRegionClean (v : W32) (s : State) : Out := .next (regionWrite 3 v s)
/-- REGION_INVALIDATE. -/
def execRegionInvalidate (v : W32) (s : State) : Out := .next (regionWrite 4 v s)
/-- REGION_CLEAN_INVALIDATE. -/
def execRegionCleanInvalidate (v : W32) (s : State) : Out := .next (regionWrite 5 v s)
/-- REGION_COMMAND_COMPLETE. -/
def execRegionCommandComplete (busError : Bool) (s : State) : Out := .next (regionComplete busError s)
/-- MIGRATION_PASS_END. -/
def execMigrationPassEnd (page : Nat) (s : State) : Out := .next (migrationPassEnd page s)
/-- MIGRATION_FLIP. -/
def execMigrationFlip (page : Nat) (s : State) : Out := .next (migrationFlip page s)
/-- MIGRATION_DRAIN. -/
def execMigrationDrain (page : Nat) (s : State) : Out := .next (migrationDrain page s)
/-- A write of `TIR_MIG_STAT` with CLR (R400). -/
def execMigFinalMaxClr (v : W32) (s : State) : Out := .next (hostReg s .TIR_MIG_STAT (.reg .TIR_MIG_STAT 0 v) fun s =>
  let s1 := regWritePlain s .TIR_MIG_STAT 0 v
  if v.getLsbD 31 then fset s1 F.TIR_MIG_STAT_FINAL_MAX 0 else s1)

end Sys2Proof.Machine
end

