-- ==== Sys2Proof/Machine/Indexes.lean ====
section
/-!
DEFINITION. The index commands of the register file (R146 to R151, R173 to R178): install, remove, and the domain override.
-/

namespace Sys2Proof.Machine

open Sys2Proof

/-! ### The descriptor (R147, R148, R204) -/

/-- The valid slots of REPLICAS, in order. -/
def replicaSlots (b : List Byte) : List Nat :=
  ((List.range 4).filter fun k => bitAt (fieldOf b (0x50 + 2 * k) 2) 15).map fun k => fieldOf b (0x50 + 2 * k) 2 % 4096
/-- The slots below `repl` are VALID, the others zero, and no reserved bit is set. -/
def replicasWf (b : List Byte) (repl : Nat) : Bool :=
  (List.range 4).all fun k =>
    let w := fieldOf b (0x50 + 2 * k) 2
    if k < repl then bitAt w 15 && bitsOf w 12 3 == 0 else w == 0

/-- The fields of a descriptor are in their ranges and its reserved fields zero. -/
def descWf (b : List Byte) (i : Nat) : Bool :=
  let dim := fieldOf b 8 2
  let lists := fieldOf b 0x10 4
  fieldOf b 0 4 == 1 && fieldOf b 4 1 == i && decide (fieldOf b 5 1 ≤ 3) && decide (fieldOf b 6 1 < 32) && decide (fieldOf b 7 1 ≤ 1)
    && decide (32 ≤ dim) && decide (dim ≤ 4096) && dim % 32 == 0 && decide (fieldOf b 0xA 1 ≤ 2)
    && decide (1 ≤ fieldOf b 0xB 1) && decide (fieldOf b 0xB 1 ≤ 4) && decide (1 ≤ fieldOf b 0xC 1) && decide (fieldOf b 0xC 1 ≤ 4)
    && fieldOf b 0xD 1 == 0 && fieldOf b 0xE 2 != 0xFFFF && decide (1 ≤ lists) && decide (lists ≤ 2 ^ 24) && fieldOf b 0x14 4 == 0
    && fieldOf b 0x18 8 % 64 == 0 && fieldOf b 0x20 8 % 64 == 0 && fieldOf b 0x28 8 % 4096 == 0
    && replicasWf b (fieldOf b 0xC 1) && fieldOf b 0x58 8 == 0 && fieldOf b 0x62 2 == 0 && decide (fieldOf b 0x64 4 ≤ 262144)
    && fieldOf b 0x6C 20 == 0

/-- The index that a descriptor describes. -/
def parseIndex (s : State) (dom : Nat) (b : List Byte) : Index :=
  let dir := fieldOf b 0x28 8
  let pm := fieldOf b 0x60 2
  let hm := fieldOf b 0x64 4
  let ct := fieldOf b 0x68 4
  let fl := fieldOf b 6 1
  { dom := dom, width := fieldOf b 5 1, flags := fl, recFmt := fieldOf b 7 1, dim := fieldOf b 8 2, metric := fieldOf b 0xA 1
    spill := fieldOf b 0xB 1, repl := fieldOf b 0xC 1, shard := fieldOf b 0xE 2, lists := fieldOf b 0x10 4, root := fieldOf b 0x18 8
    cent := fieldOf b 0x20 8, dir := dir
    dirEnd := match regionAt s dom dir with | some (_, r) => r.base + r.len | none => dir
    levels := (List.range 16).map fun k => fieldOf b (0x30 + 2 * k) 2
    replicas := replicaSlots b, permille := if pm = 0 then 50 else pm, hazeMax := if hm = 0 then 65536 else hm
    commitTmo := if ct = 0 then 1000 else ct, ovrCmd := bitAt fl 2, ovr := bitAt fl 2 }

/-- The tables of an index lie in its domain's unified range (R148, R151, R167). -/
def tablesIn (s : State) (x : Index) : Bool :=
  pagesIn s x.dom x.root (64 * x.lists) && pagesIn s x.dom x.cent (x.lists * round64 (2 * x.dim))
    && decide (x.dir < x.dirEnd) && pagesIn s x.dom x.dir (x.dirEnd - x.dir)

/-- A valid slot names this node, and no two valid slots name the same node. -/
def namesNode (s : State) (x : Index) : Bool :=
  match myNode s with
  | some n => x.replicas.contains n && decide x.replicas.Nodup
  | none => false

/-- Install (R148, R149): none where it is refused. Every list is empty and the directory is empty; the index takes the default flash
policy of the node (R426). -/
def installIndex (s : State) (dom i a : Nat) : Option State :=
  if !domActive s dom || a % 64 != 0 then none
  else match uBytes s dom a 128 with
    | none => none
    | some b =>
      let x := parseIndex s dom b
      let total := s.tir.indexes.foldl (fun n p => n + p.2.lists) 0
      if !descWf b i || !namesNode s x || !tablesIn s x || (tfind s.tir.indexes i).isSome || total + x.lists > 2 ^ 24 then none
      else
        let s1 := uPoke s dom x.root (List.replicate (64 * x.lists) (0 : Byte))
        let s2 := setIndex (uPoke s1 dom x.dir (List.replicate (x.dirEnd - x.dir) (0 : Byte))) i x
        some (rset s2 .FLS_POL i (rget s2 .FLS_POL 256))

/-! ### Removal (R175) -/

/-- What refuses a removal: a pin, a merge in progress, an append that is not committed, a batch in doubt. -/
def indexBusy (s : State) (i : Nat) : Bool :=
  s.tir.pins.any (fun p => p.2.index == i) || s.tir.merges.any (fun p => p.1 / 2 ^ 24 == i)
    || s.tir.batches.any fun p => p.2.index == i && p.2.phase != .dead

/-- The index is the domain's. -/
def ownIndex (s : State) (dom i : Nat) : Bool :=
  match tfind s.tir.indexes i with
  | some x => domActive s dom && x.dom == dom
  | none => false

/-- Scrub the index area and drop what TIR keeps of an index (R175, R551). -/
def removeIndex (s : State) (i : Nat) : State :=
  let x := idx s i
  let mine := (s.tir.pages.map (·.1)).filter fun k => pageDom k == x.dom && areaAt s x.dom (pageAddr k) == some i
  let s1 := flashDrop (mine.foldl dropCopy s) x.dom (areaBase i) (2 ^ 47)
  { s1 with tir := { s1.tir with
    pages := s1.tir.pages.filter fun p => !mine.contains p.1
    indexes := tdel s1.tir.indexes i
    batches := s1.tir.batches.filter fun p => p.2.index != i
    cuts := s1.tir.cuts.filter fun p => p.1 / 2 ^ 24 != i
    retired := s1.tir.retired.filter fun p => p.1 / 2 ^ 24 != i } }

/-! ### Commands -/

/-- A write of `TIR_IDX_CMD` that names an operation (R174, R175, R656). A remove that will succeed refuses every new use of the
index from now on. -/
def indexBegin (op : Nat) (s : State) : State :=
  if fget s F.TIR_IDX_STAT_BUSY = 1 then s
  else
    let i := fget s F.TIR_IDX_CMD_INDEX
    let dom := fget s F.TIR_IDX_CMD_DOMAIN
    let a := rpair s .TIR_IDX_DESC_LO .TIR_IDX_DESC_HI
    let go := op == 2 && ownIndex s dom i && !indexBusy s i
    let s1 := fset s F.TIR_IDX_STAT_BUSY 1
    { s1 with tir := { s1.tir with
      idxCmd := some { op := op, arg := i, args := [dom, a, if go then 1 else 0] }
      indexes := if go then tmod s1.tir.indexes i fun x => { x with removing := true } else s1.tir.indexes } }

/-- The effect of an index command as it completes. -/
def indexEffect (c : RegCmd) (s : State) : Option State :=
  match c.op, c.args with
  | 1, [dom, a, _] => installIndex s dom c.arg a
  | 2, [_, _, 1] => some (removeIndex s c.arg)
  | 3, [dom, _, _] => if ownIndex s dom c.arg then some (setIndex s c.arg { idx s c.arg with ovrCmd := true, ovrNext := some true }) else none
  | 4, [dom, _, _] => if ownIndex s dom c.arg then some (setIndex s c.arg { idx s c.arg with ovrCmd := false, ovrNext := some false }) else none
  | _, _ => none

/-- INDEX_COMMAND_COMPLETE (R177). -/
def indexComplete (s : State) : State :=
  match s.tir.idxCmd with
  | none => s
  | some c =>
    let (st, s1) := match indexEffect c s with
      | some s1 => (stOK, s1)
      | none => (stBAD_OPERATOR, s)
    fset (fset { s1 with tir := { s1.tir with idxCmd := none } } F.TIR_IDX_STAT_STATUS st) F.TIR_IDX_STAT_BUSY 0

/-- A write of `TIR_IDX_CMD` with the operation of a row. -/
def indexWrite (op : Nat) (v : W32) (s : State) : State :=
  hostReg s .TIR_IDX_CMD (.reg .TIR_IDX_CMD 0 (if bitsOf v.toNat 20 4 = op then v else v &&& 0xFF0FFFFF)) fun s =>
    let s1 := regWritePlain s .TIR_IDX_CMD 0 v
    if bitsOf v.toNat 20 4 = op && op != 0 then indexBegin op s1 else s1

/-- INDEX_INSTALL. -/
def execIndexInstall (v : W32) (s : State) : Out := .next (indexWrite 1 v s)
/-- INDEX_REMOVE. -/
def execIndexRemove (v : W32) (s : State) : Out := .next (indexWrite 2 v s)
/-- OVERRIDE_SET. -/
def execOverrideSet (v : W32) (s : State) : Out := .next (indexWrite 3 v s)
/-- OVERRIDE_CLEAR. -/
def execOverrideClear (v : W32) (s : State) : Out := .next (indexWrite 4 v s)
/-- INDEX_COMMAND_COMPLETE. -/
def execIndexCommandComplete (s : State) : Out := .next (indexComplete s)
/-- A write of any value clears `TIR_IDX_OVL` of the selected index (R178). -/
def execTirIdxOvlClear (v : W32) (s : State) : Out :=
  .next (hostReg s .TIR_IDX_OVL (.reg .TIR_IDX_OVL 0 v) fun s => fset s F.TIR_IDX_OVL_V 0 (fget s F.TIR_IDX_CMD_INDEX))

end Sys2Proof.Machine
end

