-- ==== Sys2Proof/Machine/Dma.lean ====
section
/-!
DEFINITION. DMA (R506 to R512): the copies of MOVE operations 0x00 and 0x01, the stop of the whole engine at a bus error,
and its restart.
-/

namespace Sys2Proof.Machine

open Sys2Proof

/-- One piece of a copy: its space (0 unified, 1 host, 2 tile), address and length (R506 to R508). -/
structure Span where
  space : Nat := 0
  addr : Nat := 0
  len : Nat := 0
deriving DecidableEq, Repr

/-- The fields of a piece are in their ranges (R507, R509). -/
def spanWf (p : Span) : Bool := p.space != 3 && p.len != 0 && (p.space == 1 || decide (p.addr < 2 ^ 56))

/-- Physical byte of a range at a tile address of a job, or none where the checker refuses it (R65, R116). -/
def tilePhys (s : State) (tag a n : Nat) : Option Nat :=
  match (jobOf s tag).bind fun j => tokGrantOf s j (bitsOf a 24 3) with
  | none => none
  | some g =>
    if g.cls != 1 || a ≥ 2 ^ 27 || a % 65536 + n > 65536 then none
    else match g.insts[bitsOf a 16 8]? with
      | none => none
      | some r => if ownerOf s 1 r = .job tag then some (r * 65536 + a % 65536) else none

/-- The bytes of a source piece. -/
def readSpan (s : State) (tag dom : Nat) (p : Span) : Work (List Byte) :=
  match p.space with
  | 0 => operand s dom p.addr p.len
  | 1 => .ok (hostRead s p.addr p.len)
  | _ => match tilePhys s tag p.addr p.len with
    | none => .error (.violates 1 (bitsOf p.addr 16 8))
    | some a => if tileBad s a p.len then .error (.ue 20) else .ok (tileBytes s a p.len)

/-- A destination piece may be written. -/
def checkSpan (s : State) (tag dom chan : Nat) (p : Span) : Work Unit :=
  match p.space with
  | 0 => writable s dom p.addr p.len 8 chan
  | 1 => .ok ()
  | _ => need (tilePhys s tag p.addr p.len).isSome (.violates 1 (bitsOf p.addr 16 8))

/-- Write a destination piece. -/
def writeSpan (s : State) (tag dom : Nat) (p : Span) (bs : List Byte) : State :=
  match p.space with
  | 0 => uPoke s dom p.addr bs
  | 1 => hostWrite s (pasidOf s dom) p.addr bs
  | _ => match tilePhys s tag p.addr p.len with
    | none => s
    | some a => tileWrite s a bs

/-- What reading a source piece does beyond its bytes: the tiles it needs are brought in; a host read is rounded outward (R510). -/
def touchSpan (s : State) (dom : Nat) (p : Span) : State :=
  match p.space with
  | 0 => useRange s dom p.addr p.len
  | 1 => emit s (.hostRead (pasidOf s dom) (p.addr / 64 * 64) (cdiv (p.addr % 64 + p.len) 64 * 64))
  | _ => s

/-- Two pieces overlap. -/
def spansMeet (p q : Span) : Bool := p.space == q.space && crosses p.addr p.len q.addr q.len
/-- Bytes of a list of pieces. -/
def spanTotal (l : List Span) : Nat := l.foldl (fun n p => n + p.len) 0

/-- Write a byte stream into destination pieces, in list order. -/
def pourSpans (tag dom : Nat) : List Span → List Byte → State → State
  | [], _, s => s
  | p :: ps, bs, s => pourSpans tag dom ps (bs.drop p.len) (writeSpan s tag dom p (bs.take p.len))

/-- The bytes of every source piece, in list order. -/
def gatherSpans (s : State) (tag dom : Nat) : List Span → Work (List Byte)
  | [] => .ok []
  | p :: ps => do
    let a ← readSpan s tag dom p
    let b ← gatherSpans s tag dom ps
    .ok (a ++ b)

/-- What a copy writes: the stream, or, when source and destination overlap, free bytes (R509). -/
def copyData (s : State) (src dst : List Span) (bs : List Byte) : List Byte :=
  if src.any fun p => dst.any (spansMeet p) then freeBytes s bs.length else bs

/-- Pieces of a copy list (R508); a reserved field that is not zero gives a piece of length zero. -/
def listSpans (space n : Nat) (b : List Byte) : List Span :=
  (List.range n).map fun i =>
    { space := space, addr := fieldOf b (16 * i) 8, len := if fieldOf b (16 * i + 12) 4 = 0 then fieldOf b (16 * i + 8) 4 else 0 }

/-- Source and destination of a MOVE copy command, checked (R507 to R509). -/
def copySpans (s : State) (c : Cmd) : Work (List Span × List Span) :=
  let d := c.tok.desc
  if c.tok.op = 0 then do
    let n := laneBits d 2 0 32
    let p : Span := { space := laneBits d 2 32 2, addr := lane64 d 0, len := n }
    let q : Span := { space := laneBits d 2 34 2, addr := lane64 d 1, len := n }
    need (spanWf p && spanWf q && laneBits d 2 36 28 == 0) (.report stBAD_OPERATOR 0xD0 0 0)
    .ok ([p], [q])
  else do
    let sn := laneBits d 2 0 17
    let dn := laneBits d 2 17 17
    need (laneBits d 0 56 8 == 0 && laneBits d 1 56 8 == 0 && laneBits d 0 0 6 == 0 && laneBits d 1 0 6 == 0
      && 1 ≤ sn && sn ≤ 65536 && 1 ≤ dn && dn ≤ 65536 && laneBits d 2 38 26 == 0) (.report stBAD_OPERATOR 0xD0 0 0)
    let sb ← operand s c.tok.dom (lane64 d 0) (16 * sn)
    let db ← operand s c.tok.dom (lane64 d 1) (16 * dn)
    let src := listSpans (laneBits d 2 34 2) sn sb
    let dst := listSpans (laneBits d 2 36 2) dn db
    need (src.all spanWf && dst.all spanWf) (.report stBAD_OPERATOR 0xD0 0 0)
    need (spanTotal src == spanTotal dst) (.report stBAD_OPERATOR 0xD1 0 0)
    .ok (src, dst)

/-- Check every destination piece. -/
def checkSpans (s : State) (tag dom chan : Nat) : List Span → Work Unit
  | [] => .ok ()
  | p :: ps => do
    checkSpan s tag dom chan p
    checkSpans s tag dom chan ps

/-- The engine stands stopped after a bus error (R511). -/
def dmaStopped (s : State) : Bool := fget s F.DMA_ERR_VALID == 1

/-- The copy at the head of a channel, read and checked: its pieces and its stream. -/
def copyPlan (s : State) (chan : Nat) (c : Cmd) : Work (List Span × List Span × List Byte) := do
  let (src, dst) ← copySpans s c
  let bs ← gatherSpans s c.tok.job c.tok.dom src
  checkSpans s c.tok.job c.tok.dom chan dst
  .ok (src, dst, bs)

/-- A copy command of a DMA channel (R506 to R510). -/
def dmaCopy (op chan : Nat) (s : State) : State :=
  if dmaStopped s then s
  else engine 8 chan .move op (fun s c => do
    let (src, dst, bs) ← copyPlan s chan c
    let data := copyData s src dst bs
    let s1 := src.foldl (fun s p => touchSpan s c.tok.dom p) (if data = bs then s else freeNext s)
    .ok (endCmd (pourSpans c.tok.job c.tok.dom dst data s1) 8 chan c stOK 0 (spanTotal src) 0)) s

/-! ### Bus error (R511, R512) -/

/-- Each byte holds its earlier value or the new one: which is free. -/
def mixBytes (s : State) (old new : List Byte) : List Byte :=
  (List.range new.length).map fun i => if (freeWord s i).getLsbD 0 then new.getD i 0 else old.getD i 0

/-- The destination of a copy that a stop interrupts: each byte old or new; the bytes that the failing read was to feed, `keep` of the
stream, stay old. -/
def partCopy (s : State) (chan : Nat) (keep : Nat → Bool) : State :=
  match engHead s 8 chan with
  | none => s
  | some c => match copyPlan s chan c with
    | .error _ => s
    | .ok (src, dst, bs) => match gatherSpans s c.tok.job c.tok.dom dst with
      | .error _ => s
      | .ok old =>
        let new := (List.range bs.length).map fun i => if keep i then old.getD i 0 else (copyData s src dst bs).getD i 0
        pourSpans c.tok.job c.tok.dom dst (mixBytes (freeNext s) old new) (freeNext (freeNext s))

/-- Bytes of the stream that the 64-byte read at `a`, of source piece `idx`, was to feed. -/
def fedBytes (s : State) (chan idx a : Nat) (i : Nat) : Bool :=
  match engHead s 8 chan with
  | none => false
  | some c => match copySpans s c with
    | .error _ => false
    | .ok (src, _) =>
      let before := spanTotal (src.take idx)
      match src[idx]? with
      | none => false
      | some p => before ≤ i && i < before + p.len && (p.addr + (i - before)) / 64 == a / 64

/-- Jobs whose MOVE commands are in progress at a stop: on the failing channel and those of `started`, at a finishing copy, or at TIR. -/
def dmaJobs (s : State) (chans : List Nat) : List Nat :=
  (chans.filterMap fun k => (engHead s 8 k).map fun c => c.tok.job)
    ++ (s.cmds.flatMap fun p => if p.1 / 2 ^ 32 = 8 then (p.2.filter fun c => c.phase != .queued).map fun c => c.tok.job
      else if p.1 / 2 ^ 32 = 14 then (p.2.filter fun c => c.phase != .queued).map fun c => c.tok.job else [])

/-- DMA_BUS_ERROR: a read of piece `idx` at `addr` failed on a channel; `started` are the other channels whose first command had issued a
read. -/
def dmaBusError (chan idx addr : Nat) (started : List Nat) (s : State) : State :=
  if dmaStopped s then fbump s F.DMA_ERR_LATER
  else if (engHead s 8 chan).isNone then s
  else
    let others := started.filter fun k => k != chan && k < 64
    let jobs := (dmaJobs s (chan :: others)).eraseDups
    let s1 := partCopy s chan (fedBytes s chan idx addr)
    let s2 := others.foldl (fun s k => partCopy s k fun _ => false) s1
    let s3 := fset (fset (fset s2 F.DMA_ERR_CHANNEL chan) F.DMA_ERR_INDEX idx) F.DMA_ERR_VALID 1
    let s4 := fset (fset s3 F.DMA_ERR_ADDR_LO_V addr) F.DMA_ERR_ADDR_HI_V (addr / 2 ^ 32)
    let s5 := jobs.foldl (fun s t => faultJob s t 12 0x0C stDMA_ERR 0 8 chan addr) s4
    devEvent s5 0x04 stDMA_ERR 0 (bytesOf 8 (chan + idx % 2 ^ 32 * 2 ^ 16) ++ bytesOf 8 addr)

/-- MOVE_COPY. -/
def execMoveCopy (channel : BitVec 6) (s : State) : Out := .next (dmaCopy 0 channel.toNat s)
/-- MOVE_COPY_LIST. -/
def execMoveCopyList (channel : BitVec 6) (s : State) : Out := .next (dmaCopy 1 channel.toNat s)
/-- DMA_BUS_ERROR. -/
def execDmaBusError (channel : BitVec 6) (idx : Nat) (addr : W64) (started : List Nat) (s : State) : Out :=
  .next (dmaBusError channel.toNat idx addr.toNat started s)
/-- The engine restarts and goes on with its queues (R511). -/
def dmaRestart (s : State) : State := fset s F.DMA_ERR_VALID 0
/-- A write of `DMA_ERR` with RESTART (R512). -/
def execDmaRestart (v : W32) (s : State) : Out := .next (hostReg s .DMA_ERR (.reg .DMA_ERR 0 v) fun s =>
  let s1 := regWritePlain s .DMA_ERR 0 v
  if v.getLsbD 31 then dmaRestart s1 else s1)

end Sys2Proof.Machine
end

