-- ==== Sys2Proof/Machine/Sca.lean ====
section
/-!
DEFINITION. The scoring array (R326 to R350): layer products with their epilogues, sketch projection, centroid assignment,
model heads and MaxSim.
-/

namespace Sys2Proof.Machine

open Sys2Proof

/-! ### Formats (R328, R329) -/

/-- Bits per packed element of a format code. -/
def fmtBits (f : Nat) : Nat :=
  match f with
  | 0 => 16
  | 5 | 6 => 6
  | 7 => 4
  | 9 => 32
  | _ => 8
/-- A format with a scale per block of 32. -/
def fmtMx (f : Nat) : Bool := 3 ≤ f && f ≤ 7
/-- Bytes of a packed row of `n` elements, and its stride. -/
def rowBytes (f n : Nat) : Nat := cdiv (n * fmtBits f) 8
def rowStride (f n : Nat) : Nat := round64 (rowBytes f n)
/-- Element `i` of a packed row as a word. -/
def elemAt (f : Nat) (b : List Byte) (i : Nat) : Nat :=
  match fmtBits f with
  | 4 => bitsOf (fieldOf b (i / 2) 1) (4 * (i % 2)) 4
  | 6 => bitsOf (fieldOf b (3 * (i / 4)) 3) (6 * (i % 4)) 6
  | n => fieldOf b (i * (n / 8)) (n / 8)
/-- Value of an element word of a float format: bf16 subnormals are zero (R330). -/
def elemVal (f w : Nat) : Fv :=
  match f with
  | 0 => bf16z w
  | 1 | 3 => decodeFp fmtE4M3 w
  | 2 | 4 => decodeFp fmtE5M2 w
  | 5 => decodeFp fmtE3M2 w
  | 6 => decodeFp fmtE2M3 w
  | 7 => decodeFp fmtE2M1 w
  | _ => fp32 (BitVec.ofNat 32 w)

/-- A row of an operand: its elements and, for an MX format, its block scales. -/
structure Row where
  fmt : Nat
  elems : List Nat
  scales : List Nat := []
deriving DecidableEq, Repr

/-- Inner product of two rows of `k` elements (R330): block sums exact and rounded once, scaled, added in order; int8 exact
in 48 bits and converted once. -/
def rowDot (zx zw : Nat) (x w : Row) (k : Nat) : W32 :=
  if x.fmt = 8 then
    let t := (List.range k).foldl (fun (z : Int) i =>
      z + (signedOf 8 (x.elems.getD i 0) - signedOf 8 zx) * (signedOf 8 (w.elems.getD i 0) - signedOf 8 zw)) 0
    to32 (fvInt (signedOf 48 (t % 2 ^ 48).toNat) 0)
  else (List.range (k / 32)).foldl (fun acc b =>
    let sum := to32 (fvSum ((List.range 32).map fun i =>
      fvMul (elemVal x.fmt (x.elems.getD (32 * b + i) 0)) (elemVal w.fmt (w.elems.getD (32 * b + i) 0))))
    let sx := if fmtMx x.fmt then e8m0 (x.scales.getD b 255) else .fin false 1 0
    let sw := if fmtMx w.fmt then e8m0 (w.scales.getD b 255) else .fin false 1 0
    let scaled := if fmtMx x.fmt || fmtMx w.fmt then to32 (fvMul (fp32 sum) (fvMul sx sw)) else sum
    add32 acc scaled) 0

/-- A value as an output word (R330): bf16 rounds, fp8 E4M3 rounds and saturates, a NaN stays a NaN. -/
def outWord (f : Nat) (v : W32) : Nat :=
  match f with
  | 0 => if isNan32 v then nan32.toNat / 65536 % 65536 ||| 0x7FC0 else encodeFp fmtBf16 false 0 (fp32 v)
  | 1 => if isNan32 v then 0x7F ||| (nan32.toNat / 2 ^ 31 * 128) else encodeFp fmtE4M3 true 0x7F (fp32 v)
  | _ => v.toNat

/-- An output row in memory. -/
def outRow (f : Nat) (l : List W32) : List Byte := l.flatMap fun v => bytesOf (fmtBits f / 8) (outWord f v)

/-! ### Commands of a cluster -/

/-- The operands of a command's block lie where the job's domain has them. -/
def withinAll (s : State) (dom : Nat) : List (Nat × Nat) → Work Unit
  | [] => .ok ()
  | (a, n) :: l => if inRange s dom a n then withinAll s dom l else .error (.bad a)

/-- The job holds every working region of the cluster (R327). -/
def workRegions (s : State) (tag cl : Nat) : Work Unit :=
  match (List.range 128).find? fun i => ownerOf s 1 (6144 + 128 * cl + i) != .job tag with
  | some i => .error (.violates 1 (6144 + 128 * cl + i))
  | none => .ok ()

/-- After a command the working regions hold free bytes (R327). -/
def spoilRegions (s : State) (cl : Nat) : State :=
  (List.range 128).foldl (fun s i => freeNext (tileWrite s ((6144 + 128 * cl + i) * 65536) (freeBytes s 65536))) s

/-- Commands that stop in overcast mode are counted (R346, R350). -/
def ovcRefuse (cl : Nat) (kind : EngKind) (op : Nat) (s : State) : State :=
  if overcast s then match engHead s 5 cl with
    | some c => if c.tok.kind == kind && c.tok.op.toNat == op && c.phase == .queued then fbump s F.SCA_STAT_OVC_REF else s
    | none => s
  else s

/-- A tile whose second computation agreed is charged to its cell row (R340, R625). -/
def tileAgreed (s : State) (cl tag : Nat) (f : TileFault) : State :=
  chargeUnit (fbump s F.SCA_STAT_ABFT_MM) 3 (cl * 130 + f.row % 130) (jobPlanId s tag)
/-- A tile that failed twice stops the command (R340). -/
def tileFailed (s : State) (cl : Nat) (c : Cmd) (f : TileFault) : State :=
  faultRec (fbump s F.SCA_STAT_ABFT_UE)
    { block := 9, kind := 8, status := stUNCORRECTABLE, reason := 0x71, die := if cl < 4 then 0 else 1, cls := 5, inst := cl
      planId := jobPlanId s c.tok.job, dom := c.tok.dom, tag := c.tok.job, info := f.block }

/-! ### Layers (R331 to R337) -/

/-- A layer block. -/
structure Layer where
  epi : Nat
  fx : Nat
  fw : Nat
  fy : Nat
  m : Nat
  n : Nat
  k : Nat
  chunk : Nat
  wt : Bool
  acc : Bool
  zx : Nat
  zw : Nat
  eps : Nat
  scale : Nat
  x : Nat
  w : Nat
  y : Nat
  xs : Nat
  ws : Nat
  bias : Nat
  aux : Nat
deriving DecidableEq, Repr

/-- A layer block from its 128 bytes. -/
def parseLayer (b : List Byte) : Layer :=
  { epi := fieldOf b 4 1, fx := fieldOf b 5 1, fw := fieldOf b 6 1, fy := fieldOf b 7 1, m := fieldOf b 8 4, n := fieldOf b 0xC 4
    k := fieldOf b 0x10 4, chunk := fieldOf b 0x14 2, wt := bitAt (fieldOf b 0x16 1) 0, acc := bitAt (fieldOf b 0x16 1) 1
    zx := fieldOf b 0x18 1, zw := fieldOf b 0x19 1, eps := fieldOf b 0x1A 2, scale := fieldOf b 0x1C 4, x := fieldOf b 0x20 8
    w := fieldOf b 0x28 8, y := fieldOf b 0x30 8, xs := fieldOf b 0x38 8, ws := fieldOf b 0x40 8, bias := fieldOf b 0x48 8
    aux := fieldOf b 0x50 8 }

/-- The checks of R334 in their order: the reason of the first that fails. -/
def layerCheck (b : List Byte) (l : Layer) (proj : Bool) (inc : Nat) : Option Nat :=
  let sketchN := l.n == 256 || l.n == 512 || l.n == 1024 || l.n == 2048
  if !(fieldOf b 0 4 == 1 && l.epi ≤ 7 && l.fx ≤ 8 && l.fw ≤ 8 && 1 ≤ l.m && l.m ≤ 65536 && 1 ≤ l.n && l.n ≤ 65536 && 32 ≤ l.k
      && l.k ≤ 65536 && l.k % 32 == 0 && l.chunk % 128 == 0 && fieldOf b 0x16 1 < 4 && fieldOf b 0x17 1 == 0 && fieldOf b 0x58 40 == 0
      && (decodeFp fmt16 l.eps != .nan) && !isNan32 (BitVec.ofNat 32 l.scale) && (l.chunk == 0 || inc == 1)) then some 0x70
  else if ((l.fx == 8) != (l.fw == 8)) || (!proj && l.fy != 0 && l.fy != 1 && l.fy != 9) || (fmtMx l.fx && l.xs == 0)
      || (fmtMx l.fw && l.ws == 0) || (l.wt && fmtMx l.fw) then some 0x73
  else if (4 ≤ l.epi && l.n > 16384) || ((l.epi == 3 || l.epi == 5 || l.epi == 6) && l.aux == 0) || (l.acc && 2 ≤ l.epi)
      || (proj && (!sketchN || 2 ≤ l.epi)) then some 0x75
  else none

/-- Row `i` of an operand of `n` elements at `a`, with its scales at `sc` (R329). -/
def readRow (s : State) (dom f a sc n i : Nat) : Work Row := do
  let b ← operand s dom (a + i * rowStride f n) (rowBytes f n)
  let es := (List.range n).map (elemAt f b)
  if fmtMx f then
    let t ← operand s dom (sc + i * round64 (n / 32)) (n / 32)
    .ok { fmt := f, elems := es, scales := t.map (·.toNat) }
  else .ok { fmt := f, elems := es }

/-- The rows of an operand. -/
def readRows (s : State) (dom f a sc n : Nat) (is : List Nat) : Work (List Row) := is.mapM (readRow s dom f a sc n)

/-- W as N rows of K: as stored, or transposed from K rows of N. -/
def readW (s : State) (dom : Nat) (l : Layer) : Work (List Row) := do
  if l.wt then
    let rs ← readRows s dom l.fw l.w 0 l.n (List.range l.k)
    .ok ((List.range l.n).map fun j => { fmt := l.fw, elems := rs.map fun r => r.elems.getD j 0 })
  else readRows s dom l.fw l.w l.ws l.k (List.range l.n)

/-- fp32 words at an address. -/
def readF32 (s : State) (dom a n : Nat) : Work (List W32) := do
  let b ← operand s dom a (4 * n)
  .ok ((List.range n).map fun i => BitVec.ofNat 32 (fieldOf b (4 * i) 4))

/-- A row of fp32 words as one number, the argument of a row function whose arithmetic the manual does not fix. -/
def rowNum (l : List W32) : Nat := l.foldl (fun n w => n * 2 ^ 32 + w.toNat) 1

/-- The epilogue of a row `v` = a + b, with residual or norm parameters (R332). The arithmetic inside GELU, softmax and the norms
is not fixed: `Config.fpFunction` 12, 8, 9, 10 and 11 stand for their values. -/
def epilogue (l : Layer) (v : List W32) (r g h : List W32) : List W32 :=
  match l.epi with
  | 2 => v.map fun x => Config.fpFunction 12 x.toNat
  | 3 => (v.zip r).map fun p => add32 p.1 p.2
  | 4 => (List.range v.length).map fun i => Config.fpFunction 8 ((rowNum v * 2 ^ 32 + l.scale) * 2 ^ 16 + i)
  | 5 => (List.range v.length).map fun i =>
      add32 (mul32 (Config.fpFunction 9 ((rowNum v * 2 ^ 16 + l.eps) * 2 ^ 16 + i)) (g.getD i 0)) (h.getD i 0)
  | 6 => (List.range v.length).map fun i => mul32 (Config.fpFunction 10 ((rowNum v * 2 ^ 16 + l.eps) * 2 ^ 16 + i)) (g.getD i 0)
  | 7 => if v.all fun x => x &&& 0x7FFFFFFF#32 == 0#32 then v
      else (List.range v.length).map fun i => Config.fpFunction 11 (rowNum v * 2 ^ 16 + i)
  | _ => v

/-- The row blocks of the cluster of an ordinal among `c` clusters (R336). -/
def ownBlocks (m ord c : Nat) : List Nat := (List.range (cdiv m 128)).filter fun r => r % c == ord
/-- Rows of a row block. -/
def blockRows (m r : Nat) : List Nat := (List.range (min 128 (m - 128 * r))).map (128 * r + ·)

/-- The operand ranges of a layer command. -/
def layerRanges (l : Layer) (proj : Bool) : List (Nat × Nat) :=
  let yr := if proj then [(l.y, l.m * (l.n / 8))] else [(l.y, (l.m - 1) * rowStride l.fy l.n + rowBytes l.fy l.n)]
  [(l.x, (l.m - 1) * rowStride l.fx l.k + rowBytes l.fx l.k)]
    ++ (if l.wt then [(l.w, (l.k - 1) * rowStride l.fw l.n + rowBytes l.fw l.n)] else [(l.w, (l.n - 1) * rowStride l.fw l.k + rowBytes l.fw l.k)])
    ++ (if fmtMx l.fx then [(l.xs, (l.m - 1) * round64 (l.k / 32) + l.k / 32)] else [])
    ++ (if fmtMx l.fw then [(l.ws, (l.n - 1) * round64 (l.k / 32) + l.k / 32)] else [])
    ++ (if l.bias != 0 && l.epi != 0 then [(l.bias, 4 * l.n)] else [])
    ++ (match l.epi with
      | 3 => [(l.aux, (l.m - 1) * rowStride l.fy l.n + rowBytes l.fy l.n)]
      | 5 => [(l.aux, 8 * l.n)]
      | 6 => [(l.aux, 4 * l.n)]
      | _ => [])
    ++ yr

/-- The value of an element of FMT_Y as fp32. -/
def yVal (f w : Nat) : W32 := to32 (elemVal (if f = 1 then 1 else if f = 0 then 0 else 9) w)

/-- The output row `i` of a layer. -/
def layerRow (s : State) (dom : Nat) (l : Layer) (w : List Row) (b g h : List W32) (proj : Bool) (i : Nat) : Work (List W32) := do
  let x ← readRow s dom l.fx l.x l.xs l.k i
  let a0 := w.map fun r => rowDot l.zx l.zw x r l.k
  let a ← if l.acc && !proj then do
      let y ← readRow s dom l.fy l.y 0 l.n i
      .ok ((a0.zip y.elems).map fun p => add32 p.1 (yVal l.fy p.2))
    else .ok a0
  let v := if l.epi = 0 then a else (List.range l.n).map fun j => add32 (a.getD j 0) (b.getD j 0)
  if proj then .ok v
  else do
    let r ← if l.epi = 3 then do
        let y ← readRow s dom l.fy l.aux 0 l.n i
        .ok (y.elems.map (yVal l.fy))
      else .ok []
    .ok (epilogue l v r g h)

/-- The sketch of a row of sums (R333). -/
def sketchOf (v : List W32) : List Byte :=
  (List.range (v.length / 8)).map fun k => BitVec.ofNat 8 ((List.range 8).foldl (fun n i =>
    n + if fvLt (.fin false 0 0) (fp32 (v.getD (8 * k + i) 0)) then 2 ^ i else 0) 0)

/-- What a layer or projection computes on one cluster: the layer, the rows of its own blocks up to a tile that failed, their results,
whether a tile failed, and the rows of all its blocks (R332 to R337, R340). -/
structure Product where
  layer : Layer
  rows : List Nat
  out : List (List W32)
  fails : Bool
  blocks : List Nat
deriving DecidableEq, Repr

/-- The checks of ENC operations 0x00 and 0x02 on one cluster, and their product. -/
def productStart (cl : Nat) (proj : Bool) (bad : Option TileFault) (s : State) (c : Cmd) : Work Product := do
    need (!overcast s) .overcast
    let d := c.tok.desc
    let dom := c.tok.dom
    workRegions s c.tok.job cl
    let la := laneBits d 0 0 56
    need (laneBits d 0 56 8 == 0 && lane64 d 1 == 0 && lane64 d 2 == 0 && la % 64 == 0) (.report stBAD_OPERATOR 0x70 0 0)
    let blk ← operand s dom la 128
    let l := parseLayer blk
    match layerCheck blk l proj c.tok.inc.toNat with
    | some rs => failWith stBAD_OPERATOR rs
    | none => do
      withinAll s dom (layerRanges l proj)
      let n := c.tok.insts.length
      let blocks := ownBlocks l.m (c.tok.insts.idxOf cl) (max 1 n)
      let fails := match bad with | some f => !f.agrees && blocks.contains f.block | none => false
      let good := match bad with | some f => if fails then blocks.takeWhile fun r => r != f.block else blocks | none => blocks
      let rows := good.flatMap (blockRows l.m)
      let w ← readW s dom l
      let b ← if l.bias != 0 && l.epi != 0 then readF32 s dom l.bias l.n else .ok (List.replicate l.n 0)
      let g ← if l.epi = 5 || l.epi = 6 then readF32 s dom l.aux l.n else .ok []
      let h ← if l.epi = 5 then readF32 s dom (l.aux + 4 * l.n) l.n else .ok []
      let out ← rows.mapM (layerRow s dom l w b g h proj)
      .ok { layer := l, rows := rows, out := out, fails := fails, blocks := blocks }

/-- The writes of a product: address and bytes, row by row. -/
def productWrites (proj : Bool) (p : Product) : List (Nat × List Byte) :=
  let l := p.layer
  (p.rows.zip p.out).map fun r =>
    if proj then (l.y + r.1 * (l.n / 8), sketchOf r.2) else (l.y + r.1 * rowStride l.fy l.n, outRow l.fy r.2)

/-- The end of a product once its rows are written: counts, charges, chunk pulses, working regions, result. -/
def productEnd (cl : Nat) (proj : Bool) (bad : Option TileFault) (s : State) (c : Cmd) (p : Product) : State :=
  let s2 := if !proj && p.out.any fun v => v.any isNan32 then fbump s F.SCA_STAT_NAN_OUT else s
  let s3 := match bad with
    | some f => if p.fails then tileFailed s2 cl c f else if p.blocks.contains f.block then tileAgreed s2 cl c.tok.job f else s2
    | none => s2
  let all := (p.blocks.flatMap (blockRows p.layer.m)).length
  let made := if p.layer.chunk = 0 then 0 else p.rows.length / p.layer.chunk
  let owed := if p.layer.chunk = 0 then 0 else all / p.layer.chunk - made
  putCmd (spoilRegions (pulseTok s3 c.tok made) cl) 5 cl { c with
    phase := .finishing, status := if p.fails then stUNCORRECTABLE else stOK, reason := if p.fails then 0x71 else 0
    count := p.rows.length, work := owed }

/-- ENC operations 0x00 and 0x02 on one cluster. -/
def encProduct (cl : Nat) (proj : Bool) (bad : Option TileFault) (s0 : State) : State :=
  let op := if proj then 2 else 0
  engine 5 cl .enc op (fun s c => do
      let dom := c.tok.dom
      let p ← productStart cl proj bad s c
      let ws := productWrites proj p
      match ws.find? fun p => match uWrite s dom p.1 p.2 with | .ok _ => false | _ => true with
      | some p => match uWrite s dom p.1 p.2 with
        | .violation => .error (.violates 5 cl)
        | _ => .error (.bad p.1)
      | none => .ok (productEnd cl proj bad (ws.foldl (fun s p => uPoke s dom p.1 p.2) s) c p)) (ovcRefuse cl .enc op s0)

/-! ### Centroid assignment (R338, R339) -/

/-- The order of fp32 words as numbers. -/
def fpKey (w : W32) : Nat :=
  let v := if w = 0x80000000#32 then 0#32 else w
  (if v.msb then ~~~v else v ||| 0x80000000#32).toNat

/-- A query row as MXFP8 E4M3 (R339): the smallest scale that holds the block, then each element rounded. -/
def toMxfp8 (q : Row) : Row :=
  let blk := fun b => (List.range 32).map fun i => bf16z (q.elems.getD (32 * b + i) 0)
  let scale := fun b => ((List.range 255).find? fun e => (blk b).all fun v => match v with
    | .fin _ m x => !fvLt (fvMul (.fin false 448 0) (e8m0 e)) (.fin false m x)
    | _ => true).getD 254
  let inv := fun e => (.fin false 1 (127 - (e : Int)) : Fv)
  let nb := q.elems.length / 32
  { fmt := 3, scales := (List.range nb).map scale
    elems := (List.range nb).flatMap fun b => (blk b).map fun v => encodeFp fmtE4M3 true 0x7F (fvMul v (inv (scale b))) }

/-- The ranking key of a list for a query: smaller is better; a NaN score has a place the manual does not state. -/
def centroidKey (metric : Nat) (q ct : Row) (k : Nat) : Nat :=
  let qc := rowDot 0 0 q ct k
  let sc := if metric = 1 then to32 (fvSub (fp32 (rowDot 0 0 ct ct k)) (fvMul (.fin false 2 0) (fp32 qc))) else qc ^^^ 0x80000000#32
  if isNan32 sc then (Config.fpFunction 13 sc.toNat).toNat else fpKey sc

/-- The checks of a ranking and what it writes: place, lists per query, bytes (R338, R339). -/
def centroidStart (cl : Nat) (s : State) (c : Cmd) : Work (Nat × Nat × List Byte) := do
  let d := c.tok.desc
  let dom := c.tok.dom
  let ba := laneBits d 0 0 56
  need (laneBits d 0 56 8 == 0 && lane64 d 1 == 0 && lane64 d 2 == 0 && ba % 64 == 0) (.report stBAD_OPERATOR 0x70 0 0)
  let b ← operand s dom ba 64
  let nq := fieldOf b 5 1
  let cf := fieldOf b 6 1
  let p := fieldOf b 8 4
  need (fieldOf b 0 4 == 1 && 1 ≤ nq && nq ≤ 64 && cf ≤ 1 && fieldOf b 7 1 == 0 && 1 ≤ p && p ≤ 65536
    && fieldOf b 0xC 4 == 0 && fieldOf b 0x30 16 == 0) (.report stBAD_OPERATOR 0x70 0 0)
  match indexOf s dom (fieldOf b 4 1) with
  | none => failWith stBAD_OPERATOR 0
  | some x => do
    need (p ≤ x.lists) (.report stBAD_OPERATOR 0x70 0 0)
    let qa := fieldOf b 0x10 8
    let out := fieldOf b 0x18 8
    let copy := fieldOf b 0x20 8
    let cs := fieldOf b 0x28 8
    let qs ← readRows s dom 0 qa 0 x.dim (List.range nq)
    need (qs.all fun r => r.elems.all fun w => bitsOf w 7 8 != 255) (.report stBAD_OPERATOR 0x70 0 0)
    need (cf == 0 || (copy != 0 && cs != 0)) (.report stBAD_OPERATOR 0x73 0 0)
    let rows ← if cf = 0 then readRows s dom 0 x.cent 0 x.dim (List.range x.lists)
      else readRows s dom 3 copy cs x.dim (List.range x.lists)
    writable s dom out (4 * p * nq) 5 cl
    let rank := fun (q : Row) =>
      let q1 := if cf = 0 then q else toMxfp8 q
      ((rows.zipIdx.map fun r => (centroidKey x.metric q1 r.1 x.dim, r.2)).mergeSort exactPair).take p
    .ok (out, p * nq, qs.flatMap fun q => (rank q).flatMap fun e => bytesOf 4 e.2)
where
  /-- Order of (key, list) pairs: the lower list number on a tie. -/
  exactPair (a b : Nat × Nat) : Bool := a.1 < b.1 || (a.1 == b.1 && a.2 ≤ b.2)

/-- ENC_CENTROID: the lowest-ordinal cluster of the token writes the ranking once the others have begun. -/
def encCentroid (cl : Nat) (bad : Option TileFault) (s : State) : State :=
  engine 5 cl .enc 1 (fun s c => do
    let dom := c.tok.dom
    workRegions s c.tok.job cl
    let fails := match bad with | some f => !f.agrees | none => false
    let note := fun (s : State) => match bad with
      | some f => if fails then tileFailed s cl c f else tileAgreed s cl c.tok.job f
      | none => s
    let ord := c.tok.insts.idxOf cl
    if ord != 0 then
      -- another cluster's part: a failure is noted at the first cluster
      let first := c.tok.insts.headD 0
      let s1 := spoilRegions (note s) cl
      let s2 := if fails then setCmds s1 5 first ((cmdsOf s1 5 first).map fun x => if x.id + ord = c.id then { x with work := 1 } else x) else s1
      .ok (putCmd s2 5 cl { c with phase := .finishing, silent := 2 })
    else
      let wait := (c.tok.insts.zipIdx).any fun p => p.2 != 0 && (cmdsOf s 5 p.1).any fun x => x.id == c.id + p.2 && x.phase == .queued
      if wait then .ok s
      else do
        let (out, n, bytes) ← centroidStart cl s c
        let stop := fails || c.work != 0
        let s1 := if stop then s else uPoke s dom out bytes
        let s2 := spoilRegions (note s1) cl
        .ok (putCmd s2 5 cl { c with
          phase := .finishing, work := 0, status := if stop then stUNCORRECTABLE else stOK, reason := if stop then 0x71 else 0
          count := if stop then 0 else n })) s

/-! ### Model heads and MaxSim (R341 to R344) -/

/-- The entry of a model score (R343). -/
def modelEntry (index cl slot item : Nat) (score : W32) : Nat :=
  slot % 64 * 2 ^ 16 + 2 ^ 23 + index % 256 * 2 ^ 24 + item % 2 ^ 64 * 2 ^ 32 + score.toNat * 2 ^ 96 + cl % 8 * 2 ^ 128 + 2 ^ 144

/-- Send the entries of a running command as far as credits allow (R343). -/
def modelDrain (cl lane : Nat) (s : State) (c : Cmd) : List Nat → State
  | [] => putCmd s 5 cl { c with phase := .finishing, aux := [], work := 0 }
  | e :: es => match laneShare s c.tok.job lane with
    | .error x => stopCmd s 5 cl c x
    | .ok share =>
      if shareFree s share then modelDrain cl lane (sendCand s lane share c.tok.job c.id (BitVec.ofNat 192 e)) { c with count := c.count + 1 } es
      else putCmd s 5 cl { c with phase := .running, aux := e :: es, work := lane }

/-- The outcome for one item: no score, a NaN, or a score. -/
inductive ItemScore
  | badTokens
  | nan
  | score (w : W32)
deriving DecidableEq, Repr

/-- Scores of a command's own items into entries, with its status (R342, R344). -/
def modelStart (cl : Nat) (bad : Option TileFault) (s : State) (c : Cmd) (x : Index) (index lane : Nat)
    (items : List (Nat × Nat × Nat × ItemScore)) : State :=
  let fails := match bad with | some f => !f.agrees | none => false
  let cut := match bad with | some f => if fails then 128 * f.block else items.length | none => items.length
  let done := items.take cut
  let sign := fun (w : W32) => if x.metric = 1 then w ^^^ 0x80000000#32 else w
  let es := done.filterMap fun p => match p.2.2.2 with
    | .score w => some (modelEntry index cl p.2.2.1 p.2.1 (sign w))
    | _ => none
  let nans := done.any fun p => p.2.2.2 == .nan
  let bads := done.any fun p => p.2.2.2 == .badTokens
  let (st, rs) := if fails then (stUNCORRECTABLE, 0x71) else if nans then (stMEDIA_ERROR, 0x43) else if bads then (stBAD_OPERATOR, 0x74) else (stOK, 0)
  let s1 := if nans then fbump s F.SCA_STAT_NAN_OUT else s
  let s2 := match bad with
    | some f => if fails then tileFailed s1 cl c f else tileAgreed s1 cl c.tok.job f
    | none => s1
  modelDrain cl lane (spoilRegions s2 cl) { c with status := st, reason := rs, spec := min 0xFFFF (items.length - es.length) } es

/-- The items of a cluster's share (R344). -/
def ownItems (m ord c : Nat) : List Nat := (List.range m).filter fun i => i % c == ord

/-- What a model command scores: its index, the index's number, the lane, and its cluster's own items. -/
structure ModelJob where
  x : Index
  index : Nat
  lane : Nat
  items : List (Nat × Nat × Nat × ItemScore)
deriving DecidableEq, Repr

/-- The checks of ENC_CROSS_SCORE and its scores (R342 to R344). -/
def crossStart (cl : Nat) (s : State) (c : Cmd) : Work ModelJob := do
      need (!overcast s) .overcast
      let d := c.tok.desc
      let dom := c.tok.dom
      workRegions s c.tok.job cl
      let ba := laneBits d 0 0 56
      need (laneBits d 0 56 8 == 0 && lane64 d 1 == 0 && lane64 d 2 == 0 && ba % 64 == 0) (.report stBAD_OPERATOR 0x70 0 0)
      let b ← operand s dom ba 64
      let m := fieldOf b 8 4
      let k := fieldOf b 0xC 4
      let fh := fieldOf b 6 1
      need (fieldOf b 0 4 == 1 && fieldOf b 5 1 < 16 && fh ≤ 2 && fieldOf b 7 1 == 0 && 1 ≤ m && m ≤ 65536 && 32 ≤ k && k ≤ 16384
        && k % 32 == 0 && fieldOf b 0x24 4 == 0 && fieldOf b 0x30 16 == 0) (.report stBAD_OPERATOR 0x70 0 0)
      match indexOf s dom (fieldOf b 4 1) with
      | none => failWith stBAD_OPERATOR 0
      | some x => do
        let lane ← jobInst s c.tok.job 4 (fieldOf b 5 1)
        let _ ← laneShare s c.tok.job lane
        let hb := BitVec.ofNat 32 (fieldOf b 0x20 4)
        let head ← readRow s dom 0 (fieldOf b 0x18 8) 0 k 0
        withinAll s dom [(fieldOf b 0x10 8, (m - 1) * rowStride fh k + rowBytes fh k), (fieldOf b 0x28 8, 16 * m)]
        let items ← (ownItems m (c.tok.insts.idxOf cl) (max 1 c.tok.insts.length)).mapM fun i => do
          let r ← readRow s dom fh (fieldOf b 0x10 8) 0 k i
          let e ← operand s dom (fieldOf b 0x28 8 + 16 * i) 16
          let w := add32 (rowDot 0 0 r head k) hb
          .ok (i, fieldOf e 0 8, fieldOf e 8 1 % 64, if isNan32 w then ItemScore.nan else .score w)
        .ok { x := x, index := fieldOf b 4 1, lane := lane, items := items }

/-- ENC_CROSS_SCORE. -/
def encCross (cl : Nat) (bad : Option TileFault) (s0 : State) : State :=
  engine 5 cl .enc 3 (fun s c =>
    if c.phase == .running then .ok (modelDrain cl c.work s c c.aux)
    else (crossStart cl s c).map fun m => modelStart cl bad s c m.x m.index m.lane m.items) (ovcRefuse cl .enc 3 s0)

/-- The larger of two scores; a NaN makes the result a NaN (R330). -/
def max32 (a b : W32) : W32 := if isNan32 a || isNan32 b then nan32 else if fvLt (fp32 a) (fp32 b) then b else a

/-- The checks of MAXSIM_SCORE and its scores (R341 to R344). -/
def maxsimStart (cl : Nat) (s : State) (c : Cmd) : Work ModelJob := do
      need (!overcast s) .overcast
      let d := c.tok.desc
      let dom := c.tok.dom
      workRegions s c.tok.job cl
      let ba := laneBits d 0 0 56
      need (laneBits d 0 56 8 == 0 && lane64 d 1 == 0 && lane64 d 2 == 0 && ba % 64 == 0) (.report stBAD_OPERATOR 0x70 0 0)
      let b ← operand s dom ba 64
      let m := fieldOf b 8 4
      let tq := fieldOf b 7 1
      let fd := fieldOf b 6 1
      need (fieldOf b 0 4 == 1 && fieldOf b 5 1 < 16 && fd ≤ 1 && 1 ≤ tq && tq ≤ 64 && 1 ≤ m && m ≤ 65536 && fieldOf b 0xC 4 == 0
        && fieldOf b 0x20 32 == 0) (.report stBAD_OPERATOR 0x70 0 0)
      match indexOf s dom (fieldOf b 4 1) with
      | none => failWith stBAD_OPERATOR 0
      | some x => do
        let lane ← jobInst s c.tok.job 4 (fieldOf b 5 1)
        let _ ← laneShare s c.tok.job lane
        let qs ← readRows s dom 0 (fieldOf b 0x10 8) 0 128 (List.range tq)
        withinAll s dom [(fieldOf b 0x18 8, 32 * m)]
        let items ← (ownItems m (c.tok.insts.idxOf cl) (max 1 c.tok.insts.length)).mapM fun i => do
          let e ← operand s dom (fieldOf b 0x18 8 + 32 * i) 32
          let n := fieldOf e 0x10 2
          if n < 1 || n > 256 then .ok (i, fieldOf e 0 8, fieldOf e 0x12 1 % 64, ItemScore.badTokens)
          else do
            let ds ← readRows s dom fd (fieldOf e 8 7) 0 128 (List.range n)
            let best := fun (q : Row) => match ds with
              | [] => 0
              | t :: ts => ts.foldl (fun z r => max32 z (rowDot 0 0 q r 128)) (rowDot 0 0 q t 128)
            let w := match qs.map best with
              | [] => 0
              | y :: ys => ys.foldl add32 y
            .ok (i, fieldOf e 0 8, fieldOf e 0x12 1 % 64, if isNan32 w then ItemScore.nan else .score w)
        .ok { x := x, index := fieldOf b 4 1, lane := lane, items := items }

/-- MAXSIM_SCORE. -/
def maxsim (cl : Nat) (bad : Option TileFault) (s0 : State) : State :=
  engine 5 cl .maxsim 0 (fun s c =>
    if c.phase == .running then .ok (modelDrain cl c.work s c c.aux)
    else (maxsimStart cl s c).map fun m => modelStart cl bad s c m.x m.index m.lane m.items) (ovcRefuse cl .maxsim 0 s0)

/-! ### The rows -/

/-- ENC_LAYER (R332). -/
def execEncLayer (sca : BitVec 3) (bad : Option TileFault) (s : State) : Out := .next (encProduct sca.toNat false bad s)
/-- ENC_CENTROID (R339). -/
def execEncCentroid (sca : BitVec 3) (bad : Option TileFault) (s : State) : Out := .next (encCentroid sca.toNat bad s)
/-- ENC_PROJECTION (R333). -/
def execEncProjection (sca : BitVec 3) (bad : Option TileFault) (s : State) : Out := .next (encProduct sca.toNat true bad s)
/-- ENC_CROSS_SCORE (R342). -/
def execEncCrossScore (sca : BitVec 3) (bad : Option TileFault) (s : State) : Out := .next (encCross sca.toNat bad s)
/-- MAXSIM_SCORE (R342). -/
def execMaxsimScore (sca : BitVec 3) (bad : Option TileFault) (s : State) : Out := .next (maxsim sca.toNat bad s)

end Sys2Proof.Machine
end

