-- ==== Sys2Proof/Machine/Tables.lean ====
section
/-!
DEFINITION. The table engines (R351 to R370): gathers and pools, joined row updates, the serving engines that read and write
rows in arrival order, and replica copies.
-/

namespace Sys2Proof.Machine

open Sys2Proof

/-! ### Tables (R351 to R354) -/

/-- A table descriptor with its node list. -/
structure TDesc where
  elem : Nat
  place : Nat
  rows : Nat
  dim : Nat
  n : Nat
  seed : Nat
  base : Nat
  dflt : Nat
  list : Nat
  nodes : List (Nat × Nat) := []
deriving DecidableEq, Repr

/-- A table descriptor from its 64 bytes. -/
def parseTable (b : List Byte) : TDesc :=
  { elem := fieldOf b 6 1, place := fieldOf b 7 1, rows := fieldOf b 8 8, dim := fieldOf b 0x10 2, n := fieldOf b 0x12 2
    seed := fieldOf b 0x14 4, base := fieldOf b 0x18 8, dflt := fieldOf b 0x20 8, list := fieldOf b 0x28 8 }

/-- The fields of a table descriptor are in range (R351). -/
def tableOk (b : List Byte) (t : TDesc) : Bool :=
  fieldOf b 0 4 == 1 && (t.elem == 0 || t.elem == 1 || t.elem == 9) && t.place ≤ 2 && 1 ≤ t.rows && t.rows ≤ 2 ^ 40
    && 1 ≤ t.dim && t.dim ≤ 4096 && (if t.place = 0 then t.n == 1 && t.list == 0 else 1 ≤ t.n && t.n ≤ 4096)
    && fieldOf b 0x30 16 == 0

/-- A node-list entry is well formed (R353). -/
def nodeOk (b : List Byte) : Bool := fieldOf b 0 2 < 4096 && fieldOf b 2 6 == 0 && fieldOf b 8 8 < 2 ^ 48

/-- Bytes of a row slot's header and elements (R352). -/
def slotBytes (elem dim : Nat) : Nat := 8 + dim * (fmtBits elem / 8)
/-- The stride of row slots (R352). -/
def slotStride (t : TDesc) : Nat := round64 (slotBytes t.elem t.dim)

/-- The hash that places a group of rows (R354). -/
def placeHash (seed g : Nat) : Nat := (g ^^^ seed) * 0x9E3779B97F4A7C15 % 2 ^ 64 / 2 ^ 32
/-- The node-list entry and slot of a row of a sharded table (R354). -/
def shardOf (t : TDesc) (x : Nat) : Nat × Nat := ((x % t.n + placeHash t.seed (x / t.n)) % t.n, x / t.n)

/-- Where a row is served: here in a slot, or on another node in the slot at a fabric offset (R354, R355, R365). -/
inductive RowHome
  | here (slot : Nat)
  | away (node off slot : Nat)
deriving DecidableEq, Repr

/-- The home of a row for a read or an update. -/
def rowHome (s : State) (t : TDesc) (update : Bool) (x : Nat) : RowHome :=
  let on := fun (e slot : Nat) => match t.nodes[e]? with
    | some (n, off) => if myNode s = some n then RowHome.here slot else .away n (off + slot * slotStride t) slot
    | none => .here slot
  match t.place with
  | 0 => .here x
  | 1 => if update then on 0 x else .here x
  | _ => let (e, slot) := shardOf t x; on e slot

/-! ### Elements (R360, R362) -/

/-- An element word converted exactly to fp32. -/
def exact32 (f w : Nat) : W32 :=
  match f with
  | 0 => BitVec.ofNat 32 (w * 65536)
  | 1 => to32 (decodeFp fmtE4M3 w)
  | _ => BitVec.ofNat 32 w
/-- The elements of a packed row as fp32. -/
def rowFp (f dim : Nat) (b : List Byte) : List W32 := (List.range dim).map fun i => exact32 f (elemAt f b i)
/-- An exact value divided by a count, kept exactly enough for one rounding. -/
def fvDivNat (v : Fv) (n : Nat) : Fv :=
  match v with
  | .fin neg m e => .fin neg (2 * (m * 2 ^ 64 / n) + if m * 2 ^ 64 % n = 0 then 0 else 1) (e - 65)
  | v => v
/-- The larger of two fp32 words; a NaN propagates. -/
def fpMax32 (a b : W32) : W32 := if isNan32 a || isNan32 b then nan32 else if fvLt (fp32 a) (fp32 b) then b else a

/-- The pool of the rows of a bag with their weights (R360). -/
def poolRows (pool dim : Nat) (rows : List (List W32 × W32)) : List W32 :=
  match rows with
  | [] => List.replicate dim 0
  | (r, w) :: l =>
    let scale := fun (r : List W32) (w : W32) => if pool = 4 then r.map fun v => mul32 v w else r
    let all := l.foldl (fun acc p => List.zipWith (if pool = 3 then fpMax32 else add32) acc (scale p.1 p.2)) (scale r w)
    if pool = 2 then all.map fun v => to32 (fvDivNat (fp32 v) rows.length) else all

/-! ### Commands in progress -/

/-- A row command in progress. -/
def rowCmdOf (s : State) (id : Nat) : Option RowCmd := tfind s.tbe.cmds id
/-- The state with a row command stored. -/
def setRowCmd (s : State) (id : Nat) (r : RowCmd) : State := { s with tbe := { s.tbe with cmds := tins s.tbe.cmds id r } }
/-- The state without a row command. -/
def dropRowCmd (s : State) (id : Nat) : State := { s with tbe := { s.tbe with cmds := tdel s.tbe.cmds id } }
/-- The queue of a serving engine. -/
def rowQueue (s : State) (e : Nat) : List RowReq := tget [] s.tbe.queues e
/-- The state with a serving engine's queue replaced. -/
def setRowQueue (s : State) (e : Nat) (l : List RowReq) : State :=
  { s with tbe := { s.tbe with queues := tput [] s.tbe.queues e l } }
/-- A row request arrives at its serving engine: instance slot mod 2 (R355). -/
def pushRow (s : State) (r : RowReq) : State := setRowQueue s (r.slot % 2) (rowQueue s (r.slot % 2) ++ [r])

/-- The elements of an answered row; an answer without elements is served from the DEFAULT row, read here (R359). -/
def ansRow (s : State) (dom : Nat) (r : RowCmd) (a : RowAns) : Option (List W32) :=
  if a.status != 0 then none
  else match a.row with
    | some b => some (rowFp r.elem r.dim b)
    | none => (uBytes s dom r.dflt (r.dim * (fmtBits r.elem / 8))).map (rowFp r.elem r.dim)

/-- The first failing answer in list order: its status and reason. -/
def firstFail (l : List RowAns) : Nat × Nat :=
  match leastBy (fun a => a.ord) (l.filter fun a => a.status != 0) with
  | some a => (a.status, a.reason)
  | none => (stOK, 0)

/-- The end of a gather once every row is there (R358 to R360, R366): output rows or pooled bags, versions, result. -/
def endGather (s : State) (inst : Nat) (c : Cmd) (r : RowCmd) : State :=
  let dom := c.tok.dom
  let dfltBad := (uBytes s dom r.dflt (r.dim * (fmtBits r.elem / 8))).isNone
  let ans := r.answers.map fun a =>
    if a.status = 0 && a.row = none && dfltBad then { a with status := stUNCORRECTABLE, reason := 0x83 } else a
  let get := fun i => match ans.find? fun a => a.ord == i with
    | some a => ansRow s dom r a
    | none => none
  let put := fun (s : State) (k : Nat) (row : List W32) => uPoke s dom (r.out + k * rowStride r.outFmt r.dim) (outRow r.outFmt row)
  let s1 := if c.tok.op = 0 then
      (List.range r.total).foldl (fun s i => match get i with
        | some row => put s i row
        | none => s) s
    else
      (List.range (r.offsets.length - 1)).foldl (fun s b =>
        let lo := r.offsets.getD b 0
        let rows := (List.range (r.offsets.getD (b + 1) 0 - lo)).map fun k => (get (lo + k), BitVec.ofNat 32 (r.weights.getD (lo + k) 0))
        if rows.any fun p => p.1.isNone then s
        else put s b (poolRows r.pool r.dim (rows.map fun p => (p.1.getD [], p.2)))) s
  let s2 := if r.ver then ans.foldl (fun s a => if a.status = 0 then uPoke s dom (r.verAddr + 4 * a.ord) (bytesOf 4 a.version) else s) s1 else s1
  let dflts := (ans.filter fun a => a.status = 0 && a.row = none).length
  let s3 := if ans.any fun a => a.reason = 0x83 && a.status = stUNCORRECTABLE && !(r.answers.contains a) then
      faultRec (countUE s2 (uWhere s2 dom r.dflt (r.dim * (fmtBits r.elem / 8))))
        { block := 10, kind := 4, status := stUNCORRECTABLE, reason := 0x83, cls := 7, inst := inst
          planId := jobPlanId s2 c.tok.job, dom := dom, tag := c.tok.job, addr := r.dflt }
    else s2
  let (st, rs) := firstFail ans
  endCmd (dropRowCmd (fadd s3 F.TBE_STAT_DEFAULT_HITS dflts) c.id) 7 inst c st rs (ans.filter fun a => a.status = 0).length dflts

/-- The end of a scatter once every row update is answered (R366). -/
def endScatter (s : State) (inst : Nat) (c : Cmd) (r : RowCmd) : State :=
  let (st, rs) := firstFail r.answers
  endCmd (dropRowCmd s c.id) 7 inst c st rs (r.answers.filter fun a => a.status = 0 && !a.skipped).length
    (r.skipped + (r.answers.filter fun a => a.skipped).length)

/-- A command whose rows have all been answered comes to its end. -/
def tryEndRows (s : State) (inst id : Nat) : State :=
  match rowCmdOf s id, (cmdsOf s 7 inst).find? fun c => c.id == id with
  | some r, some c =>
    if r.answers.length < r.total then s
    else if c.tok.kind == .gath then endGather s inst c r else endScatter s inst c r
  | _, _ => s

/-- A row request of a command is answered. -/
def answerRow (s : State) (inst id : Nat) (a : RowAns) : State :=
  match rowCmdOf s id with
  | some r => tryEndRows (setRowCmd s id { r with answers := r.answers ++ [a] }) inst id
  | none => s

/-! ### Row requests to other nodes (R355) -/

/-- The packet of a row request or a replica copy. The manual fixes its TYPE and its payload and leaves open how the home
learns of slot, format and mode. -/
def rowPkt (s : State) (r : RowReq) (node fepoch mepoch : Nat) : Pkt :=
  let list := r.copies.flatMap fun p => bytesOf 8 p.1 ++ bytesOf 8 p.2
  { noPkt with
    ty := if r.mode = 0 then 9 else 10, flags := if r.mode != 0 && fenced s then 8 else 0
    dst := BitVec.ofNat 12 node, src := BitVec.ofNat 12 ((myNode s).getD 0), sdom := BitVec.ofNat 12 r.dom
    fepoch := BitVec.ofNat 16 fepoch, mepoch := BitVec.ofNat 16 mepoch, off := BitVec.ofNat 48 r.off, size := 3
    total := BitVec.ofNat 26 (slotBytes r.elem r.dim)
    operand := BitVec.ofNat 64 (r.slot % 2 ^ 40 + r.elem * 2 ^ 40 + r.dim * 2 ^ 48)
    compare := BitVec.ofNat 64 (r.version % 2 ^ 32 + r.mode * 2 ^ 32)
    payload := r.row ++ list, len := BitVec.ofNat 16 (r.row ++ list).length }

/-- The row request that a packet spells, at an address of a domain. -/
def rowOfPkt (p : Pkt) (dom addr : Nat) : RowReq :=
  let o := p.operand.toNat
  let elem := bitsOf o 40 8
  let dim := bitsOf o 48 16
  let mode := if p.ty = 9 then 0 else bitsOf p.compare.toNat 32 3
  let n := match mode with
    | 1 | 3 => dim * (fmtBits elem / 8)
    | 2 => 4 * dim
    | _ => 0
  let list := p.payload.drop n
  { mode := mode, dom := dom, addr := addr, slot := bitsOf o 0 40, elem := elem, dim := dim
    version := bitsOf p.compare.toNat 0 32, row := p.payload.take n
    copies := (List.range (list.length / 16)).map fun i => (fieldOf list (16 * i) 8, fieldOf list (16 * i + 8) 8)
    pkt := some p }

/-- Send the row requests of a command in list order: local ones to their serving engines, remote ones with a credit of the
job's share, as far as credits allow. Answers what is still to send. -/
def sendRows (tag share : Nat) : List RowReq → State → List RowReq × State
  | [], s => ([], s)
  | r :: l, s => match r.node with
    | none => sendRows tag share l (pushRow s r)
    | some n =>
      if !shareFree s share || (myNode s).isNone || s.fab.ops.length ≥ 16384 then (r :: l, s)
      else match jobOf s tag with
        | none => (r :: l, s)
        | some j =>
          let op : FabOp := { kind := 2, job := tag, pkt := rowPkt s r n j.fence (mepochOf s j), statusReg := r.inst, destReg := r.ord
                              share := share, arg := r.cmd, dom := r.dom }
          sendRows tag share l (launch (drawShare s share) (domQueue s r.dom j.be) op)

/-- Send what a command can send now. -/
def pumpRows (s : State) (tag id : Nat) : State :=
  match rowCmdOf s id with
  | none => s
  | some r =>
    let (rest, s1) := sendRows tag r.share r.todo s
    setRowCmd s1 id { r with todo := rest }

/-- The reply to a row request of a command (R366): `MOVED` sends it once more to the node named; another failure is the
row's, with reason 0x81. -/
def rowReply (s : State) (o : FabOp) (p : Pkt) : State :=
  let st := p.status.toNat
  if st = stMOVED && o.inc = 0 then
    launch s (domQueue s o.dom (match jobOf s o.job with | some j => j.be | none => false))
      { o with pkt := { o.pkt with dst := p.newNode }, inc := 1 }
  else
    let s1 := giveShare s o.share
    let a : RowAns := if st != 0 then { ord := o.destReg, status := st, reason := 0x81 }
      else if o.pkt.ty = 10 then { ord := o.destReg, skipped := p.operand.getLsbD 0 }
      else if bitAt (fieldOf p.payload 4 4) 0 then
        { ord := o.destReg, version := fieldOf p.payload 0 4, row := some (p.payload.drop 8) }
      else { ord := o.destReg }
    answerRow (pumpRows s1 o.job o.arg) o.statusReg o.arg a

/-! ### The serving engines (R355, R356, R362 to R365) -/

/-- Replacement version `a` is newer than `b` (R363). -/
def newer (a b : Nat) : Bool := let d := (a + 2 ^ 32 - b % 2 ^ 32) % 2 ^ 32; 1 ≤ d && d < 2 ^ 31

/-- What serving a row request comes to. -/
inductive RowOut
  | outside
  | violates
  | ue
  | row (version : Nat) (present : Bool) (bytes : List Byte)
  | skipped
deriving DecidableEq, Repr

/-- The row after an update: its version, presence and elements; none where a replacement is not newer (R362, R363). -/
def newRow (r : RowReq) (version : Nat) (old : List Byte) : Option (Nat × Bool × List Byte) :=
  match r.mode with
  | 1 => some ((version + 1) % 2 ^ 32, true, r.row)
  | 2 =>
    let sums := List.zipWith add32 (rowFp r.elem r.dim old) (rowFp 9 r.dim r.row)
    some ((version + 1) % 2 ^ 32, true, outRow r.elem sums)
  | 3 => if newer r.version version then some (r.version, true, r.row) else none
  | _ => if newer r.version version then some (r.version, false, old) else none

/-- Serve one row request in one piece. -/
def serveRow (s : State) (r : RowReq) : RowOut × State :=
  let n := if r.mode = 0 || r.mode = 2 then slotBytes r.elem r.dim else 8
  match uRead s r.dom r.addr n with
  | .outside => (.outside, s)
  | .ue => (.ue, countUE s (uWhere s r.dom r.addr n))
  | .ok b =>
    let s1 := useRange s r.dom r.addr n
    let ver := fieldOf b 0 4
    if r.mode = 0 then (.row ver (bitAt (fieldOf b 4 4) 0) (b.drop 8), s1)
    else
      let old := if r.mode = 4 then (uBytes s r.dom (r.addr + 8) (r.dim * (fmtBits r.elem / 8))).getD [] else b.drop 8
      match newRow r ver old with
      | none => (.skipped, fbump s1 F.TBE_STAT_STALE)
      | some (v, present, row) =>
        let bytes := bytesOf 4 v ++ bytesOf 4 (if present then 1 else 0) ++ if r.mode = 4 then [] else row
        match uWrite s1 r.dom r.addr bytes with
        | .ok s2 => (.row v present row, s2)
        | .violation => (.violates, s)
        | .outside => (.outside, s)

/-- Send the row that the primary has applied to the other nodes of the list, as a replacement (R365). -/
def copyRow (s : State) (r : RowReq) (v : Nat) (present : Bool) (row : List Byte) : State :=
  r.copies.foldl (fun s p =>
    if myNode s = some p.1 then s
    else
      let tag := newFabTag s
      let q := rowPkt s { r with mode := if present then 3 else 4, version := v, row := if present then row else [], copies := []
                                 off := p.2 + r.slot * round64 (slotBytes r.elem r.dim) } p.1 0 0
      let q := { q with tag := BitVec.ofNat 32 tag }
      let s1 := sendSys s q
      { s1 with
        tbe := { s1.tbe with copies := tins s1.tbe.copies tag { pkt := q, sent := s1.now } }
        fab := { s1.fab with nextTag := (tag + 1) % 2 ^ 32 } }) s

/-- A served row request is answered to the fabric (R437, R464) or to its command (R366). -/
def replyRow (s : State) (r : RowReq) (o : RowOut) : State :=
  match r.pkt with
  | some p =>
    let rep := match o with
      | .outside | .violates => replyPkt s p stNOT_OWNER
      | .ue => replyPkt s p stUNCORRECTABLE
      | .skipped => replyPkt s p stOK 0 1
      | .row v present b => if r.mode = 0 then replyPkt s p stOK 0 0 (bytesOf 4 v ++ bytesOf 4 (if present then 1 else 0) ++ b) else replyPkt s p stOK
    let s1 := match o with
      | .skipped | .row _ _ _ => if r.mode = 0 then s else keepRecord s p (some rep)
      | _ => s
    sendSys s1 rep
  | none =>
    let job := match (cmdsOf s 7 r.inst).find? fun c => c.id == r.cmd with
      | some c => some c.tok.job
      | none => none
    match job with
    | none => s
    | some tag => match o with
      | .outside => badAddress s tag r.addr
      | .violates => violation s tag 7 r.inst
      | .ue =>
        let s1 := faultRec s { block := 10, kind := 4, status := stUNCORRECTABLE, reason := 0x83, cls := 7, inst := r.inst
                               planId := jobPlanId s tag, dom := r.dom, tag := tag, addr := r.addr }
        answerRow s1 r.inst r.cmd { ord := r.ord, status := stUNCORRECTABLE, reason := 0x83 }
      | .skipped => answerRow s r.inst r.cmd { ord := r.ord, skipped := true }
      | .row v present b =>
        if r.mode = 0 then answerRow s r.inst r.cmd { ord := r.ord, version := if present then v else 0, row := if present then some b else none }
        else answerRow s r.inst r.cmd { ord := r.ord }

/-- A serving engine applies the request at the head of its queue (R355). -/
def rowServe (e : Nat) (s : State) : State :=
  match rowQueue s e with
  | [] => s
  | r :: l => if r.pkt.any (applied s) then (match r.pkt with | some p => answerAgain (setRowQueue s e l) p | none => s)
    else
    let (o, s1) := serveRow (setRowQueue s e l) r
    let s2 := match o with
      | .row v present b => if r.mode = 0 then s1 else copyRow s1 r v present b
      | _ => s1
    replyRow s2 r o

/-! ### The start of a command (R358, R361, R366) -/

/-- What both kinds of commands check first: lanes, and the share that CR_TOK names. Answers the share, 0 without one. -/
def rowLanes (s : State) (c : Cmd) : Work Nat := do
  let d := c.tok.desc
  need (laneBits d 0 56 8 == 0 && laneBits d 1 4 60 == 0 && lane64 d 2 == 0) (.report stBAD_OPERATOR 0x80 0 0)
  if laneBits d 1 3 1 = 0 then .ok 0
  else match jobOf s c.tok.job with
    | none => .error (.violates 12 0)
    | some j => match tokGrantOf s j (laneBits d 1 0 3) with
      | some g => if g.cls = 12 then .ok (tokGrant (tokOf j (laneBits d 1 0 3))) else .error (.violates 12 0)
      | none => .error (.violates 12 0)

/-- Read and check a table descriptor with its node list. -/
def readTable (s : State) (dom a : Nat) : Work TDesc := do
  need (a % 64 == 0) (.report stBAD_OPERATOR 0x80 0 0)
  let b ← operand s dom a 64
  let t := parseTable b
  need (tableOk b t) (.report stBAD_OPERATOR 0x80 0 0)
  if t.place = 0 then .ok t
  else do
    let l ← operand s dom t.list (16 * t.n)
    let ents := (List.range t.n).map fun i => (l.drop (16 * i)).take 16
    need (ents.all nodeOk) (.report stBAD_OPERATOR 0x80 0 0)
    .ok { t with nodes := ents.map fun e => (fieldOf e 0 2, fieldOf e 8 8) }

/-- The request for one row. -/
def mkReq (s : State) (c : Cmd) (inst : Nat) (t : TDesc) (mode ord x version : Nat) (row : List Byte) : RowReq :=
  let copies := if t.place = 1 && mode != 0 then t.nodes.drop 1 else []
  let base : RowReq := { cmd := c.id, inst := inst, ord := ord, mode := mode, dom := c.tok.dom, elem := t.elem, dim := t.dim
                         version := version, row := row, copies := copies }
  match rowHome s t (mode != 0) x with
  | .here slot => { base with slot := slot, addr := t.base + slot * slotStride t }
  | .away n off slot => { base with slot := slot, node := some n, off := off }

/-- Numbers of `w` bytes in a list. -/
def numsOf (w n : Nat) (b : List Byte) : List Nat := (List.range n).map fun i => fieldOf b (w * i) w

/-- A remote row needs the share (R366). -/
def needShare (share : Nat) (c : Cmd) (l : List RowReq) : Work Unit :=
  need (!(laneBits c.tok.desc 1 3 1 == 0 && l.any fun r => r.node.isSome) || share != 0) (.report stBAD_OPERATOR 0x82 0 0)

/-- The start of a gather or pool: its checks, its operands, and the requests it makes (R358 to R360, R366). -/
def gatherStart (op e : Nat) (s : State) (c : Cmd) : Work RowCmd := do
      let dom := c.tok.dom
      let share ← rowLanes s c
      let b ← operand s dom (laneBits c.tok.desc 0 0 56) 64
      let pool := fieldOf b 4 1
      let outFmt := fieldOf b 5 1
      let ver := bitAt (fieldOf b 6 1) 0
      let n := fieldOf b 8 4
      let bags := fieldOf b 0xC 4
      need (fieldOf b 0 4 == 1 && (if op = 0 then pool == 0 && bags == 0 else 1 ≤ pool && pool ≤ 4 && 1 ≤ bags && bags ≤ 65536)
        && (outFmt == 0 || outFmt == 9) && fieldOf b 6 1 < 2 && fieldOf b 7 1 == 0 && 1 ≤ n && n ≤ 65536
        && (pool == 4 || fieldOf b 0x28 8 == 0) && (ver || fieldOf b 0x38 8 == 0)) (.report stBAD_OPERATOR 0x80 0 0)
      let t ← readTable s dom (fieldOf b 0x10 8)
      let ib ← operand s dom (fieldOf b 0x18 8) (8 * n)
      let ob ← if op = 0 then .ok [] else operand s dom (fieldOf b 0x20 8) (4 * (bags + 1))
      let offs := if op = 0 then [] else numsOf 4 (bags + 1) ob
      need (op == 0 || (offs.headD 1 == 0 && offs.getLast? == some n
        && (List.zip offs (offs.drop 1)).all fun p => p.1 ≤ p.2)) (.report stBAD_OPERATOR 0x80 0 0)
      let wb ← if pool = 4 then operand s dom (fieldOf b 0x28 8) (4 * n) else .ok []
      let idx := numsOf 8 n ib
      let reqs := idx.zipIdx.filterMap fun p => if p.1 < t.rows then some (mkReq s c e t 0 p.2 p.1 0 []) else none
      needShare share c reqs
      writable s dom (fieldOf b 0x30 8) ((if op = 0 then n else bags) * rowStride outFmt t.dim) 7 e
      within s dom t.dflt (t.dim * (fmtBits t.elem / 8))
      if ver then writable s dom (fieldOf b 0x38 8) (4 * n) 7 e else .ok ()
      let r : RowCmd := { todo := reqs, total := n, share := share, pool := pool, outFmt := outFmt, ver := ver, offsets := offs
                          weights := if pool = 4 then numsOf 4 n wb else [], out := fieldOf b 0x30 8, verAddr := fieldOf b 0x38 8
                          elem := t.elem, dim := t.dim, dflt := t.dflt
                          answers := idx.zipIdx.filterMap fun p => if p.1 < t.rows then none else some { ord := p.2 } }
      .ok r

/-- A row command runs: its requests are sent as far as credits allow, and it ends once every one is answered. -/
def runRows (e : Nat) (s : State) (c : Cmd) (r : RowCmd) : State :=
  tryEndRows (pumpRows (setRowCmd (putCmd s 7 e { c with phase := .running }) c.id r) c.tok.job c.id) e c.id

/-- GATH_GATHER and GATH_POOL. -/
def gather (op e : Nat) (s0 : State) : State :=
  engine 7 e .gath op (fun s c =>
    if c.phase == .running then .ok (tryEndRows (pumpRows s c.tok.job c.id) e c.id)
    else (gatherStart op e s c).map (runRows e s c)) s0

/-- The joined update of one row (R362): the place of its first update, version and elements. -/
def joinRow (op elem ufmt dim : Nat) (ups : List (Nat × Nat × List Byte)) : Nat × Nat × List Byte :=
  let conv := fun (b : List Byte) => outRow elem (rowFp ufmt dim b)
  match ups with
  | [] => (0, 0, [])
  | (i, v, b) :: l =>
    match op with
    | 0 => (i, 0, conv (((i, v, b) :: l).getLast?.getD (i, v, b)).2.2)
    | 1 =>
      let sum := l.foldl (fun acc p => List.zipWith add32 acc (rowFp ufmt dim p.2.2)) (rowFp ufmt dim b)
      (i, 0, sum.flatMap fun w => bytesOf 4 w.toNat)
    | _ =>
      let best := l.foldl (fun (x : Nat × List Byte) p => if newer p.2.1 x.1 then (p.2.1, p.2.2) else x) (v, b)
      (i, best.1, conv best.2)

/-- The start of a scatter: its checks, its operands, and the joined requests it makes (R361 to R366). -/
def scatterStart (op e : Nat) (s : State) (c : Cmd) : Work RowCmd := do
      need (!overcast s) .overcast
      let dom := c.tok.dom
      let share ← rowLanes s c
      let b ← operand s dom (laneBits c.tok.desc 0 0 56) 64
      let ufmt := fieldOf b 4 1
      let del := bitAt (fieldOf b 5 1) 0
      let n := fieldOf b 8 4
      need (fieldOf b 0 4 == 1 && (ufmt == 0 || ufmt == 9) && fieldOf b 5 1 < 2 && (!del || op == 2) && fieldOf b 6 2 == 0
        && 1 ≤ n && n ≤ 65536 && fieldOf b 0xC 4 == 0 && (op == 2 || fieldOf b 0x28 8 == 0) && fieldOf b 0x30 16 == 0)
        (.report stBAD_OPERATOR 0x80 0 0)
      let t ← readTable s dom (fieldOf b 0x10 8)
      let ib ← operand s dom (fieldOf b 0x18 8) (8 * n)
      let st := rowStride ufmt t.dim
      let rb ← if del then .ok [] else operand s dom (fieldOf b 0x20 8) ((n - 1) * st + rowBytes ufmt t.dim)
      let vb ← if op = 2 then operand s dom (fieldOf b 0x28 8) (4 * n) else .ok []
      let idx := (numsOf 8 n ib).zipIdx
      let good := idx.filter fun p => p.1 < t.rows
      let ups := fun x => (good.filter fun p => p.1 == x).map fun p =>
        (p.2, fieldOf vb (4 * p.2) 4, (rb.drop (p.2 * st)).take (rowBytes ufmt t.dim))
      let reqs := ((good.map (·.1)).eraseDups).map fun x =>
        let (i, v, row) := joinRow op t.elem ufmt t.dim (ups x)
        mkReq s c e t (if del then 4 else op + 1) i x v (if del then [] else row)
      needShare share c reqs
      .ok { todo := reqs, total := reqs.length, share := share, skipped := n - good.length, elem := t.elem, dim := t.dim }

/-- SCAT_OVERWRITE, SCAT_ADD and SCAT_REPLACE. -/
def scatter (op e : Nat) (s0 : State) : State :=
  engine 7 e .scat op (fun s c =>
    if c.phase == .running then .ok (tryEndRows (pumpRows s c.tok.job c.id) e c.id)
    else (scatterStart op e s c).map (runRows e s c)) s0

/-! ### Rows -/

/-- GATH_GATHER (R358, R359). -/
def execGathGather (tbe : BitVec 1) (s : State) : Out := .next (gather 0 tbe.toNat s)
/-- GATH_POOL (R358 to R360). -/
def execGathPool (tbe : BitVec 1) (s : State) : Out := .next (gather 1 tbe.toNat s)
/-- SCAT_OVERWRITE (R361, R362). -/
def execScatOverwrite (tbe : BitVec 1) (s : State) : Out := .next (scatter 0 tbe.toNat s)
/-- SCAT_ADD (R361, R362). -/
def execScatAdd (tbe : BitVec 1) (s : State) : Out := .next (scatter 1 tbe.toNat s)
/-- SCAT_REPLACE (R361, R363). -/
def execScatReplace (tbe : BitVec 1) (s : State) : Out := .next (scatter 2 tbe.toNat s)
/-- ROW_REQUEST (R355, R356): a serving engine applies the request at the head of its queue. -/
def execRowRequest (tbe : BitVec 1) (s : State) : Out := .next (rowServe tbe.toNat s)
/-- REPLICA_COPY_RETRY (R365): a copy that has gone 1 ms without acknowledgement is sent again. -/
def execReplicaCopyRetry (id : Nat) (s : State) : Out :=
  .next (match tfind s.tbe.copies id with
    | none => s
    | some c =>
      if s.now < c.sent + 1000000 then s
      else
        let s1 := sendSys (fbump s F.TBE_STAT_COPY_RETRY) { c.pkt with flags := c.pkt.flags ||| 4 }
        { s1 with tbe := { s1.tbe with copies := tins s1.tbe.copies id { c with sent := s1.now } } })

end Sys2Proof.Machine
end

