-- ==== Sys2Proof/Machine/Target.lean ====
section
/-!
DEFINITION. The target of the fabric (R430 to R447, R464, R470, R528): the checks of a request in the order of R437, where and when it
is served, copies and their trackers, and the window commands.
-/

namespace Sys2Proof.Machine

open Sys2Proof

/-! ### Headers -/

/-- TYPEs that R434 and R472 define. -/
def knownType (ty : Nat) : Bool := (1 ≤ ty && ty ≤ 0xA) || [0x10, 0x11, 0x12, 0x13, 0x16].contains ty || (0x20 ≤ ty && ty ≤ 0x27)
/-- A header that is not malformed and names this node (R430, R435, R437). -/
def pktOk (s : State) (p : Pkt) : Bool :=
  knownType p.ty.toNat && !p.bad && p.flags.toNat < 16 && p.size.toNat ≤ 3 && p.atop.toNat ≤ 9 && p.len.toNat ≤ 1024
    && myNode s == some p.dst.toNat
/-- Discard a packet and count it (R430, R437). -/
def badPkt (s : State) : State := fbump s F.FAB_XACT_STAT_BADHDR

/-- A packet of the row's TYPE arrives: a malformed one is discarded, one of another TYPE is not the row's. -/
def arrive (ty : Nat) (resp : Bool) (p : Pkt) (body : State → State) (s : State) : State :=
  if knownType p.ty.toNat && p.ty.toNat != ty then s
  else if !pktOk s p then badPkt s
  else if p.flags.getLsbD 0 != resp then s
  else body s

/-! ### Policing (R528) -/

/-- Flits of a request packet. -/
def pktFlits (p : Pkt) : Nat := 1 + cdiv p.payload.length 64
/-- Charge a request against its source's bucket, in thousandths of a flit: whether it passes; `never` says that it may not be dropped. -/
def policePkt (s : State) (p : Pkt) (never : Bool) : Bool × State :=
  let src := p.src.toNat
  let rate := fget s F.TRF_ING_RATE src
  if rate = 0 then (true, s)
  else
    let b := tget {} s.trf.ing src
    let level := min (max 1 (fget s F.TRF_ING_BURST src) * 16000) (b.level + (s.now - b.last) * rate * 16)
    let pass := never || decide (pktFlits p * 1000 ≤ level)
    (pass, { s with trf := { s.trf with ing := tput {} s.trf.ing src { level := if pass then level - pktFlits p * 1000 else level, last := s.now } } })

/-! ### Map epochs (R470) -/

/-- The entry of a map that covers an offset: its node. -/
def mapNode (m : Option RMap) (off : Nat) : Option Nat :=
  m.bind fun m => (m.ents.find? fun e => e.1 ≤ off && off < e.1 + e.2.1).map fun e => e.2.2
/-- The composition in a range of whose maps an offset lies. -/
def compAt (s : State) (off : Nat) : Option (Nat × Comp) :=
  s.fab.comps.find? fun p => (mapNode p.2.current off).isSome || (mapNode p.2.draining off).isSome || (mapNode p.2.staged off).isSome
/-- Epoch of a map. -/
def mapEpoch (m : Option RMap) : Option Nat := m.map fun m => m.epoch

/-- Windows a new request can use: none that a remove refuses already (R433). -/
def liveWin (s : State) (off n : Nat) : Option (Nat × Window) := (winFor s off n).filter fun p => !p.2.removing

/-! ### The checks of R437 -/

/-- What the checks of a request come to: a reply with its status and new node, a wait for the map of a composition, or the window that
admits it. -/
inductive Verdict
  | refuse (status newNode : Nat)
  | wait (comp : Nat)
  | pass (w : Window)
deriving DecidableEq, Repr

/-- The ACCESS bits of a window allow a request (R437). -/
def accessOk (p : Pkt) (access : Nat) : Bool :=
  (match p.ty.toNat with
    | 1 | 5 | 9 => bitAt access 0
    | 3 => bitAt access 2
    | _ => bitAt access 1) && (!(p.ty == 4 && p.flags.getLsbD 1) || bitAt access 3)
/-- A window admits the source of a request (R432). -/
def admits (w : Window) (p : Pkt) : Bool := w.nodeLo ≤ p.src.toNat && p.src.toNat ≤ w.nodeHi && w.sdom == p.sdom.toNat
/-- Bytes that fabric requests may reach: in the unified range, in no read-only mapping and no table that only TIR writes. Every boundary
of these is a multiple of 64. -/
def fabReach (s : State) (dom a n : Nat) : Bool :=
  (List.range (if n = 0 then 0 else (a + n - 1) / 64 - a / 64 + 1)).all fun i =>
    let b := if i = 0 then a else (a / 64 + i) * 64
    locate s dom b != .outside && !readOnly s dom b && !tirOnly s dom b

/-- The verdict of the map epoch: none where the request goes on. -/
def epochVerdict (s : State) (p : Pkt) (off n : Nat) : Option Verdict :=
  if p.mepoch = 0 then none
  else match compAt s off with
    | none => none
    | some (k, c) =>
      let e := some p.mepoch.toNat
      let moved := Verdict.refuse stMOVED ((mapNode c.current off).getD 0)
      if e = mapEpoch c.current then (if mapNode c.current off = myNode s then none else some moved)
      else if e = mapEpoch c.draining then (if (liveWin s off n).isSome then none else some moved)
      else if e = mapEpoch c.staged then some (.wait k)
      else some moved

/-- The verdict on a request, after its header and policing (R437, R470, R561). -/
def verdict (s : State) (p : Pkt) : Verdict :=
  let (off, n) := pktRange p
  match epochVerdict s p off n with
  | some v => v
  | none =>
    let w := liveWin s off n
    if s.smc.expelled.contains p.src.toNat || (writesAt p && fenced s) then .refuse stFENCED 0
    else if writesAt p && p.flags.getLsbD 3 && (match w with | some (_, w) => bitAt w.access 4 && w.owner == p.src.toNat | none => false) then
      .refuse stFENCED 0
    else match w with
      | none => .refuse stNOT_OWNER 0
      | some (_, w) =>
        if !admits w p || !accessOk p w.access || !fabReach s w.dom (w.base + (off - w.foff)) n then .refuse stNOT_OWNER 0
        else if writesAt p && bitAt w.access 4 && w.owner != p.src.toNat then .refuse stNOT_OWNER 0
        else .pass w

/-! ### Service (R443) -/

/-- Give an admitted request to where it is served: row requests to their serving engine (R355), the others to STK or TIR at once, or to a
deferred queue, or to FAB's hold. None: there is no room, the sender keeps the packet (R263, R443). -/
def serve (s : State) (w : Window) (p : Pkt) : Option State :=
  let (off, _) := pktRange p
  let a := w.base + (off - w.foff)
  let sa := if p.ty = 4 then a + 1024 * p.seg.toNat else a
  if p.ty = 9 || p.ty = 10 then some (pushRow s (rowOfPkt p w.dom a))
  else
    match bankOfAccess s w.dom sa with
    | none => some (fabApply s p)
    | some b =>
      let d : Defer := { bank := b, dom := w.dom, addr := sa, pkt := some p }
      if nbuRunning (nbuOf s b) then deferPut s d
      else match ownerOf s 0 b with
        | .job t => match jobOf s t with
          | some j => if hasWindow s j then if j.phase = .waiting then some (fabApply s p) else deferPut s d
            else if s.fab.hold.length ≥ maxHeld then none
            else some (holdPkt s d)
          | none => some (fabApply s p)
        | _ => some (fabApply s p)

/-! ### Requests -/

/-- The request needs a replay record and none is free (R464). -/
def recordsFull (s : State) (p : Pkt) : Bool := writesAt p && decide (maxRecords ≤ s.fab.records.length)
/-- The request needs a copy tracker (R436, R447). -/
def tracked (p : Pkt) : Bool := p.ty == 4 || p.ty == 5
/-- Incoming copies a node tracks (R447). -/
def maxCopies : Nat := 8192

/-- Act on the verdict of a request. The first segment of a copy decides for the others, so a refused copy is remembered. -/
def judge (s : State) (p : Pkt) : Option State :=
  match verdict s p with
  | .refuse st n =>
    let r := replyPkt s p st n
    let s1 := if p.ty = 4 && p.lastSeg != 0 then
      { s with fab := { s.fab with copies := tins s.fab.copies (copyKey p) { pkt := p, got := [p.seg.toNat], last := s.now, refused := some r } } } else s
    some (sendSys s1 r)
  | .wait k => if s.fab.hold.length ≥ maxHeld then none else some (holdPkt s { bank := holdComp k, pkt := some p })
  | .pass w =>
    if tracked p && (tfind s.fab.copies (copyKey p)).isNone && s.fab.copies.length ≥ maxCopies then none
    else
      let s1 := if p.ty = 4 then { s with fab := { s.fab with
        copies := tins s.fab.copies (copyKey p) { pkt := p, last := s.now } } } else s
      serve s1 w p

/-- A further segment of a copy whose first segment was admitted or refused (R437, R528). -/
def moreSegs (s : State) (p : Pkt) (c : CopyIn) : Option State :=
  match c.refused with
  | some r =>
    let got := if c.got.contains p.seg.toNat then c.got else p.seg.toNat :: c.got
    let copies := if got.length ≥ segCount p.total.toNat then tdel s.fab.copies (copyKey p)
      else tins s.fab.copies (copyKey p) { c with got := got, last := s.now }
    let s1 : State := { s with fab := { s.fab with copies := copies } }
    some (if p.flags.getLsbD 2 then sendSys s1 r else s1)
  | none =>
    let (off, n) := pktRange p
    match winFor s off n with
    | none => some (sendSys s (replyPkt s p stNOT_OWNER))
    | some (_, w) => serve (policePkt { s with fab := { s.fab with copies := tins s.fab.copies (copyKey p) { c with last := s.now } } } p true).2 w p

/-- A request whose header is good (R437, R464). One that cannot be taken yet stays with its sender. -/
def checkRequest (s : State) (p : Pkt) : State :=
    if applied s p then answerAgain s p
    else if recordsFull s p then s
    else match (if p.ty = 4 then tfind s.fab.copies (copyKey p) else none) with
      | some c => (moreSegs s p c).getD s
      | none =>
        let (pass, s1) := policePkt s p false
        if !pass then sendSys (fbump s1 F.TRF_ING_DROP_V) (replyPkt s1 p stPOLICED)
        else (judge s1 p).getD s

/-- Number under which FAB holds what waits for the node's wake (R607). -/
def holdWake : Nat := 2 ^ 71

/-- A request of TYPE `ty` arrives (R437): outside P0 it wakes the node and waits in FAB's hold (R607). -/
def request (ty : Nat) (p : Pkt) : State → State :=
  arrive ty false p fun s =>
    if inP0 s then checkRequest s p
    else if s.fab.hold.length ≥ maxHeld then wakeNode s
    else holdPkt (wakeNode s) { bank := holdWake, pkt := some p }

/-- Requests that waited for a wake are checked (R607). -/
def releaseWake (s : State) : State :=
  let mine := s.fab.hold.filter fun d => d.bank == holdWake
  mine.foldl (fun s d => match d.pkt with | some p => checkRequest s p | none => s)
    { s with fab := { s.fab with hold := s.fab.hold.filter fun d => d.bank != holdWake } }

/-- Requests that waited for a routing map are checked again (R470). -/
def releaseComp (s : State) (comp : Nat) : State :=
  let mine := s.fab.hold.filter fun d => d.bank == holdComp comp
  mine.foldl (fun s d => match d.pkt with | some p => (judge s p).getD (holdPkt s d) | none => s)
    { s with fab := { s.fab with hold := s.fab.hold.filter fun d => d.bank != holdComp comp } }

/-! ### Copies -/

/-- What concerns an incoming copy is dropped: its tracker and its segments not yet applied. -/
def dropCopyIn (s : State) (key : Nat) : State :=
  let other := fun (d : Defer) => match d.pkt with | some p => !(tracked p && copyKey p == key) | none => true
  { s with
    fab := { s.fab with copies := tdel s.fab.copies key, hold := s.fab.hold.filter other }
    stk := { s.stk with defer := (s.stk.defer.map fun p => (p.1, p.2.filter other)).filter fun p => p.2 != [] } }

/-- COPY_DONE: the remote pulse of a pull (R436). -/
def copyDone (p : Pkt) : State → State :=
  arrive 7 false p fun s => match tfind s.fab.copies (copyKey p) with
    | some c => if c.pkt.ty = 5 then remotePulse { s with fab := { s.fab with copies := tdel s.fab.copies (copyKey p) } } c.pkt else s
    | none => s

/-- COPY_CANCEL (R446). -/
def copyCancel (p : Pkt) : State → State :=
  arrive 8 false p fun s => dropCopyIn s (copyKey p)

/-- COPY_TRACKER_TIMEOUT: no segment for 10 ms (R448). -/
def copyTimeout (key : Nat) (s : State) : State :=
  match tfind s.fab.copies key with
  | none => s
  | some c =>
    if s.now < c.last + 10000000 then s
    else
      let s1 := dropCopyIn s key
      if c.refused.isSome then s1 else fbump s1 F.FAB_XACT_STAT_TMO

/-- REPLAY_RECORD_EXPIRY (R464). -/
def recordExpiry (key : Nat) (s : State) : State :=
  match tfind s.fab.records key with
  | none => s
  | some r => if s.now < r.until_ then s else { s with fab := { s.fab with records := tdel s.fab.records key } }

/-! ### Window commands (R431 to R433, R452, R453) -/

/-- A window descriptor: none where a field is out of range (R432, R433). -/
def parseWindow (dom win : Nat) (b : List Byte) : Option Window :=
  let foff := fieldOf b 8 8
  let base := fieldOf b 0x10 8
  let len := fieldOf b 0x18 8
  let acc := fieldOf b 0x26 1
  let own := fieldOf b 0x28 2
  if fieldOf b 0 4 != 1 || fieldOf b 4 2 != win || fieldOf b 6 2 != 0 || foff % 65536 != 0 || base ≥ 2 ^ 56 || base % 65536 != 0
      || len = 0 || len % 65536 != 0 || fieldOf b 0x20 2 ≥ 4096 || fieldOf b 0x22 2 ≥ 4096 || fieldOf b 0x24 2 ≥ 4096
      || fieldOf b 0x22 2 > fieldOf b 0x24 2 || acc ≥ 32 || fieldOf b 0x27 1 != 0
      || (if bitAt acc 4 then own ≥ 4096 else own != 0) || fieldOf b 0x2A 22 != 0 || foff + len > 2 ^ 48 then none
  else some { dom := dom, foff := foff, base := base, len := len, sdom := fieldOf b 0x20 2, nodeLo := fieldOf b 0x22 2
              nodeHi := fieldOf b 0x24 2, access := acc, owner := own }

/-- Some operation admitted through a window has not been applied. -/
def windowBusy (s : State) (w : Window) : Bool :=
  let inW := fun (p : Pkt) => let (off, _) := pktRange p; w.foff ≤ off && off < w.foff + w.len
  let waits := fun (d : Defer) => match d.pkt with | some p => inW p | none => false
  s.fab.hold.any waits || s.stk.defer.any (fun p => p.2.any waits) || s.fab.copies.any (fun p => p.2.refused.isNone && inW p.2.pkt)
    || s.tbe.queues.any fun p => p.2.any fun r => match r.pkt with | some p => inW p | none => false

/-- A write of `FAB_WIN_CMD` that names an operation (R452, R656). A remove that will succeed refuses new requests from now on. -/
def windowBegin (op : Nat) (s : State) : State :=
  if fget s F.FAB_WIN_STAT_BUSY = 1 then s
  else
    let k := fget s F.FAB_WIN_CMD_WINDOW
    let dom := fget s F.FAB_WIN_CMD_DOMAIN
    let go := op == 2 && domActive s dom && (match tfind s.fab.windows k with | some w => w.dom == dom | none => false)
    let s1 := fset s F.FAB_WIN_STAT_BUSY 1
    { s1 with fab := { s1.fab with
      winCmd := some { op := op, arg := k, args := [dom, rpair s .FAB_WIN_DESC_LO .FAB_WIN_DESC_HI, if go then 1 else 0] }
      windows := if go then tmod s1.fab.windows k fun w => { w with removing := true } else s1.fab.windows } }

/-- The outcome of a window command: status, reason, and the state with its effect (R433). -/
def windowEffect (c : RegCmd) (s : State) : Nat × Nat × State :=
  match c.args with
  | [dom, a, go] =>
    if 2 < c.op || c.op = 0 then (stBAD_OPERATOR, 0, s)
    else if !domActive s dom then (stBAD_OPERATOR, 0xE3, s)
    else if c.op = 2 then
      if go = 1 then (stOK, 0, { s with fab := { s.fab with windows := tdel s.fab.windows c.arg } }) else (stBAD_OPERATOR, 0xB0, s)
    else match (readDesc s dom a 64 false false).bind (parseWindow dom c.arg) with
      | none => (stBAD_OPERATOR, 0xB0, s)
      | some w =>
        if (tfind s.fab.windows c.arg).isSome || s.fab.windows.any fun p => crosses p.2.foff p.2.len w.foff w.len then (stBAD_OPERATOR, 0xB1, s)
        else if !pagesIn s dom w.base w.len then (stBAD_OPERATOR, 0xB2, s)
        else (stOK, 0, { s with fab := { s.fab with windows := tins s.fab.windows c.arg w } })
  | _ => (stBAD_OPERATOR, 0, s)

/-- WINDOW_COMMAND_COMPLETE: a remove waits for what the window has admitted (R433). -/
def windowComplete (s : State) : State :=
  match s.fab.winCmd with
  | none => s
  | some c =>
    let busy := c.op == 2 && match tfind s.fab.windows c.arg with | some w => w.removing && windowBusy s w | none => false
    if busy then s
    else
      let (st, rs, s1) := windowEffect c s
      let s2 : State := { s1 with fab := { s1.fab with winCmd := none } }
      fset (fset (fset s2 F.FAB_WIN_STAT_STATUS st) F.FAB_WIN_STAT_REASON rs) F.FAB_WIN_STAT_BUSY 0

/-- A write of `FAB_WIN_CMD` with the operation of a row. -/
def windowWrite (op : Nat) (v : W32) (s : State) : State :=
  hostReg s .FAB_WIN_CMD (.reg .FAB_WIN_CMD 0 (if bitsOf v.toNat 12 4 = op then v else v &&& 0xFFFF0FFF)) fun s =>
    let s1 := regWritePlain s .FAB_WIN_CMD 0 v
    if bitsOf v.toNat 12 4 = op && op != 0 then windowBegin op s1 else s1

/-! ### Rows -/

/-- LOAD. -/
def execLoad (p : Pkt) (s : State) : Out := .next (request 1 p s)
/-- STORE. -/
def execStore (p : Pkt) (s : State) : Out := .next (request 2 p s)
/-- ATOMIC. -/
def execAtomic (p : Pkt) (s : State) : Out := .next (request 3 p s)
/-- COPY_PUSH. -/
def execCopyPush (p : Pkt) (s : State) : Out := .next (request 4 p s)
/-- COPY_PULL. -/
def execCopyPull (p : Pkt) (s : State) : Out := .next (request 5 p s)
/-- ROW_READ (R355). -/
def execRowRead (p : Pkt) (s : State) : Out := .next (request 9 p s)
/-- ROW_UPDATE (R355, R365). -/
def execRowUpdate (p : Pkt) (s : State) : Out := .next (request 10 p s)
/-- COPY_DONE. -/
def execCopyDone (p : Pkt) (s : State) : Out := .next (copyDone p s)
/-- COPY_CANCEL. -/
def execCopyCancel (p : Pkt) (s : State) : Out := .next (copyCancel p s)
/-- COPY_TRACKER_TIMEOUT. -/
def execCopyTrackerTimeout (key : Nat) (s : State) : Out := .next (copyTimeout key s)
/-- REPLAY_RECORD_EXPIRY. -/
def execReplayRecordExpiry (key : Nat) (s : State) : Out := .next (recordExpiry key s)
/-- WINDOW_CREATE. -/
def execWindowCreate (v : W32) (s : State) : Out := .next (windowWrite 1 v s)
/-- WINDOW_REMOVE. -/
def execWindowRemove (v : W32) (s : State) : Out := .next (windowWrite 2 v s)
/-- WINDOW_COMMAND_COMPLETE. -/
def execWindowCommandComplete (s : State) : Out := .next (windowComplete s)

end Sys2Proof.Machine
end

