-- ==== Sys2Proof/Machine/Links.lean ====
section
/-!
DEFINITION. Fabric ports and links (R456 to R463, R557, R590, R591): training, qualification, losses, frames and keys, path notices, and
the end-to-end replay of operations.
-/

namespace Sys2Proof.Machine

open Sys2Proof

/-- The state of a port beyond its register. -/
def linkOf (s : State) (p : Nat) : Link := tget {} s.fab.links p
/-- The state with it written. -/
def setLink (s : State) (p : Nat) (l : Link) : State := { s with fab := { s.fab with links := tput {} s.fab.links p l } }

/-! ### States (R457, R459) -/

/-- WIDTH code of a number of lanes, and the other way round (R476). -/
def widthCode (lanes : Nat) : Nat := if lanes ≥ 8 then 3 else if lanes ≥ 4 then 2 else if lanes ≥ 2 then 1 else 0
def codeLanes (w : Nat) : Nat := if w = 0 then 0 else 2 ^ w
/-- Ports that count towards readiness: FULL or NARROW at x4 or wider. -/
def portCount (s : State) : Nat := ((List.range 8).filter fun p => portUp s p && fget s F.FAB_PORT_STAT_WIDTH p ≥ 2).length
/-- MIN in force. -/
def minPorts (s : State) : Nat := max 1 (fget s F.FAB_MINPORTS_MIN)
/-- COUNT and BELOW follow the ports (R478). -/
def countPorts (s : State) : State :=
  let s1 := fset s F.FAB_MINPORTS_COUNT (portCount s)
  fset s1 F.FAB_MINPORTS_BELOW (if portCount s < minPorts s then 1 else 0)

/-- The `LINK_CHANGE` record of a port (R457, R501). -/
def linkChange (s : State) (p : Nat) : State :=
  devEvent s 0x05 0 0 (bytesOf 1 p ++ bytesOf 1 (fget s F.FAB_PORT_STAT_STATE p) ++ bytesOf 1 (codeLanes (fget s F.FAB_PORT_STAT_WIDTH p))
    ++ bytesOf 1 (fget s F.FAB_PORT_STAT_DEGRADED p + 2 * fget s F.FAB_MINPORTS_BELOW))

/-- A port changes its state, at a width in lanes. -/
def portState (s : State) (p st lanes : Nat) : State :=
  let up := st == 3 || st == 4
  let s1 := fset (fset s F.FAB_PORT_STAT_STATE st p) F.FAB_PORT_STAT_WIDTH (if up then widthCode lanes else 0) p
  let s2 := fset s1 F.FAB_PORT_STAT_DEGRADED (if up && lanes < 8 then 1 else 0) p
  linkChange (countPorts s2) p

/-- A port comes into service at a number of lanes, or is held when that is below x2. -/
def portService (s : State) (p lanes : Nat) : State :=
  if lanes ≥ 8 then portState s p 3 8 else if lanes ≥ 4 then portState s p 4 4 else if lanes ≥ 2 then portState s p 4 2 else portState s p 5 0

/-- A port enters training, with qualification or without. -/
def portTrain (s : State) (p : Nat) (qualify : Bool) : State :=
  portState (setLink s p { linkOf s p with qualify := qualify, held := false, replays := 0, spoiled := false }) p 1 0

/-! ### Training and qualification -/

/-- Lanes of a training result that the link can use: 8, 4, 2 or none. -/
def trainedWidth (lanes : Nat) : Nat := let n := popcount lanes 8; if n ≥ 8 then 8 else if n ≥ 4 then 4 else if n ≥ 2 then 2 else 0

/-- PORT_TRAINING_DONE: the lanes that trained, whether the peer is a node, its number and VALID, and whether the exchange of R557
succeeded. -/
def portTrainingDone (p lanes : Nat) (direct : Bool) (peer : Nat) (peerValid authOk : Bool) (s : State) : State :=
  if fget s F.FAB_PORT_STAT_STATE p != 1 then s
  else
    let w := trainedWidth lanes
    let bad := !authOk || (direct && (!peerValid || myNode s == some peer || s.smc.expelled.contains peer))
    let s1 := fset (fset s F.FAB_PORT_STAT_DIRECT (if direct then 1 else 0) p) F.FAB_PORT_STAT_PEER (if direct then peer else 0) p
    let l := linkOf s1 p
    let s2 := setLink s1 p { l with lanes := lanes, frames := 0, keyed := s.now, rx := 0, rxKeyed := s.now }
    if w = 0 || bad then portState s2 p 5 0
    else if l.qualify then portState s2 p 2 w
    else portService s2 p w

/-- The width a lane test leaves: the trained one when every trained lane passes, else the widest group of passing lanes (R591). -/
def testWidth (trained pass : Nat) : Nat :=
  let all := fun (g : List Nat) => g.all fun i => bitAt trained i && bitAt pass i
  if (List.range 8).all fun i => !bitAt trained i || bitAt pass i then trainedWidth trained
  else if all [0, 1, 2, 3] || all [4, 5, 6, 7] then 4
  else if all [0, 1] || all [2, 3] || all [4, 5] || all [6, 7] then 2
  else 0

/-- QUALIFICATION_COMPLETE: the lanes that pass the test. A brownout during the test has discarded its results (R590). -/
def qualificationComplete (p pass : Nat) (s : State) : State :=
  if fget s F.FAB_PORT_STAT_STATE p != 2 || (linkOf s p).spoiled then s
  else portService s p (testWidth (linkOf s p).lanes pass)

/-! ### Losses (R458) -/

/-- A FULL or NARROW port loses its link: DOWN, then a retrain without qualification, or HELD at the fourth loss within 60 s. -/
def linkLoss (p : Nat) (s : State) : State :=
  if !portUp s p then s
  else
    let l := linkOf s p
    let recent := s.now :: l.losses.filter fun t => s.now < t + 60000000000
    let s1 := portState (setLink s p { l with losses := recent.take 4 }) p 0 0
    if recent.length ≥ 4 then portState s1 p 5 0 else portTrain (fbump s1 F.FAB_PORT_STAT_RETRAINS p) p false

/-- FRAME_RECEIVE (R460, R461): a frame that fails its CRC or its authentication is refused; eight times in a row take the port down. -/
def frameReceive (p : Nat) (crcOk authOk : Bool) (s : State) : State :=
  if !portUp s p then s
  else
    let l := linkOf s p
    if crcOk && authOk then setLink s p { l with rx := l.rx + 1, replays := 0 }
    else
      let s1 := if crcOk then fbump s F.FAB_PORT_STAT_AUTH_FAIL p else s
      let s2 := setLink s1 p { l with replays := l.replays + 1 }
      if l.replays + 1 ≥ 8 then linkLoss p s2 else s2

/-- REKEY (R460): after 2^40 frames or one hour. -/
def rekey (p : Nat) (rx : Bool) (s : State) : State :=
  let l := linkOf s p
  if !portUp s p then s
  else if rx then
    if l.rx ≥ 2 ^ 40 || s.now ≥ l.rxKeyed + 3600000000000 then setLink s p { l with rx := 0, rxKeyed := s.now } else s
  else if l.frames ≥ 2 ^ 40 || s.now ≥ l.keyed + 3600000000000 then setLink s p { l with frames := 0, keyed := s.now } else s

/-! ### Paths and replay (R462, R463) -/

/-- PATH_NOTICE: the port leaves its route to the node. -/
def pathNotice (p node : Nat) (s : State) : State :=
  let k := p * 4096 + node
  if s.fab.cut.contains k then s else { s with fab := { s.fab with cut := k :: s.fab.cut } }
/-- PATH_RESTORED. -/
def pathRestored (p node : Nat) (s : State) : State :=
  { s with fab := { s.fab with cut := s.fab.cut.filter fun k => k != p * 4096 + node } }

/-- Interval of the end-to-end replay, in ns. -/
def replayAfter (s : State) : Nat := max 1 (fget s F.FAB_MINPORTS_REPLAY_US) * 1000
/-- An operation is due for a replay: no reply in time, its port is not up, or its path is cut. -/
def replayDue (s : State) (o : FabOp) : Bool :=
  decide (o.sent + replayAfter s ≤ s.now) || (decide (o.port < 8) && (!portUp s o.port || s.fab.cut.contains (o.port * 4096 + o.pkt.dst.toNat)))

/-- END_TO_END_REPLAY: the operation goes out again under its tag, with REPLAY set; of a push, every segment that has left and is not
acknowledged. -/
def endToEndReplay (tag : Nat) (s : State) : State :=
  match tfind s.fab.ops tag with
  | none => s
  | some o =>
    if !replayDue s o then s
    else
      let q := if o.kind = 0 || o.kind = 2 then
        domQueue s o.dom (match jobOf s o.job with | some j => j.be | none => true) else 15
      let p := fenceFlag s { o.pkt with flags := o.pkt.flags ||| 4 }
      let put := fun (s : State) (port : Nat) =>
        { s with fab := { s.fab with ops := tins s.fab.ops tag { o with sent := s.now, port := port } } }
      if p.ty = 4 then
        let again := (List.range (segCount p.total.toNat)).filter fun i => !o.segs.contains i
        let s1 := again.foldl (fun s i => (sendPkt s q { p with
          seg := BitVec.ofNat 16 i, off := p.off + BitVec.ofNat 48 (1024 * i)
          len := BitVec.ofNat 16 (min 1024 (p.total.toNat - 1024 * i)) } (some (o.dom, o.src + 1024 * i))).2) s
        put s1 ((routePort s p.dst.toNat tag).getD 14)
      else
        let (port, s1) := sendPkt s q p
        put s1 port

/-! ### Host commands (R477) -/

/-- The ports that PORTS of `FAB_PORT_CMD` names. -/
def cmdPorts (s : State) : List Nat := maskList (fget s F.FAB_PORT_CMD_PORTS) 8
/-- RETRY: each HELD port in PORTS trains, with qualification. -/
def retryPorts (s : State) : State :=
  (cmdPorts s).foldl (fun s p => if fget s F.FAB_PORT_STAT_STATE p = 5 then portTrain s p true else s) s
/-- HOLD: each port in PORTS goes to HELD. -/
def holdPorts (s : State) : State :=
  (cmdPorts s).foldl (fun s p =>
    let s1 := setLink s p { linkOf s p with held := true }
    if fget s F.FAB_PORT_STAT_STATE p = 5 then s1 else portState s1 p 5 0) s
/-- A write of `FAB_PORT_CMD`. -/
def portCmd (v : W32) (s : State) : State :=
  let s1 := regWritePlain s .FAB_PORT_CMD 0 v
  let s2 := if v.getLsbD 8 then retryPorts s1 else s1
  if v.getLsbD 9 then holdPorts s2 else s2

/-! ### Rows -/

/-- PORT_TRAINING_DONE. -/
def execPortTrainingDone (port : BitVec 3) (lanes : BitVec 8) (direct : Bool) (peer : BitVec 12) (peerValid authOk : Bool) (s : State) : Out :=
  .next (portTrainingDone port.toNat lanes.toNat direct peer.toNat peerValid authOk s)
/-- QUALIFICATION_COMPLETE. -/
def execQualificationComplete (port : BitVec 3) (pass : BitVec 8) (s : State) : Out := .next (qualificationComplete port.toNat pass.toNat s)
/-- LINK_LOSS. -/
def execLinkLoss (port : BitVec 3) (s : State) : Out := .next (linkLoss port.toNat s)
/-- FRAME_RECEIVE. -/
def execFrameReceive (port : BitVec 3) (crcOk authOk : Bool) (s : State) : Out := .next (frameReceive port.toNat crcOk authOk s)
/-- REKEY. -/
def execRekey (port : BitVec 3) (rx : Bool) (s : State) : Out := .next (rekey port.toNat rx s)
/-- PATH_NOTICE. -/
def execPathNotice (port : BitVec 3) (node : BitVec 12) (s : State) : Out := .next (pathNotice port.toNat node.toNat s)
/-- PATH_RESTORED. -/
def execPathRestored (port : BitVec 3) (node : BitVec 12) (s : State) : Out := .next (pathRestored port.toNat node.toNat s)
/-- END_TO_END_REPLAY. -/
def execEndToEndReplay (tag : W32) (s : State) : Out := .next (endToEndReplay tag.toNat s)
/-- PORT_RETRY (R477). -/
def execPortRetry (v : W32) (s : State) : Out := .next (hostReg s .FAB_PORT_CMD (.reg .FAB_PORT_CMD 0 v) (portCmd v))
/-- PORT_HOLD (R477). -/
def execPortHold (v : W32) (s : State) : Out := .next (hostReg s .FAB_PORT_CMD (.reg .FAB_PORT_CMD 0 v) (portCmd v))

end Sys2Proof.Machine
end

