-- ==== Sys2Proof/Machine/Comps.lean ====
section
/-!
DEFINITION. Slices and compositions (R466 to R471, R479, R480), the ledger and handoffs (R439, R472 to R474, R481), and the origin's side
of fabric operations: replies, pulled segments, timeouts (R133, R134, R136, R436, R446 to R448).
-/

namespace Sys2Proof.Machine

open Sys2Proof

/-! ### Slices -/

/-- Bytes of a descriptor of `FAB_MAP_CMD`. -/
def mapDesc (s : State) (n : Nat) : Option (List Byte) := uBytes s (Config.mapDomain % 4096) (rpair s .FAB_MAP_DESC_LO .FAB_MAP_DESC_HI) n
/-- A slice descriptor (R467): its number and the slice. -/
def parseSlice (b : List Byte) : Option (Nat × Slice) :=
  if fieldOf b 0 4 != 1 || fieldOf b 4 1 > 15 || fieldOf b 8 4 ≥ 2 ^ 20 || fieldOf b 0xD 3 != 0 || fieldOf b 0x18 8 != 0 then none
  else some (fieldOf b 4 1, { comp := fieldOf b 5 1, clusters := fieldOf b 6 2, stackMask := fieldOf b 8 4, portMask := fieldOf b 0xC 1
                              channels := fieldOf b 0x10 8 })
/-- Two slices share a unit. -/
def slicesMeet (a b : Slice) : Bool :=
  a.clusters &&& b.clusters != 0 || a.stackMask &&& b.stackMask != 0 || a.portMask &&& b.portMask != 0 || a.channels &&& b.channels != 0

/-- Status and reason of a map command. -/
def mapDone (s : State) (st rs : Nat) : State := fset (fset s F.FAB_MAP_STAT_STATUS st) F.FAB_MAP_REASON_V rs

/-- OP 0x1 of `FAB_MAP_CMD` (R467, R479). -/
def sliceDefine (s : State) : State :=
  match (mapDesc s 32).bind parseSlice with
  | none => mapDone s stBAD_OPERATOR 0
  | some (k, l) =>
    if s.exec.plans.any (fun p => p.2.slice == k) || s.fab.slices.any fun p => p.1 != k && slicesMeet p.2 l then mapDone s stBAD_OPERATOR 0xB5
    else mapDone { s with fab := { s.fab with slices := tins s.fab.slices k l } } stOK 0

/-! ### Routing maps -/

/-- A composition. -/
def compOf (s : State) (k : Nat) : Comp := tget {} s.fab.comps k
/-- The state with it written. -/
def setComp (s : State) (k : Nat) (c : Comp) : State := { s with fab := { s.fab with comps := tput {} s.fab.comps k c } }
/-- The epoch after `e` (R468). -/
def nextEpoch (e : Nat) : Nat := if e ≥ 0xFFFF then 1 else e + 1
/-- Strictly rising. -/
def rising : List Nat → Bool
  | [] => true
  | [_] => true
  | a :: b :: l => decide (a < b) && rising (b :: l)
/-- Ranges in rising order that do not overlap. -/
def ranged : List (Nat × Nat × Nat) → Bool
  | [] => true
  | [_] => true
  | a :: b :: l => decide (a.1 + a.2.1 ≤ b.1) && ranged (b :: l)

/-- A routing map as OP 0x2 reads it (R468): none when it is malformed. -/
def readMap (s : State) (comp : Nat) : Option RMap := do
  let h ← mapDesc s 64
  let n := fieldOf h 8 4
  let m := fieldOf h 0xC 2
  if fieldOf h 0 4 != 1 || fieldOf h 4 1 != comp || fieldOf h 5 1 != 0 || n > 65536 || m = 0 || m > 4096 || fieldOf h 0xE 2 != 0
      || fieldOf h 0x20 32 != 0 then none
  else do
    let b ← mapDesc s (64 + 16 * n)
    let l ← uBytes s (Config.mapDomain % 4096) (fieldOf h 0x18 8) (2 * m)
    let e := b.drop 64
    let ents := (List.range n).map fun i => (fieldOf e (16 * i) 6, fieldOf e (16 * i + 8) 4 * 65536, fieldOf e (16 * i + 6) 2 % 4096)
    let members := (List.range m).map fun i => fieldOf l (2 * i) 2
    if ents.any (fun p => p.1 % 65536 != 0 || p.2.1 = 0 || p.1 + p.2.1 > 2 ^ 48) || !ranged ents || !rising members
        || members.any (fun x => x ≥ 4096) || (List.range n).any (fun i => fieldOf e (16 * i + 12) 4 != 0) then none
    else some { epoch := fieldOf h 6 2, ents := ents, members := members, horizon := fieldOf h 0x10 8, raw := b ++ l }

/-- OP 0x2 (R469). -/
def mapStage (s : State) : State :=
  let k := fget s F.FAB_MAP_CMD_COMP
  let c := compOf s k
  let cur := (mapEpoch c.current).getD 0
  match readMap s k with
  | none => mapDone s stBAD_OPERATOR 0xB4
  | some m =>
    if m.epoch != nextEpoch cur || k = 255 then mapDone s stBAD_OPERATOR 0xB4
    else if c.draining.isSome || c.staged.isSome then mapDone s stBAD_OPERATOR 0xB3
    else mapDone (setComp s k { c with staged := some m }) stOK 0

/-- OP 0x3 (R469): what waited for the switch is checked again. -/
def mapCancel (s : State) : State :=
  let k := fget s F.FAB_MAP_CMD_COMP
  mapDone (releaseComp (setComp s k { compOf s k with staged := none }) k) stOK 0

/-- A write of `FAB_MAP_CMD` (R479): its commands complete at once. -/
def mapCmd (v : W32) (s : State) : State :=
  let s1 := regWritePlain s .FAB_MAP_CMD 0 v
  match bitsOf v.toNat 8 4 with
  | 0 => s1
  | 1 => sliceDefine s1
  | 2 => mapStage s1
  | 3 => mapCancel s1
  | _ => mapDone s1 stBAD_OPERATOR 0

/-! ### Draining (R471) -/

/-- Operations in flight that carry the draining epoch of a composition. -/
def drainCount (s : State) (m : RMap) : Nat :=
  (s.fab.ops.filter fun p => p.2.pkt.mepoch.toNat == m.epoch && (mapNode (some m) p.2.pkt.off.toNat).isSome).length
/-- Members of both maps of a drain. -/
def drainMembers (c : Comp) : List Nat :=
  ((match c.draining with | some m => m.members | none => []) ++ match c.current with | some m => m.members | none => []).eraseDups

/-- Progress of a drain: DRAIN_DONE is sent once this node's own count is zero, and the map retires once every member that is not
expelled has sent it. -/
def pumpDrain (s : State) (k : Nat) : State :=
  let c := compOf s k
  match c.draining with
  | none => s
  | some m =>
    if drainCount s m != 0 then s
    else
      let s1 := if c.sentDone then s else (drainMembers c).foldl (fun s n => if some n = myNode s then s else
        sendSys s { noPkt with ty := 0x16, dst := BitVec.ofNat 12 n, src := BitVec.ofNat 12 ((myNode s).getD 0)
                               operand := BitVec.ofNat 64 (m.epoch + k * 65536) }) s
      let all := (drainMembers c).all fun n => some n == myNode s || s.smc.expelled.contains n || c.done.contains (m.epoch * 4096 + n)
      setComp s1 k (if all then { c with draining := none, sentDone := false, done := [] } else { c with sentDone := true })

/-- Progress of every drain. -/
def pumpDrains (s : State) : State := s.fab.comps.foldl (fun s p => pumpDrain s p.1) s

/-- MAP_HORIZON: the staged map becomes current, the other one drains (R469); tiles cached of read-only mappings are dropped (R384), and
requests that waited are checked (R470). -/
def mapHorizon (k : Nat) (s : State) : State :=
  let c := compOf s k
  match c.staged with
  | none => s
  | some m =>
    if s.now < m.horizon then s
    else
      let s1 := setComp s k { c with current := some m, draining := c.current, staged := none, sentDone := false }
      let ro := (s1.tir.pages.map (·.1)).filter fun p => match pageRegion s1 p with | some (_, r) => r.cls == 2 | none => false
      pumpDrain (releaseComp (ro.foldl dropCopy s1) k) k

/-- DRAIN_DONE of a member (R471, R472). -/
def drainDone (p : Pkt) : State → State :=
  arrive 0x16 false p fun s =>
    let k := bitsOf p.operand.toNat 16 8
    let c := compOf s k
    let d := bitsOf p.operand.toNat 0 16 * 4096 + p.src.toNat
    if c = {} || c.done.contains d then s else pumpDrain (setComp s k { c with done := d :: c.done }) k

/-! ### The ledger (R439, R472) -/

/-- An owner and generation as OPERAND and COMPARE carry them. -/
def ledWord (owner gen : Nat) : W64 := BitVec.ofNat 64 (owner + gen % 2 ^ 32 * 2 ^ 32)
def ledOwner (w : W64) : Nat := bitsOf w.toNat 0 12
def ledGen (w : W64) : Nat := bitsOf w.toNat 32 32
/-- The ledgered window that a ledger request names and that admits it. -/
def ledWin (s : State) (p : Pkt) : Option (Nat × Window) :=
  s.fab.windows.find? fun x => x.2.foff == p.off.toNat && bitAt x.2.access 4 && admits x.2 p && !x.2.removing

/-- LEDGER_READ at the home. -/
def ledgerRead (p : Pkt) : State → State :=
  arrive 0x10 false p fun s0 =>
    let s := wakeNode s0
    if s.smc.expelled.contains p.src.toNat then sendSys s (replyPkt s p stFENCED)
    else match ledWin s p with
      | none => sendSys s (replyPkt s p stNOT_OWNER)
      | some (_, w) => sendSys s (replyPkt s p stOK 0 (ledWord w.owner w.gen))

/-- LEDGER_CAS at the home: while a write admitted under the present owner is not applied, the request stays with its sender. -/
def ledgerCas (p : Pkt) : State → State :=
  arrive 0x11 false p fun s0 =>
    let s := wakeNode s0
    if applied s p then answerAgain s p
    else if s.smc.expelled.contains p.src.toNat then sendSys s (replyPkt s p stFENCED)
    else match ledWin s p with
      | none => sendSys s (replyPkt s p stNOT_OWNER)
      | some (k, w) =>
        if windowBusy s w || s.fab.records.length ≥ maxRecords then s
        else
          let hit := w.owner == ledOwner p.compare && w.gen == ledGen p.compare
          let s1 : State := if hit then { s with fab := { s.fab with
            windows := tins s.fab.windows k { w with owner := ledOwner p.operand, gen := ledGen p.operand } } } else s
          let r := if hit then replyPkt s1 p stOK 0 p.operand else replyPkt s1 p stNOT_OWNER 0 (ledWord w.owner w.gen)
          sendSys (keepRecord s1 p (some r)) r

/-! ### Handoff (R473, R474, R481) -/

/-- This node's number. -/
def meNode (s : State) : Nat := (myNode s).getD 0
/-- Put a ledger request of a handoff in flight; `arg` says what it is for: 0 the offerer's CAS, 1 the receiver's CAS, 2 the receiver's
read, 3 the read of OP 0x2. -/
def launchLed (s : State) (h : Handoff) (ty arg : Nat) (operand compare : W64) : Nat × State :=
  (newFabTag s, launch s 15 { kind := 3, arg := arg, dom := h.dom, pkt := { noPkt with
    ty := BitVec.ofNat 8 ty, dst := BitVec.ofNat 12 h.home, src := BitVec.ofNat 12 (meNode s), sdom := BitVec.ofNat 12 h.dom
    off := BitVec.ofNat 48 h.foff, operand := operand, compare := compare } })

/-- The handoff command of the host ends: its status, and the ledger entry in its descriptor. -/
def hoDone (s : State) (h : Handoff) (st rs : Nat) (entry : W64) : State :=
  let s1 := if h.dom < 4096 then (match uWrite s h.dom (h.desc + 0x10) (bytesOf 8 entry.toNat) with | .ok s1 => s1 | _ => s) else s
  let s2 : State := { s1 with fab := { s1.fab with handoff := none } }
  fset (fset (fset s2 F.FAB_HO_STAT_STATUS st) F.FAB_HO_STAT_REASON rs) F.FAB_HO_CMD_BUSY 0

/-- The offer leaves once every write this node has issued to the home is acknowledged (R473). -/
def pumpOffer (s : State) : State :=
  match s.fab.handoff with
  | none => s
  | some h =>
    if h.role != 0 || h.sent || (myNode s).isNone || s.fab.ops.any fun p => writesAt p.2.pkt && p.2.pkt.dst.toNat == h.home then s
    else
      let s1 := sendSys s { noPkt with
        ty := 0x12, dst := BitVec.ofNat 12 h.peer, src := BitVec.ofNat 12 (meNode s), sdom := BitVec.ofNat 12 h.dom
        off := BitVec.ofNat 48 h.foff, newNode := BitVec.ofNat 12 h.home, operand := ledWord (meNode s) h.gen }
      { s1 with fab := { s1.fab with handoff := some { h with sent := true, start := s.now } } }

/-- OP 0x1 and 0x2 of `FAB_HO_CMD`. -/
def hoBegin (op : Nat) (s : State) : State :=
  if fget s F.FAB_HO_CMD_BUSY = 1 then s
  else
    let dom := fget s F.FAB_HO_CMD_DOMAIN
    let a := rpair s .FAB_HO_DESC_LO .FAB_HO_DESC_HI
    match uBytes s dom a 32 with
    | none => hoDone s { dom := 4096 } stBAD_OPERATOR 0 0
    | some b =>
      let h : Handoff := { role := if op = 1 then 0 else 2, home := bitsOf (fieldOf b 0 8) 48 12, foff := bitsOf (fieldOf b 0 8) 0 48
                           peer := fieldOf b 8 2 % 4096, gen := fieldOf b 0xC 4, dom := dom, desc := a, start := s.now }
      let s1 := fset s F.FAB_HO_CMD_BUSY 1
      if op = 1 then pumpOffer { s1 with fab := { s1.fab with handoff := some h } }
      else
        let (tag, s2) := launchLed s1 h 0x10 3 0 0
        { s2 with fab := { s2.fab with handoff := some { h with tag := tag } } }

/-- A write of `FAB_HO_CMD`. -/
def hoCmd (v : W32) (s : State) : State :=
  let s1 := regWritePlain s .FAB_HO_CMD 0 v
  match bitsOf v.toNat 12 4 with
  | 0 => s1
  | 1 => hoBegin 1 s1
  | 2 => hoBegin 2 s1
  | _ => if fget s1 F.FAB_HO_CMD_BUSY = 1 then s1 else hoDone s1 { dom := 4096 } stBAD_OPERATOR 0 0

/-- An ACCEPT to the offerer. -/
def sendAccept (s : State) (h : Handoff) (st : Nat) (entry : W64) : State :=
  sendSys s { noPkt with
    ty := 0x13, dst := BitVec.ofNat 12 h.peer, src := BitVec.ofNat 12 (meNode s), sdom := BitVec.ofNat 12 h.dom
    off := BitVec.ofNat 48 h.foff, newNode := BitVec.ofNat 12 h.home, status := BitVec.ofNat 8 st, operand := entry }

/-- OFFER at the receiver (R473): declined, or the ledger is asked. -/
def offer (p : Pkt) : State → State :=
  arrive 0x12 false p fun s0 =>
    let s := wakeNode s0
    let h : Handoff := { role := 1, home := p.newNode.toNat, foff := p.off.toNat, peer := p.src.toNat, gen := ledGen p.operand
                         dom := p.sdom.toNat, start := s.now, sent := true }
    if fenced s then sendAccept s h stFENCED p.operand
    else if overcast s then sendAccept s h stOVERCAST p.operand
    else if fget s F.FAB_HO_CMD_ACCEPT = 0 then sendAccept s h stABORTED p.operand
    else
      let (tag, s1) := launchLed s h 0x11 1 (ledWord (meNode s) (h.gen + 1)) (ledWord h.peer h.gen)
      { s1 with fab := { s1.fab with receives := s1.fab.receives ++ [{ h with tag := tag }] } }

/-- ACCEPT at the offerer: the command ends with its status (R473). -/
def acceptPkt (p : Pkt) : State → State :=
  arrive 0x13 false p fun s => match s.fab.handoff with
    | some h =>
      if h.role = 0 && h.sent && !h.resolving && h.peer = p.src.toNat && h.foff = p.off.toNat then
        hoDone s h p.status.toNat (if p.status.toNat = stABORTED then 0xB8 else 0) p.operand
      else s
    | none => s

/-- TMO_US of a handoff, in ns. -/
def hoTmo (s : State) : Nat := max 1 (fget s F.FAB_HO_CMD_TMO) * 1000

/-- HANDOFF_TIMEOUT: every party that has waited too long turns to the ledger (R474). -/
def handoffTimeout (s : State) : State :=
  let late := fun (h : Handoff) => h.sent && !h.resolving && decide (h.start + hoTmo s < s.now)
  let s1 := match s.fab.handoff with
    | some h =>
      if h.role = 0 && late h && (myNode s).isSome then
        let (tag, s1) := launchLed s h 0x11 0 (ledWord (meNode s) (h.gen + 1)) (ledWord (meNode s) h.gen)
        ({ s1 with fab := { s1.fab with handoff := some { h with resolving := true, tag := tag } } } : State)
      else s
    | none => s
  s1.fab.receives.foldl (fun s h =>
    if !late h || (myNode s).isNone then s
    else
      let s0 : State := { s with fab := { s.fab with ops := tdel s.fab.ops h.tag } }
      let (tag, s2) := launchLed s0 h 0x10 2 0 0
      { s2 with fab := { s2.fab with receives := s2.fab.receives.map fun x => if x = h then { h with resolving := true, tag := tag } else x } }) s1

/-- The reply to a ledger request of a handoff. -/
def hoReply (s : State) (tag : Nat) (o : FabOp) (p : Pkt) : State :=
  match o.arg with
  | 0 => match s.fab.handoff with
    | some h => if h.tag = tag then
        (if p.status = 0 then hoDone s h stABORTED 0xB7 p.operand else hoDone s h stOK 0 p.operand) else s
    | none => s
  | 3 => match s.fab.handoff with
    | some h => if h.tag = tag then hoDone s h p.status.toNat 0 p.operand else s
    | none => s
  | _ => match s.fab.receives.find? fun h => h.tag == tag with
    | none => s
    | some h =>
      let s1 : State := { s with fab := { s.fab with receives := s.fab.receives.erase h } }
      if o.arg = 1 then sendAccept s1 h p.status.toNat p.operand else s1

/-! ### Replies (R133, R134, R436, R447) -/

/-- What follows the end of an operation: the offer and the drains that may have waited for it. -/
def afterOp (s : State) : State := pumpDrains (pumpOffer s)
/-- The completion pulse of an operation whose job has ended (R134). -/
def orphanPulse (s : State) (tag : Nat) : State :=
  match tfind s.fab.orphans tag with
  | none => s
  | some (c, g, i) => pulseCtr { s with fab := { s.fab with orphans := tdel s.fab.orphans tag } } c (BitVec.ofNat 16 g) i

/-- FABRIC_REPLY: the first final reply to an operation in flight; any other is discarded (R463). -/
def fabricReply (p : Pkt) : State → State :=
  arrive p.ty.toNat true p fun s =>
    let tag := p.tag.toNat
    match tfind s.tbe.copies tag, tfind s.fab.ops tag with
    | some c, _ =>
      if p.ty = 10 && p.src = c.pkt.dst && p.status = 0 then { s with tbe := { s.tbe with copies := tdel s.tbe.copies tag } } else s
    | none, none => orphanPulse s tag
    | none, some o =>
      if p.ty != o.pkt.ty || p.src != o.pkt.dst || !fabStatus p.status.toNat || (p.ty = 5 && p.status = 0) then s
      else afterOp (match o.kind with
        | 0 => jobReply (if o.pkt.ty = 4 then dropEgress s 4 p.tag else s) tag o p
        | 2 => rowReply (dropOp s tag) o p
        | 3 => hoReply (dropOp s tag) tag o p
        | _ => dropOp s tag)

/-- COPY_DATA: one segment of a pull is written; the last one ends the copy (R436). -/
def pullData (p : Pkt) : State → State :=
  arrive 6 false p fun s =>
    let tag := p.tag.toNat
    match tfind s.fab.ops tag with
    | none => s
    | some o =>
      if o.pkt.ty != 5 || p.src != o.pkt.dst || !o.segs.contains p.seg.toNat then s
      else
        let a := o.src + 1024 * p.seg.toNat
        match uWrite s o.dom a (p.payload.take (min 1024 (o.pkt.total.toNat - 1024 * p.seg.toNat))) with
        | .outside => badAddress s o.job a
        | .violation => violation s o.job 12 o.port
        | .ok s1 =>
          let o1 := { o with segs := o.segs.filter fun i => i != p.seg.toNat }
          if o1.segs != [] then { s1 with fab := { s1.fab with ops := tins s1.fab.ops tag o1 } }
          else
            let s2 := if o.pkt.flags.getLsbD 1 then sendSys s1 { o.pkt with ty := 7, payload := [], len := 0 } else s1
            afterOp (jobReply s2 tag o1 { noPkt with ty := 5 })

/-- An operation is freed without a reply: its status stays 0xFF and no pulse is made (R448, R611). -/
def freeOp (tag : Nat) (o : FabOp) (s : State) : State :=
  let s1 := dropEgress (dropOp s tag) o.pkt.ty o.pkt.tag
  afterOp (match o.kind with
    | 3 => match s1.fab.handoff with
      | some h => if h.tag != tag then s1
        else if o.arg = 3 then hoDone s1 h stABORTED 0 0
        else { s1 with fab := { s1.fab with handoff := some { h with resolving := false, start := s.now } } }
      | none => s1
    | _ => giveShare s1 o.share)
/-- FABRIC_OPERATION_TIMEOUT: no final reply for 10 ms (R448). -/
def opTimeout (tag : Nat) (s : State) : State :=
  match tfind s.fab.ops tag with
  | none => s
  | some o => if s.now < o.issued + 10000000 then s else freeOp tag o (fbump s F.FAB_XACT_STAT_TMO)

/-! ### Rows -/

/-- SLICE_DEFINE. -/
def execSliceDefine (v : W32) (s : State) : Out := .next (hostReg s .FAB_MAP_CMD (.reg .FAB_MAP_CMD 0 v) (mapCmd v))
/-- MAP_STAGE. -/
def execMapStage (v : W32) (s : State) : Out := .next (hostReg s .FAB_MAP_CMD (.reg .FAB_MAP_CMD 0 v) (mapCmd v))
/-- MAP_CANCEL. -/
def execMapCancel (v : W32) (s : State) : Out := .next (hostReg s .FAB_MAP_CMD (.reg .FAB_MAP_CMD 0 v) (mapCmd v))
/-- MAP_HORIZON. -/
def execMapHorizon (comp : BitVec 8) (s : State) : Out := .next (mapHorizon comp.toNat s)
/-- DRAIN_DONE. -/
def execDrainDone (p : Pkt) (s : State) : Out := .next (drainDone p s)
/-- LEDGER_READ. -/
def execLedgerRead (p : Pkt) (s : State) : Out := .next (ledgerRead p s)
/-- LEDGER_CAS. -/
def execLedgerCas (p : Pkt) (s : State) : Out := .next (ledgerCas p s)
/-- OFFER. -/
def execOffer (p : Pkt) (s : State) : Out := .next (offer p s)
/-- ACCEPT. -/
def execAccept (p : Pkt) (s : State) : Out := .next (acceptPkt p s)
/-- HANDOFF_OFFER. -/
def execHandoffOffer (v : W32) (s : State) : Out := .next (hostReg s .FAB_HO_CMD (.reg .FAB_HO_CMD 0 v) (hoCmd v))
/-- HANDOFF_LEDGER_READ. -/
def execHandoffLedgerRead (v : W32) (s : State) : Out := .next (hostReg s .FAB_HO_CMD (.reg .FAB_HO_CMD 0 v) (hoCmd v))
/-- HANDOFF_TIMEOUT. -/
def execHandoffTimeout (s : State) : Out := .next (handoffTimeout s)
/-- FABRIC_REPLY. -/
def execFabricReply (p : Pkt) (s : State) : Out := .next (fabricReply p s)
/-- COPY_DATA. -/
def execCopyData (p : Pkt) (s : State) : Out := .next (pullData p s)
/-- FABRIC_OPERATION_TIMEOUT. -/
def execFabricOperationTimeout (tag : W32) (s : State) : Out := .next (opTimeout tag.toNat s)

end Sys2Proof.Machine
end

