-- ==== Sys2Proof/Machine/Sync.lean ====
section
/-!
DEFINITION. Synchronisation and queue instructions of Spenex (R90, R138 to R144), and the events that end their waits.
-/

namespace Sys2Proof.Machine

open Sys2Proof

/-! ### Views and AWAIT -/

/-- (C - base) mod 2^32 of a view (R90). -/
def viewDiff (s : State) (w : W64) : Nat := ((ctrOf s (viewIdx w)).val.toNat + 2 ^ 32 - viewBase w) % 2 ^ 32

/-- What an AWAIT on a view sees: an unbound view, an overrun, satisfaction, or neither. -/
inductive Seen | unbound | overrun | yes | no
deriving DecidableEq, Repr

/-- The test of a view for a count (R90). -/
def seeView (s : State) (w : W64) (n : Nat) : Seen :=
  if !viewBound w then .unbound
  else if viewDiff s w ≥ 2 ^ 31 then .overrun
  else if n ≤ viewDiff s w then .yes
  else .no

/-- The advancing form adds the count to base. -/
def advance (j : Job) (a n : Nat) (adv : Bool) : Job :=
  if adv then
    let w := aReg j.ctx a
    { j with ctx := setA j.ctx a (viewWord (viewIdx w) (viewGen w).toNat (viewBase w + n)) }
  else j

/-- A handover to token `t` of the job is pending (R139). -/
def handoverPending (s : State) (tag t : Nat) : Bool :=
  s.exec.jobs.any fun p => p.2.hands.any fun h => h.2.kind == 1 && h.2.tag == tag && h.2.tok == t
/-- The token is valid and job-held. -/
def tokReady (j : Job) (t : Nat) : Bool := tokValid (tokOf j t) && tokHold (tokOf j t) == 0

/-- The EXT timeout of an instruction: a moment of device time. -/
def timeoutAt (s : State) (f : Spx) : Option Nat := if f.x then some (s.now + f.ext.toNat) else none
/-- The instruction retires at once with CF at `cf`. -/
def retireCF (f : Spx) (s : State) (tag : Nat) (j : Job) (cf : Bool) : State :=
  retire f s tag j fun c => { c with flags := setCF c.flags cf }

/-- AWAIT (R90, R139). -/
def awaitBody (f : Spx) (s : State) (tag : Nat) (j : Job) : State :=
  if f.fn.getLsbD 2 then
    let t := f.a.toNat
    if tokReady j t then retireCF f s tag j false
    else if tokValid (tokOf j t) || handoverPending s tag t then waitJob s tag (.token t) (timeoutAt s f) (ilen f)
    else violation s tag 0 0
  else
    let w := aReg j.ctx f.a.toNat
    let n := if f.fn.getLsbD 1 then (gReg j.ctx f.b).toNat % 2 ^ 32 else immN f
    let adv := f.fn.getLsbD 0
    if !viewBound w then violation s tag 13 (viewIdx w)
    else if n ≥ 2 ^ 31 then abortJob s tag
    else match seeView s w n with
      | .unbound => violation s tag 13 (viewIdx w)
      | .overrun => abortJob s tag
      | .yes => retireCF f s tag (advance j f.a.toNat n adv) false
      | .no => waitJob s tag (.view f.a.toNat n adv) (timeoutAt s f) (ilen f)
/-- AWAIT (R139). -/
def execAwait (q : BitVec 7) (f : Spx) (s : State) : Out := .next (spx q f 0xC0 2 (awaitBody f) s)

/-- The job waiting on a sequencer, with its deadline not reached. -/
def waiter (s : State) (q : BitVec 7) : Option (Nat × Job) :=
  match seqTag s q.toNat with
  | none => none
  | some tag => match jobOf s tag with
    | none => none
    | some j => if j.phase == .waiting && !deadlineMet s j.deadline then some (tag, j) else none

/-- The wait of an AWAIT ends when its condition holds: true when it did. -/
def awaitDone (s : State) (tag : Nat) (j : Job) : Option State :=
  match j.wait with
  | some (.view a n adv) => match seeView s (aReg j.ctx a) n with
    | .overrun => some (abortJob s tag)
    | .yes => some (setJob s tag (wakeJob (advance j a n adv) false))
    | _ => none
  | some (.token t) => if tokReady j t then some (setJob s tag (wakeJob j false)) else none
  | _ => none
/-- AWAIT is satisfied (R91). -/
def execAwaitSatisfied (q : BitVec 7) (s : State) : Out :=
  .next (match waiter s q with
    | some (tag, j) => (awaitDone s tag j).getD s
    | none => s)

/-! ### FENCE -/

/-- Every operation of the job within the scope has been acknowledged (R140, R465). -/
def fenceDone (s : State) (tag : Nat) (node : Option Nat) : Bool :=
  !s.fab.ops.any fun p => p.2.kind == 0 && p.2.job == tag && (match node with | some n => p.2.pkt.dst.toNat == n | none => true)
/-- FENCE (R140, R465): the fence epoch rises by one. -/
def fenceBody (f : Spx) (s : State) (tag : Nat) (j : Job) : State :=
  let node := if fnN f = 1 then some ((gReg j.ctx f.b).toNat % 4096) else none
  let j1 := { j with fence := (j.fence + 1) % 65536 }
  let s1 := setJob s tag j1
  if fenceDone s tag node then retireCF f s1 tag j1 false
  else waitJob s1 tag (.fence j1.fence node) (timeoutAt s f) (ilen f)
/-- FENCE (R140). -/
def execFence (q : BitVec 7) (f : Spx) (s : State) : Out := .next (spx q f 0xC1 4 (fenceBody f) s)
/-- The wait of a FENCE ends. -/
def fenceEnd (s : State) (tag : Nat) (j : Job) : Option State :=
  match j.wait with
  | some (.fence _ node) => if fenceDone s tag node then some (setJob s tag (wakeJob j false)) else none
  | _ => none
/-- FENCE retires (R465). -/
def execFenceRetire (q : BitVec 7) (s : State) : Out :=
  .next (match waiter s q with
    | some (tag, j) => (fenceEnd s tag j).getD s
    | none => s)

/-! ### VIEW and ARD -/

/-- The job holds a counter. -/
def holdsCtr (s : State) (tag i : Nat) : Bool :=
  ownerOf s 13 i == .job tag && s.exec.grants.any fun p => p.2.tag == tag && p.2.cls == 13 && p.2.insts.contains i
/-- VIEW that binds (R88, R141): the row of FN[0] = 0. -/
def viewBind (f : Spx) (s : State) (tag : Nat) (j : Job) : State :=
  let i := (gReg j.ctx f.b).toNat % 4096
  if holdsCtr s tag i then
    let c := ctrOf s i
    retire f s tag j fun x => setA x f.a.toNat (viewWord i c.gen.toNat c.val.toNat)
  else violation s tag 13 i
/-- VIEW that binds (R141). -/
def execViewBind (q : BitVec 7) (f : Spx) (s : State) : Out :=
  .next (if f.fn.getLsbD 0 then s else spx q f 0xC2 4 (viewBind f) s)
/-- VIEW that unbinds (R141): the row of FN[0] = 1. -/
def execViewUnbind (q : BitVec 7) (f : Spx) (s : State) : Out :=
  .next (if f.fn.getLsbD 0 then spx q f 0xC2 4 (fun s tag j => retire f s tag j fun c => setA c f.a.toNat 0) s else s)
/-- ARD (R141): tests for overrun, then reads. -/
def ardBody (f : Spx) (s : State) (tag : Nat) (j : Job) : State :=
  let w := aReg j.ctx f.b.toNat
  match seeView s w 0 with
  | .unbound => violation s tag 13 (viewIdx w)
  | .overrun => abortJob s tag
  | _ => retire f s tag j fun c => setG c f.a (BitVec.ofNat 64 (viewDiff s w))
/-- ARD (R141). -/
def execArd (q : BitVec 7) (f : Spx) (s : State) : Out := .next (spx q f 0xC3 2 (ardBody f) s)

/-! ### TAKE -/

/-- The queue is an enabled queue of the domain in the mode given (R92, R93, R490). -/
def queueOf (s : State) (sq dom mode : Nat) : Bool :=
  fget s F.HIU_SQ_CTL_ENABLE sq == 1 && fget s F.HIU_SQ_CTL_MODE sq == mode && fget s F.HIU_PAGE_DOM_VALID (sq / 16) == 1
    && fget s F.HIU_PAGE_DOM_DOM (sq / 16) == dom
/-- Entries of the ring of a submission queue. -/
def sqSize (s : State) (sq : Nat) : Nat := 2 ^ fget s F.HIU_SQ_CTL_SIZE sq
/-- Entries pending in a submission queue (R491). -/
def sqPending (s : State) (sq : Nat) : Nat :=
  (fget s F.HIU_SQ_STAT_TAIL sq + sqSize s sq - fget s F.HIU_SQ_STAT_HEAD sq) % sqSize s sq
/-- Fetch the entry at the head of a queue and advance the head (R491). -/
def sqFetch (s : State) (sq dom : Nat) : List Byte × State :=
  let h := fget s F.HIU_SQ_STAT_HEAD sq
  let a := rpair s .HIU_SQ_BASE_LO .HIU_SQ_BASE_HI sq + 128 * h
  (hostRead s a 128, emit (fset s F.HIU_SQ_STAT_HEAD ((h + 1) % sqSize s sq) sq) (.hostRead (pasidOf s dom) a 128))

/-- TAKE reads entries until one passes policing (R92, R495, R526); a periodic entry on a pull queue is refused (R522). -/
def takeEntry (sq dom : Nat) : Nat → State → Option (List Byte) × State
  | 0, s => (none, s)
  | n + 1, s =>
    if !queueOf s sq dom 1 || sqPending s sq = 0 || !intakeFree s dom then (none, s)
    else
      let (e, s1) := sqFetch s sq dom
      if entPeriod e != 0 then takeEntry sq dom n (refuseEntry s1 sq stBAD_OPERATOR 0xC2 e)
      else
        let (pass, s2) := police s1 dom
        if pass then (some e, s2) else takeEntry sq dom n (policedEntry s2 sq dom e)

/-- The lowest free take slot (R142). -/
def takeSlot (j : Job) : Option Nat := firstFrom (fun k => (tfind j.take k).isNone) 64 0

/-- Attempt a TAKE (R92, R142): none when it waits. The caller retires the instruction. -/
def tryTake (f : Spx) (s : State) (tag : Nat) (j : Job) : Option State × State :=
  let sq := immN f
  match takeSlot j with
  | none => (none, s)
  | some k => match takeEntry sq j.dom (sqPending s sq) s with
    | (none, s1) => (none, s1)
    | (some e, s1) =>
      let (t, s2) := newTag (dspCount s1 F.DSP_CNT_ADM_COUNT j.dom)
      let q := f.a.toNat
      (some (modJob s2 tag fun j =>
        { j with
          take := tins j.take k { tag := t, epoch := s.tir.epoch % 2 ^ 48, sq := sq, cookie := entCookie e, deadline := entDeadline e, ovc := overcast s }
          ctx :=
            let c := (List.range 4).foldl (fun c i => setD c (q + i) (BitVec.ofNat 256 (fieldOf e (32 * i) 32))) j.ctx
            setG (setG c f.b (BitVec.ofNat 64 (s.tir.epoch % 2 ^ 48))) f.c (BitVec.ofNat 64 (k + t * 65536)) }), s2)

/-- TAKE (R92, R142): with all 64 slots in use it completes as a timeout. -/
def takeBody (f : Spx) (s : State) (tag : Nat) (j : Job) : State :=
  if (takeSlot j).isNone then retireCF f s tag j true
  else match tryTake f s tag j with
    | (some s1, _) => modJob s1 tag fun j => { j with ctx := stepPc { j.ctx with flags := setCF j.ctx.flags false } (ilen f) }
    | (none, s1) => waitJob s1 tag (.take f) (timeoutAt s f) (ilen f)
/-- TAKE (R142). -/
def execTake (q : BitVec 7) (f : Spx) (s : State) : Out := .next (spx q f 0xC8 12 (takeBody f) s)
/-- The wait of a TAKE ends. -/
def takeEnd (s : State) (tag : Nat) (j : Job) : State :=
  match j.wait with
  | some (.take f) => match tryTake f s tag j with
    | (some s1, _) => modJob s1 tag fun j => wakeJob j false
    | (none, s1) => s1
  | _ => s
/-- A waiting TAKE retires with an entry (R92). -/
def execTakeRetire (q : BitVec 7) (s : State) : Out :=
  .next (match waiter s q with
    | some (tag, j) => takeEnd s tag j
    | none => s)

/-! ### Timeouts -/

/-- The EXT timeout of a waiting instruction passes (R90, R91): what satisfies it in the same step is seen first. -/
def extTimeout (q : BitVec 7) (s : State) : State :=
  match waiter s q with
  | none => s
  | some (tag, j) =>
    match j.timeout with
    | none => s
    | some t =>
      if s.now < t then s
      else match awaitDone s tag j with
        | some s1 => s1
        | none => match fenceEnd s tag j with
          | some s1 => s1
          | none => setJob s tag (wakeJob j true)
/-- An EXT timeout (R138). -/
def execExtTimeout (q : BitVec 7) (s : State) : Out := .next (extTimeout q s)

/-! ### POST -/

/-- The entry in four descriptor registers. -/
def quadBytes (c : Ctx) (q : Nat) : List Byte := (List.range 4).flatMap fun i => bytesOf 32 (dReg c (q + i)).toNat

/-- Attempt a child POST (R93, R144): none when it stalls for an intake credit. -/
def tryPost (f : Spx) (s : State) (j : Job) : Option State :=
  if !intakeFree s j.dom then none
  else
    let sq := immN f
    let e := quadBytes j.ctx f.a.toNat
    if queueOf s sq j.dom 0 then some (admitEntry (intakeDraw s j.dom) sq j.dom true none (entDeadline e) e)
    else some (refuseEntry s j.sq stBAD_OPERATOR 0xC1 e)
/-- POST of a child (R144). -/
def postChildBody (f : Spx) (s : State) (tag : Nat) (j : Job) : State :=
  match tryPost f s j with
  | some s1 => modJob s1 tag fun j => { j with ctx := stepPc j.ctx 8 }
  | none => waitJob s tag (.post f) none 8
/-- POST of a child (R144): the row of FN[0] = 0. -/
def execPostChild (q : BitVec 7) (f : Spx) (s : State) : Out :=
  .next (if f.fn.getLsbD 0 then s else spx q f 0xC9 4 (postChildBody f) s)

/-- The DMA commands of a job that are in progress. -/
def dmaCmds (s : State) (tag : Nat) : List Nat :=
  s.cmds.flatMap fun p => if p.1 / 2 ^ 32 = 8 then (p.2.filter fun c => c.tok.job == tag).map (·.id) else []

/-- POST of a completion (R93, R144): the record follows the job's DMA writes issued before it. -/
def postCompletionBody (f : Spx) (s : State) (tag : Nat) (j : Job) : State :=
  let h := (gReg j.ctx f.a).toNat
  let k := h % 64
  let st := if f.fn.getLsbD 7 then (let v := (gReg j.ctx f.b).toNat % 256; if v > 0x0F then stABORTED else v) else bitsOf (fnN f) 1 4
  match tfind j.take k with
  | some t =>
    if h = k + t.tag * 65536 then
      let j1 := { j with take := tdel j.take k }
      let p : Posted := { job := tag, dom := j.dom, planId := (planOf s j.plan).id, req := t, status := st
                          count0 := (gReg j.ctx 4).toNat % 2 ^ 32, count1 := (gReg j.ctx 5).toNat % 2 ^ 32, waits := dmaCmds s tag }
      flushPosts (retire f { s with exec := { s.exec with posts := s.exec.posts ++ [p] } } tag j1 id)
    else retire f s tag j id
  | none => retire f s tag j id
/-- POST of a completion (R144): the row of FN[0] = 1. -/
def execPostCompletion (q : BitVec 7) (f : Spx) (s : State) : Out :=
  .next (if f.fn.getLsbD 0 then spx q f 0xC9 4 (postCompletionBody f) s else s)

/-! ### Credit stalls -/

/-- A stalled instruction issues once its credit or queue space is there (R22, R86). -/
def creditStallResume (q : BitVec 7) (s : State) : State :=
  match waiter s q with
  | none => s
  | some (tag, j) => match j.wait with
    | some (.issue k f) => reissue k f s tag j
    | some (.fabric k f) => refabric k f s tag j
    | some (.post f) => match tryPost f s j with
      | some s1 => modJob s1 tag fun j => wakeJob j (flCF j.ctx.flags)
      | none => s
    | _ => s
/-- A credit stall ends (R22). -/
def execCreditStallResume (q : BitVec 7) (s : State) : Out := .next (creditStallResume q s)

end Sys2Proof.Machine
end

