-- ==== Sys2Proof/Machine/Host.lean ====
section
/-!
DEFINITION. The host interface (chapter 18): the link, the BAR2 aperture, doorbells, submission and event queues, the fetch
of entries, MSI-X and the function-level reset.
-/

namespace Sys2Proof.Machine

open Sys2Proof

/-! ### The link and BAR0 -/

/-- Size and alignment that BAR0 takes (R487). -/
def bar0Ok (off size : Nat) : Bool := (size == 4 && off % 4 == 0) || (size == 8 && off % 8 == 0)

/-- BAR0_BAD_ACCESS (R487, R572): a wrong size or alignment, or a block that does not answer yet; it counts, a write has no
effect and a read returns all ones. -/
def bar0BadAccess (isWrite : Bool) (off size : Nat) (s : State) : State :=
  if bar0Ok off size && blockAnswers s (off / 2 ^ 24 + 1) then s
  else
    let s1 := fbump s F.HIU_STAT_BADACC
    if isWrite then s1 else emit s1 (.readReply (some (List.replicate size 0xFF#8)))
/-- A BAR0 access that is refused. -/
def execBar0BadAccess (isWrite : Bool) (off size : Nat) (s : State) : Out := .next (bar0BadAccess isWrite off size s)

/-- Rates, as SPEED gives them, and widths of the link (R482, R484). -/
def linkSpeeds : List Nat := [2, 5, 8, 16, 32, 64, 128]
def linkWidths : List Nat := [1, 2, 4, 8, 16]

/-- HOST_LINK_CHANGE (R483): the link trains or changes rate or width; from 64 GT/s on it runs in FLIT mode (R482). -/
def hostLinkChange (speed width : Nat) (flit : Bool) (s : State) : State :=
  if !linkSpeeds.contains speed || !linkWidths.contains width then s
  else
    let first := fget s F.HIU_LINK_STAT_SPEED = 0
    let same := fget s F.HIU_LINK_STAT_SPEED = speed && fget s F.HIU_LINK_STAT_WIDTH = width
    let s1 := fset (fset s F.HIU_LINK_STAT_SPEED speed) F.HIU_LINK_STAT_WIDTH width
    let s2 := fset s1 F.HIU_LINK_STAT_FLIT (if flit || speed ≥ 64 then 1 else 0)
    let s3 := fset s2 F.HIU_LINK_STAT_USABLE (if width * speed ≥ 256 then 1 else 0)
    let s4 := if first then s3 else fbump s3 F.HIU_LINK_STAT_RETRAINS
    if same then s4 else devEvent s4 0x05 0 0 (bytesOf 1 8 ++ bytesOf 1 3 ++ bytesOf 1 width ++ bytesOf 1 0)
/-- The link trains. -/
def execHostLinkChange (speed width : Nat) (flit : Bool) (s : State) : Out := .next (hostLinkChange speed width flit s)

/-! ### BAR2 (R488, R489) -/

/-- A BAR2 access arrives: it wakes the node and takes its turn behind those that wait (R607, R656). -/
def bar2Arrive (off n : Nat) (data : Option (List Byte)) (s : State) : State :=
  let s1 := wakeNode s
  let s2 : State := { s1 with hiu := { s1.hiu with waiting := s1.hiu.waiting ++ [.bar2 off n data] } }
  bar2Pump s2.hiu.waiting.length s2

/-- The bytes of a BAR2 access lie in one 4 KiB page, as PCIe requires of a request. -/
def bar2Fits (off n : Nat) : Bool := n != 0 && decide (off < 2 ^ 36) && decide (off % 4096 + n ≤ 4096)

/-- BAR2_READ. -/
def execBar2Read (off len : Nat) (s : State) : Out := .next (if bar2Fits off len then bar2Arrive off len none s else s)
/-- BAR2_WRITE. -/
def execBar2Write (off : Nat) (data : List (BitVec 8)) (s : State) : Out :=
  .next (if bar2Fits off data.length then bar2Arrive off data.length (some data) s else s)

/-! ### Doorbells (R490, R496, R672) -/

/-- A doorbell that is discarded. -/
def badDoorbell (s : State) : State := fbump s F.HIU_STAT_BADDB
/-- BAR4 is open (R573), the queue's page is valid and the queue enabled (R490). -/
def doorbellOpen (s : State) (q : Nat) : Bool :=
  fget s F.PRB_STEP_LAST ≥ 12 && fget s F.HIU_PAGE_DOM_VALID (q / 16) == 1 && fget s F.HIU_SQ_CTL_ENABLE q == 1

/-- SQ_TAIL_DOORBELL. -/
def sqTail (q v : Nat) (s : State) : State :=
  if !doorbellOpen s q || v ≥ sqSize s q then badDoorbell s else fset s F.HIU_SQ_STAT_TAIL v q
/-- A doorbell of a submission queue wakes the node, and takes its turn (R607, R656). -/
def sqDoorbell (q v : Nat) (s : State) : State := hostTurn (wakeNode s) (.sqTail q v) true (sqTail q v)
/-- A new tail of a submission queue. -/
def execSqTailDoorbell (q : BitVec 15) (v : W32) (s : State) : Out := .next (sqDoorbell q.toNat v.toNat s)

/-- The host returns the head of an event queue: held records follow (R496, R497). -/
def eqHead (s : State) (e v : Nat) : State :=
  if fget s F.HIU_EQ_CTL_ENABLE e = 0 || v ≥ eqSize s e then badDoorbell s
  else eqDrain e s.hiu.hold.length (fset s F.HIU_EQ_STAT_HEAD v e)

/-- EQ_HEAD_DOORBELL: it never acts on the device queue (R672). -/
def eqHeadDoorbell (q v : Nat) (s : State) : State :=
  if !doorbellOpen s q then badDoorbell s
  else if sqEvq s q = devQueue s then s
  else eqHead s (sqEvq s q) v
/-- A doorbell of an event queue, in the same way. -/
def eqDoorbell (q v : Nat) (s : State) : State := hostTurn (wakeNode s) (.eqHead q v) true (eqHeadDoorbell q v)
/-- A new head of the event queue bound to a submission queue. -/
def execEqHeadDoorbell (q : BitVec 15) (v : W32) (s : State) : Out := .next (eqDoorbell q.toNat v.toNat s)

/-- SYS_EQ_HEAD_WRITE (R672): the register takes the value when the queue does. -/
def sysEqHead (v : W32) (s : State) : State :=
  let h := v.toNat % 65536
  let e := devQueue s
  if fget s F.HIU_EQ_CTL_ENABLE e = 0 || h ≥ eqSize s e then badDoorbell s
  else eqHead (regWritePlain s .HIU_EVQ_SYS_HEAD 0 v) e h
/-- A write of `HIU_EVQ_SYS_HEAD`. -/
def execSysEqHeadWrite (v : W32) (s : State) : Out := .next (hostReg s .HIU_EVQ_SYS_HEAD (.reg .HIU_EVQ_SYS_HEAD 0 v) (sysEqHead v))

/-! ### Queue control (R492, R498) -/

/-- The series of a submission queue end (R522). -/
def endSeries (s : State) (q : Nat) : State :=
  { s with exec := { s.exec with series := s.exec.series.filter fun p => p.2.sq != q } }
/-- Disable a submission queue. -/
def sqOff (s : State) (q : Nat) : State := endSeries (fset s F.HIU_SQ_CTL_ENABLE 0 q) q
/-- The event queue may serve a submission queue of a domain: enabled, of the same domain, and not the device queue. -/
def evqFits (s : State) (dom e : Nat) : Bool :=
  fget s F.HIU_EQ_CTL_ENABLE e == 1 && fget s F.HIU_EQ_CTL_DOMAIN e == dom && e != devQueue s

/-- A write of `HIU_SQ_CTL` (R492, R540). -/
def sqCtl (v : W32) (s : State) : State :=
  let q := fget s F.HIU_SQ_SEL_V
  let en := v.getLsbD 16
  if fget s F.HIU_SQ_CTL_ENABLE q = 1 then (if en then s else sqOff s q)
  else
    let s1 := regWritePlain s .HIU_SQ_CTL q (v &&& 0xFFFEFFFF)
    if !en then s1
    else
      let dom := fget s1 F.HIU_PAGE_DOM_DOM (q / 16)
      if fget s1 F.HIU_PAGE_DOM_VALID (q / 16) = 0 || fget s1 F.HIU_SQ_CTL_SIZE q = 0 || !evqFits s1 dom (sqEvq s1 q)
          || !domActive s1 dom then fset s1 F.HIU_SQ_CTL_REFUSED 1 q
      else
        let s2 := fset (fset (fset s1 F.HIU_SQ_CTL_ENABLE 1 q) F.HIU_SQ_CTL_FETCH_ERR 0 q) F.HIU_SQ_CTL_REFUSED 0 q
        rset s2 .HIU_SQ_STAT q 0
/-- SQ_ENABLE: a write of `HIU_SQ_CTL` with ENABLE 1. -/
def execSqEnable (v : W32) (s : State) : Out := .next (hostReg s .HIU_SQ_CTL (.reg .HIU_SQ_CTL 0 (v ||| 0x10000)) (sqCtl (v ||| 0x10000)))
/-- SQ_DISABLE: one with ENABLE 0. -/
def execSqDisable (v : W32) (s : State) : Out := .next (hostReg s .HIU_SQ_CTL (.reg .HIU_SQ_CTL 0 (v &&& 0xFFFEFFFF)) (sqCtl (v &&& 0xFFFEFFFF)))

/-- Fields of `HIU_EQ_CTL` that are ignored while the queue is enabled: SIZE, DOMAIN. -/
def eqFixed : W32 := 0x0000FFFF
/-- A write of `HIU_EQ_CTL` (R498, R540). -/
def eqCtl (v : W32) (s : State) : State :=
  let e := fget s F.HIU_EQ_SEL_V
  let en := v.getLsbD 16
  let old := rget s .HIU_EQ_CTL e
  if fget s F.HIU_EQ_CTL_ENABLE e = 1 then
    let s1 := regWritePlain s .HIU_EQ_CTL e ((v &&& ~~~eqFixed) ||| (old &&& eqFixed))
    if en then s1 else { s1 with hiu := { s1.hiu with hold := s1.hiu.hold.filter fun p => p.1 != e } }
  else
    let s1 := regWritePlain s .HIU_EQ_CTL e (v &&& 0xFFFEFFFF)
    if !en || fget s1 F.HIU_EQ_CTL_SIZE e = 0 || (e != devQueue s1 && !domActive s1 (fget s1 F.HIU_EQ_CTL_DOMAIN e)) then s1
    else setEvq (rset (fset s1 F.HIU_EQ_CTL_ENABLE 1 e) .HIU_EQ_STAT e 0) e {}
/-- EQ_ENABLE: a write of `HIU_EQ_CTL` with ENABLE 1. -/
def execEqEnable (v : W32) (s : State) : Out := .next (hostReg s .HIU_EQ_CTL (.reg .HIU_EQ_CTL 0 (v ||| 0x10000)) (eqCtl (v ||| 0x10000)))
/-- EQ_DISABLE: one with ENABLE 0. -/
def execEqDisable (v : W32) (s : State) : Out := .next (hostReg s .HIU_EQ_CTL (.reg .HIU_EQ_CTL 0 (v &&& 0xFFFEFFFF)) (eqCtl (v &&& 0xFFFEFFFF)))

/-! ### Fetch (R491, R494, R518) -/

/-- The numbers of the banks of a register that hold another word than its reset. -/
def banksOf (s : State) (r : Reg) : List Nat := (s.regs.filter fun p => p.1 / 65536 == r.ctorIdx).map fun p => p.1 % 65536
/-- Domain of a submission queue: that of its page. -/
def sqDom (s : State) (q : Nat) : Nat := fget s F.HIU_PAGE_DOM_DOM (q / 16)
/-- A placed-mode queue with a pending entry whose domain may draw an intake credit (R518). -/
def fetchable (s : State) (q : Nat) : Bool := queueOf s q (sqDom s q) 0 && sqPending s q != 0 && intakeFree s (sqDom s q)
/-- The queue HIU serves next: the first after the one it served last, wrapping after 32,767. -/
def nextQueue (s : State) : Option Nat := leastBy (fun q => (q + 32767 - s.hiu.rr) % 32768) ((banksOf s .HIU_SQ_CTL).filter (fetchable s))

/-- SUBMISSION_FETCH, once DSP intake is open (R594): an entry is fetched and checked; an error completion disables its queue. -/
def submissionFetch (busError : Bool) (s : State) : State :=
  if fget s F.PRB_STEP_READY = 0 then s
  else match nextQueue s with
    | none => s
    | some q =>
      let s1 : State := { s with hiu := { s.hiu with rr := q } }
      if busError then fset (sqOff s1 q) F.HIU_SQ_CTL_FETCH_ERR 1 q
      else
        let (e, s2) := sqFetch s1 q (sqDom s q)
        admitEntry (intakeDraw s2 (sqDom s q)) q (sqDom s q) false none (entDeadline e) e
/-- HIU fetches an entry. -/
def execSubmissionFetch (busError : Bool) (s : State) : Out := .next (submissionFetch busError s)

/-! ### MSI-X (R503, R504) -/

/-- MSIX_TIMER: IRQ_US have passed since the first record without a message. -/
def msixTimer (e : Nat) (s : State) : State :=
  let q := evqOf s e
  let us := fget s F.HIU_EQ_CTL_IRQ_US e
  if fget s F.HIU_EQ_CTL_MSIX e = 0 || us = 0 || q.unsignalled = 0 || s.now < q.first + us * 1000 then s
  else msixSend (setEvq s e { q with unsignalled := 0 }) e
/-- The timer of a vector. -/
def execMsixTimer (eq : BitVec 11) (s : State) : Out := .next (msixTimer eq.toNat s)

/-- MSIX_UNMASK: the host writes the vector's table entry unmasked; a pending message goes out. -/
def msixUnmask (v : Nat) (addr : W64) (data : W32) (s : State) : State :=
  let was := (tget {} s.hiu.msix v).pba
  let s1 : State := { s with hiu := { s.hiu with msix := tput {} s.hiu.msix v { addr := addr, data := data, mask := false, pba := false } } }
  if was then msixSend s1 v else s1
/-- A write of the MSI-X table takes its turn (R656). -/
def msixWrite (v : Nat) (addr : W64) (data : W32) (s : State) : State := hostTurn s (.msix v addr data) true (msixUnmask v addr data)
/-- A vector is unmasked. -/
def execMsixUnmask (vec : BitVec 11) (addr : W64) (data : W32) (s : State) : Out := .next (msixWrite vec.toNat addr data s)

/-! ### Function-level reset (R514, R611) -/

/-- The registers of the queues, which an FLR returns to reset. -/
def queueRegs : List Reg :=
  [.HIU_SQ_BASE_LO, .HIU_SQ_BASE_HI, .HIU_SQ_CTL, .HIU_SQ_STAT, .HIU_EQ_BASE_LO, .HIU_EQ_BASE_HI, .HIU_EQ_CTL, .HIU_EQ_STAT, .HIU_EVQ_SYS_HEAD]
/-- The register file without the registers of a list, which then hold their reset words. -/
def dropRegs (regs : Table W32) (l : List Reg) : Table W32 := regs.filter fun p => !l.any fun r => r.ctorIdx == p.1 / 65536

/-- FLR: queues, hold and MSI-X table return to reset, and every series ends (R522); all else is kept. -/
def flr (s : State) : State :=
  let s1 : State := { s with
    regs := dropRegs s.regs queueRegs
    hiu := { s.hiu with evq := [], hold := [], msix := [], rr := 32767 }
    exec := { s.exec with series := [] } }
  fset s1 F.PRB_RESET_CAUSE 7
/-- A function-level reset. -/
def execFlr (s : State) : Out := .next (flr s)

end Sys2Proof.Machine
end

