-- ==== Sys2Proof/Machine/Media.lean ====
section
/-!
DEFINITION. Page reads at the LUNs and flash media management (R271, R273, R284, R285, R401 to R429): read issue and
completion, programs, erases, rewrites, collection, patrol, held-out channels and host discards.
-/

namespace Sys2Proof.Machine

open Sys2Proof

/-- A LUN. -/
def lunOf (s : State) (chan lun : Nat) : Lun := tget {} s.fls.luns (chan * 256 + lun)
/-- The state with a LUN written. -/
def setLun (s : State) (chan lun : Nat) (v : Lun) : State := { s with fls := { s.fls with luns := tput {} s.fls.luns (chan * 256 + lun) v } }
/-- A block by its key. -/
def blkOf (s : State) (b : Nat) : Blk := tget {} s.fls.blks b
/-- The state with a block written. -/
def setBlk (s : State) (b : Nat) (v : Blk) : State := { s with fls := { s.fls with blks := tput {} s.fls.blks b v } }
/-- Channel and LUN of a block key. -/
def blkChan (b : Nat) : Nat := b / 2 ^ 40
def blkLun (b : Nat) : Nat := b / 2 ^ 32 % 256
/-- The logical pages that a block holds. -/
def validPages (s : State) (b : Nat) : List Nat := (s.fls.map.filter fun p => p.2.blk == b && !p.2.lost).map (·.1)
/-- Policy of a stream (R410, R426): retire at the first erase failure; rewrite at the corrected-bit threshold. -/
def retireErase (stream : Nat) : Bool := bitAt stream 0
def readRewrite (stream : Nat) : Bool := bitAt stream 1
/-- Schedule a block for rewrite (1 under R411, 2 under R412), collection (3) or retirement (4); a stronger reason stands. -/
def schedule (s : State) (b why : Nat) : State :=
  let k := blkOf s b
  if k.retired || k.rewrite = 4 || (k.rewrite != 0 && why != 4) then s else setBlk s b { k with rewrite := why, isOpen := false }

/-- A block is retired (R409, R411): counted, reported once half of the reserve is consumed; a reserve gone is cause 3. -/
def retireBlk (s : State) (b : Nat) : State :=
  let s1 := fbump (setBlk s b { blkOf s b with retired := true, rewrite := 0, isOpen := false }) F.FLS_MEDIA_STAT_RETIRED
  let s2 : State := { s1 with fls := { s1.fls with retired := s1.fls.retired + 1 } }
  let used := s2.fls.retired * s2.fls.pagesPerBlock
  let reserve := s2.fls.capacity / 15
  let s3 := if 2 * used > reserve then unitFault s2 7 0x0C 0 0 (blkChan b) 0 b else s2
  if used ≥ reserve then ovcSet s3 3 else s3

/-- Blocks of a LUN that are erased (R414). -/
def erasedCount (s : State) (chan lun : Nat) : Nat :=
  s.fls.blocksPerLun - (s.fls.blks.filter fun p => blkChan p.1 == chan && blkLun p.1 == lun
    && (p.2.used != 0 || p.2.retired)).length
/-- Good blocks of a LUN. -/
def goodCount (s : State) (chan lun : Nat) : Nat :=
  s.fls.blocksPerLun - (s.fls.blks.filter fun p => blkChan p.1 == chan && blkLun p.1 == lun && p.2.retired).length

/-- Program a logical page again on its channel, in the LUN with most erased blocks (R411, R414). -/
def relocate (s : State) (mk : Nat) (avoid : Option Nat) : State :=
  let dom := mk / 2 ^ 42
  let lpage := mk % 2 ^ 42
  match tfind s.fls.map mk with
  | none => s
  | some p =>
    let st := streamOf s dom lpage
    let cands := (List.range (fget s F.FLS_GEOM_LUNS)).filterMap fun l => match openBlock s p.chan l st with
      | some b => if some b = avoid then none else some (l, b)
      | none => none
    match leastBy (fun c => s.fls.blocksPerLun - erasedCount s p.chan c.1) cands with
    | none => s
    | some (l, b) =>
      let k := blkOf s b
      let s1 := setBlk s b { k with used := k.used + 1, stream := st, isOpen := decide (k.used + 1 < s.fls.pagesPerBlock) }
      let lu := lunOf s1 p.chan l
      let s2 := setLun s1 p.chan l { lu with progs := lu.progs ++
        [{ dom := dom, lpage := lpage, blk := b, page := k.used, seq := s1.fls.seq, stream := st
           old := cellsRead s1.mem.flash (dom * 2 ^ 56 + lpage * 16384) 16384, had := true }] }
      { s2 with fls := { s2.fls with seq := s2.fls.seq + 1 } }

/-- A program for the page is queued already, newer than its map entry. -/
def relocating (s : State) (mk : Nat) : Bool :=
  s.fls.luns.any fun p => p.2.progs.any fun g => g.dom * 2 ^ 42 + g.lpage == mk

/-- Some scoring read resolved to a block is queued or in progress (R293). -/
def scoringReads (s : State) (b : Nat) : Bool :=
  s.fls.luns.any fun p => p.2.reads.any fun r => r.src == 0 && ((r.issued && r.blk == b) ||
    (!r.issued && (match tfind s.fls.map (r.dom * 2 ^ 42 + r.lpage) with | some ph => ph.blk == b | none => false)))

/-- A scheduled block with no valid page left is erased or retired (R411, R414, R415). -/
def drainBlk (s : State) (b : Nat) : State :=
  let k := blkOf s b
  if k.rewrite = 0 || validPages s b != [] then s
  else if k.rewrite = 4 then retireBlk s b
  else
    let lu := lunOf s (blkChan b) (blkLun b)
    if lu.erase.isSome || scoringReads s b then s
    else setLun s (blkChan b) (blkLun b) { lu with erase := some b, eraseTries := 0, suspends := 0 }

/-- Relocate every valid page of a scheduled block that is not on its way yet, then go on with the block. -/
def rewriteBlk (s : State) (b : Nat) : State :=
  drainBlk ((validPages s b).foldl (fun s mk => if relocating s mk then s else relocate s mk (some b)) s) b

/-! ### Reads (R271, R273, R284, R285) -/

/-- A program or erase is in progress on the LUN and not suspended. -/
def lunBusy (lu : Lun) : Bool := (lu.erase.isSome || lu.progs != []) && !lu.suspended

/-- A queued read may be issued: a scoring read needs a free flash command credit (R284). -/
def readGo (s : State) (r : FRead) : Bool := !r.issued && (r.src != 0 || shareFree s r.share)

/-- Issue one read: its block is resolved now, its credit drawn (R284, R293). -/
def issueRead (s : State) (chan lun : Nat) (r : FRead) : State :=
  let b := match tfind s.fls.map (r.dom * 2 ^ 42 + r.lpage) with | some p => p.blk | none => 0
  let lu := lunOf s chan lun
  let s1 := setLun s chan lun { lu with reads := lu.reads.map fun x => if x == r then { x with issued := true, blk := b } else x }
  let s2 := setBlk s1 b { blkOf s1 b with reads := (blkOf s1 b).reads + 1 }
  if r.src = 0 then drawShare s2 r.share else s2

/-- LUN_READ_ISSUE (R285): the oldest read that may go, joined with one of each other plane in `join` where the part joins. -/
def lunReadIssue (chan lun : Nat) (join : List Nat) (s : State) : State :=
  let lu := lunOf s chan lun
  if lunBusy lu || (lu.reads.any fun r => r.issued) || !s.fls.inService.contains chan || fget s F.PRB_PWR_STAT_STATE ≥ 3 then s
  else match lu.reads.find? (readGo s) with
    | none => s
    | some r =>
      let others := if fget s F.FLS_GEOM_MP_READ = 1 then (List.range 4).filter fun p => p != r.plane && join.contains p else []
      others.foldl (fun s p => match (lunOf s chan lun).reads.find? fun x => readGo s x && x.plane == p with
        | some x => issueRead s chan lun x
        | none => s) (issueRead s chan lun r)

/-- Outcome of the decode of codeword `i` (R273): below 2^16 the bits that hard decode corrected, 2^16 when soft decode was
needed and succeeded, above when it failed. -/
def decAt (dec : List Nat) (i : Nat) : Nat := dec.getD i 0
def decSoft (dec : List Nat) (i : Nat) : Bool := decAt dec i ≥ 65536
def decFail (dec : List Nat) (i : Nat) : Bool := decAt dec i > 65536

/-- The logical page is marked lost (R411): its block is to be retired, the codeword reported. -/
def losePage (s : State) (r : FRead) (chan i : Nat) : State :=
  let mk := r.dom * 2 ^ 42 + r.lpage
  let s1 := match tfind s.fls.map mk with
    | some p => if p.blk = r.blk && !p.lost then
        fbump { s with fls := { s.fls with map := tins s.fls.map mk { p with lost := true } } } F.FLS_MEDIA_STAT_LOST else s
    | none => s
  schedule (faultRec (fbump s1 F.FLS_SCORE_STAT_LDPC_UE)
    { block := 7, kind := 5, status := stMEDIA_ERROR, reason := 0x51, die := 2, cls := 6, inst := chan, dom := r.dom
      addr := r.lpage * 16384, info := i }) r.blk 4

/-- What media management does with the decode of one transferred codeword (R273, R411, R412). -/
def codewordDone (r : FRead) (chan : Nat) (dec : List Nat) (s : State) (i : Nat) : State :=
  if decSoft dec i then
    let s1 := setBlk (fbump s F.FLS_SCORE_STAT_SOFT) r.blk { blkOf s r.blk with reads := (blkOf s r.blk).reads + 2 }
    if decFail dec i then losePage s1 r chan i else schedule s1 r.blk 1
  else if decAt dec i > fget s F.FLS_MEDIA_CTL_ERR_THRESH && readRewrite (blkOf s r.blk).stream then schedule s r.blk 1
  else s

/-- The codewords of a page that scoring entries need. -/
def neededWords (s : State) (r : FRead) : List Nat :=
  let a := r.lpage * 16384
  (List.range 4).filter fun i => s.fls.work.any fun w => w.dom == r.dom && match indexOf s w.dom w.index with
    | none => false
    | some x =>
      let hit := fun (slot bytes : Nat) => slot * bytes / 4096 ≤ i && i ≤ (slot * bytes + bytes - 1) / 4096
      (w.recPage == a && hit w.recSlot (recBytesOf x)) || (w.scalePage == a && x.recFmt != 1 && hit w.scaleSlot (scaleBytesOf x))

/-- Hand a page to the scoring entries that wait for it; those whose codeword failed are refused under reason 0x51. -/
def deliverPage (r : FRead) (dec : List Nat) (mismatch : Bool) (s : State) : State :=
  let a := r.lpage * 16384
  let mine := s.fls.work.filter fun w => w.dom == r.dom && (w.recPage == a || w.scalePage == a)
    && (match (cmdsOf s 6 w.chan).find? fun c => c.id == w.cmd with | some c => c.tok.job == r.cmd | none => false)
  (mine.zipIdx).foldl (fun s p =>
    let w := p.1
    match indexOf s w.dom w.index with
    | none => failEntry s w stMEDIA_ERROR 0x51
    | some x =>
      let bad := fun (slot bytes : Nat) => (List.range 4).any fun i => decFail dec i && slot * bytes / 4096 ≤ i && i ≤ (slot * bytes + bytes - 1) / 4096
      if (w.recPage == a && bad w.recSlot (recBytesOf x)) || (w.scalePage == a && x.recFmt != 1 && bad w.scaleSlot (scaleBytesOf x)) then
        failEntry s w stMEDIA_ERROR 0x51
      else
        let w1 := { w with haveRec := w.haveRec || w.recPage == a, haveScale := w.haveScale || w.scalePage == a }
        let s1 : State := { s with fls := { s.fls with work := s.fls.work.map fun y => if y == w then w1 else y } }
        if entReady w1 then scoreEntry s1 w1 (mismatch && p.2 == 0) else s1) s

/-- PAGE_READ_COMPLETE: the oldest issued read of the LUN ends; its credit returns. -/
def pageReadComplete (chan lun : Nat) (dec : List Nat) (mismatch : Bool) (s : State) : State :=
  let lu := lunOf s chan lun
  match lu.reads.find? fun r => r.issued with
  | none => s
  | some r =>
    let left := lu.reads.erase r
    let s1 := setLun s chan lun { lu with reads := left, suspended := lu.suspended && left != [] }
    let s2 := if r.src = 0 then giveShare s1 r.share else s1
    let ws := if r.src = 0 then neededWords s2 r else List.range 4
    let s3 := ws.foldl (codewordDone r chan dec) s2
    if r.src = 0 then deliverPage r dec mismatch s3 else s3

/-! ### Programs and erases (R408, R410, R411, R416, R420) -/

/-- In P3 and P4 FLS is idle and holds its queues (R420, R605). -/
def flsIdle (s : State) : Bool := fget s F.PRB_PWR_STAT_STATE ≥ 3
/-- Collection, rewrites and patrol run: not in P3 or P4, nor while the flash subsystem is lost (R669). -/
def flsKeeps (s : State) : Bool := !flsIdle s && !bitAt (ovcCauses s) 0
/-- The operation in progress may end: not suspended, and started before a brownout if one lasts (R420). -/
def opRuns (s : State) (lu : Lun) : Bool := !flsIdle s && !lu.suspended && (!s.fls.brownout || lu.started)

/-- FLASH_PROGRAM_COMPLETE: the oldest program of the LUN. -/
def flashProgramComplete (chan lun : Nat) (ok : Bool) (s : State) : State :=
  let lu := lunOf s chan lun
  match lu.progs with
  | [] => s
  | g :: rest =>
    if !opRuns s lu then s
    else
      let mk := g.dom * 2 ^ 42 + g.lpage
      let s1 := setLun s chan lun { lu with progs := rest, suspends := 0, started := false }
      if ok then
        match tfind s1.fls.map mk with
        | none => s1
        | some p =>
          if g.seq < p.seq then s1
          else
            let s2 : State := { s1 with fls := { s1.fls with
              map := tins s1.fls.map mk { chan := chan, lun := lun, blk := g.blk, page := g.page, seq := g.seq } } }
            if p.blk = g.blk then s2 else drainBlk s2 p.blk
      else
        let s2 := schedule s1 g.blk 4
        let lu2 := lunOf s2 chan lun
        match openBlock s2 chan lun g.stream with
        | none => setLun s2 chan lun { lu2 with progs := lu2.progs ++ [g] }
        | some b =>
          let k := blkOf s2 b
          let s3 := setBlk s2 b { k with used := k.used + 1, stream := g.stream, isOpen := decide (k.used + 1 < s2.fls.pagesPerBlock) }
          rewriteBlk (setLun s3 chan lun { lu2 with progs := lu2.progs ++ [{ g with blk := b, page := k.used }] }) g.blk

/-- FLASH_ERASE_COMPLETE. -/
def flashEraseComplete (chan lun : Nat) (ok : Bool) (s : State) : State :=
  let lu := lunOf s chan lun
  match lu.erase with
  | none => s
  | some b =>
    let k := blkOf s b
    if !opRuns s lu then s
    else if ok then
      let s1 := setLun s chan lun { lu with erase := none, eraseTries := 0, suspends := 0, started := false }
      let s2 := setBlk s1 b { erases := k.erases + 1 }
      if k.rewrite = 1 then fbump s2 F.FLS_MEDIA_STAT_REWRITES else if k.rewrite = 2 then fbump s2 F.FLS_MEDIA_STAT_RD_REFRESH else s2
    else if retireErase k.stream || lu.eraseTries ≥ 2 then
      retireBlk (setLun s chan lun { lu with erase := none, eraseTries := 0, suspends := 0, started := false }) b
    else setLun s chan lun { lu with eraseTries := lu.eraseTries + 1 }

/-- READ_DISTURB_LIMIT (R412). -/
def readDisturbLimit (b : Nat) (s : State) : State :=
  if (blkOf s b).reads ≥ max 1 (fget s F.FLS_MEDIA_CTL_RD_LIMIT) * 1024 then schedule s b 2 else s

/-- PATROL_READ (R413): every valid page of a closed block is queued for a media read. -/
def patrolRead (b : Nat) (s : State) : State :=
  let k := blkOf s b
  if k.isOpen || k.used = 0 || k.retired || !flsKeeps s then s
  else
    let lu := lunOf s (blkChan b) (blkLun b)
    let rs := (validPages s b).map fun mk =>
      { src := 1, dom := mk / 2 ^ 42, lpage := mk % 2 ^ 42, plane := b % max 1 s.fls.planes, since := s.now : FRead }
    let s1 := setBlk (setLun s (blkChan b) (blkLun b) { lu with reads := lu.reads ++ rs }) b { k with patrolled := s.now }
    rs.foldl (fun s r => writeBack s (pageKey r.dom (r.lpage * 16384))) s1

/-- The block that collection takes next on a LUN (R414): closed, fewest valid pages, fewer erases, lower number. -/
def victim (s : State) (chan lun : Nat) : Option Nat :=
  (leastBy (fun (p : Nat × Blk) => ((validPages s p.1).length * 2 ^ 32 + p.2.erases) * 2 ^ 32 + p.1 % 2 ^ 32)
    (s.fls.blks.filter fun p => blkChan p.1 == chan && blkLun p.1 == lun && p.2.used != 0 && !p.2.isOpen && !p.2.retired
      && p.2.rewrite == 0)).map (·.1)

/-- GARBAGE_COLLECTION: rewrites and retirements that are scheduled on the LUN go first (R415), then, while the pool of erased
blocks is below 2 %, collection of the victim, until it stands at 3 % again (R414). -/
def garbageCollection (chan lun : Nat) (s : State) : State :=
  if s.fls.brownout || !flsKeeps s || !s.fls.inService.contains chan then s
  else match s.fls.blks.find? fun p => blkChan p.1 == chan && blkLun p.1 == lun && p.2.rewrite != 0 && p.2.rewrite != 3 with
    | some p => rewriteBlk s p.1
    | none =>
      let good := goodCount s chan lun
      let pool := erasedCount s chan lun
      let lu := lunOf s chan lun
      let on := if 100 * pool < 2 * good then true else lu.collecting && decide (100 * pool < 3 * good)
      let s1 := setLun s chan lun { lu with collecting := on }
      match s.fls.blks.find? fun p => blkChan p.1 == chan && blkLun p.1 == lun && p.2.rewrite == 3 with
      | some p => rewriteBlk s1 p.1
      | none => match on, victim s1 chan lun with
        | true, some b => rewriteBlk (schedule s1 b 3) b
        | _, _ => s1

/-- READ_SUSPEND (R416): a read has waited 100 us behind a program or erase. -/
def readSuspend (chan lun : Nat) (s : State) : State :=
  let lu := lunOf s chan lun
  let late := lu.reads.any fun r => !r.issued && r.since + 100000 ≤ s.now
  let most := if lu.erase.isSome then 4 else 1
  if lunBusy lu && late && fget s F.FLS_GEOM_SUSPEND = 1 && lu.suspends < most then
    setLun s chan lun { lu with suspended := true, suspends := lu.suspends + 1 }
  else s

/-! ### Channels out of service (R403, R404) -/

/-- The flash subsystem is lost (R404): fewer than 56 channels, or no two channels of different media processors. -/
def flashLost (s : State) : Bool :=
  s.fls.inService.length < 56 || (s.fls.inService.all fun c => c / 4 == s.fls.inService.headD 0 / 4)

/-- Hold a channel out: its entries are refused with 0x55, its queues are empty, and it is reported. -/
def holdChannel (s : State) (chan : Nat) : State :=
  if !s.fls.inService.contains chan then s
  else
    let s1 : State := { s with fls := { s.fls with
      inService := s.fls.inService.filter fun c => c != chan
      luns := s.fls.luns.filter fun p => p.1 / 256 != chan } }
    let stuck := s1.fls.work.filter fun w => !entReady w && (w.chan == chan ||
      (!w.haveScale && (match tfind s1.fls.map (w.dom * 2 ^ 42 + w.scalePage / 16384) with | some p => p.chan == chan | none => false)))
    let given := s.fls.luns.flatMap fun p => if p.1 / 256 = chan then p.2.reads.filter fun r => r.issued && r.src == 0 else []
    let s2 := given.foldl (fun s r => giveShare s r.share) s1
    let s3 := stuck.foldl (fun s w => failEntry s w stMEDIA_ERROR 0x55) s2
    let s4 := unitFault s3 7 0x0B 0 0 chan
    if flashLost s4 then ovcSet s4 0 else s4

/-! ### Host discards (R417, R418, R429) -/

/-- A discard of the host may cover a byte: in a flash-backed write-back region. -/
def mayDiscard (s : State) (dom a : Nat) : Bool :=
  match areaAt s dom a, regionAt s dom a with
  | none, some (_, r) => r.cls == 0 && r.backing == 1
  | _, _ => false

/-- FLS_DISCARD: a write of `FLS_DSC_CMD`. -/
def flsDiscard (v : W32) (s : State) : State :=
  let s1 := regWritePlain s .FLS_DSC_CMD 0 v
  if !v.getLsbD 28 || fget s F.FLS_DSC_CMD_BUSY = 1 then s1
  else
    let dom := fget s1 F.FLS_DSC_CMD_DOMAIN
    let a := rpair s1 .FLS_DSC_ADDR_LO .FLS_DSC_ADDR_HI
    let n := fget s1 F.FLS_DSC_CMD_PAGES
    if a % 65536 != 0 || n = 0 || !((List.range n).all fun i => mayDiscard s1 dom (a + i * 65536)) then fset s1 F.FLS_DSC_CMD_ERR 1
    else
      let s2 := fset (fset s1 F.FLS_DSC_CMD_ERR 0) F.FLS_DSC_CMD_BUSY 1
      { s2 with fls := { s2.fls with dsc := some [dom, a, n * 65536] } }

/-- DISCARD_COMPLETE. -/
def discardComplete (s : State) : State :=
  match s.fls.dsc with
  | some [dom, a, n] =>
    let s1 := flashDrop s dom a n
    fset { s1 with fls := { s1.fls with dsc := none } } F.FLS_DSC_CMD_BUSY 0
  | _ => s

/-! ### The rows -/

/-- LUN_READ_ISSUE (R285). -/
def execLunReadIssue (channel : BitVec 6) (lun : Nat) (join : List Nat) (s : State) : Out := .next (lunReadIssue channel.toNat lun join s)
/-- PAGE_READ_COMPLETE (R271, R273). -/
def execPageReadComplete (channel : BitVec 6) (lun : Nat) (dec : List Nat) (mismatch : Bool) (s : State) : Out :=
  .next (pageReadComplete channel.toNat lun dec mismatch s)
/-- FLASH_PROGRAM_COMPLETE (R408, R411). -/
def execFlashProgramComplete (channel : BitVec 6) (lun : Nat) (ok : Bool) (s : State) : Out :=
  .next (flashProgramComplete channel.toNat lun ok s)
/-- FLASH_ERASE_COMPLETE (R411). -/
def execFlashEraseComplete (channel : BitVec 6) (lun : Nat) (ok : Bool) (s : State) : Out := .next (flashEraseComplete channel.toNat lun ok s)
/-- READ_DISTURB_LIMIT (R412). -/
def execReadDisturbLimit (block : Nat) (s : State) : Out := .next (readDisturbLimit block s)
/-- PATROL_READ (R413). -/
def execPatrolRead (block : Nat) (s : State) : Out := .next (patrolRead block s)
/-- GARBAGE_COLLECTION (R414, R415). -/
def execGarbageCollection (channel : BitVec 6) (lun : Nat) (s : State) : Out := .next (garbageCollection channel.toNat lun s)
/-- READ_SUSPEND (R416). -/
def execReadSuspend (channel : BitVec 6) (lun : Nat) (s : State) : Out := .next (readSuspend channel.toNat lun s)
/-- CHANNEL_HELD_OUT (R403). -/
def execChannelHeldOut (channel : BitVec 6) (s : State) : Out := .next (holdChannel s channel.toNat)
/-- FLS_DISCARD (R418, R429). -/
def execFlsDiscard (v : W32) (s : State) : Out := .next (hostReg s .FLS_DSC_CMD (.reg .FLS_DSC_CMD 0 v) (flsDiscard v))
/-- DISCARD_COMPLETE (R429). -/
def execDiscardComplete (s : State) : Out := .next (discardComplete s)

end Sys2Proof.Machine
end

