-- ==== Sys2Proof/Machine/Pace.lean ====
section
/-!
DEFINITION. Pace and device time (chapter 2): the pace limiter and its monitor, PTP, and the latching read of device time.
-/

namespace Sys2Proof.Machine

open Sys2Proof

/-- The fused pace ceiling in Mstep/s (R6, R33). -/
def paceCeiling : Nat :=
  match Config.variantFuse with
  | 0 => 1900
  | 1 => 1600
  | _ => 1250

/-- The setting that TARGET asks for (R33, R34): 0 means the ceiling, above it acts as the ceiling, below 500 as 500. -/
def paceGoal (target : Nat) : Nat := if target = 0 then paceCeiling else max 500 (min target paceCeiling)

/-- `a` moved towards `b` by at most `d`. -/
def moveTo (a b d : Nat) : Nat := if a < b then min b (a + d) else max b (a - d)

/-- A write of `PRB_PACE_CTL` (R33, R34). -/
def execPaceTargetWrite (v : W32) (s : State) : Out :=
  .next (hostReg s .PRB_PACE_CTL (.reg .PRB_PACE_CTL 0 v) fun s => regWritePlain s .PRB_PACE_CTL 0 v)

/-- The limiter or the cap moves (R34, R572): to a setting within 100 Mstep/s of the achieved pace at once, else by at most
100 Mstep/s in any microsecond, never below 500. Nothing moves before its microsecond has passed. -/
def limiterMove (governor : Bool) (achieved amount : Nat) (s : State) : State :=
  let p := s.prb.pace
  if governor then
    if s.now < p.capAt + 1000 then s
    else
      let d := if (p.capGoal - achieved) + (achieved - p.capGoal) ≤ 100 then 1900 else min 100 amount
      { s with prb := { s.prb with pace := { p with cap := max 500 (moveTo p.cap p.capGoal d), capAt := s.now } } }
  else
    let goal := if fget s F.PRB_STEP_LAST < 2 then 500 else paceGoal (fget s F.PRB_PACE_CTL_TARGET)
    if s.now < p.limAt + 1000 then s
    else
      let d := if (goal - achieved) + (achieved - goal) ≤ 100 then 1900 else min 100 amount
      { s with prb := { s.prb with pace := { p with lim := max 500 (moveTo (min p.lim paceCeiling) goal d), limAt := s.now } } }

/-- The limiter or the governor's cap moves towards its new setting (R34). -/
def execLimiterRamp (governor : Bool) (achieved amount : Nat) (s : State) : Out := .next (limiterMove governor achieved amount s)

/-- The end of a window of the pace monitors (R35): the lowest of the three is NOW. A window ends at a multiple of 10 µs. -/
def paceWindow (cw ce iod : Nat) (limited governed : Bool) (s : State) : State :=
  if s.now % 10000 != 0 || s.now = s.prb.pace.window then s
  else
    let n := min (min cw ce) (min iod paceCeiling)
    let s1 := fset s F.PRB_PACE_MON_NOW n
    let s2 := fset s1 F.PRB_PACE_MON_MIN (min n (fget s F.PRB_PACE_MON_MIN))
    let s3 := fset s2 F.PRB_PACE_MON_LIMITED (if limited then 1 else 0)
    let s4 := fset s3 F.PRB_PACE_MON_GOVERNED (if governed then 1 else 0)
    { s4 with prb := { s4.prb with pace := { s4.prb.pace with window := s.now } } }

/-- The end of a pace window (R35). -/
def execPaceMonWindow (cw ce iod : Nat) (limited governed : Bool) (s : State) : Out := .next (paceWindow cw ce iod limited governed s)

/-- A write of `PRB_PACE_MON`: CLR_MIN sets MIN to all ones (R35). -/
def clrMin (v : W32) (s : State) : State := if v.getLsbD 31 then fset s F.PRB_PACE_MON_MIN 0xFFF else s
/-- Clearing MIN (R35). -/
def execClrMin (v : W32) (s : State) : Out := .next (hostReg s .PRB_PACE_MON (.reg .PRB_PACE_MON 0 v) (clrMin v))

/-! ### Synchronisation -/

/-- The magnitude of a signed 64-bit offset in nanoseconds. -/
def offMag (o : W64) : Nat := o.toInt.natAbs
/-- The offset register: signed, saturating (R48). -/
def offWord (o : W64) : W32 :=
  if o.toInt > 2147483647 then 0x7FFFFFFF else if o.toInt < -2147483647 then 0x80000001 else o.setWidth 32
/-- The port of a message in ACTIVE (R48). -/
def ptpPort (mgb : Bool) : Nat := if mgb then 2 else 1
/-- PTP is enabled on a port (R47). -/
def ptpOn (s : State) (mgb : Bool) : Bool := bitAt (fget s F.SMC_PTP_CTL_PORTS) (if mgb then 1 else 0)
/-- Remember the offset measured on a port (R45). -/
def ptpHeard (s : State) (mgb : Bool) (o : W64) : State :=
  let p := s.prb.ptp
  { s with prb := { s.prb with ptp := { p with
    heard := p.heard ||| ptpPort mgb, offA := if mgb then p.offA else o, offB := if mgb then o else p.offB } } }
/-- Discipline device time from an offset to the grandmaster of `mgb` with a correction of `rate` ppm: only the rate of the
counter changes, by at most 100 ppm (R43, R48). -/
def discipline (s : State) (mgb : Bool) (o : W64) (rate : Nat) : State :=
  let s1 := fset s F.SMC_PTP_STAT_ACTIVE (ptpPort mgb)
  let s2 := rset s1 .SMC_PTP_OFFSET 0 (offWord o)
  let s3 := fset s2 F.SMC_PTP_STAT_SYNC (if offMag o ≤ 1000 then 1 else 0)
  let s4 := fset s3 F.SMC_PTP_STAT_SLEWING (if rate > 100 then 1 else 0)
  { s4 with prb := { s4.prb with ptp := { s4.prb.ptp with slew := min rate 100 } } }

/-- Step 13 runs and is to set device time from the grandmaster (R43, R592). -/
def timeSets (s : State) : Bool :=
  match s.prb.run with
  | some (.time false _) => s.prb.timeOpen
  | _ => false
/-- Device time set to `t` (R43): the only step of the counter after cold reset. Every interval in progress goes on. -/
def setTime (s : State) (t : Nat) : State :=
  let p := s.prb
  let move := fun (a : Nat) => ((a : Int) - s.now + t).toNat
  { s with
    now := t
    prb := { p with
      timeOpen := false, lastActive := t, hotAt := move p.hotAt, cool := p.cool.map move, govAt := 0
      pace := { p.pace with limAt := move p.pace.limAt, capAt := move p.pace.capAt, window := 0 }
      brown := p.brown.map fun b => (move b.1, b.2)
      run := match p.run with | some (.time b d) => some (.time b (move d)) | some (.ports d) => some (.ports (move d)) | r => r } }
/-- Device time set to the time of the grandmaster heard on a port, of which the last offset is known: device time less that offset. -/
def setFromMaster (s : State) (mgb : Bool) : State :=
  let o := (if mgb then s.prb.ptp.offB else s.prb.ptp.offA)
  let p := s.prb.ptp
  let s1 := setTime { s with prb := { s.prb with ptp := { p with offA := p.offA - o, offB := p.offB - o } } } ((s.now : Int) - o.toInt).toNat
  discipline s1 mgb 0 0

/-- A received PTP message (R42, R45): on a port that is not enabled it is ignored; on the active port, or when none is
active, it disciplines device time; on the standby port its offset is tracked. -/
def ptpMessage (mgb : Bool) (offset : W64) (rate : Nat) (s : State) : State :=
  if !ptpOn s mgb then s
  else
    let s1 := ptpHeard s mgb offset
    let act := fget s F.SMC_PTP_STAT_ACTIVE
    if act != 0 && act != ptpPort mgb then s1
    else if timeSets s1 then setFromMaster s1 mgb else discipline s1 mgb offset rate
/-- A received PTP message (R42). -/
def execPtpMessage (mgb : Bool) (offset : W64) (rate : Nat) (s : State) : Out := .next (ptpMessage mgb offset rate s)

/-- Both ports have lost their grandmaster (R44): the counter goes on at the last disciplined rate. -/
def holdoverEntry (s : State) : State :=
  if fget s F.SMC_PTP_STAT_ACTIVE = 0 then s
  else
    let s1 := fset (fset s F.SMC_PTP_STAT_ACTIVE 0) F.SMC_PTP_STAT_SYNC 0
    let s2 := fset s1 F.SMC_PTP_STAT_HOLDOVER_SEEN 1
    { s2 with prb := { s2.prb with ptp := { s2.prb.ptp with heard := 0 } } }
/-- Entry to holdover (R44). -/
def execHoldoverEntry (s : State) : Out := .next (holdoverEntry s)

/-- A grandmaster returns in holdover (R44): slewed towards, with `UNIT_FAULT` from SMC when the offset exceeds 1 ms. -/
def grandmasterReturn (mgb : Bool) (offset : W64) (rate : Nat) (s : State) : State :=
  if !ptpOn s mgb || fget s F.SMC_PTP_STAT_ACTIVE != 0 then s
  else
    let s1 := discipline (ptpHeard s mgb offset) mgb offset rate
    if offMag offset > 1000000 then unitFault s1 15 0x0C 0 0 (if mgb then 1 else 0) else s1
/-- A grandmaster returns (R44). -/
def execGrandmasterReturn (mgb : Bool) (offset : W64) (rate : Nat) (s : State) : Out := .next (grandmasterReturn mgb offset rate s)

/-- PTP moves to the other port (R45): device time neither steps nor pauses. -/
def ptpSwitchover (mgb : Bool) (rate : Nat) (s : State) : State :=
  let act := fget s F.SMC_PTP_STAT_ACTIVE
  if !ptpOn s mgb || act = 0 || act = ptpPort mgb || s.prb.ptp.heard &&& ptpPort mgb = 0 then s
  else
    let o := if mgb then s.prb.ptp.offB else s.prb.ptp.offA
    fset (discipline s mgb o rate) F.SMC_PTP_STAT_SWITCHOVER_SEEN 1
/-- PTP moves between MGA and MGB (R45). -/
def execPtpSwitchover (mgb : Bool) (rate : Nat) (s : State) : Out := .next (ptpSwitchover mgb rate s)

/-- Device time as `SMC_TIME_LO` and `SMC_TIME_HI` hold it after a read of the low part. -/
def timeLatch (s : State) : State := rset (rset s .SMC_TIME_LO 0 (BitVec.ofNat 32 s.now)) .SMC_TIME_HI 0 (BitVec.ofNat 32 (s.now / 2 ^ 32))
/-- A read of `SMC_TIME_LO` latches the upper half (R46). -/
def execSmcTimeLoRead (s : State) : Out :=
  .next (hostReg s .SMC_TIME_LO (.read .SMC_TIME_LO) timeLatch)

end Sys2Proof.Machine
end

