-- ==== Sys2Proof/Machine/Traffic.lean ====
section
/-!
DEFINITION. Dispatch and traffic by device time (chapter 19): periodic series, policing and counts, gate lists and virtual-time
service of the egress queues, and queue sampling.
-/

namespace Sys2Proof.Machine

open Sys2Proof

/-! ### Series and counts (R522 to R529) -/

/-- PERIODIC_RELEASE: the next instance of a series, once its time has come and its domain may draw an intake credit. -/
def periodicRelease (id : Nat) (s : State) : State :=
  match tfind s.exec.series id with
  | none => s
  | some x =>
    if s.now < x.t0 + x.next * x.period * 1000 || !intakeFree s x.dom then s
    else
      let s1 := intakeDraw { s with exec := { s.exec with series := tins s.exec.series id { x with next := x.next + 1 } } } x.dom
      admitEntry s1 x.sq x.dom false (some id) (x.deadline + x.next * x.period * 1000) x.entry
/-- The release of a periodic instance. -/
def execPeriodicRelease (id : Nat) (s : State) : Out := .next (periodicRelease id s)

/-- A write of `DSP_SERIES` (R523). -/
def seriesWrite (v : W32) (s : State) : State :=
  let s1 := regWritePlain s .DSP_SERIES 0 v
  if v.getLsbD 15 then endSeries s1 (fget s1 F.DSP_SERIES_QUEUE) else s1
/-- SERIES_STOP: a write of `DSP_SERIES` with STOP 1. -/
def execSeriesStop (v : W32) (s : State) : Out := .next (hostReg s .DSP_SERIES (.reg .DSP_SERIES 0 (v ||| 0x8000)) (seriesWrite (v ||| 0x8000)))

/-- DSP_POL_WRITE (R527): the bucket is full to BURST. -/
def polWrite (v : W32) (s : State) : State :=
  let d := fget s F.DSP_DOM_SEL_V
  let s1 := regWritePlain s .DSP_POL d v
  { s1 with exec := { s1.exec with
    bucket := tput {} s1.exec.bucket d { level := max 1 (fget s1 F.DSP_POL_BURST d) * 1000000, last := s.now } } }
/-- A write of `DSP_POL`. -/
def execDspPolWrite (v : W32) (s : State) : Out := .next (hostReg s .DSP_POL (.reg .DSP_POL 0 v) (polWrite v))

/-- DSP_COUNT_CLEAR (R525): a write of any value clears the count of the selected domain. -/
def countClear (r : Reg) (s : State) : State := rset s r (fget s F.DSP_DOM_SEL_V) 0
/-- A write of a count register. -/
def execDspCountClear (r : Reg) (v : W32) (s : State) : Out :=
  .next (if [Reg.DSP_CNT_ADM, .DSP_CNT_DONE, .DSP_CNT_LATE, .DSP_CNT_POL].contains r then hostReg s r (.reg r 0 v) (countClear r) else s)
/-- TRF_ING_DROP_CLEAR (R529). -/
def execTrfIngDropClear (v : W32) (s : State) : Out := .next (hostReg s .TRF_ING_DROP (.reg .TRF_ING_DROP 0 v) fun s => rset s .TRF_ING_DROP 0 0)

/-! ### Gate lists (R532 to R535) -/

/-- Fields of a gate entry. -/
def gateDur (w : W64) : Nat := bitsOf w.toNat 0 32
def gateOpen (w : W64) : Nat := bitsOf w.toNat 32 15
/-- A well-formed gate entry (R532). -/
def gateOk (w : W64) : Bool := gateDur w ≥ 100 && bitsOf w.toNat 47 17 == 0

/-- The horizon registers. -/
def gateHorizon (s : State) : Nat := rpair s .TRF_GL_HZN_LO .TRF_GL_HZN_HI
/-- Discard a port's staged list before its horizon. -/
def gateCancel (s : State) (p : Nat) : State :=
  match (portOf s p).staged with
  | some (_, h) => if s.now < h then fset (setPort s p { portOf s p with staged := none }) F.TRF_GL_CTL_STAGED 0 p else s
  | none => s
/-- Stage a port's list, or refuse. -/
def gateArm (s : State) (p : Nat) : State :=
  let n := fget s F.TRF_GL_CTL_LEN p
  let l := (List.range n).map fun i => tget 0 (portOf s p).words i
  if n = 0 || n > 256 || l.any (fun w => !gateOk w) || gateHorizon s < s.now + 10000 then fset s F.TRF_GL_CTL_ERR 1 p
  else fset (fset (setPort s p { portOf s p with staged := some (l, gateHorizon s) }) F.TRF_GL_CTL_STAGED 1 p) F.TRF_GL_CTL_ERR 0 p
/-- A write of `TRF_GL_CTL` (R534). -/
def gateCtl (v : W32) (s : State) : State :=
  let p := fget s F.TRF_GL_SEL_PORT
  if p > 8 then s
  else
    let s1 := regWritePlain s .TRF_GL_CTL p v
    let s2 := if v.getLsbD 10 then gateCancel s1 p else s1
    if v.getLsbD 9 then gateArm s2 p else s2
/-- GATE_LIST_ARM: a write of `TRF_GL_CTL` with ARM 1. -/
def execGateListArm (v : W32) (s : State) : Out := .next (hostReg s .TRF_GL_CTL (.reg .TRF_GL_CTL 0 (v ||| 0x200)) (gateCtl (v ||| 0x200)))
/-- GATE_LIST_CANCEL: one with CANCEL 1 and ARM 0. -/
def execGateListCancel (v : W32) (s : State) : Out := .next (hostReg s .TRF_GL_CTL (.reg .TRF_GL_CTL 0 ((v ||| 0x400) &&& 0xFFFFFDFF)) (gateCtl ((v ||| 0x400) &&& 0xFFFFFDFF)))
/-- A write of `TRF_GL_LO` or `TRF_GL_HI`: half of an entry of the staged list, ignored while STAGED is 1. -/
def gateWord (hi : Bool) (v : W32) (s : State) : State :=
  let p := fget s F.TRF_GL_SEL_PORT
  let i := fget s F.TRF_GL_SEL_ENTRY
  let x := portOf s p
  if p > 8 || x.staged.isSome then s
  else
    let w := tget 0 x.words i
    let w1 : W64 := BitVec.ofNat 64 (putBits w.toNat (if hi then 32 else 0) 32 v.toNat)
    setPort s p { x with words := tput 0 x.words i w1 }

/-- The mask of open queues now (R533): every queue while no list is active. -/
def openMask (x : Port) : Nat :=
  match x.active with
  | none => 0x7FFF
  | some g => gateOpen (g.entries.getD g.pos 0)
/-- End of the present window: that of its gate entry and of a staged list's horizon, whichever comes first. -/
def windowEnd (x : Port) : Option Nat :=
  let e := x.active.map fun g => g.start + gateDur (g.entries.getD g.pos 0)
  match e, x.staged with
  | some a, some (_, h) => some (min a h)
  | some a, none => some a
  | none, some (_, h) => some h
  | none, none => none
/-- A window starts: every queue that it opens raises its start tag to V (R535). -/
def openTags (x : Port) : Port :=
  { x with tags := (List.range 15).foldl (fun t q => if bitAt (openMask x) q then tput 0 t q (max (tget 0 t q) x.vt) else t) x.tags }

/-- GATE_LIST_HORIZON: the staged list takes over at its horizon. -/
def gateHorizonAt (p : Nat) (s : State) : State :=
  match (portOf s p).staged with
  | some (l, h) =>
    if s.now < h then s
    else
      let s1 := setPort s p (openTags { portOf s p with active := some { entries := l, pos := 0, start := h }, staged := none })
      fset (fset s1 F.TRF_GL_CTL_STAGED 0 p) F.TRF_GL_CTL_ACTIVE 1 p
  | none => s
/-- The horizon of a gate list. -/
def execGateListHorizon (port : Nat) (s : State) : Out := .next (gateHorizonAt port s)

/-- GATE_WINDOW_EDGE: the next entry of the active list. -/
def gateEdge (p : Nat) (s : State) : State :=
  let x := portOf s p
  match x.active with
  | some g =>
    let e := g.start + gateDur (g.entries.getD g.pos 0)
    if s.now < e then s
    else setPort s p (openTags { x with active := some { g with pos := (g.pos + 1) % g.entries.length, start := e } })
  | none => s
/-- The end of a gate window. -/
def execGateWindowEdge (port : Nat) (s : State) : Out := .next (gateEdge port s)

/-! ### Service of a port (R530, R533, R535) -/

/-- Start tags count in units of 1 / `tagUnit` of a line byte, so that L / W is exact for every weight. -/
def tagUnit : Nat := (List.range 255).foldl (fun n i => Nat.lcm n (i + 1)) 1
/-- Weight of a queue at a port (R536). -/
def weightOf (s : State) (p q : Nat) : Nat :=
  max 1 (bitsOf (rget s (match q / 4 with | 0 => .TRF_QW0 | 1 => .TRF_QW1 | 2 => .TRF_QW2 | _ => .TRF_QW3) p).toNat (q % 4 * 8) 8)
/-- Line time of a packet at a port's present width, in ns, rounded up: 28 bytes per ns and lane (R451). -/
def lineTime (s : State) (p bytes : Nat) : Nat := cdiv bytes (28 * max 1 (codeLanes (fget s F.FAB_PORT_STAT_WIDTH p)))

/-- The queue a port serves next: the system queue, else the open queue with the smallest start tag, if its head packet ends
before the window does. -/
def nextServed (s : State) (p : Nat) : Option (Nat × Egress) :=
  let x := portOf s p
  match tget [] x.queues 15 with
  | e :: _ => some (15, e)
  | [] =>
    let ready := x.queues.filter fun q => bitAt (openMask x) q.1 && decide (q.1 < 15)
    match leastBy (fun q => tget 0 x.tags q.1) ready with
    | some (q, e :: _) => (match windowEnd x with
      | some t => if s.now + lineTime s p e.bytes ≤ t then some (q, e) else none
      | none => some (q, e))
    | _ => none

/-- A packet leaves on a port. -/
def putOnLine (s : State) (p : Nat) (k : Pkt) : State :=
  setLink (emit s (.packet p (fenceFlag s k))) p { linkOf s p with frames := (linkOf s p).frames + 1 }

/-- A packet taken from its queue is sent; a push segment reads its source now (R436, R446). -/
def sendEgress (s : State) (p : Nat) (e : Egress) : State :=
  match e.pkt, e.src with
  | some k, none => putOnLine s p k
  | some k, some (dom, a) =>
    let tag := k.tag.toNat
    match uBytes s dom a k.len.toNat, tfind s.fab.ops tag with
    | some bs, some o =>
      putOnLine { s with fab := { s.fab with ops := tins s.fab.ops tag { o with segs := o.segs.filter fun i => i != k.seg.toNat } } } p
        { k with payload := bs }
    | some bs, none => putOnLine s p { k with payload := bs }
    | none, some o => afterOp (pushFails s tag o)
    | none, none => s
  | none, _ => s

/-- EGRESS_SERVE: a port whose line is free starts its next packet. -/
def egressServe (p : Nat) (s : State) : State :=
  if !portUp s p || p > 7 || s.now < (portOf s p).busyUntil then s
  else match nextServed s p with
    | none => s
    | some (q, e) =>
      let x := portOf s p
      let vt := if q = 15 then x.vt else tget 0 x.tags q
      let s1 := setPort s p { x with
        queues := tput [] x.queues q ((tget [] x.queues q).drop 1), vt := vt, busyUntil := s.now + lineTime s p e.bytes
        tags := if q = 15 then x.tags else tput 0 x.tags q (vt + e.bytes * (tagUnit / weightOf s p q)) }
      sendEgress s1 p e
/-- A port serves. -/
def execEgressServe (port : Nat) (s : State) : Out := .next (egressServe port s)

/-! ### Sampling (R537, R538) -/

/-- One sample record of a port; one that is DOWN or HELD shows every DEPTH and HOL zero (R667). -/
def sampleRec (s : State) (p : Nat) : List Byte :=
  let x := portOf s p
  let gone := p < 8 && (fget s F.FAB_PORT_STAT_STATE p == 0 || fget s F.FAB_PORT_STAT_STATE p == 5)
  let q := fun (i : Nat) =>
    let l := if gone then [] else tget [] x.queues i
    bytesOf 2 (min 0xFFFF (l.foldl (fun n e => n + e.bytes / 64) 0))
      ++ bytesOf 2 (match l with | e :: _ => min 0xFFFF ((s.now - e.since) / 10) | [] => 0)
  bytesOf 8 s.now ++ bytesOf 1 p ++ bytesOf 1 (if s.trf.smpPhase then 1 else 0) ++ bytesOf 6 0 ++ (List.range 16).flatMap q
    ++ bytesOf 2 (openMask x) ++ List.replicate 46 (0 : Byte)

/-- Records in the sample ring. -/
def smpSize (s : State) : Nat := 2 ^ fget s F.TRF_SMP_CTL_SIZE
/-- Write one sample record, or drop and count it when the ring is full. -/
def putSample (s : State) (p : Nat) : State :=
  let t := fget s F.TRF_SMP_STAT_TAIL
  let next := (t + 1) % smpSize s
  if next = fget s F.TRF_SMP_HEAD_V then fbump s F.TRF_SMP_STAT_LOST
  else
    let s1 := hostWrite s (pasidOf s (fget s F.TRF_SMP_DOM_V)) (rpair s .TRF_SMP_BASE_LO .TRF_SMP_BASE_HI + 128 * t) (sampleRec s p)
    let s2 := fset s1 F.TRF_SMP_STAT_TAIL next
    if next = 0 then { s2 with trf := { s2.trf with smpPhase := !s2.trf.smpPhase } } else s2

/-- SAMPLE_TICK: the next multiple of INTERVAL since enable has come. In P3 and P4 sampling pauses (R667). -/
def sampleTick (s : State) : State :=
  if fget s F.TRF_SMP_CTL_ENABLE = 0 || s.now < s.trf.smpNext || fget s F.PRB_PWR_STAT_STATE ≥ 3 then s
  else
    let s1 := (maskList (fget s F.TRF_SMP_CTL_PORTS) 9).foldl putSample s
    { s1 with trf := { s1.trf with smpNext := s.trf.smpNext + max 1 (fget s F.TRF_SMP_CTL_INTERVAL) * 1000 } }
/-- A sample time. -/
def execSampleTick (s : State) : Out := .next (sampleTick s)

/-- After a wake from P3 or P4 sampling resumes at the first multiple of INTERVAL after it (R667). -/
def sampleResume (s : State) : State :=
  let step := max 1 (fget s F.TRF_SMP_CTL_INTERVAL) * 1000
  { s with trf := { s.trf with smpNext := s.trf.smpStart + ((s.now - s.trf.smpStart) / step + 1) * step } }

/-- Fields of `TRF_SMP_CTL` that are ignored while sampling is enabled: PORTS, SIZE. -/
def smpFixed : W32 := 0x00F7FC00
/-- A write of `TRF_SMP_CTL` (R538). -/
def smpCtl (v : W32) (s : State) : State :=
  let old := rget s .TRF_SMP_CTL 0
  if fget s F.TRF_SMP_CTL_ENABLE = 1 then regWritePlain s .TRF_SMP_CTL 0 ((v &&& ~~~smpFixed) ||| (old &&& smpFixed))
  else
    let s1 := regWritePlain s .TRF_SMP_CTL 0 v
    if !v.getLsbD 19 then s1
    else
      let s2 := fset (rset s1 .TRF_SMP_HEAD 0 0) F.TRF_SMP_STAT_TAIL 0
      { s2 with trf := { s2.trf with
        smpPhase := true, smpStart := s.now, smpNext := s.now + max 1 (fget s1 F.TRF_SMP_CTL_INTERVAL) * 1000 } }
/-- SAMPLING_ENABLE: a write of `TRF_SMP_CTL` with ENABLE 1. -/
def execSamplingEnable (v : W32) (s : State) : Out := .next (hostReg s .TRF_SMP_CTL (.reg .TRF_SMP_CTL 0 (v ||| 0x80000)) (smpCtl (v ||| 0x80000)))
/-- SAMPLING_DISABLE: one with ENABLE 0. -/
def execSamplingDisable (v : W32) (s : State) : Out := .next (hostReg s .TRF_SMP_CTL (.reg .TRF_SMP_CTL 0 (v &&& 0xFFF7FFFF)) (smpCtl (v &&& 0xFFF7FFFF)))
/-- SAMPLE_HEAD_WRITE. -/
def execSampleHeadWrite (v : W32) (s : State) : Out := .next (hostReg s .TRF_SMP_HEAD (.reg .TRF_SMP_HEAD 0 v) fun s => regWritePlain s .TRF_SMP_HEAD 0 v)

end Sys2Proof.Machine
end

