-- ==== Sys2Proof/Machine/Trust.lean ====
section
/-!
DEFINITION. Isolation, trust and configuration agreement (chapter 20): domains, TIMING_CLEAN, the configuration digest and its
agreement, evidence and SPDM, signed management messages, the lease and the self-fence.
-/

namespace Sys2Proof.Machine

open Sys2Proof

/-! ### Domains (R540 to R543) -/

/-- A domain. -/
def domOf (s : State) (d : Nat) : Dom := tget {} s.smc.doms d
/-- The state with a domain written. -/
def setDom (s : State) (d : Nat) (v : Dom) : State := { s with smc := { s.smc with doms := tput {} s.smc.doms d v } }
/-- The ACTIVE domains. -/
def activeDoms (s : State) : List (Nat × Dom) := s.smc.doms.filter fun p => p.2.state == 1
/-- What refuses a release with reason 0xE0 (R543). -/
def domHolds (s : State) (d : Nat) : Bool :=
  ((banksOf s .HIU_PAGE_DOM).any fun k => fget s F.HIU_PAGE_DOM_VALID k == 1 && fget s F.HIU_PAGE_DOM_DOM k == d)
    || ((banksOf s .HIU_APT_DOM).any fun k => fget s F.HIU_APT_DOM_VALID k == 1 && fget s F.HIU_APT_DOM_DOM k == d)
    || ((banksOf s .HIU_SQ_CTL).any fun q => fget s F.HIU_SQ_CTL_ENABLE q == 1 && sqDom s q == d)
    || ((banksOf s .HIU_EQ_CTL).any fun e => fget s F.HIU_EQ_CTL_ENABLE e == 1 && fget s F.HIU_EQ_CTL_DOMAIN e == d && e != devQueue s)
    || fget s F.HIU_DOM_PASID_ENABLE d == 1
    || (s.exec.plans.any fun p => p.2.dom == d) || (s.tir.indexes.any fun p => p.2.dom == d) || (s.tir.regions.any fun p => p.2.dom == d)
    || (s.fab.windows.any fun p => p.2.dom == d) || (s.tir.pins.any fun p => p.2.dom == d) || (s.exec.jobs.any fun p => p.2.dom == d)

/-- A domain command has completed (R541). -/
def domDone (s : State) (st rs : Nat) : State :=
  fset (fset (fset s F.SMC_DOM_STAT_STATUS st) F.SMC_DOM_STAT_REASON rs) F.SMC_DOM_STAT_BUSY 0
/-- Create (R542, R558): a new media key generation. -/
def domCreate (s : State) (d part : Nat) : State :=
  let v := domOf s d
  if v.state != 0 then domDone s stBAD_OPERATOR 0xE1
  else if partitioned s && (tfind s.fab.slices part).isNone then domDone s stBAD_OPERATOR 0xE2
  else domDone (setDom s d { state := 1, part := if partitioned s then part else 0, gen := (v.gen + 1) % 2 ^ 32 }) stOK 0
/-- Tile SRAM regions whose last holder was of the domain (R551). -/
def domTiles (s : State) (d : Nat) : List Nat := (s.exec.tileDom.filter fun p => p.2 == d + 1).map (·.1)
/-- Release (R543, R558, R607): the key generation is retired, so flash pages of the domain are unreadable; what is to be
scrubbed wakes the node. -/
def domRelease (s : State) (d : Nat) : State :=
  let v := domOf s d
  if v.state != 1 then domDone s stBAD_OPERATOR 0xE4
  else if domHolds s d then domDone s stBAD_OPERATOR 0xE0
  else
    let s1 := flashDrop (setDom s d { v with state := 2, gen := (v.gen + 1) % 2 ^ 32 }) d 0 (2 ^ 56)
    let s2 := fset { s1 with smc := { s1.smc with releasing := some d } } F.SMC_DOM_STAT_BUSY 1
    if domTiles s d = [] then s2 else wakeNode s2
/-- A write of `SMC_DOM_CMD` that names an operation (R541). -/
def domBegin (op : Nat) (s : State) : State :=
  let d := fget s F.SMC_DOM_CMD_DOMAIN
  if fget s F.SMC_DOM_STAT_BUSY = 1 then s
  else match op with
    | 1 => domCreate s d (fget s F.SMC_DOM_CMD_PART)
    | 2 => domRelease s d
    | _ => domDone s stBAD_OPERATOR 0
/-- A write of `SMC_DOM_CMD` with the operation of a row. -/
def domWrite (op : Nat) (v : W32) (s : State) : State :=
  hostReg s .SMC_DOM_CMD (.reg .SMC_DOM_CMD 0 (if bitsOf v.toNat 12 4 = op then v else v &&& 0xFFFF0FFF)) fun s =>
    let s1 := regWritePlain s .SMC_DOM_CMD 0 v
    if bitsOf v.toNat 12 4 = op && op != 0 then domBegin op s1 else s1
/-- DOMAIN_CREATE. -/
def execDomainCreate (v : W32) (s : State) : Out := .next (domWrite 1 v s)
/-- DOMAIN_RELEASE. -/
def execDomainRelease (v : W32) (s : State) : Out := .next (domWrite 2 v s)
/-- DOMAIN_RELEASE_DONE: the scrub has ended, in P0 where there was something to scrub (R551, R607). -/
def domReleased (s : State) : State :=
  match s.smc.releasing with
  | none => s
  | some d =>
    if domTiles s d != [] && !inP0 s then s
    else
      let s1 := (domTiles s d).foldl (fun s i =>
        let s1 := scrubTile s i
        { s1 with exec := { s1.exec with tileDom := tput 0 s1.exec.tileDom i 0 } }) s
      let s2 := setDom s1 d { domOf s1 d with state := 0, part := 0 }
      domDone { s2 with smc := { s2.smc with releasing := none } } stOK 0
/-- The end of a release. -/
def execDomainReleaseDone (s : State) : Out := .next (domReleased s)

/-! ### Partitions (R546 to R549) -/

/-- Words of a partition's masks (R548). -/
def partMasks (s : State) (p : Nat) : List Nat :=
  [Reg.SMC_PART_SEQ0, .SMC_PART_SEQ1, .SMC_PART_SEQ2, .SMC_PART_SEQ3, .SMC_PART_DMA_LO, .SMC_PART_DMA_HI, .SMC_PART_ENG].map
    fun r => (rget s r p).toNat
/-- Egress queues of a partition. -/
def partQueues (s : State) (p : Nat) : Nat := fget s F.SMC_PART_ENG_QUEUES p
/-- Two partitions share no sequencer, channel, engine or queue. -/
def partsApart (s : State) (p q : Nat) : Bool := (List.zip (partMasks s p) (partMasks s q)).all fun x => x.1 &&& x.2 == 0
/-- Flash channels in whole groups of four. -/
def wholeGroups (m : Nat) : Bool := (List.range 16).all fun g => let n := m / 2 ^ (4 * g) % 16; n == 0 || n == 15
/-- TIMING_CLEAN (R549). -/
def timingClean (s : State) : Bool :=
  let parts := s.fab.slices.map (·.1)
  partitioned s
    && (parts.all fun p => parts.all fun q => p == q || partsApart s p q)
    && (s.fab.slices.all fun p => wholeGroups p.2.channels)
    && ((activeDoms s).all fun d => bitAt (partQueues s d.2.part) (domQueue s d.1 false) && bitAt (partQueues s d.2.part) (domQueue s d.1 true))
    && (s.trf.ports.all fun p => match p.2.active with
        | some g => g.entries.all fun w => (parts.filter fun k => gateOpen w &&& partQueues s k != 0).length ≤ 1
        | none => true)
    && decide (((activeDoms s).foldl (fun n d => n + max 1 (fget s F.DSP_INTAKE_CAP_CAP d.1)) 0) ≤ 8192)

/-! ### The configuration digest (R566) -/

/-- SHAKE256-256 of bytes, as bytes. -/
def shaBytes (b : List Byte) : List Byte := bytesOf 32 (Config.shake256 b).toNat
/-- The eight registers of a digest, least significant word first. -/
def digOf (s : State) (l : List Reg) (b : Nat) : BitVec 256 :=
  BitVec.ofNat 256 (l.foldr (fun r n => (rget s r b).toNat + 2 ^ 32 * n) 0)
def mgrDigRegs : List Reg :=
  [.SMC_MGR_DIG0, .SMC_MGR_DIG1, .SMC_MGR_DIG2, .SMC_MGR_DIG3, .SMC_MGR_DIG4, .SMC_MGR_DIG5, .SMC_MGR_DIG6, .SMC_MGR_DIG7]
def cfgExpRegs : List Reg :=
  [.SMC_CFG_EXP0, .SMC_CFG_EXP1, .SMC_CFG_EXP2, .SMC_CFG_EXP3, .SMC_CFG_EXP4, .SMC_CFG_EXP5, .SMC_CFG_EXP6, .SMC_CFG_EXP7]
/-- Key digest of a manager slot; zero when it is not provisioned (R569). -/
def managerDig (s : State) (m : Nat) : BitVec 256 := digOf s mgrDigRegs m
/-- The digests of the 16 managers, in order. -/
def managerBytes (s : State) : List Byte := (List.range 16).flatMap fun m => bytesOf 32 (managerDig s m).toNat
/-- Word of a register as bytes. -/
def regBytes (s : State) (r : Reg) (b : Nat) : List Byte := bytesOf 4 (rget s r b).toNat
/-- Fused power ceiling in W (R599). -/
def powerCeiling : Nat := match Config.variantFuse with | 0 => 1500 | 1 => 1150 | _ => 850
/-- The variant that the fuses name (R659). -/
def variantCode : Nat := min Config.variantFuse 2
/-- Media key of a domain (R558): opaque in the root, the domain and its generation. -/
def mediaKey (s : State) (d : Nat) : List Byte :=
  Config.crypto 26 (bytesOf 32 ((s.smc.root.getD 0).toNat) ++ bytesOf 2 d ++ bytesOf 4 (domOf s d).gen)
/-- Canonical bytes of a window and of a slice. -/
def windowBytes (k : Nat) (w : Window) : List Byte :=
  bytesOf 4 k ++ bytesOf 2 w.dom ++ bytesOf 8 w.foff ++ bytesOf 8 w.base ++ bytesOf 8 w.len ++ bytesOf 2 w.sdom ++ bytesOf 2 w.nodeLo
    ++ bytesOf 2 w.nodeHi ++ bytesOf 1 w.access
def sliceBytes (k : Nat) (l : Slice) : List Byte :=
  bytesOf 1 k ++ bytesOf 1 l.comp ++ bytesOf 2 l.clusters ++ bytesOf 4 l.stackMask ++ bytesOf 1 l.portMask ++ bytesOf 8 l.channels

/-- Canonical bytes of the nine components, in order. -/
def cfgParts (s : State) : List (List Byte) :=
  [ bytesOf 1 variantCode ++ bytesOf 2 paceCeiling ++ bytesOf 2 powerCeiling ++ bytesOf 1 Config.steppingFuse
      ++ bytesOf 1 (fget s F.PRB_ID_FW_FUSED_SVN),
    regBytes s .SMC_MGMT_CTL 0 ++ managerBytes s,
    bytesOf 1 (fget s F.SMC_TENANCY_MODE) ++ (s.fab.slices.flatMap fun p => (partMasks s p.1).flatMap fun w => bytesOf 4 w)
      ++ ((activeDoms s).flatMap fun d => bytesOf 2 d.1 ++ bytesOf 1 d.2.part),
    (activeDoms s).flatMap fun d => shaBytes (mediaKey s d.1 ++ [0x4B#8, 0x43#8, 0x56#8]),
    s.exec.plans.flatMap fun p => bytesOf 2 p.1 ++ bytesOf 2 p.2.id ++ bytesOf 2 p.2.dom ++ shaBytes p.2.image,
    s.fab.windows.flatMap fun p => windowBytes p.1 p.2,
    (s.fab.slices.flatMap fun p => sliceBytes p.1 p.2) ++ s.fab.comps.flatMap fun p => match p.2.current with
      | some m => bytesOf 1 p.1 ++ m.raw
      | none => [],
    (s.trf.ports.flatMap fun p => match p.2.active with
      | some g => bytesOf 1 p.1 ++ g.entries.flatMap fun w => bytesOf 8 w.toNat
      | none => [])
      ++ ((activeDoms s).flatMap fun d => regBytes s .TRF_DOMQ d.1)
      ++ (List.range 9).flatMap fun p => [Reg.TRF_QW0, .TRF_QW1, .TRF_QW2, .TRF_QW3].flatMap fun r => regBytes s r p,
    regBytes s .PRB_FDOM 0 ++ bytesOf 1 (fget s F.FAB_MINPORTS_MIN) ]
/-- CFG_DIGEST now in force; zero before step 14 has computed it (R573). -/
def cfgDigest (s : State) : BitVec 256 :=
  if fget s F.PRB_STEP_LAST ≥ 14 then Config.shake256 ((cfgParts s).flatMap shaBytes) else 0

/-! ### Configuration agreement (R567, R568) -/

/-- MISMATCH clears when the two digests agree. -/
def cfgSettle (s : State) : State :=
  if fget s F.SMC_CFG_CTL_MISMATCH = 1 && cfgDigest s == s.smc.expect then fset s F.SMC_CFG_CTL_MISMATCH 0 else s
/-- Discard the staged epoch before its horizon. -/
def cfgDrop (s : State) : State :=
  match s.smc.cfg with
  | some (_, _, h) => if s.now < h then fset { s with smc := { s.smc with cfg := none } } F.SMC_CFG_CTL_STAGED 0 else s
  | none => s
/-- Stage an epoch, or refuse. -/
def cfgStage (s : State) : State :=
  let h := rpair s .SMC_CFG_HZN_LO .SMC_CFG_HZN_HI
  if s.smc.cfg.isSome || h < s.now + 10000000 then fset s F.SMC_CFG_CTL_ERR 1
  else
    let s1 : State := { s with smc := { s.smc with cfg := some (rpair s .SMC_CFG_STG_LO .SMC_CFG_STG_HI, digOf s cfgExpRegs 0, h) } }
    fset (fset s1 F.SMC_CFG_CTL_STAGED 1) F.SMC_CFG_CTL_ERR 0
/-- A write of `SMC_CFG_CTL`. -/
def cfgCtl (v : W32) (s : State) : State :=
  let s1 := regWritePlain s .SMC_CFG_CTL 0 v
  let s2 := if v.getLsbD 1 then cfgDrop s1 else s1
  if v.getLsbD 0 then cfgStage s2 else s2
/-- CFG_ARM: a write of `SMC_CFG_CTL` with ARM 1. -/
def execCfgArm (v : W32) (s : State) : Out := .next (hostReg s .SMC_CFG_CTL (.reg .SMC_CFG_CTL 0 (v ||| 1)) (cfgCtl (v ||| 1)))
/-- CFG_CANCEL: one with CANCEL 1 and ARM 0. -/
def execCfgCancel (v : W32) (s : State) : Out := .next (hostReg s .SMC_CFG_CTL (.reg .SMC_CFG_CTL 0 ((v ||| 2) &&& 0xFFFFFFFE)) (cfgCtl ((v ||| 2) &&& 0xFFFFFFFE)))

/-- CFG_HORIZON: the staged epoch is published and its grace begins. -/
def cfgPublish (s : State) : State :=
  match s.smc.cfg with
  | none => s
  | some (e, d, h) =>
    if s.now < h then s
    else
      let grace := max 1 (fget s F.SMC_CFG_CTL_GRACE_MS) * 1000000
      let s1 : State := { s with smc := { s.smc with cfg := none, cfgDue := some (e, d, h + grace), expect := d } }
      let s2 := rset (rset s1 .SMC_CFG_EPOCH_LO 0 (BitVec.ofNat 32 e)) .SMC_CFG_EPOCH_HI 0 (BitVec.ofNat 32 (e / 2 ^ 32))
      cfgSettle (fset s2 F.SMC_CFG_CTL_STAGED 0)
/-- The horizon of a configuration epoch. -/
def execCfgHorizon (s : State) : Out := .next (cfgPublish s)
/-- CFG_GRACE_EXPIRY: a mismatch that remains is reported. -/
def cfgGrace (s : State) : State :=
  match s.smc.cfgDue with
  | none => s
  | some (e, d, t) =>
    if s.now < t then s
    else
      let s1 : State := { s with smc := { s.smc with cfgDue := none } }
      if cfgDigest s = d then cfgSettle s1
      else devEvent (fset s1 F.SMC_CFG_CTL_MISMATCH 1) 0x0B 0 0
        (bytesOf 8 e ++ bytesOf 8 d.toNat ++ bytesOf 8 (cfgDigest s).toNat)
/-- The end of the grace of a configuration epoch. -/
def execCfgGraceExpiry (s : State) : Out := .next (cfgGrace s)

/-! ### Management messages (R559 to R564) -/

/-- SHAKE256-256 of this node's DeviceID public key (R554, R559). -/
def deviceId : BitVec 256 := Config.shake256 (Config.crypto 25 (bytesOf 32 Config.deviceSecret ++ Config.firstStage))
/-- Managers whose entries of a message count: provisioned, with their key, and a signature that verifies. -/
def signers (s : State) (m : Mgmt) : List Nat :=
  (List.range 16).filter fun k => managerDig s k != 0 && m.sigs.any fun g => g.manager.toNat == k && g.keyDigest == managerDig s k && g.verifies
/-- Managers provisioned. -/
def provisioned (s : State) : Nat := ((List.range 16).filter fun k => managerDig s k != 0).length
/-- Signatures a command needs: Q, or one with COMPAT. -/
def quorum (s : State) : Nat := if fget s F.SMC_MGMT_CTL_COMPAT = 1 then 1 else max 1 (fget s F.SMC_MGMT_CTL_Q)
/-- A signed command is accepted (R560). -/
def mgmtOk (s : State) (cmd : Nat) (m : Mgmt) : Bool :=
  let t := m.issueTime.toNat
  m.version == 1 && m.reservedZero && decide (m.sigs.length ≤ 16) && m.targetId == deviceId
    && decide (s.now ≤ t + 50000000) && decide (t ≤ s.now + 5000000)
    && (match tfind s.smc.issued cmd with | some u => decide (u < t) | none => true)
    && decide (max 1 (fget s F.SMC_MGMT_CTL_Q) ≤ provisioned s) && decide (quorum s ≤ (signers s m).length)

/-- The unsigned reply to every message (R561). -/
def mgmtReply (s : State) : State :=
  emit s (.reply (bytesOf 8 (rpair s .SMC_CFG_EPOCH_LO .SMC_CFG_EPOCH_HI) ++ bytesOf 32 (cfgDigest s).toNat
    ++ bytesOf 1 (fget s F.SMC_FENCE_STAT_ARMED) ++ bytesOf 1 (fget s F.SMC_FENCE_STAT_CAUSE)
    ++ bytesOf 1 (fget s F.SMC_MGMT_CTL_COMPAT) ++ bytesOf 1 (fget s F.SMC_MGMT_CTL_Q)))
/-- A signed message: discarded and counted, or accepted with its effect; answered in both cases. -/
def mgmt (cmd : Nat) (m : Mgmt) (effect : State → State) (s : State) : State :=
  if mgmtOk s cmd m then mgmtReply (effect { s with smc := { s.smc with issued := tins s.smc.issued cmd m.issueTime.toNat } })
  else mgmtReply (fbump s F.SMC_FENCE_STAT_REJECTED)

/-- LEASE_MS in force, in ns (R569). -/
def leaseNs (s : State) : Nat := max 100 (min 5000 (fget s F.SMC_MGMT_CTL_LEASE_MS)) * 1000000
/-- The node fences itself (R563, R564): one `LEASE_LOST` record; a node already fenced stays as it is. -/
def selfFence (cause : Nat) (s : State) : State :=
  if fenced s then s
  else devEvent (fset (fset s F.SMC_FENCE_STAT_FENCED 1) F.SMC_FENCE_STAT_CAUSE cause) 0x0C 0 0
    (bytesOf 8 cause ++ bytesOf 8 (tget 0 s.smc.issued 1))

/-- HEARTBEAT (R563): arms the lease of a ready node, or renews it, unless it is self-fenced. -/
def heartbeat (m : Mgmt) (s : State) : State :=
  if fenced s || fget s F.PRB_STEP_READY = 0 then s
  else fset { s with smc := { s.smc with lease := m.issueTime.toNat, leaseDone := false } } F.SMC_FENCE_STAT_ARMED 1
/-- UNFENCE: lifts a self-fence unless this node is expelled. -/
def unfence (s : State) : State :=
  if (match myNode s with | some n => s.smc.expelled.contains n | none => false) then s
  else fset (fset s F.SMC_FENCE_STAT_FENCED 0) F.SMC_FENCE_STAT_CAUSE 0
/-- EXPEL (R561): the node is recorded; drains wait for it no more, its in-doubt batches resolve, copies to it stop. -/
def expel (n : Nat) (s : State) : State :=
  let s1 : State := { s with
    smc := { s.smc with expelled := if s.smc.expelled.contains n then s.smc.expelled else n :: s.smc.expelled }
    tir := { s.tir with batches := s.tir.batches.map fun p =>
      (p.1, if p.2.replica && p.2.phase == .inDoubt && p.2.primary == n then { p.2 with phase := .noticed } else p.2) }
    tbe := { s.tbe with copies := s.tbe.copies.filter fun p => p.2.pkt.dst.toNat != n } }
  let s2 := pumpDrains s1
  if myNode s = some n then selfFence 3 s2 else s2
/-- READMIT. -/
def readmit (n : Nat) (s : State) : State := { s with smc := { s.smc with expelled := s.smc.expelled.filter fun k => k != n } }

/-- HEARTBEAT. -/
def execHeartbeat (m : Mgmt) (s : State) : Out := .next (mgmt 1 m (heartbeat m) s)
/-- FENCE. -/
def execMgmtFence (m : Mgmt) (s : State) : Out := .next (mgmt 2 m (selfFence 2) s)
/-- UNFENCE. -/
def execUnfence (m : Mgmt) (s : State) : Out := .next (mgmt 3 m unfence s)
/-- EXPEL. -/
def execExpel (m : Mgmt) (s : State) : Out := .next (mgmt 4 m (expel m.node.toNat) s)
/-- READMIT. -/
def execReadmit (m : Mgmt) (s : State) : Out := .next (mgmt 5 m (readmit m.node.toNat) s)
/-- STATUS: unsigned, reply only. -/
def execStatusRequest (_m : Mgmt) (s : State) : Out := .next (mgmtReply s)

/-- LEASE_EXPIRY (R563). -/
def leaseExpiry (s : State) : State :=
  if fget s F.SMC_FENCE_STAT_ARMED = 0 || s.smc.leaseDone || s.now < s.smc.lease + leaseNs s then s
  else selfFence 1 { s with smc := { s.smc with leaseDone := true } }
/-- The lease expires. -/
def execLeaseExpiry (s : State) : Out := .next (leaseExpiry s)

/-! ### The DOE mailbox (R555, R556) -/

/-- SPDM_MESSAGE: what the SPDM and IDE_KM standards make of a message, in the responder's present state, is not in the manual:
the reply, the next state and whether the IDE stream is active are opaque functions of both. Without a session no stream becomes
active (R556). -/
def spdmMessage (msg : List Byte) (s : State) : State :=
  let inp := bytesOf 8 s.hiu.spdm ++ msg
  let ide := (Config.crypto 22 inp).headD 0 != 0
  let s1 : State := { s with hiu := { s.hiu with spdm := numOf (Config.crypto 21 inp) } }
  emit (if s.hiu.spdm = 0 then s1 else fset s1 F.HIU_LINK_STAT_IDE_ON (if ide then 1 else 0)) (.reply (Config.crypto 20 inp))
/-- A message on the DOE mailbox. -/
def execSpdmMessage (msg : List (BitVec 8)) (s : State) : Out := .next (spdmMessage msg s)

/-- The evidence record of R555. -/
def evidence (s : State) (nonce : BitVec 256) : List Byte :=
  bytesOf 32 nonce.toNat ++ bytesOf 8 s.now ++ shaBytes Config.firstStage ++ shaBytes s.prb.image
    ++ bytesOf 2 (fget s F.STK_NBU_STORE_LIB_VERSION) ++ bytesOf 1 variantCode ++ bytesOf 1 Config.steppingFuse
    ++ bytesOf 1 (fget s F.SMC_LIFECYCLE_PRODUCTION + 2 * fget s F.SMC_MGMT_CTL_COMPAT + 4 * fget s F.SMC_TENANCY_MODE
        + (if timingClean s then 8 else 0) + 16 * fget s F.SMC_FENCE_STAT_FENCED)
    ++ bytesOf 1 (fget s F.PRB_ID_FW_FUSED_SVN) ++ bytesOf 1 (fget s F.SMC_MGMT_CTL_Q) ++ bytesOf 1 0
    ++ bytesOf 8 (rpair s .SMC_CFG_EPOCH_LO .SMC_CFG_EPOCH_HI) ++ bytesOf 32 (cfgDigest s).toNat
    ++ shaBytes (managerBytes s)

/-- ATTESTATION_REQUEST: the record, then the certificate chain and the signature by the alias key, both opaque. -/
def attestation (nonce : BitVec 256) (s : State) : State :=
  let r := evidence s nonce
  emit s (.reply (r ++ Config.crypto 23 (bytesOf 32 Config.deviceSecret ++ s.prb.image) ++ Config.crypto 24 (bytesOf 32 Config.deviceSecret ++ s.prb.image ++ r)))
/-- A request for evidence. -/
def execAttestationRequest (nonce : BitVec 256) (s : State) : Out := .next (attestation nonce s)

end Sys2Proof.Machine
end

