-- ==== Sys2Proof/Machine/Resets.lean ====
section
/-!
DEFINITION. Resets (R610 to R613, R646, R647) and what flash brings back after them (R211, R395, R421): the journal, the loss of
stack contents, and the cold, warm and fabric-isolation resets.
-/

namespace Sys2Proof.Machine

open Sys2Proof

/-! ### The journal (R211, R395) -/

/-- A page lies in an index area of its domain. -/
def areaPage (s : State) (k : Nat) : Bool := (areaAt s (pageDom k) (pageAddr k)).isSome
/-- Bytes of the stacks that lie in frames of index areas. -/
def areaCells (s : State) : List Host.Cell :=
  let frames := (s.tir.pages.filter fun p => areaPage s p.1).filterMap fun p => p.2.frame
  s.mem.stk.filter fun c => frames.contains (c.1 / 65536)
/-- Root tables and directories of the installed indexes, with their contents. -/
def indexTables (s : State) : List (Nat × Nat × List Byte) :=
  s.tir.indexes.flatMap fun p =>
    let x := p.2
    [(x.dom, x.root, (uBytes s x.dom x.root (64 * x.lists)).getD []), (x.dom, x.dir, (uBytes s x.dom x.dir (x.dirEnd - x.dir)).getD [])]
/-- What flash holds of the node's structures. -/
def journalOf (s : State) : Journal :=
  { tir := s.tir, doms := s.smc.doms, windows := s.fab.windows, area := areaCells s, tables := indexTables s }
/-- At a reset the journal stands as last written; before step 14 it is still the one of before. -/
def keptJournal (s : State) : Option Journal := if fget s F.PRB_STEP_LAST ≥ 14 then some (journalOf s) else s.prb.journal

/-! ### Loss of the stack contents (R395) -/

/-- What a page still holds: stack homes and index areas keep their frame, copies of a backing are gone. -/
def pageAfterLoss (s : State) (k : Nat) (p : Page) : Page :=
  match pageRegion s k with
  | some (_, r) => if r.cls = 1 && p.home != 2 && p.home != 3 then p else { p with frame := none, present := 0, dirty := 0 }
  | none => if areaPage s k then p else { p with frame := none, present := 0, dirty := 0 }
/-- Regions with a page homed in the stacks: their contents are lost. -/
def lostRegions (s : State) : List Nat :=
  (s.tir.pages.filterMap fun p => match pageRegion s p.1 with
    | some (i, r) => if r.cls = 1 && p.2.home != 2 && p.2.home != 3 && p.2.frame.isSome then some i else none
    | none => none).eraseDups
/-- One byte of a table comes back, where it does not read so already. -/
def restoreByte (s : State) (dom a : Nat) (b : Byte) : State := if uByte s dom a = some (some b) then s else uPut s dom a b
/-- The bytes of a table come back. -/
def restoreBytes (s : State) (dom a : Nat) : List Byte → State
  | [] => s
  | b :: bs => restoreBytes (restoreByte s dom a b) dom (a + 1) bs
/-- PRELOAD regions are filled. -/
def preloadAll (s : State) : State := (s.tir.regions.filter fun p => p.2.preload).foldl (fun s p => (regionPages p.2).foldl fillPage s) s
/-- The stacks read zero; index areas, root tables and directories come back from flash. -/
def restoreStacks (s : State) (j : Journal) : State :=
  let lost := lostRegions s
  let s1 : State := { s with
    mem := { s.mem with stk := j.area, badStk := [] }
    tir := { s.tir with pages := s.tir.pages.map fun p => (p.1, pageAfterLoss s p.1 p.2) } }
  let s2 := j.tables.foldl (fun s t => restoreBytes s t.1 t.2.1 t.2.2) s1
  fadd s2 F.TIR_RGN_COUNT_LOST lost.length

/-! ### Restart of TIR (R182, R211, R593) -/

/-- A region after a restart: a park that had not completed is undone, an unpark too. -/
def regionRestart (r : Region) : Region :=
  { r with removing := false, cmd := 0, park := match r.park with | .parking => .active | .unparking => .parked | q => q }
/-- A batch after a restart: only one that a replica holds in doubt, or knows committed, stays. -/
def batchRestart (v : Batch) : Batch := if v.replica then { v with cmd := none } else { v with phase := .dead, cmd := none }
/-- Fold output of a merge that never swapped is freed. -/
def freeFold (s : State) (k : Nat) (m : MergeRec) : State :=
  let i := k / 2 ^ 24
  let rest := chainFrom s (idx s i).dom 65536 (listRoot s i (k % 2 ^ 24)).head
  ((chainFrom s (idx s i).dom 65536 m.head).take m.newSegs.length).foldl (fun s g => freeSeg s i rest g) s
/-- A merge record after a restart (R211): new once its SWAP record is durable, else old and to be folded from the start. -/
def mergeRestart (s : State) (k : Nat) (m : MergeRec) : State :=
  let s1 := if m.scheduled && !m.swapped && m.jnl ≤ s.tir.jdone then (performSwap s k { m with cmds := [] } s.tir.epoch).getD s else s
  match tfind s1.tir.merges k with
  | none => s1
  | some v =>
    if v.swapped then setMerge s1 k { v with next := 3, last := 2, job := none, cmds := [], recovering := true }
    else
      let s2 := freeFold s1 k v
      if v.hotset then { s2 with tir := { s2.tir with merges := tdel s2.tir.merges k } }
      else setMerge s2 k { cut := v.cut, next := 1, recovering := true }
/-- What TIR held at the reset, from the journal: migrations in progress are gone, what was uncommitted is dropped. -/
def tirFrom (s : State) (j : Journal) : Tir :=
  { j.tir with
    regions := j.tir.regions.map fun p => (p.1, regionRestart p.2)
    pages := j.tir.pages.map fun p => (p.1, { p.2 with mig := none })
    indexes := j.tir.indexes.map fun p => (p.1, { p.2 with removing := false, ovr := p.2.ovrNext.getD p.2.ovr, ovrNext := none })
    batches := j.tir.batches.map fun p => (p.1, batchRestart p.2)
    epoch := j.tir.reserve
    nextCommit := s.now
    idxCmd := none, rgnCmd := none, moves := [] }
/-- A domain after a restart: one that was being released is free. -/
def domRestart (d : Dom) : Dom := if d.state = 2 then { d with state := 0, part := 0 } else d
/-- Step 14 restores what the journal holds (R593); `lost` when the stack contents were lost. -/
def restart (s : State) (j : Journal) (lost : Bool) : State :=
  let s1 : State := { s with
    tir := tirFrom s j
    smc := { s.smc with doms := j.doms.map fun p => (p.1, domRestart p.2), releasing := none }
    fab := { s.fab with windows := j.windows.map fun p => (p.1, { p.2 with removing := false }) } }
  let s2 := if lost then preloadAll (restoreStacks s1 j) else s1
  s2.tir.merges.foldl (fun s p => mergeRestart s p.1 p.2) s2

/-! ### Flash at a reset (R420, R421, R612) -/

/-- A program that never completed: its page resolves to the copy of before (R408, R421); stack copies are dirty again. -/
def undoProg (s : State) (g : Prog) : State :=
  let s1 := flashPut s g.dom (g.lpage * 16384) g.old
  let k := pageKey g.dom (g.lpage * 16384)
  let p := pageOf s1 k
  let s2 := if p.frame.isSome && cached s1 k then
      setPage s1 k { p with dirty := p.dirty ||| (0xFFFF#64 <<< (16 * (g.lpage % 4))) } else s1
  if g.had then s2 else { s2 with fls := { s2.fls with map := tdel s2.fls.map (g.dom * 2 ^ 42 + g.lpage) } }
/-- Every program that has not completed is undone, the newest first. -/
def undoProgs (s : State) : State :=
  let ps := s.fls.luns.flatMap fun p => p.2.progs
  (List.range ps.length).foldl (fun (x : State × List Prog) _ => match leastBy (fun g => 2 ^ 64 - g.seq) x.2 with
    | some g => (undoProg x.1 g, x.2.erase g)
    | none => x) (s, ps) |>.1
/-- Blocks that were open are closed and scheduled for rewrite (R421). -/
def closeBlocks (s : State) : State := (s.fls.blks.filter fun p => p.2.isOpen).foldl (fun s p => schedule s p.1 5) s
/-- The operation in progress at each LUN completes (R612). -/
def settleLuns (s : State) : State :=
  s.fls.luns.foldl (fun s p =>
    let c := p.1 / 256
    let l := p.1 % 256
    let s1 := setLun s c l { lunOf s c l with suspended := false }
    if (lunOf s1 c l).erase.isSome then flashEraseComplete c l true s1 else flashProgramComplete c l true s1) s
/-- What the flash subsystem is until the next discovery: the blocks and the map stay. -/
def flashAfter (f : Fls) : Fls :=
  { blocksPerLun := f.blocksPerLun, pagesPerBlock := f.pagesPerBlock, planes := f.planes, map := f.map, blks := f.blks, seq := f.seq }

/-! ### Cold reset (R610, R611) -/

/-- Tile SRAM regions that a domain has held: what they hold after a reset is not known. -/
def heldTiles (s : State) : List Nat := s.exec.tileDom.map (·.1)
/-- Cold reset with a cause of R613: device time is zero, every register returns to reset; flash, fuses and the fault log stay. -/
def coldReset (cause : Nat) (s : State) : State :=
  let j := keptJournal s
  let f := closeBlocks (undoProgs s)
  let s1 : State :=
    { pending := s.pending, out := s.out, freeCtr := s.freeCtr, nextCmd := s.nextCmd
      mem := { flash := f.mem.flash, host := f.mem.host }
      exec := { tileDom := s.exec.tileDom, tileLost := heldTiles s }
      fls := flashAfter f.fls
      smc := { root := s.smc.root }
      flt := { log := s.flt.log, nextSeq := s.flt.nextSeq }
      prb := { journal := j, prodFuse := s.prb.prodFuse, svnBurn := s.prb.svnBurn } }
  fset (fset s1 F.PRB_RESET_CAUSE cause) F.SMC_LIFECYCLE_PRODUCTION (if s.prb.prodFuse then 1 else 0)

/-! ### Warm reset (R611, R612) -/

/-- Every job ends `ABORTED`, parked and pending ones and system operators too, each with its records. -/
def abortAll (s : State) : State :=
  let s1 := (s.exec.jobs.map (·.1)).foldl (fun s t => finishJob s t stABORTED 0 0) s
  (s1.exec.pend ++ s1.exec.sysops).foldl (fun s p => workRecord s p.dom p.sq p.tag (planOf s p.plan).id p.cookie stABORTED 0 false 0 0 0) s1
/-- Registers that a warm reset keeps, beside the SMC and PRB blocks. -/
def warmRegs : List Reg :=
  [.FAB_NODE, .FAB_MINPORTS, .HIU_APT_BASE_HI, .HIU_APT_BASE_LO, .HIU_APT_DOM, .HIU_APT_SEL, .HIU_PAGE_DOM, .HIU_PAGE_SEL,
   .HIU_DOM_PASID, .HIU_DOM_SEL, .HIU_LINK_STAT]
/-- The register file after a warm reset. -/
def warmFile (regs : Table W32) : Table W32 :=
  regs.filter fun p => p.1 / 65536 ≥ Reg.SMC_CFG_CTL.ctorIdx || warmRegs.any fun r => r.ctorIdx == p.1 / 65536
/-- The logic after a warm reset: step 6 has passed, the node is not fenced, overcast mode is decided afresh (R611, R629). -/
def warmStart (s : State) : State :=
  let s1 := fset (fset s F.PRB_STEP_LAST (min 6 (fget s F.PRB_STEP_LAST))) F.PRB_STEP_CURRENT 6
  let s2 := fset (fset s1 F.PRB_STEP_BUSY 0) F.PRB_STEP_READY 0
  let s3 := fset (fset (fset s2 F.SMC_FENCE_STAT_ARMED 0) F.SMC_FENCE_STAT_FENCED 0) F.SMC_FENCE_STAT_CAUSE 0
  let s4 := fset (fset s3 F.PRB_PWR_STAT_STATE 0) F.PRB_PWR_STAT_P4_BLOCKED 0
  let c := ovcCauses s4 / 4 * 4
  let s5 := fset (fset s4 F.PRB_OVC_STAT_CAUSE c) F.PRB_OVC_STAT_OVERCAST (if c = 0 then 0 else 1)
  fset (fset (fset (countPorts s5) F.SMC_DOM_STAT_BUSY 0) F.PRB_RESET_BUSY 0) F.PRB_RESET_CAUSE 5
/-- Warm reset. -/
def warmReset (s : State) : State :=
  let f := undoProgs (settleLuns (abortAll s))
  let lost := s.prb.stacksLost || fget s F.PRB_PWR_STAT_STATE == 4
  let s2 : State :=
    { pending := s.pending, out := f.out, freeCtr := f.freeCtr, nextCmd := f.nextCmd, now := s.now
      regs := warmFile f.regs
      mem := { stk := if lost then [] else f.mem.stk, flash := f.mem.flash, host := f.mem.host, badStk := if lost then [] else f.mem.badStk }
      exec := { tileDom := s.exec.tileDom, tileLost := heldTiles s }
      hiu := { spdm := s.hiu.spdm }
      fls := flashAfter f.fls
      smc := { f.smc with doms := [], lease := 0, leaseDone := false, releasing := none }
      flt := f.flt
      prb := { f.prb with
        journal := keptJournal f
        stacksLost := lost, restoreDue := lost || s.prb.restoreDue, timeOpen := false, waking := none, run := none, warmWait := false, lastActive := s.now } }
  warmStart s2
/-- A warm reset is asked for: during a brownout it waits for its end (R612). -/
def warmAsked (s : State) : State :=
  if fget s F.PRB_RESET_BUSY = 1 then s
  else if s.prb.brown.isSome then fset { s with prb := { s.prb with warmWait := true } } F.PRB_RESET_BUSY 1
  else warmReset s

/-! ### Fabric isolation (R611) -/

/-- Fabric packets leave the egress queues. -/
def dropFabric (s : State) : State :=
  { s with trf := { s.trf with ports := s.trf.ports.map fun p =>
    (p.1, { p.2 with queues := (p.2.queues.map fun q => (q.1, q.2.filter fun e => e.pkt.isNone)).filter fun q => q.2 != [] }) } }
/-- Fabric isolation: operations are freed, copy trackers and the hold discarded, every port is HELD until RETRY. -/
def isolate (s : State) : State :=
  let s1 := s.fab.ops.foldl (fun s p => match tfind s.fab.ops p.1 with | some o => freeOp p.1 o s | none => s) s
  let s2 := dropFabric { s1 with fab := { s1.fab with copies := [], hold := [] } }
  let s3 : State := { s2 with regs := dropRegs s2.regs [.FAB_PORT_STAT, .FAB_INFLIGHT] }
  let s4 := (List.range 8).foldl (fun s p => portState s p 5 0) s3
  fset s4 F.PRB_RESET_CAUSE 6

/-! ### The rows -/

/-- The reset that a write of `PRB_RESET` asks for (R613): only with CONFIRM 0x5A. -/
def resetCmd (v : W32) (s : State) : State :=
  if bitsOf v.toNat 8 8 != 0x5A then s
  else match bitsOf v.toNat 0 4 with
    | 1 => warmAsked s
    | 2 => if fget s F.PRB_RESET_BUSY = 1 then s else isolate s
    | 3 => coldReset 4 s
    | _ => s
/-- A write of `PRB_RESET` whose KIND is that of its row. -/
def resetWrite (kind : Nat) (v : W32) (s : State) : State :=
  hostReg s .PRB_RESET (.reg .PRB_RESET 0 (if bitsOf v.toNat 0 4 = kind then v else 0)) fun s => if bitsOf v.toNat 0 4 = kind then resetCmd v s else s
/-- WARM_RESET. -/
def execWarmReset (v : W32) (s : State) : Out := .next (resetWrite 1 v s)
/-- FABRIC_ISOLATION_RESET. -/
def execFabricIsolationReset (v : W32) (s : State) : Out := .next (resetWrite 2 v s)
/-- COLD_RESET_COMMAND. -/
def execColdResetCommand (v : W32) (s : State) : Out := .next (resetWrite 3 v s)
/-- PERST: a cold reset at any moment, whatever reset runs (R646). -/
def execPerst (s : State) : Out := .next (coldReset 2 s)
/-- POWER_ON: the fault log is lost too (R619). -/
def powerOn (s : State) : State := let s1 := coldReset 0 s; { s1 with flt := {} }
/-- The part is powered. -/
def execPowerOn (s : State) : Out := .next (powerOn s)
/-- REF100_LOSS: a cold reset, from ready on (R647). -/
def execRef100Loss (s : State) : Out := .next (if fget s F.PRB_STEP_READY = 1 then coldReset 8 s else s)

end Sys2Proof.Machine
end

