-- ==== Sys2Proof/Machine/Bringup.lean ====
section
/-!
DEFINITION. Bring-up and yield (chapter 21): the step sequence, the reconciliation of the yield map, firmware, flash discovery, the
training and test of ports, time sync, the restoration of the configuration, and ready.
-/

namespace Sys2Proof.Machine

open Sys2Proof

/-! ### The yield map (R580, R581) -/

/-- Physical units of a class, units of one of its groups, and how many of a group are enabled (R581). -/
def unitCount (c : Nat) : Nat := match c with | 0 => 1088 | 1 => 136 | 2 => 1040 | 3 => 20 | 4 => 64 | 5 => 16 | _ => 0
def groupSize (c : Nat) : Nat := match c with | 0 => 68 | 1 => 68 | 2 => 130 | 3 => 20 | 4 => 64 | _ => 16
def groupNeed (c : Nat) : Nat := match c with | 0 => 64 | 1 => 64 | 2 => 128 | 3 => 20 | 4 => 64 | _ => 16
/-- Key of a unit. -/
def unitKey (c u : Nat) : Nat := c * 2 ^ 20 + u
/-- The unit failed step 4, and no fuse marks it. -/
def testOnly (s : State) (c u : Nat) : Bool := !Config.badByFuse c u && s.prb.badTest.contains (c, u)
/-- Neither the fuses nor the test mark the unit bad. -/
def goodUnit (s : State) (c u : Nat) : Bool := !Config.badByFuse c u && !s.prb.badTest.contains (c, u)
/-- Units of a class in the group of `u`, ascending. -/
def groupUnits (c u : Nat) : List Nat := (List.range (groupSize c)).map fun i => u / groupSize c * groupSize c + i
/-- Good units of its group below a unit. -/
def unitRank (s : State) (c u : Nat) : Nat := ((groupUnits c u).filter fun k => k < u && goodUnit s c k).length
/-- The unit is one of those that reconciliation enables: the good ones of its group, ascending, up to the enabled count. -/
def reconciled (s : State) (c u : Nat) : Bool := goodUnit s c u && decide (unitRank s c u < groupNeed c)
/-- Logical number of a reconciled unit; that of a cell row is its number within the cluster. -/
def ordinalOf (s : State) (c u : Nat) : Nat := unitRank s c u + if c = 2 then 0 else u / groupSize c * groupNeed c
/-- Logical number of an enabled unit, with the changes that quarantine has made. -/
def logicalOf (s : State) (c u : Nat) : Option Nat :=
  match tfind s.prb.swaps (unitKey c u) with
  | some l => l
  | none => if reconciled s c u then some (ordinalOf s c u) else none
/-- A spare: good, not enabled, never taken in. -/
def isSpare (s : State) (c u : Nat) : Bool := goodUnit s c u && !reconciled s c u && (tfind s.prb.swaps (unitKey c u)).isNone
/-- Units of the classes with spares, by class. -/
def allUnits : List (Nat × Nat) := (List.range 6).flatMap fun c => (List.range (unitCount c)).map fun u => (c, u)
/-- Units of class 6: 17 of SEL, 2 table engines, 64 DMA channels, 20 stack controllers, 8 ports (R21, R581). -/
def otherUnits : Nat := 111
/-- Every class has its enabled count (R7, R580); of the units without spares none is bad, by fuse or by test. -/
def countsMet (s : State) : Bool :=
  ((List.range 6).all fun c => (List.range (unitCount c / groupSize c)).all fun g =>
    decide (groupNeed c ≤ ((groupUnits c (g * groupSize c)).filter (goodUnit s c)).length))
  && (s.prb.badTest.all fun p => p.1 < 6) && (List.range otherUnits).all fun u => !Config.badByFuse 6 u
/-- The counts still hold: no class has become short under quarantine. -/
def countsHold (s : State) : Bool :=
  countsMet s && (s.prb.swaps.filter fun p => p.2.isNone && reconciled s (p.1 / 2 ^ 20) (p.1 % 2 ^ 20)).length
    == (s.prb.swaps.filter fun p => p.2.isSome).length

/-- The die that holds a unit (R581, R584): the manual does not say which one holds a unit of class 6. -/
def unitDie (s : State) (c u : Nat) : Nat :=
  match c with
  | 0 => if u < 544 then 0 else 1
  | 1 => if u < 68 then 0 else 1
  | 2 => if u < 520 then 0 else 1
  | 3 => 3 + u
  | 4 | 5 => 2
  | _ => (freeWord s 0).toNat % 23

/-! ### The step sequence (R573, R574) -/

/-- A step that has passed may be written again while no later one has started. -/
def stepRepeats (n : Nat) : Bool := n == 6 || n == 10 || n == 11 || n == 13
/-- A write of step `n` is accepted. -/
def stepOk (s : State) (n : Nat) : Bool :=
  let last := fget s F.PRB_STEP_LAST
  fget s F.PRB_STEP_BUSY == 0 && !s.prb.dead
    && (n == last + 1 || (n == fget s F.PRB_STEP_CURRENT && n == last && stepRepeats n) || (fget s F.PRB_STEP_READY == 1 && n == 9))
/-- A write of `PRB_STEP` (R574, R577): the step starts, or the write is refused and counted. -/
def stepStart (n : Nat) (start : State → State × StepRun) (s : State) : State :=
  if !stepOk s n then fbump s F.PRB_STEP_STAT_REFUSED
  else
    let (s1, r) := start (fset (fset s F.PRB_STEP_CURRENT n) F.PRB_STEP_BUSY 1)
    { s1 with prb := { s1.prb with run := some r } }
/-- A step completes (R575, R578, R579): status and reason are reported, LAST rises when it passes. -/
def stepDone (s : State) (n st rs value : Nat) : State :=
  let pass := st == stOK || (n == 9 && st == stOVERCAST) || (n == 13 && st == stSHORT)
  let s1 := fset { s with prb := { s.prb with run := none } } F.PRB_STEP_BUSY 0
  let s2 := if pass && n = fget s F.PRB_STEP_LAST + 1 then fset s1 F.PRB_STEP_LAST n else s1
  let s3 := fset (fset s2 F.PRB_STEP_STAT_STATUS st) F.PRB_STEP_STAT_REASON rs
  devEvent s3 0x10 st rs (bytesOf 8 n ++ bytesOf 8 value)

/-! ### Steps 1 to 7 -/

/-- Step 1 (R575, R645, R650). -/
def railsDone (rails ref warm : Bool) (s : State) : State :=
  if !rails then stepDone s 1 stABORTED 0xF1 0 else if !ref then stepDone s 1 stABORTED 0xF2 0
  else if !warm then stepDone s 1 stABORTED 0xF5 0 else stepDone s 1 stOK 0 0
/-- Step 2: the fuses are sensed. -/
def fusesDone (parity : Bool) (s : State) : State :=
  if !parity || Config.variantFuse > 2 then stepDone s 2 stABORTED 0xF3 0
  else
    let s1 := fset (fset s F.PRB_ID_VARIANT variantCode) F.PRB_ID_STEPPING (Config.steppingFuse % 16)
    let s2 := fset (fset s1 F.PRB_PACE_CTL_CEILING paceCeiling) F.PRB_GOV_CEIL_W powerCeiling
    stepDone (fset s2 F.PRB_ID_FW_FUSED_SVN (max Config.fusedSvn s.prb.svnBurn)) 2 stOK 0 0
/-- Step 3 (R552): after its failure no step is accepted until cold reset. -/
def firstStageDone (ok : Bool) (s : State) : State :=
  if ok then stepDone s 3 stOK 0 0 else stepDone { s with prb := { s.prb with dead := true } } 3 stABORTED 0xF4 0
/-- Step 4: the units that failed their test. -/
def bistDone (bad : List (Nat × Nat)) (s : State) : State := stepDone { s with prb := { s.prb with badTest := bad.eraseDups } } 4 stOK 0 0
/-- The reports on one unit bad by test only (R582, R622). -/
def reportUnit (s : State) (c u : Nat) : State :=
  let s1 := faultRec (freeNext s) { block := 16, kind := 6, die := unitDie s c u, cls := c, inst := u }
  devEvent s1 0x09 0 0 (bytesOf 1 16 ++ bytesOf 1 6 ++ bytesOf 2 0 ++ bytesOf 4 (newestFault s1) ++ bytesOf 4 u)
/-- Step 5 (R580 to R582). -/
def ymapDone (s : State) : State :=
  let bad := s.prb.badTest.filter fun p => testOnly s p.1 p.2
  let spares := (allUnits.filter fun p => isSpare s p.1 p.2).length
  let s1 := bad.foldl (fun s p => reportUnit s p.1 p.2) s
  if countsMet s then stepDone s1 5 stOK 0 (bad.length % 65536 + 65536 * (spares % 65536))
  else stepDone s1 5 stABORTED 0xF6 (bad.length % 65536 + 65536 * (spares % 65536))

/-- Bytes of a header and of a signature (R553). -/
def imageMin : Nat := 128 + 29792
/-- The first check that an image fails, as a reason; 0 when it passes (R553, R575). -/
def imageCheck (s : State) (img : List Byte) (verifies : Bool) : Nat :=
  if fieldOf img 0 4 != 1 || fieldOf img 4 1 > 64 || fieldOf img 5 1 > 1 || fieldOf img 6 2 != 0 || fieldOf img 0x50 48 != 0
      || fieldOf img 8 8 != img.length || img.length < imageMin || img.length > 2 ^ 26 then 0xE7
  else if (Config.shake256 ((img.drop 0x10).take 64)).toNat != Config.keyDigest then 0xE8
  else if !verifies then 0xE9
  else if fieldOf img 4 1 < fget s F.PRB_ID_FW_FUSED_SVN then 0xEA
  else 0
/-- Step 6 (R553, R575, R576, R585): the image is read without a PASID. -/
def imageDone (addr len : Nat) (verifies : Bool) (busError : Option Nat) (s : State) : State :=
  if addr % 4096 != 0 then stepDone s 6 stBAD_OPERATOR 0xE7 0
  else
    let s1 := emit s (.hostRead none addr len)
    match busError with
    | some e =>
      let s2 := fset (fset (freeNext s1) F.DMA_ERR_CHANNEL (freeWord s1 0).toNat) F.DMA_ERR_INDEX (freeWord s1 1).toNat
      let s3 := fset (fset (fset s2 F.DMA_ERR_VALID 1) F.DMA_ERR_ADDR_LO_V e) F.DMA_ERR_ADDR_HI_V (e / 2 ^ 32)
      stepDone s3 6 stDMA_ERR 0 e
    | none =>
      let img := hostRead s1 addr len
      let rs := imageCheck s1 img verifies
      if rs != 0 then stepDone s1 6 stBAD_OPERATOR rs 0
      else
        let svn := fieldOf img 4 1
        let burn := fieldOf img 5 1 = 1 && decide (fget s1 F.PRB_ID_FW_FUSED_SVN < svn)
        let s2 : State := { s1 with prb := { s1.prb with image := img, svnBurn := if burn then svn else s1.prb.svnBurn } }
        let s3 := if burn then fset s2 F.PRB_ID_FW_FUSED_SVN svn else s2
        stepDone (fset (fset s3 F.PRB_ID_FW_IMAGE_SVN svn) F.PRB_ID_FW_IMAGE_VALID 1) 6 stOK 0 0
/-- Step 7 (R586): the library goes to entries 0x00 to 0x9F of every NBU store, the rest is free. -/
def broadcastDone (ok : Bool) (s : State) : State :=
  if !ok then stepDone s 7 stABORTED 0xF7 0
  else
    let lib := (List.range 0xA0).foldl (fun (t : Table W32) i => tput 0 t i (Config.library s.prb.image i)) []
    let s1 : State := { s with stk := { s.stk with store := lib } }
    stepDone ((List.range 20).foldl (fun s k => fset s F.STK_NBU_STORE_LIB_VERSION (Config.libVersion s.prb.image).toNat k) s1) 7 stOK 0 0

/-! ### Steps 8 and 9 -/

/-- Step 8 (R587, R618): trained stacks are in service again, and read zero when their contents were lost. -/
def trainingDone (bad : List Nat) (s : State) : State :=
  if bad.any fun k => k < 20 then stepDone s 8 stMEDIA_ERROR 0xF8 0
  else
    let s1 : State := { s with
      mem := { s.mem with stk := if s.prb.stacksLost then [] else s.mem.stk, badStk := if s.prb.stacksLost then [] else s.mem.badStk }
      flt := { s.flt with stacksOut := [] }
      prb := { s.prb with stacksLost := false } }
    stepDone s1 8 stOK 0 0

/-- `FLS_GEOM` of a part (R423). -/
def geomWord (p : FlashPart) : W32 :=
  let b := fun (x : Bool) => if x then 1 else 0
  BitVec.ofNat 32 (p.targets % 16 + p.luns % 64 * 2 ^ 4 + (if p.planes = 4 then 2 else if p.planes = 2 then 1 else 0) * 2 ^ 10
    + b p.mpRead * 2 ^ 12 + b p.mpProg * 2 ^ 13 + b p.suspend * 2 ^ 14 + b p.vccqLow * 2 ^ 15 + p.rate % 4096 * 2 ^ 16)
/-- Good blocks of a channel outside the system area. -/
def goodBlocks (s : State) (p : FlashPart) (c : Nat) : Nat :=
  ((List.range p.luns).map fun l => ((List.range p.blocksPerLun).filter fun b =>
    let k := c * 2 ^ 40 + l * 2 ^ 32 + b
    !p.unusable.contains k && !(blkOf s k).retired).length).foldl (· + ·) 0
/-- Channels come into service: their unusable blocks are set aside, the usable capacity grows (R409). -/
def admitChannels (s : State) (p : FlashPart) (l : List Nat) : State :=
  let good := (l.map (goodBlocks s p)).foldl (· + ·) 0
  let s1 := (p.unusable.filter fun b => l.contains (blkChan b)).foldl (fun s b => setBlk s b { blkOf s b with retired := true }) s
  { s1 with fls := { s1.fls with inService := s1.fls.inService ++ l, capacity := s1.fls.capacity + good * p.pagesPerBlock * 15 / 16 } }
/-- The first discovery creates the media root and an empty journal (R558, R593). -/
def firstDiscovery (s : State) : State :=
  let s1 : State := if s.smc.root.isSome then s else
    freeNext { s with smc := { s.smc with root := some ((freeWord s 0 ++ freeWord s 1 ++ freeWord s 2 ++ freeWord s 3).setWidth 256) } }
  if s1.prb.journal.isSome then s1 else { s1 with prb := { s1.prb with journal := some {} } }
/-- Step 9 (R15, R402, R404, R575, R588): after ready it admits channels that are held out, and touches no other. -/
def discoveryDone (p : FlashPart) (bad : List Nat) (s : State) : State :=
  let later := fget s F.PRB_STEP_READY = 1
  let tried := (List.range 64).filter fun c => !s.fls.inService.contains c
  let s1 := if later then s else
    rset { s with fls := { s.fls with
      inService := [], capacity := 0, retired := 0, blocksPerLun := p.blocksPerLun, pagesPerBlock := p.pagesPerBlock, planes := p.planes } }
      .FLS_GEOM 0 (geomWord p)
  let s2 := admitChannels s1 p (tried.filter fun c => !bad.contains c)
  let s3 := (tried.filter fun c => bad.contains c).foldl (fun s c => unitFault s 7 0x0B 0 0 c) s2
  let s4 := if later then s3 else firstDiscovery s3
  let n := s4.fls.inService.length
  if flashLost s4 then stepDone (ovcSet s4 0) 9 stOVERCAST 0xF9 n
  else stepDone (ovcClear s4 0) 9 stOK 0 n

/-! ### Steps 10 to 13 -/

/-- Step 10 starts (R589): every port that HOLD does not hold trains, unless it carries a link. -/
def portsStart (s : State) : State × StepRun :=
  let go := fun (p : Nat) => (fget s F.FAB_PORT_STAT_STATE p == 0 || fget s F.FAB_PORT_STAT_STATE p == 5) && !(linkOf s p).held
  (if (myNode s).isNone then s else ((List.range 8).filter go).foldl (fun s p => portTrain s p true) s, .ports s.now)
/-- Ports in a state. -/
def portsIn (s : State) (st : Nat) : List Nat := (List.range 8).filter fun p => fget s F.FAB_PORT_STAT_STATE p == st
/-- Step 10 ends once no port is TRAINING; one with no link after 200 ms is held. -/
def portsDone (start : Nat) (s : State) : State :=
  if (myNode s).isNone then stepDone s 10 stBAD_OPERATOR 0xFA 0
  else
    let s1 := if s.now ≥ start + 200000000 then (portsIn s 1).foldl (fun s p => portState s p 5 0) s else s
    if portsIn s1 1 != [] then s else stepDone s1 10 stOK 0 0
/-- Step 11 starts: the test of every port in QUALIFYING begins anew. -/
def lanesStart (s : State) : State × StepRun :=
  ((portsIn s 2).foldl (fun s p => setLink s p { linkOf s p with spoiled := false }) s, .lanes false)
/-- Step 11 ends once every port has its result, or a brownout has discarded the results (R590, R591). -/
def lanesDone (warned : Bool) (s : State) : State :=
  let n := fget (countPorts s) F.FAB_MINPORTS_COUNT
  if warned then stepDone s 11 stABORTED 0xFC n
  else if portsIn s 2 != [] then s
  else if n < minPorts s then stepDone s 11 stABORTED 0xFB n
  else stepDone s 11 stOK 0 n
/-- Step 12: from its passing on BAR2, BAR4, MSI-X and submission intake are open. -/
def pcieDone (s : State) : State := stepDone s 12 stOK 0 (fget s F.HIU_LINK_STAT_SPEED + 256 * fget s F.HIU_LINK_STAT_WIDTH)

/-- Time limit of step 13 in ns (R576). -/
def syncLimit (s : State) : Nat := (let t := bitsOf (rget s .PRB_STEP_ARG2 0).toNat 8 8; if t = 0 then 10 else t) * 1000000000
/-- Step 13 starts (R43, R592): after a cold reset HOSTSET sets device time at the write, or a grandmaster already heard does. -/
def timeStart (s : State) : State × StepRun :=
  if bitAt (rget s .PRB_STEP_ARG2 0).toNat 0 && s.prb.timeOpen then
    (setTime s (rpair s .PRB_STEP_ARG0 .PRB_STEP_ARG1), .time true 0)
  else
    let act := fget s F.SMC_PTP_STAT_ACTIVE
    let s1 := if s.prb.timeOpen && act != 0 then setFromMaster s (act == 2) else s
    (s1, .time false (s1.now + syncLimit s1))
/-- Step 13 ends with SYNC, or at its time limit. From then on device time is never set (R43). -/
def timeDone (set : Bool) (due : Nat) (s : State) : State :=
  let s1 : State := { s with prb := { s.prb with timeOpen := false } }
  let off := ((rget s .SMC_PTP_OFFSET 0).signExtend 64).toNat
  if set then stepDone s1 13 stOK 0 0
  else if fget s F.SMC_PTP_STAT_SYNC = 1 then stepDone s1 13 stOK 0 off
  else if s.now < due then s
  else stepDone s1 13 stSHORT 0xFD off

/-! ### Steps 14 and 15 -/

/-- Step 14 (R593): the journal is replayed; with no copy readable, FORMAT starts an empty one. -/
def configDone (format readable : Bool) (records : Nat) (s : State) : State :=
  let go := fun (j : Journal) (n : Nat) =>
    stepDone (restart { s with prb := { s.prb with journal := some j, restoreDue := false } } j s.prb.restoreDue) 14 stOK 0 n
  match readable, s.prb.journal with
  | true, some j => go j records
  | _, _ => if format then go {} 0 else stepDone s 14 stMEDIA_ERROR 0xFE 0
/-- Step 15 (R594, R662): intake opens, group commits start; a part in production locks its registers. -/
def readyDone (s : State) : State :=
  if !countsHold s then stepDone s 15 stABORTED 0xF6 0
  else if fget (countPorts s) F.FAB_MINPORTS_BELOW = 1 then stepDone s 15 stABORTED 0xFB 0
  else
    let s1 := fset s F.PRB_STEP_READY 1
    let s2 := if fget s F.SMC_LIFECYCLE_PRODUCTION = 1 then fset s1 F.SMC_LIFECYCLE_LOCKED 1 else s1
    stepDone { s2 with tir := { s2.tir with nextCommit := s2.now }, prb := { s2.prb with lastActive := s2.now } } 15 stOK 0 0

/-- STEP_COMPLETE: the step in progress ends, once it can. -/
def stepComplete (s : State) : State :=
  match s.prb.run with
  | none => s
  | some r => match r with
    | .rails a b c => railsDone a b c s
    | .fuses p => fusesDone p s
    | .firstStage ok => firstStageDone ok s
    | .bist l => bistDone l s
    | .ymap => ymapDone s
    | .image a n v e => imageDone a n v e s
    | .broadcast ok => broadcastDone ok s
    | .training l => trainingDone l s
    | .discovery p l => discoveryDone p l s
    | .ports t => portsDone t s
    | .lanes w => lanesDone w s
    | .pcie => pcieDone s
    | .time b t => timeDone b t s
    | .config f r n => configDone f r n s
    | .ready => readyDone s

/-! ### The rows -/

/-- How step `n` starts where `run` gives what surrounds the part: the argument registers are read, step 6 first clears VALID of `DMA_ERR`
(R575, R576), the ports train, are tested, or time is set. -/
def stepGo (n : Nat) (run : StepRun) (s : State) : State × StepRun :=
  match n, run with
  | 6, .image _ _ verifies busError =>
    (dmaRestart s, .image (rpair s .PRB_STEP_ARG0 .PRB_STEP_ARG1) (rget s .PRB_STEP_ARG2 0).toNat verifies busError)
  | 10, _ => portsStart s
  | 11, _ => lanesStart s
  | 13, _ => timeStart s
  | 14, .config _ readable records => (s, .config (bitAt (rget s .PRB_STEP_ARG2 0).toNat 0) readable records)
  | _, r => (s, r)
/-- A host write of step `n`. -/
def stepWrite (n : Nat) (run : StepRun) (s : State) : State := hostReg s .PRB_STEP (.step n run) (stepStart n (stepGo n run))
/-- Step 1. -/
def execRailsAndReference (rails ref warm : Bool) (s : State) : Out := .next (stepWrite 1 (.rails rails ref warm) s)
/-- Step 2. -/
def execFuseLoad (parity : Bool) (s : State) : Out := .next (stepWrite 2 (.fuses parity) s)
/-- Step 3. -/
def execFirstStageVerification (ok : Bool) (s : State) : Out := .next (stepWrite 3 (.firstStage ok) s)
/-- Step 4. -/
def execUnitBist (bad : List (Nat × Nat)) (s : State) : Out := .next (stepWrite 4 (.bist bad) s)
/-- Step 5. -/
def execYieldMapReconciliation (s : State) : Out := .next (stepWrite 5 .ymap s)
/-- Step 6. -/
def execFirmwareImageLoad (verifies : Bool) (busError : Option Nat) (s : State) : Out := .next (stepWrite 6 (.image 0 0 verifies busError) s)
/-- Step 7. -/
def execFirmwareBroadcast (ok : Bool) (s : State) : Out := .next (stepWrite 7 (.broadcast ok) s)
/-- Step 8. -/
def execStackTraining (bad : List Nat) (s : State) : Out := .next (stepWrite 8 (.training bad) s)
/-- Step 9. -/
def execFlashDiscovery (part : FlashPart) (bad : List Nat) (s : State) : Out := .next (stepWrite 9 (.discovery part bad) s)
/-- Step 10. -/
def execFabricTraining (s : State) : Out := .next (stepWrite 10 (.ports 0) s)
/-- Step 11. -/
def execLinkQualification (s : State) : Out := .next (stepWrite 11 (.lanes false) s)
/-- Step 12. -/
def execFullPcieFunction (s : State) : Out := .next (stepWrite 12 .pcie s)
/-- Step 13. -/
def execTimeSync (s : State) : Out := .next (stepWrite 13 (.time false 0) s)
/-- Step 14. -/
def execConfigurationLoad (readable : Bool) (records : Nat) (s : State) : Out := .next (stepWrite 14 (.config false readable records) s)
/-- Step 15. -/
def execReady (s : State) : Out := .next (stepWrite 15 .ready s)
/-- The end of a step. -/
def execStepComplete (s : State) : Out := .next (stepComplete s)

end Sys2Proof.Machine
end

