-- ==== Sys2Proof/Machine/NearBank.lean ====
section
/-!
DEFINITION. The near-bank units (R243 to R269): the start of RANK commands, every micro-op, yield points, refresh, the
watchdog, and the result words of a stack.
-/

namespace Sys2Proof.Machine

open Sys2Proof

/-! ### Columns and registers -/

/-- Register nI. -/
def nReg (n : Nbu) (i : Nat) : W256 := tget 0 n.n i
/-- The unit with register nI written. -/
def setN (n : Nbu) (i : Nat) (v : W256) : Nbu := { n with n := tput 0 n.n i v }
/-- Parameter word. -/
def pReg (n : Nbu) (i : Nat) : W32 := tget 0 n.p i
/-- The unit with a parameter word written. -/
def setP (n : Nbu) (i : Nat) (v : W32) : Nbu := { n with p := tput 0 n.p i v }
/-- Lane `j` of `w` bits of a register. -/
def laneAt (v : W256) (w j : Nat) : Nat := bitsOf v.toNat (w * j) w
/-- The register with a 32-bit lane written. -/
def setLane32 (v : W256) (j : Nat) (x : W32) : W256 := BitVec.ofNat 256 (putBits v.toNat (32 * j) 32 x.toNat)
/-- Partial lane `k` (R243). -/
def pLane (n : Nbu) (k : Nat) : W32 := BitVec.ofNat 32 (laneAt (nReg n (8 + k / 8)) 32 (k % 8))
/-- The unit with a partial lane written. -/
def setPLane (n : Nbu) (k : Nat) (x : W32) : Nbu := setN n (8 + k / 8) (setLane32 (nReg n (8 + k / 8)) (k % 8) x)
/-- The partial lane that p6 names. -/
def p6Lane (n : Nbu) : Nat := (pReg n 6).toNat % 64
/-- Physical address of a column (R244). -/
def colAddr (bank c : Nat) : Nat := bank * 2 ^ 27 + c % 2 ^ 22 * 32
/-- The column that a micro-op names: pP plus a signed offset of `w` bits, modulo 2^22 (R246). -/
def mopCol (n : Nbu) (m : Mop) (w : Nat) : Nat :=
  ((((pReg n m.p.toNat).toNat : Int) + signedOf w m.imm.toNat) % 2 ^ 22).toNat
/-- A column as the NBU reads it: the write buffer's newest value, else the bank's; none when a word is uncorrectable (R249, R259). -/
def readCol (s : State) (bank : Nat) (n : Nbu) (c : Nat) : Option W256 :=
  match n.wbuf.reverse.find? fun p => p.1 == c with
  | some p => some p.2
  | none => if stkBad s (colAddr bank c) 32 then none else some (BitVec.ofNat 256 (numOf (stkBytes s (colAddr bank c) 32)))

/-! ### The arithmetic (R248) -/

/-- Accumulator lane `j`. -/
def accLane (n : Nbu) (j : Nat) : BitVec 48 := tget 0 n.acc j
/-- A lane after adding a product that is exact: fp32 in bf16 mode, 48 bits modulo 2^48 in int16 mode. -/
def accAdd (int16 : Bool) (old : BitVec 48) (prodF : Fv) (prodI : Int) : BitVec 48 :=
  if int16 then old + BitVec.ofInt 48 prodI
  else (to32z (fvAdd (fp32z (old.setWidth 32)) prodF)).setWidth 48
/-- The unit with every accumulator lane raised by its product. -/
def accAll (n : Nbu) (f : Nat → Fv) (i : Nat → Int) : Nbu :=
  (List.range 16).foldl (fun n j => { n with acc := tput 0 n.acc j (accAdd n.int16 (accLane n j) (f j) (i j)) }) n
/-- MAC and MACR: 0 nA x X, 1 X x X, 2 (nA - X)^2. -/
def macUpdate (n : Nbu) (kind : Nat) (a x : W256) : Nbu :=
  let fa := fun j => bf16z (laneAt a 16 j)
  let fx := fun j => bf16z (laneAt x 16 j)
  let ia := fun j => signedOf 16 (laneAt a 16 j)
  let ix := fun j => signedOf 16 (laneAt x 16 j)
  match kind with
  | 0 => accAll n (fun j => fvMul (fa j) (fx j)) fun j => ia j * ix j
  | 1 => accAll n (fun j => fvMul (fx j) (fx j)) fun j => ix j * ix j
  | _ => accAll n (fun j => fvMul (fvSub (fa j) (fx j)) (fvSub (fa j) (fx j))) fun j => (ia j - ix j) * (ia j - ix j)
/-- The sum of the accumulator's lanes as fp32. -/
def accSum (n : Nbu) : W32 :=
  if n.int16 then to32 (fvInt ((List.range 16).foldl (fun z j => z + signedOf 48 (accLane n j).toNat) 0) 0)
  else to32 (fvSum ((List.range 16).map fun j => fp32 ((accLane n j).setWidth 32)))
/-- The scale of the block that p7 names; none when it is no valid scale (R248). -/
def blockScale (n : Nbu) : Option Fv :=
  let k := (pReg n 7).toNat
  if n.fp16 then match decodeFp fmt16 (laneAt n.sb 16 (k % 16)) with
    | .fin g m e => some (.fin g m e)
    | _ => none
  else match e8m0 (laneAt n.sb 8 (k % 32)) with
    | .fin g m e => some (.fin g m e)
    | _ => none
/-- Close of a block (R248): scaled sum into the partial lane, ACC cleared, p7 raised. -/
def closeBlock (n : Nbu) (sq : Bool) : Nbu :=
  let k := p6Lane n
  let v := match blockScale n with
    | none => nan32
    | some sc => add32 (pLane n k) (to32 (fvMul (fp32 (accSum n)) (if sq then fvMul sc sc else sc)))
  setP (setPLane { n with acc := [] } k v) 7 (pReg n 7 + 1)
/-- MQZ on the codes of one half (R248). -/
def mqzUpdate (n : Nbu) (a : W256) (h sq : Bool) : Nbu :=
  let z := laneAt n.zb 8 ((pReg n 7).toNat % 32)
  let d := fun j => ((laneAt n.cb 8 (j + if h then 16 else 0) : Int) - z)
  let fa := fun j => bf16z (laneAt a 16 j)
  if sq then accAll n (fun j => fvMul (fvInt (d j) 0) (fvInt (d j) 0)) fun j => d j * d j
  else accAll n (fun j => fvMul (fvInt (d j) 0) (fa j)) fun j => d j * signedOf 16 (laneAt a 16 j)
/-- One lane of FOP. A minimum or maximum of a NaN is a value the manual does not state. -/
def fopLane (op : Nat) (a b : W32) : W32 :=
  match op with
  | 0 => add32 a b
  | 1 => to32 (fvSub (fp32 a) (fp32 b))
  | 2 => mul32 a b
  | 3 => if isNan32 a || isNan32 b then Config.fpFunction 3 (a.toNat * 2 ^ 32 + b.toNat) else if fvLt (fp32 b) (fp32 a) then b else a
  | 4 => if isNan32 a || isNan32 b then Config.fpFunction 4 (a.toNat * 2 ^ 32 + b.toNat) else if fvLt (fp32 a) (fp32 b) then b else a
  | _ => b
/-- FOP over the eight lanes. -/
def fop (op : Nat) (bcast : Bool) (l : Nat) (a b : W256) : W256 :=
  (List.range 8).foldl (fun v j => setLane32 v j (fopLane op (BitVec.ofNat 32 (laneAt a 32 j))
    (BitVec.ofNat 32 (laneAt b 32 (if bcast then l else j))))) 0

/-! ### RANK commands at a stack -/

/-- RANK command by serial number. -/
def rankOf (s : State) (i : Nat) : Option RankCmd := tfind s.stk.ranks i
/-- The state with a RANK command stored. -/
def setRank (s : State) (i : Nat) (r : RankCmd) : State := { s with stk := { s.stk with ranks := tins s.stk.ranks i r } }
/-- Rank of a status in the order of R258. -/
def rankPrio (st : Nat) : Nat := if st = stUNCORRECTABLE then 3 else if st = stMEDIA_ERROR then 2 else if st = stABORTED then 1 else 0
/-- A RANK command takes a status if it comes first in the order of R258. -/
def rankNote (r : RankCmd) (status reason : Nat) : RankCmd :=
  if rankPrio r.status < rankPrio status then { r with status := status, reason := reason } else r
/-- A bank of a RANK command stops early with a status. -/
def rankStop (s : State) (i bank status reason : Nat) : State :=
  match rankOf s i with
  | none => s
  | some r => if !r.left.contains bank then s
    else setRank s i { rankNote r status reason with left := r.left.filter fun b => b != bank, stopped := r.stopped + 1 }
/-- A bank of a RANK command has ended its program. -/
def rankEnd (s : State) (i bank : Nat) : State :=
  match rankOf s i with
  | none => s
  | some r => setRank s i { r with left := r.left.filter fun b => b != bank }

/-- Library entry points (R253). -/
def libraryOp (op : Nat) : Bool := op ≤ 5 || op == 8 || op == 9
/-- The entry point of an OP, its region of the store, if it names one (R252). -/
def rankEntry (s : State) (j : Job) (op : Nat) : Option (Nat × Nat × Nat) :=
  let pl := planOf s j.plan
  if op < 0xA0 then (if libraryOp op then some (op, 0, 0xA0) else none)
  else if op - 0xA0 < pl.micro.length then some (pl.run + (op - 0xA0), pl.run, pl.run + pl.micro.length) else none

/-- A command begins in a bank (R255): query columns, parameters, registers and mode. -/
def startBank (s : State) (i : Nat) (r : RankCmd) (entry lo hi bank : Nat) : State :=
  let d := r.tok.desc
  let p1 := laneBits d 0 32 32
  let cols := r.query.length / 32
  let s1 := (List.range cols).foldl (fun s k => stkWrite s (colAddr bank (p1 + k)) ((r.query.drop (32 * k)).take 32)) s
  let n := nbuOf s1 bank
  let pv : Table W32 := [(0, laneBits d 0 0 32), (1, p1), (2, laneBits d 1 0 32), (3, laneBits d 1 32 16)].foldl
    (fun t p => tput 0 t p.1 (BitVec.ofNat 32 p.2)) []
  setNbu s1 bank { queue := n.queue.drop 1, owed := n.owed, recalled := n.recalled, p := pv, pc := BitVec.ofNat 8 entry
                   cmd := some i, lo := lo, hi := hi }

/-- The next queued command of an idle bank begins, if its query stands in the operand buffer (R255). A quarantined NBU
runs no program (R627). -/
def beginNext (s : State) (bank : Nat) : State :=
  let n := nbuOf s bank
  match n.cmd, n.queue with
  | none, i :: _ => match rankOf s i with
    | none => s
    | some r =>
      if !r.started then s
      else match jobOf s r.tok.job with
        | none => s
        | some j => match rankEntry s j r.tok.op.toNat with
          | none => s
          | some (e, lo, hi) => startBank s i r e lo hi bank
  | _, _ => s

/-- Bytes of query that started commands of a stack hold in its operand buffer. -/
def operandUsed (s : State) (stack : Nat) : Nat :=
  s.stk.ranks.foldl (fun k p => if p.2.stack = stack && p.2.started then k + p.2.query.length else k) 0

/-- A RANK command that stops before any bank is touched: its banks' queues lose it. -/
def rankRefuse (s : State) (i : Nat) (r : RankCmd) (status reason stopped : Nat) : State :=
  let s1 := r.banks.foldl (fun s b => setNbu s b { nbuOf s b with queue := (nbuOf s b).queue.filter fun k => k != i }) s
  setRank s1 i { r with started := true, left := [], status := status, reason := reason, stopped := stopped, query := [] }

/-- RANK_COMMAND: the checks of R255 on the oldest command of the stack that has not started, and its start. -/
def rankStart (s : State) (i : Nat) (r : RankCmd) : State :=
  let tag := r.tok.job
  let d := r.tok.desc
  let qn := 32 * laneBits d 1 52 9
  match jobOf s tag with
  | none => s
  | some j =>
    match rankEntry s j r.tok.op.toNat with
    | none => rankRefuse s i r stBAD_OPERATOR 0x42 0
    | some _ =>
      if laneBits d 1 52 9 > 256 then rankRefuse s i r stBAD_OPERATOR 0x44 0
      else if r.banks.any fun b => ownerOf s 0 b != .nbu tag && ownerOf s 0 b != .job tag then violation s tag 0 (r.banks.headD 0)
      else match (if hasResult d then writable s j.dom (resAddr d + 8 * r.word) 8 0 (r.banks.headD 0) else Except.ok ()),
          jobInst s tag 4 (laneBits d 1 48 4) with
        | .error (.bad a), _ => badAddress s tag a
        | .error _, _ => violation s tag 0 (r.banks.headD 0)
        | _, .error _ => violation s tag 4 (laneBits d 1 48 4)
        | .ok _, .ok lane => match laneShare s tag lane with
          | .error (.violates c k) => violation s tag c k
          | .error _ => s
          | .ok share =>
            if s.flt.stacksOut.contains r.stack then rankRefuse s i r stMEDIA_ERROR 0x45 r.banks.length
            else if operandUsed s r.stack + qn > 65536 then s
            else match uRead s j.dom (laneBits d 2 0 56) qn with
              | .outside => badAddress s tag (laneBits d 2 0 56)
              | .ue => ueJob s tag (uWhere s j.dom (laneBits d 2 0 56) qn)
              | .ok q =>
                let back := r.banks.filter fun b => ownerOf s 0 b != .nbu tag || !(nbuOf s b).queue.contains i
                let bad := r.banks.filter fun b => !back.contains b && quarantined s 1 b
                let ok := r.banks.filter fun b => !back.contains b && !bad.contains b
                let r1 := { r with started := true, left := ok, query := q, share := share, stopped := back.length + bad.length }
                let r2 := if back = [] then r1 else rankNote r1 stABORTED 0x46
                let r3 := if bad = [] then r2 else rankNote r2 stMEDIA_ERROR 0x49
                let s1 := setRank (if qn = 0 then s else useRange s j.dom (laneBits d 2 0 56) qn) i r3
                let s2 := (back ++ bad).foldl (fun s b => setNbu s b { nbuOf s b with queue := (nbuOf s b).queue.filter fun k => k != i }) s1
                ok.foldl beginNext s2

/-- RANK_COMMAND. -/
def rankCommand (stack : Nat) (s : State) : State :=
  match s.stk.ranks.find? fun p => p.2.stack == stack && !p.2.started with
  | some (i, r) => rankStart s i r
  | none => s

/-! ### Micro-ops -/

/-- What a micro-op comes to: the next state of the unit, an uncorrectable word, or a micro-op fault. -/
inductive MicroOut
  | ok (n : Nbu)
  | ue
  | fault
deriving DecidableEq, Repr

/-- The unit after its program has been discarded: registers and buffers at their reset values (R69, R250). -/
def nbuClear (n : Nbu) : Nbu := { queue := n.queue, owed := n.owed }

/-- A stopped NBU hands its bank on: to free or to the job where that was pending (R261, R265). -/
def settleOwner (s : State) (bank recalled : Nat) : State :=
  match recalled, ownerOf s 0 bank with
  | 1, .nbu t =>
    let s1 := setOwner (setNbu s bank { nbuOf s bank with recalled := 0, queue := [] }) 0 bank (.job t)
    match jobOf s1 t with
    | none => s1
    | some j => ((List.range 8).filter fun k => tokHold (tokOf j k) == 3 || tokHold (tokOf j k) == 1).foldl (fun s k => recallDone s t k) s1
  | 2, .nbu _ => setOwner (setNbu s bank { nbuOf s bank with recalled := 0, queue := [] }) 0 bank .free
  | _, _ => setNbu s bank { nbuOf s bank with recalled := 0 }

/-- A program is aborted with its job (R69, R250): NBU cleared, fault record of the kind, job `ABORTED`. -/
def abortNbu (s : State) (bank i kind info : Nat) : State :=
  let n := nbuOf s bank
  let s1 := settleOwner (rankStop (setNbu s bank (nbuClear n)) i bank stABORTED 0) bank n.recalled
  match rankOf s i with
  | none => s1
  | some r =>
    let s2 := faultRec s1 { block := 5, kind := kind, status := stABORTED, cls := 0, inst := bank, planId := jobPlanId s1 r.tok.job
                            dom := r.tok.dom, tag := r.tok.job, pc := n.pc.toNat, die := dieOf 1 bank, info := info }
    finishJob s2 r.tok.job stABORTED 0 (newestFault s2)

/-- An uncorrectable word stops the program (R259): write buffer discarded, emits released, fault record. The bank stops early. -/
def ueNbu (s : State) (bank i : Nat) (addr : Nat) : State :=
  let n := nbuOf s bank
  let s1 := setNbu s bank { n with wbuf := [], yielding := true, ending := true, early := true }
  let s2 := match rankOf s1 i with
    | some r => setRank s1 i (rankNote r stUNCORRECTABLE 0x47)
    | none => s1
  let s3 := faultRec s2 { block := 5, kind := 4, status := stUNCORRECTABLE, reason := 0x47, cls := 0, inst := bank, pc := n.pc.toNat
                          die := dieOf 1 bank, addr := addr
                          planId := (match rankOf s2 i with | some r => jobPlanId s2 r.tok.job | none => 0)
                          tag := (match rankOf s2 i with | some r => r.tok.job | none => 0)
                          dom := (match rankOf s2 i with | some r => r.tok.dom | none => 0) }
  fbump (fbump s3 F.STK_NBU_STAT_NBU_UE (bank / 1024)) F.STK_ECC_STAT_UE (bank / 1024)

/-- The word a micro-op row spells. -/
def mopWord (op : Nat) (m : Mop) : Nat :=
  op * 2 ^ 27 + m.d.toNat * 2 ^ 23 + m.a.toNat * 2 ^ 19 + m.p.toNat * 2 ^ 16 + m.imm.toNat

/-- The program of a bank runs: a command, no wait at a yield point, refresh within its budget, below the watchdog (R68, R69). -/
def nbuActive (n : Nbu) : Bool := nbuRunning n && !n.yielding && n.owed < 8 && n.micro < 32768

/-- One micro-op of an NBU: nothing unless a program runs; then its effect, the next index and the counts. -/
def microOp (op bank : Nat) (m : Mop) (col : Nbu → Nat) (body : Nbu → MicroOut) (s : State) : State :=
  let n := nbuOf s bank
  match n.cmd with
  | none => s
  | some i =>
    if !nbuActive n then s
    else if !mopDefined op m then abortNbu s bank i 9 (mopWord op m)
    else match body n with
      | .fault => abortNbu s bank i 9 (mopWord op m)
      | .ue => ueNbu s bank i (col n)
      | .ok n1 => setNbu s bank { n1 with pc := n1.pc + 1, micro := n.micro + 1 }

/-- A micro-op that reads no column. -/
def microPure (op bank : Nat) (m : Mop) (f : Nbu → Nbu) (s : State) : State := microOp op bank m (fun _ => 0) (fun n => .ok (f n)) s
/-- A micro-op that reads the column pP + IMM[11:0]. -/
def microCol (op bank : Nat) (m : Mop) (f : Nbu → W256 → Nbu) (s : State) : State :=
  microOp op bank m (fun n => mopCol n m 12) (fun n => match readCol s bank n (mopCol n m 12) with
    | some x => .ok (f n x)
    | none => .ue) s

/-- The checking lane disagreed in a multiply-accumulate (R625): the unit is charged and the record dropped. -/
def checkLane (bank : Nat) (m : Mop) (s : State) : State :=
  let n := nbuOf s bank
  match n.cmd with
  | none => s
  | some i => if !nbuActive n || !m.mismatch then s else
    let s1 := chargeUnit s 1 bank (match rankOf s i with | some r => jobPlanId s r.tok.job | none => 0)
    setNbu s1 bank { nbuOf s1 bank with dropRec := true }

/-- Target of a branch: the index before it, plus its displacement; the row adds 1. -/
def branchPc (n : Nbu) (m : Mop) : Option Byte :=
  let t := (n.pc.toNat : Int) + mopDisp m
  if (n.lo : Int) ≤ t && t < n.hi then some (BitVec.ofInt 8 (t - 1)) else none
/-- A branch taken or not. -/
def branch (m : Mop) (taken : Bool) (n : Nbu) : MicroOut :=
  if !taken then .ok n else match branchPc n m with
    | some p => .ok { n with pc := p }
    | none => .fault

/-! ### Yield points (R261) -/

/-- Release emitted entries to the lane as far as the share has credits. -/
def releaseEmits (bank i : Nat) (r : RankCmd) (lane : Nat) : List (BitVec 192) → State → State
  | [], s => setNbu s bank { nbuOf s bank with ebuf := [] }
  | e :: es, s =>
    if shareFree s r.share then releaseEmits bank i r lane es (sendCand s lane r.share r.tok.job i e)
    else setNbu s bank { nbuOf s bank with ebuf := e :: es }

/-- Steps 4 to 6 of a yield point: emits, ownership, and what follows. -/
def yieldOn (s : State) (bank i : Nat) : State :=
  let n := nbuOf s bank
  let s1 := match rankOf s i with
    | none => setNbu s bank { n with ebuf := [] }
    | some r => match jobInst s r.tok.job 4 (laneBits r.tok.desc 1 48 4) with
      | .ok lane => releaseEmits bank i r lane n.ebuf s
      | .error _ => setNbu s bank { n with ebuf := [] }
  let n1 := nbuOf s1 bank
  if n1.ebuf != [] && n1.recalled != 2 then setNbu s1 bank { n1 with yielding := true }
  else if n1.recalled != 0 then
    let others := n1.queue
    let s2 := rankStop (setNbu s1 bank (nbuClear n1)) i bank stABORTED 0x46
    let s3 := others.foldl (fun s k => rankStop s k bank stABORTED 0x46) s2
    sweepGrants (settleOwner s3 bank n1.recalled)
  else if n1.ending then
    let s2 := setNbu s1 bank { nbuClear n1 with recalled := 0 }
    let s3 := if n1.early then rankStop s2 i bank stUNCORRECTABLE 0x47 else rankEnd s2 i bank
    beginNext (sweepGrants s3) bank
  else setNbu s1 bank { n1 with yielding := false, micro := 0, overrun := false }

/-- A yield point of a bank's NBU (R261). -/
def nbuYieldPoint (s : State) (bank i : Nat) : State :=
  let n := nbuOf s bank
  let s1 := n.wbuf.foldl (fun s p => stkWrite s (colAddr bank p.1) (bytesOf 32 p.2.toNat)) s
  let s2 := serveBank (setNbu s1 bank { n with wbuf := [] }) bank 12
  yieldOn (setNbu s2 bank { nbuOf s2 bank with owed := 0 }) bank i

/-- YIELD and END. A unit that waits at a yield point for credits takes its service again by the same row. -/
def yieldRow (op : Nat) (ends : Bool) (bank : Nat) (m : Mop) (s : State) : State :=
  let n := nbuOf s bank
  match n.cmd with
  | none => s
  | some i =>
    if n.yielding then nbuYieldPoint s bank i
    else if !nbuActive n then s
    else if !mopDefined op m then abortNbu s bank i 9 (mopWord op m)
    else nbuYieldPoint (setNbu s bank { n with pc := n.pc + 1, yielding := true, ending := ends, micro := 0 }) bank i

/-! ### EMIT (R257, R625) -/

/-- The entry that EMIT builds. -/
def emitEntry (r : RankCmd) (bank : Nat) (work : W256) (score : W32) : BitVec 192 :=
  let w := work.toNat
  BitVec.ofNat 192 (bitsOf w 86 6 * 2 ^ 16 + bitsOf w 92 1 * 2 ^ 22 + 2 ^ 23 + laneBits r.tok.desc 2 56 8 * 2 ^ 24
    + bitsOf w 0 64 * 2 ^ 32 + score.toNat * 2 ^ 96 + bank % 2 ^ 15 * 2 ^ 128)

/-- EMIT. -/
def nbuEmit (bank : Nat) (m : Mop) (s : State) : State :=
  let n := nbuOf s bank
  match n.cmd with
  | none => s
  | some i =>
    if !nbuActive n then s
    else if !mopDefined 0x14 m || n.ebuf.length ≥ 8 then abortNbu s bank i 9 (mopWord 0x14 m)
    else
      let go := fun (n : Nbu) => { n with pc := n.pc + 1, micro := n.micro + 1, dropRec := false }
      match rankOf s i with
      | none => setNbu s bank (go n)
      | some r =>
        let score := pLane n (p6Lane n)
        if n.dropRec then setRank (setNbu s bank (go n)) i (rankNote r stMEDIA_ERROR 0x48)
        else if isNan32 score then
          fbump (setRank (setNbu s bank (go n)) i (rankNote r stMEDIA_ERROR 0x43)) F.STK_NBU_STAT_BADREC (bank / 1024)
        else setRank (setNbu s bank (go { n with ebuf := n.ebuf ++ [emitEntry r bank (nReg n m.a.toNat) score] })) i { r with count := r.count + 1 }

/-! ### The rows -/

/-- RANK_COMMAND (R255). -/
def execRankCommand (stack : Nat) (s : State) : Out := .next (rankCommand stack s)
/-- NOP (R247). -/
def execNbuNop (bank : Nat) (m : Mop) (s : State) : Out := .next (microPure 0x00 bank m id s)
/-- YIELD (R261). -/
def execNbuYield (bank : Nat) (m : Mop) (s : State) : Out := .next (yieldRow 0x01 false bank m s)
/-- END (R255, R261). -/
def execNbuEnd (bank : Nat) (m : Mop) (s : State) : Out := .next (yieldRow 0x02 true bank m s)
/-- LDR (R247). -/
def execNbuLdr (bank : Nat) (m : Mop) (s : State) : Out := .next (microCol 0x03 bank m (fun n x => setN n m.d.toNat x) s)
/-- LDH (R247). -/
def execNbuLdh (bank : Nat) (m : Mop) (s : State) : Out :=
  .next (microOp 0x04 bank m (fun n => mopCol n m 12) (fun n =>
    match readCol s bank n (mopCol n m 12), readCol s bank n ((mopCol n m 12 + 1) % 2 ^ 22) with
    | some x, some y => .ok { setN n m.d.toNat ((y <<< 128) ||| (x >>> 128)) with micro := n.micro }
    | _, _ => .ue) s)
/-- STC (R247, R249). -/
def execNbuStc (bank : Nat) (m : Mop) (s : State) : Out :=
  .next (microOp 0x05 bank m (fun _ => 0) (fun n =>
    if n.wbuf.length ≥ 8 then .fault else .ok { n with wbuf := n.wbuf ++ [(mopCol n m 12, nReg n m.a.toNat)] }) s)
/-- LDZ (R247). -/
def execNbuLdz (bank : Nat) (m : Mop) (s : State) : Out := .next (microCol 0x06 bank m (fun n x => { n with zb := x }) s)
/-- LDS (R247). -/
def execNbuLds (bank : Nat) (m : Mop) (s : State) : Out := .next (microCol 0x07 bank m (fun n x => { n with sb := x }) s)
/-- MAC (R248). -/
def execNbuMac (bank : Nat) (m : Mop) (s : State) : Out :=
  .next (microCol 0x08 bank m (fun n x => macUpdate n (bitsOf m.imm.toNat 12 2) (nReg n m.a.toNat) x) (checkLane bank m s))
/-- MACR (R247). -/
def execNbuMacr (bank : Nat) (m : Mop) (s : State) : Out :=
  .next (microPure 0x09 bank m (fun n => macUpdate n (bitsOf m.imm.toNat 12 2) (nReg n m.a.toNat) (nReg n m.d.toNat)) (checkLane bank m s))
/-- MQZ (R248). -/
def execNbuMqz (bank : Nat) (m : Mop) (s : State) : Out :=
  let h := m.imm.getLsbD 10
  let close := fun (n : Nbu) => if m.imm.getLsbD 11 then closeBlock n (m.imm.getLsbD 12) else n
  .next (microOp 0x0A bank m (fun n => mopCol n m 10) (fun n =>
    if h then .ok (close (mqzUpdate n (nReg n m.a.toNat) true (m.imm.getLsbD 12)))
    else match readCol s bank n (mopCol n m 10) with
      | some x => .ok (mqzUpdate { n with cb := x } (nReg n m.a.toNat) false (m.imm.getLsbD 12))
      | none => .ue) (checkLane bank m s))
/-- RED (R247). -/
def execNbuRed (bank : Nat) (m : Mop) (s : State) : Out :=
  .next (microPure 0x0B bank m (fun n => setPLane { n with acc := [] } (p6Lane n) (add32 (pLane n (p6Lane n)) (accSum n))) s)
/-- FOP (R247). -/
def execNbuFop (bank : Nat) (m : Mop) (s : State) : Out :=
  .next (microPure 0x0C bank m (fun n => setN n m.d.toNat (fop (bitsOf m.imm.toNat 4 3) (m.imm.getLsbD 7) (bitsOf m.imm.toNat 8 3)
    (nReg n m.a.toNat) (nReg n (bitsOf m.imm.toNat 0 4)))) s)
/-- SETM (R247). -/
def execNbuSetm (bank : Nat) (m : Mop) (s : State) : Out :=
  .next (microPure 0x0D bank m (fun n => { n with
    int16 := m.imm.getLsbD 0, fp16 := m.imm.getLsbD 1, acc := if m.imm.getLsbD 2 then [] else n.acc }) s)
/-- SETP (R247). -/
def execNbuSetp (bank : Nat) (m : Mop) (s : State) : Out := .next (microPure 0x0E bank m (fun n => setP n m.p.toNat (m.imm.setWidth 32)) s)
/-- ADDP (R247). -/
def execNbuAddp (bank : Nat) (m : Mop) (s : State) : Out :=
  .next (microPure 0x0F bank m (fun n => setP n m.p.toNat (pReg n (bitsOf m.imm.toNat 13 3) +
    if m.imm.getLsbD 12 then pReg n (bitsOf m.imm.toNat 0 3) else BitVec.ofInt 32 (signedOf 12 (m.imm.toNat % 4096)))) s)
/-- MOVP (R247). -/
def execNbuMovp (bank : Nat) (m : Mop) (s : State) : Out :=
  .next (microPure 0x10 bank m (fun n => setP n m.p.toNat (BitVec.ofNat 32 (laneAt (nReg n m.a.toNat) 32 (bitsOf m.imm.toNat 0 3)))) s)
/-- BR (R246). -/
def execNbuBr (bank : Nat) (m : Mop) (s : State) : Out := .next (microOp 0x11 bank m (fun _ => 0) (branch m true) s)
/-- LOOP (R247). -/
def execNbuLoop (bank : Nat) (m : Mop) (s : State) : Out :=
  .next (microOp 0x12 bank m (fun _ => 0) (fun n =>
    let v := pReg n m.p.toNat - 1
    branch m (v != 0) (setP n m.p.toNat v)) s)
/-- BZ (R247). -/
def execNbuBz (bank : Nat) (m : Mop) (s : State) : Out :=
  .next (microOp 0x13 bank m (fun _ => 0) (fun n => branch m (pReg n m.p.toNat == 0) n) s)
/-- EMIT (R257). -/
def execNbuEmit (bank : Nat) (m : Mop) (s : State) : Out := .next (nbuEmit bank m s)

/-- NBU_WATCHDOG_ABORT (R69): 32,768 micro-ops without a yield. -/
def execNbuWatchdogAbort (bank : Nat) (s : State) : Out :=
  let n := nbuOf s bank
  .next (match n.cmd with
    | some i => if n.micro < 32768 || n.yielding then s
      else abortNbu (fbump s F.SEQ_OVERRIDE_CNT_NBU_WDOG) bank i 2 n.micro
    | none => s)

/-- NBU_OVERRUN (R70): counted once in each interval between yields. -/
def execNbuOverrun (bank : Nat) (s : State) : Out :=
  let n := nbuOf s bank
  .next (if nbuRunning n && n.micro > 128 && !n.overrun then
    fbump (setNbu s bank { n with overrun := true }) F.SEQ_OVERRIDE_CNT_NBU_OVR else s)

/-- FORCED_REFRESH_SUSPENSION (R68, R264): every refresh owed is performed, the unit keeps its state. -/
def execForcedRefreshSuspension (bank : Nat) (s : State) : Out :=
  let n := nbuOf s bank
  .next (match n.cmd with
    | some i => if n.owed < 8 then s
      else
        let pid := match rankOf s i with | some r => jobPlanId s r.tok.job | none => 0
        faultRec (fbump (setNbu s bank { n with owed := 0 }) F.STK_NBU_STAT_FSUSP (bank / 1024))
          { block := 6, kind := 3, cls := 0, inst := bank, planId := pid, die := dieOf 1 bank, info := n.owed }
    | none => s)

/-- REFRESH_DUE (R264): taken at once where no program runs, else owed until the next yield. -/
def execRefreshDue (bank : Nat) (s : State) : Out :=
  let n := nbuOf s bank
  .next (if nbuRunning n && !n.yielding then setNbu s bank { n with owed := min 8 (n.owed + 1) } else s)

/-- STK_DEFER_MAX_CLR (R268). -/
def execStkDeferMaxClr (stack : Nat) (v : W32) (s : State) : Out :=
  .next (hostReg s .STK_DEFER_MAX (.reg .STK_DEFER_MAX stack v) fun s => if v.getLsbD 31 then fset s F.STK_DEFER_MAX_MAX 0 stack else s)

/-- Completion of a stack's part of a RANK command (R258): every bank ended and every entry accepted. -/
def completeRank (s : State) (stack : Nat) : State :=
  match s.stk.ranks.find? fun p => p.2.stack == stack && p.2.started && p.2.left == [] && !candsWait s p.1 with
  | none => s
  | some (i, r) =>
    let s1 : State := { s with stk := { s.stk with ranks := tdel s.stk.ranks i } }
    if (jobOf s1 r.tok.job).isNone then s1
    else writeResult s1 0 (r.banks.headD 0) r.tok (8 * r.word) (resWord r.status r.reason r.count r.stopped) fun s2 =>
      let s3 := flushPosts (sweepGrants (pulseTok s2 r.tok r.tok.inc.toNat))
      r.banks.foldl beginNext s3

end Sys2Proof.Machine
end

