-- ==== Sys2Proof/Machine/Power.lean ====
section
/-!
DEFINITION. Power, temperature, brownout and power states (R595 to R609, R669).
-/

namespace Sys2Proof.Machine

open Sys2Proof

/-! ### Brownout (R595, R603, R604) -/

/-- The operation in progress at each LUN runs on through a brownout, and no other starts (R420, R603). -/
def lunsThrough (s : State) : State :=
  { s with fls := { s.fls with
    brownout := true
    luns := s.fls.luns.map fun p => (p.1, { p.2 with started := p.2.started || lunBusy p.2 }) } }
/-- The lane tests that run lose their results (R590). -/
def spoilTests (s : State) : State :=
  let s1 := (portsIn s 2).foldl (fun s p => setLink s p { linkOf s p with spoiled := true }) s
  match s1.prb.run with
  | some (.lanes _) => { s1 with prb := { s1.prb with run := some (.lanes true) } }
  | _ => s1
/-- BROWNOUT_START: rails (a mask, R595) are below warning; the first of them starts a brownout. -/
def brownoutStart (rails : Nat) (s : State) : State :=
  let m := rails % 512
  if m = 0 then s
  else match s.prb.brown with
    | some (t, old) =>
      fset { s with prb := { s.prb with brown := some (t, old ||| m) } } F.PRB_PWR_STAT_RAILS (fget s F.PRB_PWR_STAT_RAILS ||| m)
    | none =>
      let s1 := spoilTests (lunsThrough { s with prb := { s.prb with brown := some (s.now, m) } })
      let s2 := fbump (fset (fset s1 F.PRB_PWR_STAT_BROWNOUT 1) F.PRB_PWR_STAT_RAILS m) F.PRB_PWR_STAT_BROWNOUTS
      devEvent s2 0x06 0 0 (bytesOf 2 m)
/-- A rail falls below warning. -/
def execBrownoutStart (rails : Nat) (s : State) : Out := .next (brownoutStart rails s)

/-- BROWNOUT_END: every rail has cleared, which takes 50 us (R595); `lowMv` is the lowest VDD_CORE seen. A warm reset that waited is
taken now (R612). -/
def brownoutEnd (lowMv : Nat) (s : State) : State :=
  match s.prb.brown with
  | none => s
  | some (t, m) =>
    if s.now < t + 50000 then s
    else
      let s1 : State := { s with prb := { s.prb with brown := none }, fls := { s.fls with brownout := false } }
      let s2 := devEvent (fset (fset s1 F.PRB_PWR_STAT_BROWNOUT 0) F.PRB_PWR_STAT_RAILS 0) 0x07 0 0
        (bytesOf 4 m ++ bytesOf 4 ((s.now - t) / 1000) ++ bytesOf 2 lowMv)
      if s2.prb.warmWait then warmReset s2 else s2
/-- The last rail clears. -/
def execBrownoutEnd (lowMv : Nat) (s : State) : Out := .next (brownoutEnd lowMv s)

/-- RAIL_RESET_LEVEL (R596): VCCQ_FL takes every channel out of service; any other rail causes a cold reset. -/
def railReset (rail : Nat) (s : State) : State :=
  if rail = 6 then (List.range 64).foldl holdChannel s else if rail ≤ 8 then coldReset 1 s else s
/-- A rail reaches its Reset level. -/
def execRailResetLevel (rail : Nat) (s : State) : Out := .next (railReset rail s)

/-! ### The governor (R598 to R600) -/

/-- The power target in W: CAP_W within the fused ceiling, and 850 W until step 2 has passed (R572, R599). -/
def powerTarget (s : State) : Nat :=
  if fget s F.PRB_STEP_LAST < 2 then 850
  else
    let cap := fget s F.PRB_GOV_CAP_W
    if cap = 0 then fget s F.PRB_GOV_CEIL_W else min cap (fget s F.PRB_GOV_CEIL_W)
/-- The setting that the governor's cap moves to. -/
def setCap (s : State) (g : Nat) : State :=
  { s with prb := { s.prb with pace := { s.prb.pace with capGoal := max 500 (min 1900 g) } } }
/-- Heat holds the cap down (R601). -/
def heatHolds (s : State) : Bool := fget s F.PRB_PWR_STAT_THROTTLE == 1 || fget s F.PRB_PWR_STAT_EMERGENCY == 1
/-- GOVERNOR_WINDOW: a window of 10 us ends with its package power. By how much the cap moves the manual does not say. -/
def governorWindow (power : Nat) (s : State) : State :=
  if s.now % 10000 != 0 || s.now = s.prb.govAt then s
  else
    let w := min power 4095
    let s1 := fset s F.PRB_POWER_NOW_W w
    let s2 := fset s1 F.PRB_POWER_MAX_W (max w (fget s F.PRB_POWER_MAX_W))
    let s3 : State := { s2 with prb := { s2.prb with govAt := s.now } }
    let d := 1 + (freeWord s3 0).toNat % 1400
    let g := s3.prb.pace.capGoal
    let t := powerTarget s
    if w > t then setCap (freeNext s3) (g - d)
    else if 100 * w < 95 * t && !heatHolds s then setCap (freeNext s3) (g + d)
    else s3
/-- A power window ends. -/
def execGovernorWindow (power : Nat) (s : State) : Out := .next (governorWindow power s)
/-- PRB_POWER_CLR: a write of `PRB_POWER` with CLR (R600). -/
def powerClr (v : W32) (s : State) : State := if v.getLsbD 31 then fset s F.PRB_POWER_MAX_W 0 else s
/-- MAX_W is cleared. -/
def execPrbPowerClr (v : W32) (s : State) : Out := .next (hostReg s .PRB_POWER (.reg .PRB_POWER 0 v) (powerClr v))

/-! ### Temperature (R601, R602), Tj in units of 0.125 degrees -/

/-- Thresholds of a die: CW, CE and IOD, then the base dies of the stacks. -/
def throttleAt (die : Nat) : Nat := if die < 3 then 840 else 680
def emergencyAt (die : Nat) : Nat := if die < 3 then 896 else 760
def tripAt (die : Nat) : Nat := if die < 3 then 960 else 840
/-- The sensors of a die report a Tj. -/
def senseTj (s : State) (die tj : Nat) : State :=
  let t := min tj 4095
  fset (fset s F.PRB_THERM_TJ t die) F.PRB_THERM_MAX_TJ (max t (fget s F.PRB_THERM_MAX_TJ die)) die
/-- A die changes its level, which is recorded; THROTTLE follows the levels. -/
def setLevel (s : State) (die level : Nat) : State :=
  if fget s F.PRB_THERM_LEVEL die = level then s
  else
    let s1 := fset s F.PRB_THERM_LEVEL level die
    let hot := (List.range 23).any fun d => fget s1 F.PRB_THERM_LEVEL d != 0
    devEvent (fset s1 F.PRB_PWR_STAT_THROTTLE (if hot then 1 else 0)) 0x08 0 0
      (bytesOf 1 die ++ bytesOf 1 level ++ bytesOf 2 (fget s1 F.PRB_THERM_TJ die))
/-- Since when every die is below Throttle (R601). -/
def watchCool (s : State) : State :=
  let below := (List.range 23).all fun d => decide (fget s F.PRB_THERM_TJ d < throttleAt d)
  { s with prb := { s.prb with cool := if below then some (s.prb.cool.getD s.now) else none } }
/-- Heat lowers the cap by 50 Mstep/s, once in 100 us. -/
def heatCap (s : State) : State :=
  if s.prb.hotAt != 0 && s.now < s.prb.hotAt + 100000 then s
  else setCap { s with prb := { s.prb with hotAt := s.now } } (s.prb.pace.capGoal - 50)
/-- THERMAL_THROTTLE: a die is at or above Throttle. -/
def thermalThrottle (die tj : Nat) (s : State) : State :=
  if die ≥ 23 || tj < throttleAt die then s
  else
    let s1 := watchCool (senseTj s die tj)
    heatCap (if fget s1 F.PRB_THERM_LEVEL die = 0 then setLevel s1 die 1 else s1)
/-- Throttle. -/
def execThermalThrottle (die : Nat) (tj : Nat) (s : State) : Out := .next (thermalThrottle die tj s)
/-- THERMAL_EMERGENCY: a die has been at or above Emergency for 1 ms. -/
def thermalEmergency (die tj : Nat) (s : State) : State :=
  if die ≥ 23 || tj < emergencyAt die then s
  else
    let s1 := setLevel (watchCool (senseTj s die tj)) die 2
    ovcSet (setCap (fset s1 F.PRB_PWR_STAT_EMERGENCY 1) 500) 2
/-- Emergency. -/
def execThermalEmergency (die : Nat) (tj : Nat) (s : State) : Out := .next (thermalEmergency die tj s)
/-- A die is at least 2 degrees below its Throttle: it is at level normal. -/
def coolEnough (die tj : Nat) : Bool := decide (tj + 16 ≤ throttleAt die)
/-- THERMAL_LEVEL_NORMAL. -/
def thermalNormal (die tj : Nat) (s : State) : State :=
  if die ≥ 23 || !coolEnough die tj then s else setLevel (watchCool (senseTj s die tj)) die 0
/-- A die returns to normal. -/
def execThermalLevelNormal (die : Nat) (tj : Nat) (s : State) : Out := .next (thermalNormal die tj s)
/-- EMERGENCY_END: every die has stayed below Throttle for 1 s. -/
def emergencyEnd (s : State) : State :=
  match s.prb.cool with
  | none => s
  | some t =>
    if fget s F.PRB_PWR_STAT_EMERGENCY = 0 || s.now < t + 1000000000 then s
    else
      let hot := (List.range 23).filter fun d => fget s F.PRB_THERM_LEVEL d == 2
      let s1 := hot.foldl (fun s d => setLevel s d (if coolEnough d (fget s F.PRB_THERM_TJ d) then 0 else 1)) (fset s F.PRB_PWR_STAT_EMERGENCY 0)
      ovcClear s1 2
/-- The end of a thermal emergency. -/
def execEmergencyEnd (s : State) : Out := .next (emergencyEnd s)
/-- THERMAL_TRIP: THERMTRIP# is asserted, the rails go, a cold reset follows. -/
def thermalTrip (die tj : Nat) (s : State) : State :=
  if die ≥ 23 || tj < tripAt die then s else coldReset 3 (emit s (.pin 0 true))
/-- Trip. -/
def execThermalTrip (die : Nat) (tj : Nat) (s : State) : Out := .next (thermalTrip die tj s)
/-- PRB_THERM_CLR_MAX: a write of `PRB_THERM` with CLR_MAX (R602). -/
def thermClr (v : W32) (s : State) : State :=
  let d := fget s F.PRB_THERM_SEL_V
  if v.getLsbD 31 then fset s F.PRB_THERM_MAX_TJ (fget s F.PRB_THERM_TJ d) d else s
/-- MAX_TJ of the selected die is cleared. -/
def execPrbThermClrMax (v : W32) (s : State) : Out := .next (hostReg s .PRB_THERM (.reg .PRB_THERM 0 v) (thermClr v))

/-! ### Power states (R605 to R608) -/

/-- The node is idle (R606). -/
def nodeIdle (s : State) : Bool :=
  fget s F.PRB_STEP_READY == 1 && s.exec.jobs.isEmpty
    && s.exec.pend.isEmpty && s.exec.sysops.isEmpty && s.exec.held.isEmpty && s.exec.series.isEmpty
    && s.cmds.isEmpty && s.stk.ranks.isEmpty && s.tir.moves.isEmpty && s.tir.pages.all (fun p => p.2.mig.isNone)
    && s.fab.ops.isEmpty && s.fab.copies.isEmpty && s.fab.hold.isEmpty && s.tbe.copies.isEmpty
    && s.smc.doms.all (fun p => p.2.state != 2) && s.prb.brown.isNone
/-- The deepest state that a tolerance allows (R608). -/
def tolState (tol : Nat) : Nat := if tol ≥ 10000000 then 4 else if tol ≥ 1000 then 3 else if tol ≥ 25 then 2 else if tol ≥ 1 then 1 else 0
/-- HYST in ns. -/
def hystNs (s : State) : Nat := max 1 (fget s F.PRB_WAKETOL_HYST) * 10000
/-- What bars P4 (R606). -/
def p4Barred (s : State) : Bool :=
  (s.tir.pages.any fun p => match pageRegion s p.1 with | some (_, r) => r.cls == 1 && p.2.home != 2 && p.2.home != 3 | none => false)
    || (s.tir.regions.any fun p => p.2.cls == 0 && p.2.backing == 0) || flashGone s || overcast s
/-- Tile SRAM contents are lost, in P3 and P4. -/
def loseTiles (s : State) : State :=
  { s with mem := { s.mem with tile := [], badTile := [] }, exec := { s.exec with tileLost := heldTiles s } }
/-- Every dirty page is written back. -/
def writeAllBack (s : State) : State := (s.tir.pages.filter fun p => p.2.dirty != 0).foldl (fun s p => writeBack s p.1) s
/-- Every page is clean and every program has completed: what was written back is durable (R408). -/
def allDurable (s : State) : Bool := s.tir.pages.all (fun p => p.2.dirty == 0) && s.fls.luns.all fun p => p.2.progs.isEmpty
/-- Enter P4: dirty pages are written back; once they are durable the stacks go off. Nothing reads them before the wake, so what flash
brings back then (R395) stands in them from now on; PRELOAD regions fill at the wake. -/
def enterP4 (s : State) : State :=
  let s1 := writeAllBack s
  if !allDurable s1 then s1 else fset (loseTiles (restoreStacks s1 (journalOf s1))) F.PRB_PWR_STAT_STATE 4
/-- POWER_STATE_ENTRY: a node that has been idle for HYST enters the deepest state within TOL. -/
def powerEntry (s : State) : State :=
  let want := tolState (fget s F.PRB_WAKETOL_TOL)
  if !nodeIdle s || s.prb.waking.isSome || s.now < s.prb.lastActive + hystNs s || want ≤ fget s F.PRB_PWR_STAT_STATE then s
  else match want with
    | 4 => if p4Barred s then
        fset (if fget s F.PRB_PWR_STAT_STATE = 3 then s else fset (loseTiles s) F.PRB_PWR_STAT_STATE 3) F.PRB_PWR_STAT_P4_BLOCKED 1
      else enterP4 (fset s F.PRB_PWR_STAT_P4_BLOCKED 0)
    | 3 => fset (loseTiles s) F.PRB_PWR_STAT_STATE 3
    | n => fset s F.PRB_PWR_STAT_STATE n
/-- The node enters a power state. -/
def execPowerStateEntry (s : State) : Out := .next (powerEntry s)

/-- WAKETOL_WRITE (R607, R608): a tolerance below the bound of the present state wakes the node. -/
def waketolWrite (v : W32) (s : State) : State :=
  let s1 := regWritePlain s .PRB_WAKETOL 0 v
  if tolState (fget s1 F.PRB_WAKETOL_TOL) < fget s1 F.PRB_PWR_STAT_STATE then wakeNode s1 else s1
/-- A write of `PRB_WAKETOL`. -/
def execWaketolWrite (v : W32) (s : State) : Out := .next (hostReg s .PRB_WAKETOL (.reg .PRB_WAKETOL 0 v) (waketolWrite v))

end Sys2Proof.Machine
end

