-- ==== Sys2Proof/Machine/Units.lean ====
section
/-!
DEFINITION. Unit faults, quarantine, and the lifecycle (R617, R618, R627, R636, R661 to R664).
-/

namespace Sys2Proof.Machine

open Sys2Proof

/-! ### Stacks (R617, R618) -/

/-- STACK_HELD_OUT: the stack goes out of service until step 8; the fifth one is a cause of overcast mode. -/
def stackHeldOut (k : Nat) (s : State) : State :=
  if k ≥ 20 || s.flt.stacksOut.contains k then s
  else
    let s1 : State := { s with flt := { s.flt with stacksOut := s.flt.stacksOut ++ [k] } }
    let s2 := faultRec s1 { block := 6, kind := 0x0B, die := 3 + k, inst := k }
    let s3 := devEvent s2 0x09 0 0 (bytesOf 1 6 ++ bytesOf 1 0x0B ++ bytesOf 2 0 ++ bytesOf 4 (newestFault s2) ++ bytesOf 4 k)
    if s3.flt.stacksOut.length ≥ 5 then ovcSet s3 1 else s3
/-- A stack is held out. -/
def execStackHeldOut (stack : Nat) (s : State) : Out := .next (stackHeldOut stack s)

/-- The time of a patrol pass, 24 h. -/
def patrolNs : Nat := 86400000000000
/-- Uncorrectable words of a stack, by address / 4. -/
def badWords (s : State) (k : Nat) : List Nat := s.mem.badStk.filter fun w => stackOf (w * 4) == k
/-- The record of one uncorrectable word that patrol finds. -/
def patrolWord (s : State) (k w : Nat) : State :=
  fbump (faultRec s { block := 6, kind := 4, die := 3 + k, cls := 0, inst := w * 4 / 2 ^ 27, addr := w * 4 / 32 * 32, info := w % 8 })
    F.STK_ECC_STAT_UE k
/-- STACK_PATROL: a pass over a stack ends, once in 24 h; not in P3 or P4 (R617, R669). -/
def stackPatrol (k : Nat) (s : State) : State :=
  if k ≥ 20 || s.flt.stacksOut.contains k || fget s F.PRB_STEP_LAST < 8 || fget s F.PRB_PWR_STAT_STATE ≥ 3
      || s.now < tget 0 s.stk.patrol k + patrolNs then s
  else (badWords s k).foldl (fun s w => patrolWord s k w) { s with stk := { s.stk with patrol := tput 0 s.stk.patrol k s.now } }
/-- The end of a patrol pass. -/
def execStackPatrol (stack : Nat) (s : State) : Out := .next (stackPatrol stack s)

/-! ### Quarantine (R627) -/

/-- Unit class of R581, block, and physical units of a class of shadow-checked units. -/
def shdUnit (cls : Nat) : Nat := match cls with | 0 => 0 | 1 => 3 | 2 => 4 | _ => 2
def shdBlock (cls : Nat) : Nat := match cls with | 0 => 4 | 1 => 5 | 2 => 7 | _ => 9
def shdCount (cls : Nat) : Nat := match cls with | 0 => 1088 | 1 => 20480 | 2 => 64 | 3 => 1040 | _ => 0
/-- The lowest spare of the group of a unit takes its logical number; without one the group is short of it. -/
def takeSpare (s : State) (c u : Nat) : State × Bool :=
  let put := fun (s : State) (k : Nat) (l : Option Nat) => { s with prb := { s.prb with swaps := tins s.prb.swaps (unitKey c k) l } }
  let l := logicalOf s c u
  if l.isNone then (put s u none, true)
  else match (groupUnits c u).find? (isSpare s c) with
    | some k => (put (put s u none) k l, true)
    | none => (put s u none, false)
/-- A cluster of the scoring array leaves service (R627). -/
def scaOut (s : State) (cl : Nat) : State :=
  let s1 : State := { s with flt := { s.flt with scaOut := if s.flt.scaOut.contains cl then s.flt.scaOut else s.flt.scaOut ++ [cl] } }
  if ownerOf s1 5 cl = .free then putOwner s1 5 cl (.agent 9) else s1
/-- The reports of a quarantine. -/
def quarReport (s : State) (cls u : Nat) : State :=
  let (bin, pid) := tget (0, 0) s.flt.last (shdKey cls u)
  let s1 := faultRec s { block := shdBlock cls, kind := 7, die := dieOf cls u, cls := shdUnit cls, inst := u, planId := pid
                         info := bin + 256 * tget 0 s.flt.charge (shdKey cls u) }
  devEvent s1 0x0A 0 0 (bytesOf 1 (shdBlock cls) ++ bytesOf 1 (shdUnit cls) ++ bytesOf 1 bin ++ bytesOf 1 0
    ++ bytesOf 4 (newestFault s1) ++ bytesOf 4 u ++ bytesOf 2 pid)
/-- QUARANTINE: a unit whose charges have reached the threshold stands at its boundary. -/
def quarantine (cls u : Nat) (s : State) : State :=
  if u ≥ shdCount cls || quarantined s cls u || !overThresh s cls u then s
  else
    let s1 := quarReport { s with flt := { s.flt with quar := s.flt.quar ++ [shdKey cls u] } } cls u
    match cls with
    | 0 => let (s2, ok) := takeSpare s1 0 u; if ok then s2 else ovcSet s2 3
    | 3 => let (s2, ok) := takeSpare s1 2 u; if ok then s2 else ovcSet (scaOut s2 (u / 130)) 3
    | _ => s1
/-- A unit is quarantined. -/
def execQuarantine (cls unit : Nat) (s : State) : Out := .next (quarantine cls unit s)

/-- A write of `PRB_SHD_CTL` (R636): CLR zeroes charges, bins and plan entries, and lifts no quarantine. -/
def shdCtl (v : W32) (s : State) : State :=
  let s1 := regWritePlain s .PRB_SHD_CTL 0 v
  if v.getLsbD 8 then { s1 with flt := { s1.flt with charge := [], bins := [], plans := [] } } else s1
/-- SHADOW_CLEAR: a write with CLR. -/
def execShadowClear (v : W32) (s : State) : Out := .next (hostReg s .PRB_SHD_CTL (.reg .PRB_SHD_CTL 0 (v ||| 0x100)) (shdCtl (v ||| 0x100)))

/-! ### Lifecycle (R661, R662) -/

/-- A write of `SMC_LIFECYCLE`: GO_PROD burns the fuse, with CONFIRM, before the lock and before ready; LOCK sets the lock. -/
def lifecycle (v : W32) (s : State) : State :=
  let s1 := regWritePlain s .SMC_LIFECYCLE 0 v
  let s2 := if v.getLsbD 16 && bitsOf v.toNat 8 8 = 0xA5 && !locked s && fget s F.PRB_STEP_READY = 0 then
      fset { s1 with prb := { s1.prb with prodFuse := true } } F.SMC_LIFECYCLE_PRODUCTION 1 else s1
  if v.getLsbD 17 then fset s2 F.SMC_LIFECYCLE_LOCKED 1 else s2
/-- GO_PROD. -/
def execGoProd (v : W32) (s : State) : Out := .next (hostReg s .SMC_LIFECYCLE (.reg .SMC_LIFECYCLE 0 (v ||| 0x10000)) (lifecycle (v ||| 0x10000)))
/-- LOCK. -/
def execLock (v : W32) (s : State) : Out := .next (hostReg s .SMC_LIFECYCLE (.reg .SMC_LIFECYCLE 0 (v ||| 0x20000)) (lifecycle (v ||| 0x20000)))

end Sys2Proof.Machine
end

