-- ==== Sys2Proof/Machine/Complete.lean ====
section
/-!
DEFINITION. The completion of engine commands (R87, R129): result word, pulse, and what waited for the command.
-/

namespace Sys2Proof.Machine

open Sys2Proof

/-- The first command of an engine instance whose effects are done and whose candidates its lane has taken (R87). -/
def readyCmd (s : State) (cls inst : Nat) : Option Cmd := (cmdsOf s cls inst).find? fun c => c.phase == .finishing && !candsWait s c.id

/-- ENGINE_COMMAND_COMPLETE: class 0 names a stack, whose RANK commands end as a whole (R258); class 14 is TIR, by the tag of the job. -/
def engineComplete (cls inst : Nat) (s : State) : State :=
  if cls = 0 then completeRank s inst
  else match readyCmd s cls inst with
    | none => s
    | some c => completeCmd s cls inst c
/-- A command completes. -/
def execEngineCommandComplete (cls inst : Nat) (s : State) : Out := .next (engineComplete cls inst s)

end Sys2Proof.Machine
end

