-- ==== Sys2Proof/Machine/Control.lean ====
section
/-!
DEFINITION. Control instructions of Spenex (R121, R83).
-/

namespace Sys2Proof.Machine

open Sys2Proof

/-- The context at a branch target: the instruction's address plus 8 x IMM (R121). -/
def branchTo (f : Spx) (c : Ctx) : Ctx := { c with pc := c.pc + simm f * 8 }
/-- The job with its context changed, the pc included. -/
def jump (s : State) (tag : Nat) (j : Job) (g : Ctx → Ctx) : State := setJob s tag { j with ctx := g j.ctx }

/-- BR (R121). -/
def execBr (q : BitVec 7) (f : Spx) (s : State) : Out :=
  .next (spx q f 0x40 2 (fun s tag j => jump s tag j (branchTo f)) s)
/-- BC (R113, R121): one step not taken, two taken. -/
def execBc (q : BitVec 7) (f : Spx) (s : State) : Out :=
  .next (spx q f 0x41 1 (fun s tag j =>
    if condHolds (fnN f) j.ctx.flags then jump s tag { j with steps := j.steps + 1 } (branchTo f)
    else retire f s tag j id) s)
/-- JAL (R121). -/
def execJal (q : BitVec 7) (f : Spx) (s : State) : Out :=
  .next (spx q f 0x42 2
    (fun s tag j => jump s tag j fun c => branchTo f (setG c f.a (c.pc + 8))) s)
/-- JR (R121): bits [2:0] of the target are ignored. -/
def execJr (q : BitVec 7) (f : Spx) (s : State) : Out :=
  .next (spx q f 0x43 2
    (fun s tag j => jump s tag j fun c => { c with pc := gReg c f.a &&& ~~~7#64 }) s)
/-- NOP (R121). -/
def execNop (q : BitVec 7) (f : Spx) (s : State) : Out :=
  .next (pureOp q f 0x44 1 id s)
/-- END (R83, R121): the job ends with OK or SHORT. -/
def execEndJob (q : BitVec 7) (f : Spx) (s : State) : Out :=
  .next (spx q f 0x45 2
    (fun s tag _ => finishJob s tag (if fnN f = 0 then stOK else stSHORT) 0 0) s)

end Sys2Proof.Machine
end

