-- ==== Sys2Proof/Machine/RegRead.lean ====
section
/-!
DEFINITION. What a read of a BAR0 register returns (R12, R656): the stored word, with the fields that report the state of a block
computed from it, and 0 in write-only and reserved bits.
-/

namespace Sys2Proof.Machine

open Sys2Proof

/-- A word with a field set. -/
def setFld (w : W32) (f : Fld) (v : Nat) : W32 := BitVec.ofNat 32 (putBits w.toNat f.lsb f.w v)
/-- A word with a field set to a count that saturates. -/
def satFld (w : W32) (f : Fld) (v : Nat) : W32 := setFld w f (min v (2 ^ f.w - 1))
/-- 1 for true. -/
def bit1 (b : Bool) : Nat := if b then 1 else 0
/-- A mask with the bits of a list of numbers. -/
def maskOf (l : List Nat) (n : Nat) : Nat := ((List.range n).map fun i => if l.contains i then 2 ^ i else 0).foldl (· + ·) 0

/-- Lists of the index that `TIR_IDX_CMD` names that are due for a merge (R212). -/
def dueLists (s : State) : Nat :=
  let i := fget s F.TIR_IDX_CMD_INDEX
  match tfind s.tir.indexes i with
  | none => 0
  | some x => ((List.range x.lists).filter fun l => listDue x (listRoot s i l)).length

/-- The 64 bytes of a fault record (R620). -/
def faultBytes (r : FaultRec) : List Byte :=
  bytesOf 4 r.seq ++ bytesOf 1 r.block ++ bytesOf 1 r.kind ++ bytesOf 1 r.status ++ bytesOf 1 r.reason ++ bytesOf 8 r.time
    ++ bytesOf 1 r.die ++ bytesOf 1 r.cls ++ bytesOf 2 0 ++ bytesOf 4 r.inst ++ bytesOf 2 r.planId ++ bytesOf 2 r.dom ++ bytesOf 4 r.tag
    ++ bytesOf 8 r.pc ++ bytesOf 4 r.owner ++ bytesOf 2 r.ownerSeq ++ bytesOf 2 r.offSeq ++ bytesOf 8 r.addr ++ bytesOf 8 r.info
/-- Word `n` of the record that `PRB_FLT_SEL` selects; 0 when the log does not hold it (R633). -/
def faultWord (s : State) (n : Nat) : W32 :=
  match s.flt.log.find? fun r => r.seq == (rget s .PRB_FLT_SEL 0).toNat with
  | some r => BitVec.ofNat 32 (fieldOf (faultBytes r) (4 * n) 4)
  | none => 0

/-- `PRB_SHD_DATA` (R635). -/
def shdData (s : State) : W32 :=
  let i := fget s F.PRB_SHD_SEL_INDEX
  let k := shdKey (fget s F.PRB_SHD_SEL_CLASS) i
  match fget s F.PRB_SHD_SEL_VIEW with
  | 0 => BitVec.ofNat 32 (tget 0 s.flt.bins i)
  | 1 => match s.flt.plans[i]? with
    | some p => BitVec.ofNat 32 (p.2 + 65536 * p.1)
    | none => 0
  | 2 => BitVec.ofNat 32 (tget 0 s.flt.charge k + 65536 * bit1 (s.flt.quar.contains k))
  | _ => 0

/-- `PRB_YMAP` of the unit that `PRB_YMAP_SEL` selects, from step 5 (R583). The manual gives no STATE to a unit that quarantine has taken
out; it is a free value there. -/
def ymapWord (s : State) : W32 :=
  let c := fget s F.PRB_YMAP_SEL_CLASS
  let u := fget s F.PRB_YMAP_SEL_UNIT
  if fget s F.PRB_STEP_LAST < 5 || unitCount c ≤ u then regReset .PRB_YMAP
  else
    let st := if Config.badByFuse c u then 2 else if testOnly s c u then 3
      else match tfind s.prb.swaps (unitKey c u) with
        | some none => (freeWord s 0).toNat % 4
        | _ => if (logicalOf s c u).isSome then 0 else 1
    BitVec.ofNat 32 (st + 4 * ((logicalOf s c u).getD 0x7FF))

/-- `FAB_MAP_STAT` for the composition that `FAB_MAP_CMD` names (R480). -/
def mapStat (s : State) (w : W32) : W32 :=
  match tfind s.fab.comps (fget s F.FAB_MAP_CMD_COMP) with
  | none => w
  | some c => setFld (setFld (setFld w F.FAB_MAP_STAT_DRAINING (bit1 c.draining.isSome)) F.FAB_MAP_STAT_STAGED (bit1 c.staged.isSome))
      F.FAB_MAP_STAT_EPOCH ((c.current.map fun m => m.epoch).getD 0)

/-- `TIR_IDX_STAT` for the index that `TIR_IDX_CMD` names (R177). -/
def idxStat (s : State) (w : W32) : W32 :=
  match tfind s.tir.indexes (fget s F.TIR_IDX_CMD_INDEX) with
  | none => w
  | some x => setFld (setFld w F.TIR_IDX_STAT_INSTALLED 1) F.TIR_IDX_STAT_OVERRIDE (bit1 x.ovrCmd)

/-- `FAB_WIN_STAT` for the window that `FAB_WIN_CMD` names (R453). -/
def winStat (s : State) (w : W32) : W32 :=
  match tfind s.fab.windows (fget s F.FAB_WIN_CMD_WINDOW) with
  | none => w
  | some x => setFld (setFld w F.FAB_WIN_STAT_EXISTS 1) F.FAB_WIN_STAT_LEDGERED (bit1 (bitAt x.access 4))

/-- Word `i` of the configuration digest in force (R566). Before step 14 it holds its reset value. -/
def digWord (s : State) (i : Nat) : W32 :=
  if fget s F.PRB_STEP_LAST < 14 then 0 else BitVec.ofNat 32 ((cfgDigest s).toNat / 2 ^ (32 * i))

/-- The selected entry of a staged gate list (R534). -/
def gateEntry (s : State) : W64 :=
  let x := portOf s (fget s F.TRF_GL_SEL_PORT)
  tget 0 x.words (fget s F.TRF_GL_SEL_ENTRY)

/-- Logical flash pages in GiB (R424): 65,536 pages of 16 KiB each. -/
def pagesGib (n : Nat) : Nat := n / 65536

/-- The fields of a register that report the state of a block. -/
def regLive (s : State) (r : Reg) (b : Nat) (w : W32) : W32 :=
  match r with
  | .DSP_SERIES => satFld w F.DSP_SERIES_ACTIVE s.exec.series.length
  | .FAB_INFLIGHT => satFld (satFld w F.FAB_INFLIGHT_REMOTE s.fab.ops.length) F.FAB_INFLIGHT_COPIES_IN s.fab.copies.length
  | .FAB_MAP_STAT => mapStat s w
  | .FAB_WIN_STAT => winStat s w
  | .FLS_CAPACITY => satFld w F.FLS_CAPACITY_V (pagesGib s.fls.capacity)
  | .FLS_USED => satFld w F.FLS_USED_V (pagesGib s.fls.map.length)
  | .FLS_CHAN_LO => BitVec.ofNat 32 (maskOf s.fls.inService 32)
  | .FLS_CHAN_HI => BitVec.ofNat 32 (maskOf s.fls.inService 64 / 2 ^ 32)
  | .FLS_POL => if b = 256 || (tfind s.tir.indexes b).isSome then w else 0
  | .PRB_DIE_ID_LO => if fget s F.PRB_STEP_LAST < 2 then w else (Config.dieId (fget s F.PRB_DIE_SEL_V)).setWidth 32
  | .PRB_DIE_ID_HI => if fget s F.PRB_STEP_LAST < 2 then w else ((Config.dieId (fget s F.PRB_DIE_SEL_V)) >>> 32).setWidth 32
  | .PRB_FLT_STAT => satFld w F.PRB_FLT_STAT_COUNT s.flt.log.length
  | .PRB_FLT_NEWEST => BitVec.ofNat 32 (newestFault s)
  | .PRB_FLT_WORD0 => faultWord s 0
  | .PRB_FLT_WORD1 => faultWord s 1
  | .PRB_FLT_WORD2 => faultWord s 2
  | .PRB_FLT_WORD3 => faultWord s 3
  | .PRB_FLT_WORD4 => faultWord s 4
  | .PRB_FLT_WORD5 => faultWord s 5
  | .PRB_FLT_WORD6 => faultWord s 6
  | .PRB_FLT_WORD7 => faultWord s 7
  | .PRB_FLT_WORD8 => faultWord s 8
  | .PRB_FLT_WORD9 => faultWord s 9
  | .PRB_FLT_WORD10 => faultWord s 10
  | .PRB_FLT_WORD11 => faultWord s 11
  | .PRB_FLT_WORD12 => faultWord s 12
  | .PRB_FLT_WORD13 => faultWord s 13
  | .PRB_FLT_WORD14 => faultWord s 14
  | .PRB_FLT_WORD15 => faultWord s 15
  | .PRB_OVC_STAT => setFld w F.PRB_OVC_STAT_STACKS_OUT s.flt.stacksOut.length
  | .PRB_SHD_DATA => shdData s
  | .PRB_YMAP => ymapWord s
  | .SEQ_BE_STAT => setFld w F.SEQ_BE_STAT_PARKED (parkedCount s)
  | .SEQ_OCCUPANCY => setFld w F.SEQ_OCCUPANCY_RUNNING s.exec.seqs.length
  | .SEQ_PLAN_LOADED => setFld w F.SEQ_PLAN_LOADED_V s.exec.plans.length
  | .SMC_CFG_CTL => setFld w F.SMC_CFG_CTL_MISMATCH (bit1 (fget s F.SMC_CFG_CTL_MISMATCH == 1 && cfgDigest s != s.smc.expect))
  | .SMC_CFG_DIG0 => digWord s 0
  | .SMC_CFG_DIG1 => digWord s 1
  | .SMC_CFG_DIG2 => digWord s 2
  | .SMC_CFG_DIG3 => digWord s 3
  | .SMC_CFG_DIG4 => digWord s 4
  | .SMC_CFG_DIG5 => digWord s 5
  | .SMC_CFG_DIG6 => digWord s 6
  | .SMC_CFG_DIG7 => digWord s 7
  | .SMC_DOM_STAT => setFld w F.SMC_DOM_STAT_STATE (domOf s (fget s F.SMC_DOM_CMD_DOMAIN)).state
  | .SMC_EXPEL_STAT => setFld w F.SMC_EXPEL_STAT_V (bit1 (s.smc.expelled.contains (fget s F.SMC_EXPEL_SEL_V)))
  | .SMC_TENANCY => setFld w F.SMC_TENANCY_TIMING_CLEAN (bit1 (timingClean s))
  | .SMC_TIME_LO => BitVec.ofNat 32 s.now
  | .STK_ECC_STAT => setFld w F.STK_ECC_STAT_OUT (bit1 (s.flt.stacksOut.contains b))
  | .STK_NBU_STORE => setFld w F.STK_NBU_STORE_PLAN_FREE (96 - (s.exec.plans.map fun p => p.2.micro.length).foldl (· + ·) 0)
  | .TIR_EPOCH_LO => BitVec.ofNat 32 s.tir.epoch
  | .TIR_EPOCH_HI => BitVec.ofNat 32 s.tir.epochHi
  | .TIR_HOLD_LO => BitVec.ofNat 32 (oldestHold s)
  | .TIR_HOLD_HI => BitVec.ofNat 32 s.tir.holdHi
  | .TIR_IDX_STAT => idxStat s w
  | .TIR_MERGE_DUE => satFld w F.TIR_MERGE_DUE_V (dueLists s)
  | .TIR_MERGE_STAT => setFld (satFld w F.TIR_MERGE_STAT_OPEN (s.tir.merges.filter fun p => !p.2.hotset).length) F.TIR_MERGE_STAT_RECOVERING
      (bit1 (s.tir.merges.any fun p => p.2.recovering))
  | .TIR_MIG_STAT => satFld w F.TIR_MIG_STAT_ACTIVE (s.tir.pages.filter fun p => p.2.mig.isSome).length
  | .TIR_PIN_STAT => satFld w F.TIR_PIN_STAT_PINS s.tir.pins.length
  | .TIR_RGN_COUNT => satFld w F.TIR_RGN_COUNT_REGIONS s.tir.regions.length
  | .TRF_GL_LO => (gateEntry s).setWidth 32
  | .TRF_GL_HI => ((gateEntry s) >>> 32).setWidth 32
  | _ => w

/-- A read of a register by the host (R12, R572): all ones where its block does not answer yet. -/
def regRead (s : State) (r : Reg) (inst : Nat) : W32 :=
  let b := regBank s r inst
  if !blockAnswers s (regBlock r) then BitVec.allOnes 32 else regLive s r b (rget s r b)

end Sys2Proof.Machine
end

