-- ==== Sys2Proof/Machine/Directory.lean ====
section
/-!
DEFINITION. The register directory of every block of BAR0 (R651 to R655): header and entries. The manual fixes the offsets of some
registers; the others are those of the part, `Config.regOffset`.
-/

namespace Sys2Proof.Machine

open Sys2Proof

/-- Name of a register as a directory entry spells it. -/
def regName : Reg → String
  | .HIU_APT_BASE_HI => "HIU_APT_BASE_HI"
  | .HIU_APT_BASE_LO => "HIU_APT_BASE_LO"
  | .HIU_APT_DOM => "HIU_APT_DOM"
  | .HIU_APT_SEL => "HIU_APT_SEL"
  | .HIU_DOM_PASID => "HIU_DOM_PASID"
  | .HIU_DOM_SEL => "HIU_DOM_SEL"
  | .HIU_EQ_BASE_HI => "HIU_EQ_BASE_HI"
  | .HIU_EQ_BASE_LO => "HIU_EQ_BASE_LO"
  | .HIU_EQ_CTL => "HIU_EQ_CTL"
  | .HIU_EQ_SEL => "HIU_EQ_SEL"
  | .HIU_EQ_STAT => "HIU_EQ_STAT"
  | .HIU_EVQ_SYS => "HIU_EVQ_SYS"
  | .HIU_EVQ_SYS_HEAD => "HIU_EVQ_SYS_HEAD"
  | .HIU_LINK_STAT => "HIU_LINK_STAT"
  | .HIU_PAGE_DOM => "HIU_PAGE_DOM"
  | .HIU_PAGE_SEL => "HIU_PAGE_SEL"
  | .HIU_SQ_BASE_HI => "HIU_SQ_BASE_HI"
  | .HIU_SQ_BASE_LO => "HIU_SQ_BASE_LO"
  | .HIU_SQ_CTL => "HIU_SQ_CTL"
  | .HIU_SQ_SEL => "HIU_SQ_SEL"
  | .HIU_SQ_STAT => "HIU_SQ_STAT"
  | .HIU_STAT => "HIU_STAT"
  | .DSP_BE_SET0 => "DSP_BE_SET0"
  | .DSP_BE_SET1 => "DSP_BE_SET1"
  | .DSP_BE_SET2 => "DSP_BE_SET2"
  | .DSP_BE_SET3 => "DSP_BE_SET3"
  | .DSP_CNT_ADM => "DSP_CNT_ADM"
  | .DSP_CNT_DONE => "DSP_CNT_DONE"
  | .DSP_CNT_LATE => "DSP_CNT_LATE"
  | .DSP_CNT_POL => "DSP_CNT_POL"
  | .DSP_DOM_SEL => "DSP_DOM_SEL"
  | .DSP_INTAKE_CAP => "DSP_INTAKE_CAP"
  | .DSP_LC_SET0 => "DSP_LC_SET0"
  | .DSP_LC_SET1 => "DSP_LC_SET1"
  | .DSP_LC_SET2 => "DSP_LC_SET2"
  | .DSP_LC_SET3 => "DSP_LC_SET3"
  | .DSP_POL => "DSP_POL"
  | .DSP_SERIES => "DSP_SERIES"
  | .DSP_SET_STAT => "DSP_SET_STAT"
  | .SEQ_BE_STAT => "SEQ_BE_STAT"
  | .SEQ_OCCUPANCY => "SEQ_OCCUPANCY"
  | .SEQ_OVERRIDE_CNT => "SEQ_OVERRIDE_CNT"
  | .SEQ_PLAN_CAP => "SEQ_PLAN_CAP"
  | .SEQ_PLAN_LOADED => "SEQ_PLAN_LOADED"
  | .SEQ_STALE_PULSE => "SEQ_STALE_PULSE"
  | .SEQ_VIOL_CNT => "SEQ_VIOL_CNT"
  | .SKC_STAT => "SKC_STAT"
  | .STK_DEFER_MAX => "STK_DEFER_MAX"
  | .STK_ECC_STAT => "STK_ECC_STAT"
  | .STK_NBU_STAT => "STK_NBU_STAT"
  | .STK_NBU_STORE => "STK_NBU_STORE"
  | .FLS_CAPACITY => "FLS_CAPACITY"
  | .FLS_CHAN_HI => "FLS_CHAN_HI"
  | .FLS_CHAN_LO => "FLS_CHAN_LO"
  | .FLS_DSC_ADDR_HI => "FLS_DSC_ADDR_HI"
  | .FLS_DSC_ADDR_LO => "FLS_DSC_ADDR_LO"
  | .FLS_DSC_CMD => "FLS_DSC_CMD"
  | .FLS_GEOM => "FLS_GEOM"
  | .FLS_MEDIA_CTL => "FLS_MEDIA_CTL"
  | .FLS_MEDIA_STAT => "FLS_MEDIA_STAT"
  | .FLS_POL => "FLS_POL"
  | .FLS_POL_SEL => "FLS_POL_SEL"
  | .FLS_SCORE_CAP => "FLS_SCORE_CAP"
  | .FLS_SCORE_STAT => "FLS_SCORE_STAT"
  | .FLS_USED => "FLS_USED"
  | .SEL_CAP => "SEL_CAP"
  | .SEL_STAT => "SEL_STAT"
  | .SCA_CAP => "SCA_CAP"
  | .SCA_STAT => "SCA_STAT"
  | .TBE_CAP => "TBE_CAP"
  | .TBE_STAT => "TBE_STAT"
  | .TIR_EPOCH_CTL => "TIR_EPOCH_CTL"
  | .TIR_EPOCH_HI => "TIR_EPOCH_HI"
  | .TIR_EPOCH_LO => "TIR_EPOCH_LO"
  | .TIR_HOLD_HI => "TIR_HOLD_HI"
  | .TIR_HOLD_LO => "TIR_HOLD_LO"
  | .TIR_IDX_CMD => "TIR_IDX_CMD"
  | .TIR_IDX_DESC_HI => "TIR_IDX_DESC_HI"
  | .TIR_IDX_DESC_LO => "TIR_IDX_DESC_LO"
  | .TIR_IDX_OVL => "TIR_IDX_OVL"
  | .TIR_IDX_STAT => "TIR_IDX_STAT"
  | .TIR_MERGE_DUE => "TIR_MERGE_DUE"
  | .TIR_MERGE_STAT => "TIR_MERGE_STAT"
  | .TIR_MIG_STAT => "TIR_MIG_STAT"
  | .TIR_PIN_STAT => "TIR_PIN_STAT"
  | .TIR_RGN_CMD => "TIR_RGN_CMD"
  | .TIR_RGN_COUNT => "TIR_RGN_COUNT"
  | .TIR_RGN_DESC_HI => "TIR_RGN_DESC_HI"
  | .TIR_RGN_DESC_LO => "TIR_RGN_DESC_LO"
  | .TIR_RGN_STAT => "TIR_RGN_STAT"
  | .DMA_ERR => "DMA_ERR"
  | .DMA_ERR_ADDR_HI => "DMA_ERR_ADDR_HI"
  | .DMA_ERR_ADDR_LO => "DMA_ERR_ADDR_LO"
  | .FAB_HO_CMD => "FAB_HO_CMD"
  | .FAB_HO_DESC_HI => "FAB_HO_DESC_HI"
  | .FAB_HO_DESC_LO => "FAB_HO_DESC_LO"
  | .FAB_HO_STAT => "FAB_HO_STAT"
  | .FAB_INFLIGHT => "FAB_INFLIGHT"
  | .FAB_MAP_CMD => "FAB_MAP_CMD"
  | .FAB_MAP_DESC_HI => "FAB_MAP_DESC_HI"
  | .FAB_MAP_DESC_LO => "FAB_MAP_DESC_LO"
  | .FAB_MAP_REASON => "FAB_MAP_REASON"
  | .FAB_MAP_STAT => "FAB_MAP_STAT"
  | .FAB_MINPORTS => "FAB_MINPORTS"
  | .FAB_NODE => "FAB_NODE"
  | .FAB_PORT_CMD => "FAB_PORT_CMD"
  | .FAB_PORT_STAT => "FAB_PORT_STAT"
  | .FAB_WIN_CMD => "FAB_WIN_CMD"
  | .FAB_WIN_DESC_HI => "FAB_WIN_DESC_HI"
  | .FAB_WIN_DESC_LO => "FAB_WIN_DESC_LO"
  | .FAB_WIN_STAT => "FAB_WIN_STAT"
  | .FAB_XACT_STAT => "FAB_XACT_STAT"
  | .TRF_DOMQ => "TRF_DOMQ"
  | .TRF_DOMQ_SEL => "TRF_DOMQ_SEL"
  | .TRF_GL_CTL => "TRF_GL_CTL"
  | .TRF_GL_HI => "TRF_GL_HI"
  | .TRF_GL_HZN_HI => "TRF_GL_HZN_HI"
  | .TRF_GL_HZN_LO => "TRF_GL_HZN_LO"
  | .TRF_GL_LO => "TRF_GL_LO"
  | .TRF_GL_SEL => "TRF_GL_SEL"
  | .TRF_ING => "TRF_ING"
  | .TRF_ING_DROP => "TRF_ING_DROP"
  | .TRF_ING_SEL => "TRF_ING_SEL"
  | .TRF_QW0 => "TRF_QW0"
  | .TRF_QW1 => "TRF_QW1"
  | .TRF_QW2 => "TRF_QW2"
  | .TRF_QW3 => "TRF_QW3"
  | .TRF_QW_SEL => "TRF_QW_SEL"
  | .TRF_SMP_BASE_HI => "TRF_SMP_BASE_HI"
  | .TRF_SMP_BASE_LO => "TRF_SMP_BASE_LO"
  | .TRF_SMP_CTL => "TRF_SMP_CTL"
  | .TRF_SMP_DOM => "TRF_SMP_DOM"
  | .TRF_SMP_HEAD => "TRF_SMP_HEAD"
  | .TRF_SMP_STAT => "TRF_SMP_STAT"
  | .SMC_CFG_CTL => "SMC_CFG_CTL"
  | .SMC_CFG_DIG0 => "SMC_CFG_DIG0"
  | .SMC_CFG_DIG1 => "SMC_CFG_DIG1"
  | .SMC_CFG_DIG2 => "SMC_CFG_DIG2"
  | .SMC_CFG_DIG3 => "SMC_CFG_DIG3"
  | .SMC_CFG_DIG4 => "SMC_CFG_DIG4"
  | .SMC_CFG_DIG5 => "SMC_CFG_DIG5"
  | .SMC_CFG_DIG6 => "SMC_CFG_DIG6"
  | .SMC_CFG_DIG7 => "SMC_CFG_DIG7"
  | .SMC_CFG_EPOCH_HI => "SMC_CFG_EPOCH_HI"
  | .SMC_CFG_EPOCH_LO => "SMC_CFG_EPOCH_LO"
  | .SMC_CFG_EXP0 => "SMC_CFG_EXP0"
  | .SMC_CFG_EXP1 => "SMC_CFG_EXP1"
  | .SMC_CFG_EXP2 => "SMC_CFG_EXP2"
  | .SMC_CFG_EXP3 => "SMC_CFG_EXP3"
  | .SMC_CFG_EXP4 => "SMC_CFG_EXP4"
  | .SMC_CFG_EXP5 => "SMC_CFG_EXP5"
  | .SMC_CFG_EXP6 => "SMC_CFG_EXP6"
  | .SMC_CFG_EXP7 => "SMC_CFG_EXP7"
  | .SMC_CFG_HZN_HI => "SMC_CFG_HZN_HI"
  | .SMC_CFG_HZN_LO => "SMC_CFG_HZN_LO"
  | .SMC_CFG_STG_HI => "SMC_CFG_STG_HI"
  | .SMC_CFG_STG_LO => "SMC_CFG_STG_LO"
  | .SMC_DOM_CMD => "SMC_DOM_CMD"
  | .SMC_DOM_STAT => "SMC_DOM_STAT"
  | .SMC_EXPEL_SEL => "SMC_EXPEL_SEL"
  | .SMC_EXPEL_STAT => "SMC_EXPEL_STAT"
  | .SMC_FENCE_STAT => "SMC_FENCE_STAT"
  | .SMC_LIFECYCLE => "SMC_LIFECYCLE"
  | .SMC_MGMT_CTL => "SMC_MGMT_CTL"
  | .SMC_MGR_DIG0 => "SMC_MGR_DIG0"
  | .SMC_MGR_DIG1 => "SMC_MGR_DIG1"
  | .SMC_MGR_DIG2 => "SMC_MGR_DIG2"
  | .SMC_MGR_DIG3 => "SMC_MGR_DIG3"
  | .SMC_MGR_DIG4 => "SMC_MGR_DIG4"
  | .SMC_MGR_DIG5 => "SMC_MGR_DIG5"
  | .SMC_MGR_DIG6 => "SMC_MGR_DIG6"
  | .SMC_MGR_DIG7 => "SMC_MGR_DIG7"
  | .SMC_MGR_SEL => "SMC_MGR_SEL"
  | .SMC_PART_DMA_HI => "SMC_PART_DMA_HI"
  | .SMC_PART_DMA_LO => "SMC_PART_DMA_LO"
  | .SMC_PART_ENG => "SMC_PART_ENG"
  | .SMC_PART_SEL => "SMC_PART_SEL"
  | .SMC_PART_SEQ0 => "SMC_PART_SEQ0"
  | .SMC_PART_SEQ1 => "SMC_PART_SEQ1"
  | .SMC_PART_SEQ2 => "SMC_PART_SEQ2"
  | .SMC_PART_SEQ3 => "SMC_PART_SEQ3"
  | .SMC_PTP_CTL => "SMC_PTP_CTL"
  | .SMC_PTP_OFFSET => "SMC_PTP_OFFSET"
  | .SMC_PTP_STAT => "SMC_PTP_STAT"
  | .SMC_TENANCY => "SMC_TENANCY"
  | .SMC_TIME_HI => "SMC_TIME_HI"
  | .SMC_TIME_LO => "SMC_TIME_LO"
  | .PRB_DIE_ID_HI => "PRB_DIE_ID_HI"
  | .PRB_DIE_ID_LO => "PRB_DIE_ID_LO"
  | .PRB_DIE_SEL => "PRB_DIE_SEL"
  | .PRB_ECC_STAT => "PRB_ECC_STAT"
  | .PRB_FDOM => "PRB_FDOM"
  | .PRB_FLT_NEWEST => "PRB_FLT_NEWEST"
  | .PRB_FLT_SEL => "PRB_FLT_SEL"
  | .PRB_FLT_STAT => "PRB_FLT_STAT"
  | .PRB_FLT_WORD0 => "PRB_FLT_WORD0"
  | .PRB_FLT_WORD1 => "PRB_FLT_WORD1"
  | .PRB_FLT_WORD10 => "PRB_FLT_WORD10"
  | .PRB_FLT_WORD11 => "PRB_FLT_WORD11"
  | .PRB_FLT_WORD12 => "PRB_FLT_WORD12"
  | .PRB_FLT_WORD13 => "PRB_FLT_WORD13"
  | .PRB_FLT_WORD14 => "PRB_FLT_WORD14"
  | .PRB_FLT_WORD15 => "PRB_FLT_WORD15"
  | .PRB_FLT_WORD2 => "PRB_FLT_WORD2"
  | .PRB_FLT_WORD3 => "PRB_FLT_WORD3"
  | .PRB_FLT_WORD4 => "PRB_FLT_WORD4"
  | .PRB_FLT_WORD5 => "PRB_FLT_WORD5"
  | .PRB_FLT_WORD6 => "PRB_FLT_WORD6"
  | .PRB_FLT_WORD7 => "PRB_FLT_WORD7"
  | .PRB_FLT_WORD8 => "PRB_FLT_WORD8"
  | .PRB_FLT_WORD9 => "PRB_FLT_WORD9"
  | .PRB_GOV => "PRB_GOV"
  | .PRB_ID => "PRB_ID"
  | .PRB_ID_FW => "PRB_ID_FW"
  | .PRB_OVC_STAT => "PRB_OVC_STAT"
  | .PRB_PACE_CTL => "PRB_PACE_CTL"
  | .PRB_PACE_MON => "PRB_PACE_MON"
  | .PRB_POWER => "PRB_POWER"
  | .PRB_PWR_STAT => "PRB_PWR_STAT"
  | .PRB_RESET => "PRB_RESET"
  | .PRB_SHD_CTL => "PRB_SHD_CTL"
  | .PRB_SHD_DATA => "PRB_SHD_DATA"
  | .PRB_SHD_SEL => "PRB_SHD_SEL"
  | .PRB_STEP => "PRB_STEP"
  | .PRB_STEP_ARG0 => "PRB_STEP_ARG0"
  | .PRB_STEP_ARG1 => "PRB_STEP_ARG1"
  | .PRB_STEP_ARG2 => "PRB_STEP_ARG2"
  | .PRB_STEP_STAT => "PRB_STEP_STAT"
  | .PRB_THERM => "PRB_THERM"
  | .PRB_THERM_SEL => "PRB_THERM_SEL"
  | .PRB_WAKETOL => "PRB_WAKETOL"
  | .PRB_YMAP => "PRB_YMAP"
  | .PRB_YMAP_SEL => "PRB_YMAP_SEL"

/-- Number of registers. -/
def regCount : Nat := 233
/-- Every register, block by block, each block's in ascending order of their names. -/
def allRegs : List Reg := (List.range regCount).map Reg.ofNat
/-- Prefixes of the blocks, by block number (R651). -/
def blockPrefix (b : Nat) : String :=
  ["HIU", "DSP", "SEQ", "SKC", "NBU", "STK", "FLS", "SEL", "SCA", "TBE", "TIR", "DMA", "FAB", "TRF", "SMC", "PRB"].getD (b - 1) ""
/-- ASCII bytes of a name, padded with zeros to `n`. -/
def asciiPad (s : String) (n : Nat) : List Byte := ((s.toList.map fun c => BitVec.ofNat 8 c.toNat) ++ List.replicate n (0 : Byte)).take n

/-- The block a register lies in, by its name's prefix. -/
def dirRegs (b : Nat) : List Reg := if b = 5 then [] else allRegs.filter fun r => regBlock r == b
/-- Instances of a register and their stride in units of 4 KiB (R652, R653). -/
def dirInsts (r : Reg) : Nat :=
  match r with
  | .STK_NBU_STAT | .STK_DEFER_MAX | .STK_NBU_STORE | .STK_ECC_STAT => 20
  | .FAB_PORT_STAT => 8
  | _ => 1
/-- Offset of a register within its block: fixed by the manual (R654), or of the part. -/
def regOffset (r : Reg) : Nat :=
  match r with
  | .PRB_ID | .SMC_LIFECYCLE | .HIU_EVQ_SYS => 0x1000
  | .PRB_ID_FW | .HIU_EVQ_SYS_HEAD => 0x1004
  | .PRB_STEP => 0x1010
  | .PRB_STEP_STAT => 0x1014
  | .PRB_STEP_ARG0 => 0x1018
  | .PRB_STEP_ARG1 => 0x101C
  | .PRB_STEP_ARG2 => 0x1020
  | .PRB_FDOM => 0x1040
  | _ => Config.regOffset r.ctorIdx
/-- One entry of a directory, 32 bytes (R653). -/
def dirEntry (r : Reg) : List Byte :=
  asciiPad (regName r) 24 ++ bytesOf 4 (regOffset r % 2 ^ 24) ++ bytesOf 2 (dirInsts r) ++ bytesOf 2 (if dirInsts r = 1 then 0 else 16)
/-- The directory of a block, 4 KiB (R653): header, entries, zeros. -/
def directory (b : Nat) : List Byte :=
  let l := dirRegs b
  let d := bytesOf 4 1 ++ bytesOf 2 l.length ++ bytesOf 1 b ++ bytesOf 1 0 ++ asciiPad (blockPrefix b) 4 ++ List.replicate 20 (0 : Byte)
    ++ l.flatMap dirEntry
  d ++ List.replicate (4096 - d.length) (0 : Byte)

end Sys2Proof.Machine
end

