-- ==== Sys2Proof/Machine/RegWrite.lean ====
section
/-!
DEFINITION. REGISTER_WRITE (R12, R13, R655, R656): the effect of a host write on every register of BAR0. A register whose write starts a
command or has rows of its own acts as those rows do.
-/

namespace Sys2Proof.Machine

open Sys2Proof

/-! ### Steps of bring-up -/

/-- A free truth value. -/
def freeBit (s : State) (i : Nat) : Bool := (freeWord s i).getLsbD 0
/-- Free units of the die: class and number. -/
def freeUnits (s : State) : List (Nat × Nat) := (Config.freeList s.freeCtr).map fun n => (n / 2 ^ 20 % 7, n % 2 ^ 20)
/-- A free flash part. -/
def freePart (s : State) : FlashPart :=
  { targets := (freeWord s 1).toNat % 16, luns := (freeWord s 2).toNat % 64, planes := 2 ^ ((freeWord s 3).toNat % 3)
    mpRead := freeBit s 4, mpProg := freeBit s 5, suspend := freeBit s 6, vccqLow := freeBit s 7, rate := (freeWord s 8).toNat % 4096
    blocksPerLun := (freeWord s 9).toNat, pagesPerBlock := (freeWord s 10).toNat, unusable := Config.freeList (s.freeCtr + 1) }
/-- How a step starts when its surroundings are not named: what they decide is free. -/
def stepFree (n : Nat) (s : State) : State × StepRun :=
  match n with
  | 1 => (freeNext s, .rails (freeBit s 0) (freeBit s 1) (freeBit s 2))
  | 2 => (freeNext s, .fuses (freeBit s 0))
  | 3 => (freeNext s, .firstStage (freeBit s 0))
  | 4 => (freeNext s, .bist (freeUnits s))
  | 5 => (s, .ymap)
  | 6 => (freeNext (dmaRestart s), .image (rpair s .PRB_STEP_ARG0 .PRB_STEP_ARG1) (rget s .PRB_STEP_ARG2 0).toNat (freeBit s 0)
      (if freeBit s 1 then some (freeWord s 2).toNat else none))
  | 7 => (freeNext s, .broadcast (freeBit s 0))
  | 8 => (freeNext s, .training (Config.freeList s.freeCtr))
  | 9 => (freeNext (freeNext s), .discovery (freePart s) (Config.freeList s.freeCtr))
  | 10 => portsStart s
  | 11 => lanesStart s
  | 12 => (s, .pcie)
  | 13 => timeStart s
  | 14 => (freeNext s, .config (bitAt (rget s .PRB_STEP_ARG2 0).toNat 0) (freeBit s 0) (freeWord s 1).toNat)
  | _ => (s, .ready)
/-- A write of `PRB_STEP` (R574, R577): 0 is ignored. -/
def stepCmd (v : W32) (s : State) : State := let n := bitsOf v.toNat 0 4; if n = 0 then s else stepStart n (stepFree n) s

/-! ### Registers with rules of their own -/

/-- A word with bit 31 left at 0 unless a condition holds: VALID or ENABLE of a domain that is not ACTIVE (R540). -/
def keepTop (ok : Bool) (v : W32) : W32 := if ok then v else v &&& 0x7FFFFFFF
/-- `HIU_PAGE_DOM`, `HIU_APT_DOM` (R488, R490, R540): bits [11:0] name the domain. -/
def domReg (r : Reg) (v : W32) (s : State) : State := regWritePlain s r (regBank s r 0) (keepTop (domActive s (bitsOf v.toNat 0 12)) v)
/-- `HIU_DOM_PASID` (R505, R540): `HIU_DOM_SEL` names the domain. -/
def pasidReg (v : W32) (s : State) : State :=
  let d := fget s F.HIU_DOM_SEL_V
  regWritePlain s .HIU_DOM_PASID d (keepTop (domActive s d) v)
/-- A write that is ignored while a condition holds. -/
def heldReg (busy : Bool) (r : Reg) (v : W32) (s : State) : State := if busy then s else regWritePlain s r (regBank s r 0) v

/-- The members of a class that its other registers name. -/
def otherSets (s : State) (r : Reg) (l : List Reg) : Bool := l.any fun x => x != r && rget s x 0 != 0
/-- A write of an allowed set (R516, R517). -/
def setReg (r : Reg) (l : List Reg) (v : W32) (s : State) : State :=
  if v = 0 && !otherSets s r l then fset s F.DSP_SET_STAT_V 1 else regWritePlain s r 0 v
/-- The registers of the latency-critical and of the best-effort set. -/
def lcSets : List Reg := [.DSP_LC_SET0, .DSP_LC_SET1, .DSP_LC_SET2, .DSP_LC_SET3]
def beSets : List Reg := [.DSP_BE_SET0, .DSP_BE_SET1, .DSP_BE_SET2, .DSP_BE_SET3]

/-- A count register that a write of any value clears (R12). -/
def clearReg (r : Reg) (s : State) : State := rset s r (regBank s r 0) 0
/-- A write that starts a command when its OP bits are not 0. -/
def opReg (r : Reg) (lo : Nat) (start : Nat → State → State) (v : W32) (s : State) : State :=
  let s1 := regWritePlain s r 0 v
  let op := bitsOf v.toNat lo 4
  if op = 0 then s1 else start op s1
/-- `TIR_MIG_STAT` (R400). -/
def migReg (v : W32) (s : State) : State :=
  let s1 := regWritePlain s .TIR_MIG_STAT 0 v
  if v.getLsbD 31 then fset s1 F.TIR_MIG_STAT_FINAL_MAX 0 else s1
/-- `DMA_ERR` (R512). -/
def dmaReg (v : W32) (s : State) : State :=
  let s1 := regWritePlain s .DMA_ERR 0 v
  if v.getLsbD 31 then dmaRestart s1 else s1
/-- `FLS_POL` (R426): of an index that is not installed it is ignored. -/
def polReg (v : W32) (s : State) : State :=
  let b := regBank s .FLS_POL 0
  if b = 256 || (tfind s.tir.indexes b).isSome then regWritePlain s .FLS_POL b v else s
/-- `SMC_TENANCY` (R546): MODE is ignored while any domain is not FREE. -/
def tenancyReg (v : W32) (s : State) : State :=
  if s.smc.doms.any fun p => p.2.state != 0 then
    regWritePlain s .SMC_TENANCY 0 ((v &&& 0xFFFFFFFE) ||| BitVec.ofNat 32 (fget s F.SMC_TENANCY_MODE))
  else regWritePlain s .SMC_TENANCY 0 v

/-- The effect of a write on a register whose block answers. -/
def regEffect (r : Reg) (inst : Nat) (v : W32) (s : State) : State :=
  match r with
  | .HIU_SQ_CTL => sqCtl v s
  | .HIU_EQ_CTL => eqCtl v s
  | .HIU_SQ_BASE_LO | .HIU_SQ_BASE_HI => heldReg (fget s F.HIU_SQ_CTL_ENABLE (fget s F.HIU_SQ_SEL_V) == 1) r v s
  | .HIU_EQ_BASE_LO | .HIU_EQ_BASE_HI => heldReg (fget s F.HIU_EQ_CTL_ENABLE (fget s F.HIU_EQ_SEL_V) == 1) r v s
  | .HIU_EVQ_SYS_HEAD => sysEqHead v s
  | .HIU_PAGE_DOM | .HIU_APT_DOM => domReg r v s
  | .HIU_DOM_PASID => pasidReg v s
  | .DSP_LC_SET0 | .DSP_LC_SET1 | .DSP_LC_SET2 | .DSP_LC_SET3 => setReg r lcSets v s
  | .DSP_BE_SET0 | .DSP_BE_SET1 | .DSP_BE_SET2 | .DSP_BE_SET3 => setReg r beSets v s
  | .DSP_POL => polWrite v s
  | .DSP_SERIES => seriesWrite v s
  | .DSP_CNT_ADM | .DSP_CNT_DONE | .DSP_CNT_LATE | .DSP_CNT_POL => countClear r s
  | .SEQ_VIOL_CNT | .SEQ_STALE_PULSE | .TRF_ING_DROP | .TIR_IDX_OVL => clearReg r s
  | .STK_DEFER_MAX => if v.getLsbD 31 then fset s F.STK_DEFER_MAX_MAX 0 inst else s
  | .FLS_DSC_CMD => flsDiscard v s
  | .FLS_POL => polReg v s
  | .TIR_IDX_CMD => opReg .TIR_IDX_CMD 20 indexBegin v s
  | .TIR_RGN_CMD => opReg .TIR_RGN_CMD 12 regionBegin v s
  | .TIR_MIG_STAT => migReg v s
  | .DMA_ERR => dmaReg v s
  | .FAB_MAP_CMD => mapCmd v s
  | .FAB_HO_CMD => hoCmd v s
  | .FAB_PORT_CMD => portCmd v s
  | .FAB_WIN_CMD => opReg .FAB_WIN_CMD 12 windowBegin v s
  | .FAB_MINPORTS => countPorts (regWritePlain s .FAB_MINPORTS 0 v)
  | .TRF_GL_CTL => gateCtl v s
  | .TRF_GL_LO => gateWord false v s
  | .TRF_GL_HI => gateWord true v s
  | .TRF_SMP_CTL => smpCtl v s
  | .TRF_SMP_DOM | .TRF_SMP_BASE_LO | .TRF_SMP_BASE_HI => heldReg (fget s F.TRF_SMP_CTL_ENABLE == 1) r v s
  | .SMC_CFG_CTL => cfgCtl v s
  | .SMC_DOM_CMD => opReg .SMC_DOM_CMD 12 domBegin v s
  | .SMC_LIFECYCLE => lifecycle v s
  | .SMC_TENANCY => tenancyReg v s
  | .PRB_PACE_MON => clrMin v s
  | .PRB_POWER => powerClr v s
  | .PRB_THERM => thermClr v s
  | .PRB_WAKETOL => waketolWrite v s
  | .PRB_RESET => resetCmd v s
  | .PRB_SHD_CTL => shdCtl v s
  | .PRB_STEP => stepCmd v s
  | _ => regWritePlain s r (regBank s r inst) v

/-- REGISTER_WRITE: an offset that holds no register, so an instance that does not exist, is ignored (R655). -/
def registerWrite (r : Reg) (inst : Nat) (v : W32) (s : State) : State :=
  if inst < dirInsts r then hostReg s r (.reg r inst v) (regEffect r inst v) else s
/-- A host write to a register. -/
def execRegisterWrite (r : Reg) (inst : Nat) (v : W32) (s : State) : Out := .next (registerWrite r inst v s)

end Sys2Proof.Machine
end

