-- ==== Sys2Proof/Machine/HostOrder.lean ====
section
/-!
DEFINITION. The order in which host accesses to BAR0, BAR2 and BAR4 take effect (R651, R656), the end of a wake (R607), and the tick.
-/

namespace Sys2Proof.Machine

open Sys2Proof

/-- What a read that latches does (R46, R183, R203). -/
def latchRead (r : Reg) (s : State) : State :=
  match r with
  | .TIR_EPOCH_LO => epochLatch s
  | .TIR_HOLD_LO => holdLatch s
  | _ => timeLatch s

/-- A host access whose turn has come: what it did on arrival, had nothing held it back. -/
def hostAccess (a : HostAcc) (s : State) : State :=
  match a with
  | .reg r inst v => hostReg s r a (regEffect r inst v)
  | .read r => hostReg s r a (latchRead r)
  | .step n run => stepWrite n run s
  | .bar2 off n data => bar2Arrive off n data s
  | .sqTail q v => sqDoorbell q v s
  | .eqHead q v => eqDoorbell q v s
  | .msix v addr data => msixWrite v addr data s

/-- Host accesses that wait have their effect in order of arrival, up to the first that must wait on (R656). -/
def hostPump : Nat → State → State
  | 0, s => s
  | n + 1, s =>
    match s.hiu.waiting with
    | [] => s
    | a :: rest =>
      let t := hostAccess a { s with hiu := { s.hiu with waiting := [] } }
      if t.hiu.waiting.isEmpty then hostPump n { t with hiu := { t.hiu with waiting := rest } } else s

/-! ### The end of a wake -/

/-- WAKE_COMPLETE: the node is in P0; what waited for it goes on (R607, R667). -/
def wakeDone (s : State) : State :=
  if s.prb.waking.isNone then s
  else
    let st := fget s F.PRB_PWR_STAT_STATE
    let s1 := if st = 4 then preloadAll s else s
    let s2 := fset (fset s1 F.PRB_PWR_STAT_STATE 0) F.PRB_PWR_STAT_P4_BLOCKED 0
    let s3 := fbump { s2 with prb := { s2.prb with waking := none, lastActive := s.now } } F.PRB_PWR_STAT_WAKES
    let s4 := if st ≥ 3 && fget s F.TRF_SMP_CTL_ENABLE = 1 then sampleResume s3 else s3
    let s5 := releaseWake s4
    hostPump s5.hiu.waiting.length s5
/-- A wake ends. -/
def execWakeComplete (s : State) : Out := .next (wakeDone s)

/-! ### The tick -/

/-- One nanosecond passes: device time counts (R40); host accesses that waited go on as far as they can (R656); a node that is not idle has
been active until now (R606). -/
def tick (s : State) : State :=
  let s0 : State := { s with now := s.now + 1 }
  let s1 := hostPump s0.hiu.waiting.length s0
  cfgSettle (if nodeIdle s1 then s1 else { s1 with prb := { s1.prb with lastActive := s1.now } })

end Sys2Proof.Machine
end

