-- ==== Sys2Proof/Machine/Scalar.lean ====
section
/-!
DEFINITION. Scalar arithmetic and logic of Spenex (R114, R115).
-/

namespace Sys2Proof.Machine

open Sys2Proof

/-- The two forms of R114: the second operand is gC, or IMM with C zero. -/
def srcB (f : Spx) (c : Ctx) : W64 := if f.fn.getLsbD 0 then simm f else gReg c f.c

/-- An instruction gA ← op gB, second operand, with its flags. -/
def alu (q : BitVec 7) (f : Spx) (opc steps : Nat) (op : W64 → W64 → W64) (fl : Byte → W64 → W64 → Byte) (s : State) : State :=
  pureOp q f opc steps (fun c =>
    let a := gReg c f.b
    let b := srcB f c
    { setG c f.a (op a b) with flags := fl c.flags a b }) s

/-- The flags of every operation but ADD, SUB and CMP. -/
def opFlags (op : W64 → W64 → W64) (fl : Byte) (a b : W64) : Byte := logicFlags fl (op a b)

/-- Low half of the product. -/
def opMul (a b : W64) : W64 := a * b
/-- High half of the unsigned product. -/
def opMulhu (a b : W64) : W64 := BitVec.ofNat 64 (a.toNat * b.toNat / 2 ^ 64)
/-- Quotients and remainders; a zero divisor gives all ones (R115). -/
def opDivu (a b : W64) : W64 := if b = 0 then BitVec.allOnes 64 else a / b
def opRemu (a b : W64) : W64 := if b = 0 then BitVec.allOnes 64 else a % b
def opDiv (a b : W64) : W64 := if b = 0 then BitVec.allOnes 64 else a.sdiv b
def opRem (a b : W64) : W64 := if b = 0 then BitVec.allOnes 64 else a.srem b
/-- Shifts use bits [5:0] of the second operand. -/
def opShl (a b : W64) : W64 := a <<< (b.toNat % 64)
def opShr (a b : W64) : W64 := a >>> (b.toNat % 64)
def opSar (a b : W64) : W64 := a.sshiftRight (b.toNat % 64)
def opMinu (a b : W64) : W64 := if a.ult b then a else b
def opMaxu (a b : W64) : W64 := if a.ult b then b else a
def opMin (a b : W64) : W64 := if a.slt b then a else b
def opMax (a b : W64) : W64 := if a.slt b then b else a
/-- One bits of a word. -/
def popCount (a : W64) : W64 := BitVec.ofNat 64 ((List.range 64).filter fun i => a.getLsbD i).length
/-- Leading zero bits, 64 for zero. -/
def leadZeros (a : W64) : W64 := BitVec.ofNat 64 (((List.range 64).map fun i => 63 - i).takeWhile fun i => !a.getLsbD i).length

/-- ADD (R114): C is the carry out. -/
def execAdd (q : BitVec 7) (f : Spx) (s : State) : Out := .next (alu q f 0x00 1 (· + ·) addFlags s)
/-- SUB (R114): C and N compare the operands. -/
def execSub (q : BitVec 7) (f : Spx) (s : State) : Out := .next (alu q f 0x01 1 (· - ·) subFlags s)
/-- MUL (R114). -/
def execMul (q : BitVec 7) (f : Spx) (s : State) : Out := .next (alu q f 0x02 3 opMul (opFlags opMul) s)
/-- MULHU (R114). -/
def execMulhu (q : BitVec 7) (f : Spx) (s : State) : Out := .next (alu q f 0x03 3 opMulhu (opFlags opMulhu) s)
/-- DIVU (R114, R115). -/
def execDivu (q : BitVec 7) (f : Spx) (s : State) : Out := .next (alu q f 0x04 34 opDivu (opFlags opDivu) s)
/-- REMU (R114, R115). -/
def execRemu (q : BitVec 7) (f : Spx) (s : State) : Out := .next (alu q f 0x05 34 opRemu (opFlags opRemu) s)
/-- DIV (R114, R115). -/
def execDiv (q : BitVec 7) (f : Spx) (s : State) : Out := .next (alu q f 0x06 34 opDiv (opFlags opDiv) s)
/-- REM (R114, R115). -/
def execRem (q : BitVec 7) (f : Spx) (s : State) : Out := .next (alu q f 0x07 34 opRem (opFlags opRem) s)
/-- AND (R114). -/
def execAndOp (q : BitVec 7) (f : Spx) (s : State) : Out := .next (alu q f 0x08 1 (· &&& ·) (opFlags (· &&& ·)) s)
/-- OR (R114). -/
def execOrOp (q : BitVec 7) (f : Spx) (s : State) : Out := .next (alu q f 0x09 1 (· ||| ·) (opFlags (· ||| ·)) s)
/-- XOR (R114). -/
def execXorOp (q : BitVec 7) (f : Spx) (s : State) : Out := .next (alu q f 0x0A 1 (· ^^^ ·) (opFlags (· ^^^ ·)) s)
/-- SHL (R114). -/
def execShl (q : BitVec 7) (f : Spx) (s : State) : Out := .next (alu q f 0x0B 1 opShl (opFlags opShl) s)
/-- SHR (R114). -/
def execShr (q : BitVec 7) (f : Spx) (s : State) : Out := .next (alu q f 0x0C 1 opShr (opFlags opShr) s)
/-- SAR (R114). -/
def execSar (q : BitVec 7) (f : Spx) (s : State) : Out := .next (alu q f 0x0D 1 opSar (opFlags opSar) s)
/-- MINU (R114). -/
def execMinu (q : BitVec 7) (f : Spx) (s : State) : Out := .next (alu q f 0x0E 1 opMinu (opFlags opMinu) s)
/-- MAXU (R114). -/
def execMaxu (q : BitVec 7) (f : Spx) (s : State) : Out := .next (alu q f 0x0F 1 opMaxu (opFlags opMaxu) s)
/-- MIN (R114). -/
def execMinOp (q : BitVec 7) (f : Spx) (s : State) : Out := .next (alu q f 0x10 1 opMin (opFlags opMin) s)
/-- MAX (R114). -/
def execMaxOp (q : BitVec 7) (f : Spx) (s : State) : Out := .next (alu q f 0x11 1 opMax (opFlags opMax) s)
/-- CMP (R114): flags only, A is zero. -/
def execCmp (q : BitVec 7) (f : Spx) (s : State) : Out :=
  .next (pureOp q f 0x12 1 (fun c => { c with flags := subFlags c.flags (gReg c f.b) (srcB f c) }) s)
/-- MOV (R114): from gB, or IMM with B zero; flags unchanged (R112). -/
def execMov (q : BitVec 7) (f : Spx) (s : State) : Out :=
  .next (pureOp q f 0x13 1
    (fun c => setG c f.a (if f.fn.getLsbD 0 then simm f else gReg c f.b)) s)
/-- POPC (R114). -/
def execPopc (q : BitVec 7) (f : Spx) (s : State) : Out :=
  .next (pureOp q f 0x14 1 (fun c =>
    { setG c f.a (popCount (gReg c f.b)) with flags := logicFlags c.flags (popCount (gReg c f.b)) }) s)
/-- CLZ (R114). -/
def execClz (q : BitVec 7) (f : Spx) (s : State) : Out :=
  .next (pureOp q f 0x15 1 (fun c =>
    { setG c f.a (leadZeros (gReg c f.b)) with flags := logicFlags c.flags (leadZeros (gReg c f.b)) }) s)
/-- LI (R114): gA ← EXT, in the extended form only. -/
def execLi (q : BitVec 7) (f : Spx) (s : State) : Out :=
  .next (pureOp q f 0x16 2 (fun c => setG c f.a f.ext) s)

end Sys2Proof.Machine
end

