-- ==== Sys2Proof/Machine/Scan.lean ====
section
/-!
DEFINITION. The sketch clusters (R214 to R242): loading query groups and scanning lists.
-/

namespace Sys2Proof.Machine

open Sys2Proof

/-! ### Query groups (R218 to R222) -/

/-- A slot takes part in scans. -/
def GSlot.valid (g : GSlot) : Bool := bitAt g.ctrl 0

/-- A slot descriptor with its sketch (R220). -/
def parseSlot (b : List Byte) (sketch : Nat) : GSlot :=
  { epoch := fieldOf b 0 6, thresh := fieldOf b 6 2, mask := fieldOf b 8 8, value := fieldOf b 0x10 8, lo0 := fieldOf b 0x18 2
    hi0 := fieldOf b 0x1A 2, lo1 := fieldOf b 0x1C 2, hi1 := fieldOf b 0x1E 2, ctrl := fieldOf b 0x20 2, sketch := sketch }

/-- Write the counters of the outgoing group into its block (R221, step 1): none where the block is not there any more. -/
def writeCounters (s : State) (k : Nat) : Option State :=
  match tfind s.groups k with
  | none => some s
  | some g => g.slots.foldl (fun (o : Option State) p => o.bind fun s =>
      if !p.2.valid then some s
      else match uWrite s g.dom (g.addr + 0x40 + 64 * p.1 + 0x24) (bytesOf 4 p.2.matched ++ bytesOf 4 p.2.emitted ++ bytesOf 4 p.2.excluded) with
        | .ok s1 => some s1
        | _ => none) (some s)

/-- The checks on a new block (R221, step 2). -/
def loadGroup (s : State) (c : Cmd) (a : Nat) : Work Group := do
  let dom := c.tok.dom
  let idx := laneBits c.tok.desc 0 56 8
  need (a % 64 == 0) (.report stBAD_OPERATOR 0 0 0)
  let h ← operand s dom a 64
  let n := fieldOf h 5 1
  need (fieldOf h 0 4 == 1 && 1 ≤ n && n ≤ 64 && fieldOf h 7 57 == 0) (.report stBAD_OPERATOR 0 0 0)
  let ds ← operand s dom a (0x40 + 64 * n)
  let okSlot := fun q => fieldOf ds (0x40 + 64 * q + 0x20) 2 < 256 && fieldOf ds (0x40 + 64 * q + 0x22) 2 == 0 && fieldOf ds (0x40 + 64 * q + 0x30) 16 == 0
  need ((List.range n).all okSlot && (List.range n).any fun q => bitAt (fieldOf ds (0x40 + 64 * q + 0x20) 2) 0) (.report stBAD_OPERATOR 0 0 0)
  need (lane64 c.tok.desc 1 == 0 && lane64 c.tok.desc 2 == 0) (.report stBAD_OPERATOR 0 0 0)
  match indexOf s dom idx with
  | none => failWith stBAD_OPERATOR 0
  | some x => do
    need (fieldOf h 6 1 == idx) (.report stBAD_OPERATOR 0 0 0)
    need (fieldOf h 4 1 == x.width) (.report stBAD_OPERATOR 0x30 0 0)
    let w := skBits x.width
    let b ← operand s dom a (0x40 + 64 * n + n * (w / 8))
    let slots := (List.range n).map fun q => parseSlot ((b.drop (0x40 + 64 * q)).take 64) (fieldOf b (0x40 + 64 * n + q * (w / 8)) (w / 8))
    need (slots.all fun g => !g.valid || epochOk s c.tok.job idx g.epoch) (.report stBAD_OPERATOR 0x27 0 0)
    .ok { addr := a, dom := dom, index := idx, width := x.width, slots := slots.zipIdx.map fun p => (p.2, p.1) }

/-- SCAN_LOAD_GROUP (R218, R221): it starts once every earlier command on the cluster has completed. -/
def scanLoadGroup (k : Nat) (s : State) : State :=
  engine 3 k .scan 0 (fun s c =>
    if ((cmdsOf s 3 k).head?.map (·.id)) != some c.id then .ok s
    else
      let a := laneBits c.tok.desc 0 0 56
      match writeCounters s k with
      | none => .error (.bad ((tget {} s.groups k).addr))
      | some s1 =>
        let s2 : State := { s1 with groups := tdel s1.groups k }
        let s3 := setLane s2 k { laneOf s2 k with reports := [] }
        if a = 0 then .ok (endCmd s3 3 k c stOK 0 0 0)
        else match loadGroup s3 c a with
          | .ok g =>
            let s4 := useRange s3 c.tok.dom a (0x40 + 64 * g.slots.length + g.slots.length * (skBits g.width / 8))
            .ok (endCmd { s4 with groups := tins s4.groups k g } 3 k c stOK 0 (g.slots.filter fun p => p.2.valid).length 0)
          | .error (.report st rs n sp) => .ok (endCmd s3 3 k c st rs n sp)
          | .error e => .error e) s

/-! ### Scans (R223 to R231) -/

/-- What a scan streams: one entry of the version. -/
structure Ent where
  item : Nat
  attr : Nat
  sketch : Nat
  epoch : Option Nat
  source : Nat
  ordinal : Nat
deriving DecidableEq, Repr

/-- Where a stream stops (R231): entries before the stop, then status, reason, kind of fault and its address; `met` is where
the uncorrectable word lies that stopped it, for `countUE`. -/
structure Stream where
  ents : List Ent := []
  stop : Option (Nat × Nat × Nat × Nat) := none
  tiles : Nat := 0
  met : Nat := 21
deriving DecidableEq, Repr

/-- The tile header agrees with its segment header (R159). -/
def tileOk (g : Seg) (ext : Bool) (t : Nat) (b : List Byte) : Bool :=
  let n := tileItems g.width ext
  fieldOf b 0 2 == 1 && fieldOf b 2 1 == g.width && fieldOf b 3 1 == (if ext then 1 else 0)
    && fieldOf b 4 2 == min n (g.items - n * t) && fieldOf b 6 2 == 0 && fieldOf b 8 4 == g.list + g.index * 2 ^ 24
    && fieldOf b 0xC 4 == g.seq && fieldOf b 0x10 4 == t && fieldOf b 0x14 2 == attrOff g.width ext
    && fieldOf b 0x16 2 == idOff g.width ext && fieldOf b 0x18 2 == extOff g.width ext && fieldOf b 0x1A 38 == 0

/-- The entries of a tile. -/
def tileEnts (g : Seg) (ext : Bool) (t : Nat) (b : List Byte) : List Ent :=
  let w := skBits g.width / 8
  (List.range (fieldOf b 4 2)).map fun i =>
    { item := fieldOf b (idOff g.width ext + 8 * i) 8, attr := fieldOf b (attrOff g.width ext + 8 * i) 8, sketch := fieldOf b (64 + w * i) w
      epoch := none, source := g.addr, ordinal := t * tileItems g.width ext + i }

/-- Bytes of tile `k` of the chain: from a resident block at tile address `blk` of regions `rs`, or from the unified range. -/
def tileRead (s : State) (dom : Nat) (rs : Option (List Nat × Nat)) (k a : Nat) : URead :=
  match rs with
  | none => uRead s dom a 4096
  | some (regs, off) =>
    let o := off + 4096 * (k + 1)
    match regs[o / 65536]? with
    | none => .outside
    | some r => if tileBad s (r * 65536 + o % 65536) 4096 then .ue else .ok (tileBytes s (r * 65536 + o % 65536) 4096)

/-- Stream the tiles of a chain in order (R226, R231); `split` names the tile whose three shadow runs all differ (R624). -/
def streamTiles (s : State) (dom : Nat) (ext : Bool) (rs : Option (List Nat × Nat)) (split : Option Nat) :
    List (Seg × Nat) → Stream → Stream
  | [], z => z
  | (g, t) :: ts, z =>
    if split = some z.tiles then { z with stop := some (stUNCORRECTABLE, 0x34, 0x0C, g.tileBase + 4096 * t) }
    else match tileRead s dom rs z.tiles (g.tileBase + 4096 * t) with
      | .ok b =>
        if tileOk g ext t b then streamTiles s dom ext rs split ts { z with ents := z.ents ++ tileEnts g ext t b, tiles := z.tiles + 1 }
        else { z with stop := some (stMEDIA_ERROR, 0x35, 5, g.tileBase + 4096 * t) }
      | _ => { z with stop := some (stUNCORRECTABLE, 0, 4, g.tileBase + 4096 * t)
                      met := if rs.isSome then 20 else uWhere s dom (g.tileBase + 4096 * t) 4096 }

/-- Stream the insert entries of the haze, in append order (R228). -/
def streamHaze (s : State) (dom : Nat) (x : Index) : List HEnt → Stream → Stream
  | [], z => z
  | h :: hs, z =>
    match uRead s dom h.addr (round64 (32 + skBits x.width / 8)) with
    | .ok b => streamHaze s dom x hs { z with ents := z.ents ++
        [{ item := fieldOf b 0 8, attr := fieldOf b 0x10 8, sketch := fieldOf b 0x20 (skBits x.width / 8), epoch := some (fieldOf b 8 6)
           source := h.block, ordinal := h.pos }] }
    | _ => { z with stop := some (stUNCORRECTABLE, 0, 4, h.addr)
                    met := uWhere s dom h.addr (round64 (32 + skBits x.width / 8)) }

/-- Every (segment, tile) of a chain in chain order. -/
def chainTiles (segs : List Seg) : List (Seg × Nat) := segs.flatMap fun g => (List.range g.tiles).map fun t => (g, t)

/-- A 16-bit field of an attribute word (R157). -/
def attrField (attr k : Nat) : Nat := bitsOf attr (16 * k) 16

/-- The mask match and both ranges of a slot (R233). -/
def predsOk (g : GSlot) (attr : Nat) : Bool :=
  Nat.land attr g.mask == Nat.land g.value g.mask
    && (!bitAt g.ctrl 3 || (g.lo0 ≤ attrField attr (bitsOf g.ctrl 1 2) && attrField attr (bitsOf g.ctrl 1 2) ≤ g.hi0))
    && (!bitAt g.ctrl 6 || (g.lo1 ≤ attrField attr (bitsOf g.ctrl 4 2) && attrField attr (bitsOf g.ctrl 4 2) ≤ g.hi1))

/-- An entry is visible at a slot's epoch within the version (R196, R225). -/
def entVisible (tombs : List HEnt) (e : Ent) (ep : Nat) : Bool :=
  (match e.epoch with | some i => i ≤ ep | none => true) && !hidden tombs e.item e.epoch ep

/-- A candidate entry (R237). -/
def scanCand (index slot dist : Nat) (e : Ent) : Nat :=
  dist % 2 ^ 16 + slot % 64 * 2 ^ 16 + (if e.epoch.isSome then 2 ^ 22 else 0) + index % 256 * 2 ^ 24 + e.item % 2 ^ 64 * 2 ^ 32
    + e.source % 2 ^ 56 * 2 ^ 96 + e.ordinal % 2 ^ 24 * 2 ^ 152

/-- A count that saturates at 32 bits. -/
def sat32 (n : Nat) : Nat := min n (2 ^ 32 - 1)

/-- The present threshold of each slot after the boundaries the lane has reported (R234). -/
def takeReports (s : State) (k : Nat) : State :=
  let l := laneOf s k
  match tfind s.groups k with
  | none => s
  | some g =>
    let slots := g.slots.map fun p => (p.1, if bitAt p.2.ctrl 7 then
      { p.2 with thresh := l.reports.foldl (fun t r => if r.1 = p.1 then min t r.2 else t) p.2.thresh } else p.2)
    if l.reports = [] then s
    else setLane { s with groups := tins s.groups k { g with slots := slots } } k { l with reports := [] }

/-- Send the candidates of a running scan as far as credits allow (R234 to R236); the command ends with the last one. The lane
and its share are checked at the first candidate. -/
def scanDrain (k : Nat) (s : State) (c : Cmd) : List Nat → State
  | [] => putCmd s 3 k { c with phase := .finishing, aux := [c.work] }
  | w :: ws =>
    match tfind s.groups k with
    | none => putCmd s 3 k { c with phase := .finishing, aux := [c.work] }
    | some g =>
      let slot := bitsOf w 16 6
      let gs := tget {} g.slots slot
      if bitsOf w 0 16 > gs.thresh then scanDrain k s c ws
      else match laneShare s c.tok.job k with
        | .error e => stopCmd s 3 k c e
        | .ok share =>
          if shareFree s share then
            let s1 : State := { s with groups := tins s.groups k { g with slots := tins g.slots slot { gs with emitted := sat32 (gs.emitted + 1) } } }
            scanDrain k (sendCand s1 k share c.tok.job c.id (BitVec.ofNat 192 w)) { c with count := c.count + 1 } ws
          else putCmd s 3 k { c with phase := .running, aux := w :: ws }

/-- The token of a descriptor with its class 0x1 grant, from an ordinal for a number of regions (R224). -/
def regionsOf (s : State) (tag t ord n : Nat) : Work (List Nat) :=
  match jobOf s tag with
  | none => .error (.violates 1 0)
  | some j => match tokGrantOf s j t with
    | none => .error (.violates 1 0)
    | some g =>
      if g.cls != 1 || ord ≥ g.insts.length || ord + n > g.insts.length then .error (.violates 1 (g.insts.headD 0))
      else .ok (g.insts.drop ord)

/-- The tombstones a scan loads, sorted by item, as they stand in the workspace (R227). -/
def tombBytes (ts : List HEnt) : List Byte :=
  (ts.mergeSort fun a b => a.item ≤ b.item).flatMap fun t => bytesOf 8 t.item ++ bytesOf 6 t.epoch ++ bytesOf 2 0

/-- Write bytes over consecutive regions. -/
def tilePut (s : State) (rs : List Nat) (bs : List Byte) : State :=
  (List.range (cdiv bs.length 65536)).foldl (fun s i => match rs[i]? with
    | some r => tileWrite s (r * 65536) ((bs.drop (65536 * i)).take 65536)
    | none => s) s

/-- The start of a scan of one list: checks, version, tombstones, streaming (R224 to R231). -/
def scanStart (k : Nat) (resident : Bool) (dissent : List Nat) (split : Option Nat) (s0 : State) (c : Cmd) : Work State := do
  let s := takeReports s0 k
  let d := c.tok.desc
  let dom := c.tok.dom
  let tag := c.tok.job
  let idx := laneBits d 0 56 8
  let wsn := laneBits d 2 58 6
  let ta := laneBits d 0 0 27
  if hasResult d then writable s dom (resAddr d) 16 3 k else .ok ()
  -- tokens of the resident block and of the workspace
  need (!resident || laneBits d 0 27 29 == 0) (.violates 1 0)
  let hdrRegs ← if resident then regionsOf s tag (ta / 2 ^ 24) (ta / 2 ^ 16 % 256) 1 else .ok []
  let hdrAt := match hdrRegs with | r :: _ => r * 65536 + ta % 65536 | [] => 0
  let tilesN := if resident then fieldOf (tileBytes s (hdrAt + 0x48) 4) 0 4 else 0
  need (!resident || ta % 65536 + 4096 * (tilesN + 1) ≤ 65536 * hdrRegs.length) (.violates 1 (hdrRegs.headD 0))
  need (!resident || hdrRegs.all fun r => ownerOf s 1 r == .job tag) (.violates 1 (hdrRegs.headD 0))
  let ws ← if wsn = 0 then .ok [] else regionsOf s tag (laneBits d 2 48 3) (laneBits d 2 51 7) (2 * wsn)
  need (ws.all fun r => ownerOf s 1 r == .job tag) (.violates 1 (ws.headD 0))
  -- the table of R224
  let slots := lane64 d 1
  match tfind s.groups k with
  | none => failWith stBAD_OPERATOR 0x33
  | some g => do
    need (slots != 0 && (List.range 64).all fun q => !bitAt slots q || (tget {} g.slots q).valid) (.report stBAD_OPERATOR 0x33 0 0)
    need (idx == g.index) (.report stBAD_OPERATOR 0 0 0)
    match indexOf s dom idx with
    | none => failWith stBAD_OPERATOR 0
    | some x => do
      let root := if resident then fieldOf (tileBytes s (hdrAt + 0x40) 8) 0 8 else laneBits d 0 0 56
      need (x.root ≤ root && (root - x.root) % 64 == 0 && (root - x.root) / 64 < x.lists) (.report stBAD_OPERATOR 0 0 0)
      let e := laneBits d 2 0 48
      let qs := (List.range 64).filter fun q => bitAt slots q
      need (epochOk s tag idx e && qs.all fun q => epochOk s tag idx (tget {} g.slots q).epoch) (.report stBAD_OPERATOR 0x27 0 0)
      let mine := fun (r : Nat) => decide (r / 384 = k)
      need ((!resident || ((hdrRegs.take (cdiv (ta % 65536 + 4096 * (tilesN + 1)) 65536)).all mine)) && (ws.take (2 * wsn)).all mine)
        (.report stBAD_OPERATOR 0x32 0 0)
      need (wsn ≤ 32) (.report stBAD_OPERATOR 0 0 0)
      let (v, sup) := versionAt s dom root e
      let served := qs.filter fun q => let eq := (tget {} g.slots q).epoch
        v.swap ≤ eq && (match sup with | some n => eq < n | none => true)
      let excl := qs.filter fun q => !served.contains q
      let exclMask := excl.foldl (fun n q => n + 2 ^ q) 0
      let top := served.foldl (fun m q => max m (tget {} g.slots q).epoch) 0
      let tombs := (hazeTombs s dom v.haze).filter fun t => t.epoch ≤ top
      let live := served != []
      need (!live || tombs.length ≤ wsn * 8192) (.report stABORTED 0x31 0 0)
      let tombUe := (hazeTombs s dom v.haze).any fun t => uBytes s dom t.addr 16 == none
      let same := resident && fieldOf (tileBytes s hdrAt 8) 0 8 == v.head && fieldOf (tileBytes s (hdrAt + 0x10) 6) 0 6 == v.swap
      let segs := chainFrom s dom (v.segs + 1) v.head
      let rs := if same then some (hdrRegs, ta % 65536) else none
      let z : Stream := if !live then {}
        else if tombUe then { stop := some (stUNCORRECTABLE, 0, 4, v.haze)
                              met := ((hazeTombs s dom v.haze).find? fun t => uBytes s dom t.addr 16 == none).elim 21 fun t => uWhere s dom t.addr 16 }
        else if segs.length != v.segs || (same && tileBad s hdrAt 4096) then { stop := some (stUNCORRECTABLE, 0, 4, v.head), met := if segs.length != v.segs then 21 else 20 }
        else
          let z1 := streamTiles s dom x.ext rs split (chainTiles segs) {}
          if z1.stop.isSome then z1 else streamHaze s dom x (hazeInserts s dom x v.haze) z1
      let passes := fun (q : Nat) (en : Ent) => let gs := tget {} g.slots q
        entVisible tombs en gs.epoch && predsOk gs en.attr
      let cands := z.ents.flatMap fun en => served.filterMap fun q =>
        if passes q en then
          let dist := hamming (tget {} g.slots q).sketch en.sketch (skBits x.width)
          if dist ≤ (tget {} g.slots q).thresh then some (scanCand idx q dist en) else none
        else none
      let slots1 := g.slots.map fun p => (p.1, if served.contains p.1 then
          { p.2 with matched := sat32 (p.2.matched + (z.ents.filter (passes p.1)).length) }
        else if excl.contains p.1 then { p.2 with excluded := sat32 (p.2.excluded + 1) } else p.2)
      let s1 : State := { s with groups := tins s.groups k { g with slots := slots1 } }
      let s2 := if live && tombs != [] then tilePut s1 ws (tombBytes tombs) else s1
      let s3 := if excl != [] then fbump s2 F.SKC_STAT_EXCL else s2
      let s4 := if resident && live && !same then fbump s3 F.SKC_STAT_STALE_RES else s3
      let s5 := dissent.foldl (fun s u => chargeUnit s 0 (k * 68 + u % 68) (jobPlanId s tag)) s4
      let s6 := match z.stop with
        | some (st, rs, kind, a) =>
          fbump (faultRec (countUE s5 z.met) { block := 4, kind := kind, status := st, reason := rs, cls := 3, inst := k, planId := jobPlanId s5 tag, dom := dom
                                               tag := tag, addr := a, info := z.tiles }) F.SKC_STAT_TILE_ERR
        | none => s5
      let st := match z.stop with | some (st, rs, _, _) => (st, rs) | none => (stOK, 0)
      let spec := (if resident && live && !same then 1 else 0) + (if excl != [] then 2 else 0)
      .ok (scanDrain k s6 { c with phase := .running, status := st.1, reason := st.2, spec := spec, work := exclMask } cands)

/-- A scan command: its start, or the sending of candidates that waited for credits. -/
def scanList (k : Nat) (op : Nat) (dissent : List Nat) (split : Option Nat) (s : State) : State :=
  engine 3 k .scan op (fun s c =>
    match c.phase with
    | .queued => match scanStart k (op == 2) dissent split s c with
      | .error (.report st rs n sp) =>
        .ok (putCmd (if rs = 0x31 then fbump s F.SKC_STAT_WS_SHORT else s) 3 k
          { c with phase := .finishing, status := st, reason := rs, count := n, spec := sp, aux := [0] })
      | r => r
    | _ => .ok (scanDrain k (takeReports s k) c c.aux)) s

/-- SCAN_LOAD_GROUP (R221). -/
def execScanLoadGroup (cluster : BitVec 4) (s : State) : Out := .next (scanLoadGroup cluster.toNat s)
/-- SCAN_STACK_LIST (R225). -/
def execScanStackList (cluster : BitVec 4) (dissent : List Nat) (split : Option Nat) (s : State) : Out :=
  .next (scanList cluster.toNat 1 dissent split s)
/-- SCAN_RESIDENT_LIST (R229). -/
def execScanResidentList (cluster : BitVec 4) (dissent : List Nat) (split : Option Nat) (s : State) : Out :=
  .next (scanList cluster.toNat 2 dissent split s)

end Sys2Proof.Machine
end

