-- ==== Sys2Proof/Machine/Select.lean ====
section
/-!
DEFINITION. Selection lanes and the merge stage (R298 to R325): intake, sieves, drains, merges, UNIQ and the fabric top-k
collective.
-/

namespace Sys2Proof.Machine

open Sys2Proof

/-! ### Keys and blocks (R119, R301, R302) -/

/-- The 31-bit key of a score under a metric. -/
def exactKey (metric : Nat) (score : W32) : Nat :=
  let f0 := if metric = 1 then score else score ^^^ 0x80000000#32
  let f := if f0 = 0x80000000#32 then 0#32 else f0
  let k := if f.msb then ~~~f else f ||| 0x80000000#32
  k.toNat / 2

/-- The distance key of an entry. -/
def candKey (s : State) (e : Nat) : Nat :=
  if bitAt e 23 then exactKey ((tget {} s.tir.indexes (bitsOf e 24 8)).metric) (BitVec.ofNat 32 (bitsOf e 96 32))
  else 2 ^ 31 + bitsOf e 0 16
/-- Item of an entry. -/
def candItem (e : Nat) : Nat := bitsOf e 32 64
/-- The item that marks an empty position. -/
def noItem : Nat := 2 ^ 64 - 1

/-- An entry of a list: key, item. -/
abbrev KI := Nat × Nat
/-- EXACT order: key, then item. -/
def exactLe (a b : KI) : Bool := a.1 < b.1 || (a.1 == b.1 && a.2 ≤ b.2)
/-- APPROX order: key alone, the sort keeping input order. -/
def approxLe (a b : KI) : Bool := a.1 ≤ b.1
/-- A list sorted as a mode orders its output. -/
def sortKI (approx : Bool) (l : List KI) : List KI := l.mergeSort (if approx then approxLe else exactLe)
/-- Of each item the copy with the smallest key, the earlier on a tie, in input order (R306). -/
def dedup (l : List KI) : List KI :=
  let best := fun (x : KI) (i : Nat) => (l.zipIdx).all fun p => p.1.2 != x.2 || x.1 < p.1.1 || (x.1 == p.1.1 && i ≤ p.2)
  (l.zipIdx).filterMap fun p => if best p.1 p.2 then some p.1 else none
/-- The bytes of a selection block of up to 1,024 entries. -/
def selBlock (l : List KI) : List Byte :=
  bytesOf 2 (min 1024 l.length) ++ List.replicate 62 (0 : Byte)
    ++ (List.range 1024).flatMap fun i => match l[i]? with
      | some (k, it) => bytesOf 4 k ++ bytesOf 4 0 ++ bytesOf 8 it
      | none => bytesOf 4 (2 ^ 32 - 1) ++ bytesOf 4 0 ++ bytesOf 8 noItem
/-- Bytes of a selection block. -/
def blockSize : Nat := 16448
/-- The entries of a block: a COUNT above 1,024 is read as 1,024. -/
def parseBlock (b : List Byte) : List KI :=
  (List.range (min 1024 (fieldOf b 0 2))).map fun i => (fieldOf b (0x40 + 16 * i) 4, fieldOf b (0x48 + 16 * i) 8)
/-- The n best of a list with the ties left out at the last place (R312). -/
def selectBest (approx : Bool) (k : Nat) (cuts : List Nat) (l : List KI) : List KI × Nat :=
  let sorted := sortKI approx l
  if l.length < k then (sorted, 0)
  else match sorted[k - 1]? with
    | none => ([], 0)
    | some last =>
      let out := ((sorted.drop k).filter fun e => e.1 == last.1).length
      (sorted.take k, out + (if approx then cuts.length else (cuts.filter fun c => c == last.1).length))
/-- The engine-specific bits of a result word: TIES_OUT, TIE, MORE, MISSING (R311). -/
def selSpec (ties : Nat) (more : Bool) (missing : Nat) : Nat :=
  min 255 ties + (if ties = 0 then 0 else 256) + (if more then 512 else 0) + missing % 32 * 1024
/-- A result word of a selection as a number. -/
def selWord (status reason count spec : Nat) : Nat := numOf (resWord status reason count spec)

/-! ### Intake and sieves (R303 to R309) -/

/-- Store entries in use at an instance: armed slots and merge sessions. -/
def storeUsed (l : Lane) : Nat := l.sets.foldl (fun n p => n + p.2.allot * 64) 0 + 8192 * l.sessions.length

/-- The result of a sieve: the entries kept, the boundary below which arrivals are accepted, the value reported, what was cut
as tied, and passes made. -/
structure Sieved where
  entries : List (Nat × BitVec 192)
  below : Nat
  edge : Nat
  cuts : List Nat
  passes : Nat
deriving DecidableEq, Repr

/-- Least and greatest key of a list. -/
def keyLo (l : List (Nat × BitVec 192)) : Nat := l.foldl (fun m e => min m e.1) (2 ^ 32 - 1)
def keyHi (l : List (Nat × BitVec 192)) : Nat := l.foldl (fun m e => max m e.1) 0
/-- The threshold bucket of a pool over which `base` better entries stand: its lower edge and the width. -/
def threshold (pool : List (Nat × BitVec 192)) (base k : Nat) : Nat × Nat :=
  let lo := keyLo pool
  let w := cdiv (keyHi pool - lo + 1) 256
  let b := ((List.range 256).find? fun b => base + (pool.filter fun e => e.1 < lo + (b + 1) * w).length ≥ k).getD 255
  (lo + b * w, w)

/-- EXACT sieve: repeated over the threshold bucket until the set is small or the bucket has width 1 (R307). -/
def sieveExact (k allot : Nat) : Nat → Nat → List (Nat × BitVec 192) → List (Nat × BitVec 192) → Sieved
  | 0, n, better, pool => { entries := better ++ pool, below := keyHi pool + 1, edge := keyHi pool, cuts := [], passes := n }
  | fuel + 1, n, better, pool =>
    let (lo, w) := threshold pool better.length k
    let inB := pool.filter fun e => lo ≤ e.1 && e.1 < lo + w
    let under := pool.filter fun e => e.1 < lo
    let better1 := better ++ under
    if w = 1 then
      let keep := (inB.mergeSort fun a b => candItem a.2.toNat ≤ candItem b.2.toNat).take (k - better1.length)
      { entries := better1 ++ inB.filter fun e => keep.contains e, below := lo + 1, edge := lo
        cuts := (inB.filter fun e => !keep.contains e).map (·.1), passes := n + 1 }
    else if better1.length + inB.length ≤ allot * 32 then
      { entries := better1 ++ inB, below := lo + w, edge := lo + w - 1, cuts := [], passes := n + 1 }
    else sieveExact k allot fuel (n + 1) better1 inB

/-- APPROX sieve: of the threshold bucket only the earliest arrivals that bring the set to K stay (R307). -/
def sieveApprox (k : Nat) (l : List (Nat × BitVec 192)) : Sieved :=
  let (lo, w) := threshold l 0 k
  let under := l.filter fun e => e.1 < lo
  let inB := l.filter fun e => lo ≤ e.1 && e.1 < lo + w
  let keep := inB.take (k - under.length)
  { entries := l.filter fun e => e.1 < lo || keep.contains e, below := lo, edge := lo - 1
    cuts := (inB.drop (k - under.length)).map (·.1), passes := 1 }

/-- The boundary a lane reports for a key (R308). -/
def boundary (key : Nat) : Nat := if key ≥ 2 ^ 31 then key % 65536 else 0

/-- Entries of a sieve in their arrival order. -/
def inArrival (orig kept : List (Nat × BitVec 192)) : List (Nat × BitVec 192) := orig.filter fun e => kept.contains e

/-- Write entries of a collect set as full selection blocks into the free blocks of its spill area (R309): the set with what
was written, and the state; none when the area cannot be written any more. -/
def flushSet (s : State) (dom : Nat) (c : CSet) : Option (CSet × State) :=
  let sorted := sortKI false (c.entries.map fun e => (e.1, candItem e.2.toNat))
  let need := cdiv sorted.length 1024
  let n := min need (c.blocks - c.used)
  let res := (List.range n).foldl (fun (o : Option State) i => o.bind fun s =>
    match uWrite s dom (c.spill + blockSize * (c.used + i)) (selBlock ((sorted.drop (1024 * i)).take 1024)) with
    | .ok s1 => some s1
    | _ => none) (some s)
  res.map fun s1 => ({ c with entries := [], used := c.used + n, written := c.written + min sorted.length (1024 * n), full := c.full || n < need }, s1)

/-- Place an entry in a set or reject it (R306 to R309): the set, the report it makes, and the state. -/
def placeEntry (s : State) (dom : Nat) (c : CSet) (key : Nat) (e : BitVec 192) : Option (CSet × Option Nat × State) :=
  let item := candItem e.toNat
  let old := c.entries.find? fun x => candItem x.2.toNat == item
  let accept := match c.below with | some b => key < b | none => true
  if c.collect && (c.full || c.used = c.blocks) then
    some ({ c with full := true }, none, if c.full then s else fbump s F.SEL_STAT_SPILL_FULL)
  else if !accept then some (c, none, s)
  else match old with
    | some x => if x.1 ≤ key then some (c, none, s)
      else some ({ c with entries := (c.entries.filter fun y => y != x) ++ [(key, e)] }, none, s)
    | none =>
      let c1 := { c with entries := c.entries ++ [(key, e)] }
      if c1.entries.length < c.allot * 64 then some (c1, none, s)
      else if c.collect then (flushSet s dom c1).map fun p =>
        (p.1, none, if p.1.full && !c.full then fbump p.2 F.SEL_STAT_SPILL_FULL else p.2)
      else
        let z := if c.approx then sieveApprox c.k c1.entries else sieveExact c.k c.allot 64 0 [] c1.entries
        let s1 := if !c.approx && z.passes ≥ 4 then fbump s F.SEL_STAT_SIEVE_REP else s
        some ({ c1 with entries := inArrival c1.entries z.entries, below := some z.below, cuts := c1.cuts ++ z.cuts }, some (boundary z.edge), s1)

/-- CANDIDATE_INTAKE: the lane takes its oldest entry (R298, R299, R305). -/
def candidateIntake (l : Nat) (s : State) : State :=
  let v := laneOf s l
  match v.inq with
  | [] => s
  | c :: rest =>
    let s1 := giveShare (setLane s l { v with inq := rest }) c.share
    let v1 := laneOf s1 l
    let e := c.e.toNat
    let slot := bitsOf e 16 6
    match tfind v1.sets slot with
    | none => fbump s1 F.SEL_STAT_ORPHAN
    | some cs =>
      let dom := match jobOf s1 c.tag with | some j => j.dom | none => 0
      match placeEntry s1 dom cs (candKey s1 e) c.e with
      | none => badAddress s1 c.tag cs.spill
      | some (cs1, rep, s2) =>
        let v2 := laneOf s2 l
        setLane s2 l { v2 with
          sets := tins v2.sets slot cs1
          reports := match rep with | some b => v2.reports ++ [(slot, b)] | none => v2.reports }

/-! ### SEL (R303, R304, R310 to R312) -/

/-- Arm slots. -/
def selArm (inst : Nat) (approx : Bool) (s : State) : State :=
  engine 4 inst .sel (if approx then 1 else 0) (fun s c => do
    need (inst < 16) (.report stBAD_OPERATOR 0x64 0 0)
    let d := c.tok.desc
    let slots := maskList (lane64 d 0) 64
    let k := laneBits d 1 0 24
    let allot := laneBits d 1 32 9
    let blocks := laneBits d 1 48 16
    let spill := laneBits d 2 0 56
    let collect := decide (k > 8192)
    need (slots != [] && k ≥ 1 && 1 ≤ allot && allot ≤ 256 && laneBits d 1 24 8 == 0 && laneBits d 1 41 7 == 0 && laneBits d 2 56 8 == 0
      && (if collect then !approx && allot % 16 == 0 && spill != 0 && blocks != 0 && spill % 64 == 0
          else allot * 64 ≥ 2 * k && spill == 0 && blocks == 0)) (.report stBAD_OPERATOR 0x60 0 0)
    if collect then writable s c.tok.dom spill (blocks * blockSize) 4 inst else .ok ()
    let v := laneOf s inst
    let kept := v.sets.filter fun p => !slots.contains p.1
    need (storeUsed { v with sets := kept } + slots.length * allot * 64 ≤ 65536) (.report stBAD_OPERATOR 0x61 0 0)
    let cs : CSet := { approx := approx, k := k, allot := allot, collect := collect, spill := spill, blocks := blocks }
    let s1 := setLane s inst { v with sets := slots.foldl (fun m q => tins m q cs) kept }
    .ok (endCmd s1 4 inst c stOK 0 slots.length 0)) s

/-- What the drain of one slot writes at OUT and LOC, and its result word. -/
structure Drained where
  blocks : List Byte := []
  locs : List Byte := []
  word : Nat := 0
deriving DecidableEq, Repr

/-- The drain of one sieved set. -/
def drainSet (c : CSet) (loc : Bool) : Drained :=
  let kis := c.entries.map fun e => (e.1, candItem e.2.toNat)
  let (best, ties) := selectBest c.approx c.k c.cuts kis
  let n := best.length
  let find := fun (x : KI) => (c.entries.find? fun e => candItem e.2.toNat == x.2).map fun e => e.2.toNat
  { blocks := (List.range (cdiv c.k 1024)).flatMap fun j => selBlock ((best.drop (1024 * j)).take 1024)
    locs := if loc then (List.range c.k).flatMap fun i => bytesOf 24 (((best[i]?).bind find).getD 0) else []
    word := selWord (if n < c.k then stSHORT else stOK) 0 n (selSpec ties false 0) }

/-- The drains of the slots a command names, in ascending order; collect sets flush their remainder, and a slot that is not armed reports
0x63. None where a spill area cannot be written any more. -/
def drainSlots (s : State) (dom : Nat) (v : Lane) (loc : Bool) (slots : List Nat) : Option (State × List Drained) :=
  slots.foldl (fun (o : Option (State × List Drained)) q => o.bind fun (s, l) =>
    match tfind v.sets q with
    | none => some (s, l ++ [{ word := selWord stBAD_OPERATOR 0x63 0 0 }])
    | some cs => if !cs.collect then some (s, l ++ [drainSet cs loc])
      else (flushSet s dom cs).map fun p =>
        let s1 := if p.1.full && !cs.full then fbump p.2 F.SEL_STAT_SPILL_FULL else p.2
        let n := p.1.written
        (s1, l ++ [{ word := if p.1.full then selWord stABORTED 0x62 n 0
                      else selWord (if n < cs.k then stSHORT else stOK) 0 n 0 }])) (some (s, []))

/-- SEL_DRAIN. -/
def selDrain (inst : Nat) (s : State) : State :=
  engine 4 inst .sel 2 (fun s c => do
    need (inst < 16) (.report stBAD_OPERATOR 0x64 0 0)
    let d := c.tok.desc
    let dom := c.tok.dom
    let slots := maskList (lane64 d 0) 64
    let out := laneBits d 1 0 56
    let loc := laneBits d 2 0 56
    if hasResult d then writable s dom (resAddr d) (8 * max 1 slots.length) 4 inst else .ok ()
    let v := laneOf s inst
    if laneBits d 1 56 8 != 0 || laneBits d 2 56 8 != 0 || out % 64 != 0 || loc % 8 != 0 then
      .ok (putCmd s 4 inst { c with
        phase := .finishing, status := stBAD_OPERATOR, reason := 0x60, count := 0, spec := 0
        aux := (slots.map fun _ => selWord stBAD_OPERATOR 0x60 0 0).drop 1, silent := if slots = [] then 1 else 0 })
    else match drainSlots s dom v (loc != 0) slots with
    | none => .error (.bad out)
    | some (s1, ds) => do
      let blocks := ds.flatMap (·.blocks)
      let locs := ds.flatMap (·.locs)
      writable s1 dom out blocks.length 4 inst
      writable s1 dom loc locs.length 4 inst
      let s2 := uPoke (uPoke s1 dom out blocks) dom loc locs
      let v2 := laneOf s2 inst
      let s3 := setLane s2 inst { v2 with sets := v2.sets.filter fun p => !slots.contains p.1 }
      let ws := ds.map (·.word)
      let w := ws.headD 0
      .ok (putCmd s3 4 inst { c with
        phase := .finishing, status := bitsOf w 0 8, reason := bitsOf w 8 8, count := bitsOf w 16 32, spec := bitsOf w 48 16
        aux := ws.drop 1, silent := if ws = [] then 1 else 0 })) s

/-! ### MERGE (R314 to R316) -/

/-- The input blocks that a list of addresses names. -/
def inputBlocks (s : State) (dom a n : Nat) : Work (List KI) := do
  let b ← operand s dom a (8 * n)
  (List.range n).foldlM (fun l i => do
    let x ← operand s dom (fieldOf b (8 * i) 7) blockSize
    .ok (l ++ parseBlock x)) []

/-- MERGE_PARTIAL (R314). -/
def mergePartial (inst : Nat) (s : State) : State :=
  engine 4 inst .merge 0 (fun s c => do
    let d := c.tok.desc
    let dom := c.tok.dom
    let n := laneBits d 0 56 8
    let k := laneBits d 2 0 11
    let out := laneBits d 1 0 56
    let approx := bitAt (lane64 d 2) 11
    need (1 ≤ n && n ≤ 16 && 1 ≤ k && k ≤ 1024 && laneBits d 1 56 8 == 0 && laneBits d 2 12 52 == 0 && out % 64 == 0)
      (.report stBAD_OPERATOR 0x60 0 0)
    let l ← inputBlocks s dom (laneBits d 0 0 56) n
    writable s dom out blockSize 4 inst
    let (best, ties) := selectBest approx k [] (dedup l)
    .ok (endCmd (uPoke s dom out (selBlock best)) 4 inst c (if best.length < k then stSHORT else stOK) 0 best.length (selSpec ties false 0))) s

/-- A run of a merge pass: its entries, how many are consumed. -/
structure Run where
  ents : List KI
  cur : Nat
deriving DecidableEq, Repr

/-- Index of the run whose next entry comes first (R302, R315). -/
def nextRun (approx : Bool) (rs : List Run) : Option Nat :=
  ((rs.zipIdx).foldl (fun (b : Option (KI × Nat)) p => match p.1.ents[p.1.cur]?, b with
    | none, b => b
    | some e, none => some (e, p.2)
    | some e, some (m, i) => if (if approx then e.1 < m.1 else exactLe e m && e != m) then some (e, p.2) else some (m, i)) none).map (·.2)

/-- Take merged entries, skipping identifiers already emitted, until `n` are taken. -/
def mergeTake (approx : Bool) : Nat → Nat → List Run → List Nat → List KI → List Run × List KI
  | 0, _, rs, _, acc => (rs, acc)
  | fuel + 1, n, rs, seen, acc =>
    if n = 0 then (rs, acc)
    else match nextRun approx rs with
      | none => (rs, acc)
      | some i => match (rs[i]?).bind fun r => r.ents[r.cur]? with
        | none => (rs, acc)
        | some e =>
          let rs1 := rs.modify i fun r => { r with cur := r.cur + 1 }
          if seen.contains e.2 then mergeTake approx fuel n rs1 seen acc
          else mergeTake approx fuel (n - 1) rs1 (e.2 :: seen) (acc ++ [e])

/-- The runs that a run list of `n` entries names, checked and read (R315). -/
def passRuns (s : State) (dom la n : Nat) : Work (List Run) := do
  let b ← operand s dom la (16 * n)
  let ent := fun i => (fieldOf b (16 * i) 7, fieldOf b (16 * i + 7) 1, fieldOf b (16 * i + 8) 4, fieldOf b (16 * i + 12) 4)
  need ((List.range n).all fun i => let e := ent i; 1 ≤ e.2.1 && e.2.1 ≤ 8 && e.2.2.2 == 0) (.report stBAD_OPERATOR 0x60 0 0)
  (List.range n).foldlM (fun (l : List Run) i => do
    let e := ent i
    let es ← (List.range e.2.1).foldlM (fun (m : List KI) j => do
      let x ← operand s dom (e.1 + blockSize * j) blockSize
      .ok (m ++ parseBlock x)) []
    .ok (l ++ [{ ents := es, cur := e.2.2.1 }])) []

/-- MERGE_PASS (R315). -/
def mergePass (inst : Nat) (s : State) : State :=
  engine 4 inst .merge 1 (fun s c => do
    let d := c.tok.desc
    let dom := c.tok.dom
    let la := laneBits d 0 0 56
    let n := laneBits d 0 56 8
    let k := laneBits d 2 0 14
    let approx := bitAt (lane64 d 2) 14
    let out := laneBits d 1 0 56
    need (1 ≤ n && n ≤ 16 && 1025 ≤ k && k ≤ 8192 && laneBits d 1 56 8 == 0 && laneBits d 2 15 49 == 0 && out % 64 == 0)
      (.report stBAD_OPERATOR 0x60 0 0)
    let runs ← passRuns s dom la n
    writable s dom la (16 * n) 4 inst
    writable s dom out blockSize 4 inst
    let v := laneOf s inst
    let opening := runs.all fun r => r.cur == 0
    let others := tdel v.sessions la
    need (!opening || storeUsed { v with sessions := others } + 8192 ≤ 65536) (.report stBAD_OPERATOR 0x61 0 0)
    need (opening || (tfind v.sessions la).isSome) (.report stBAD_OPERATOR 0x60 0 0)
    let ses : Session := if opening then { runs := n } else tget {} v.sessions la
    let left := k - ses.emitted.length
    let total := runs.foldl (fun m r => m + r.ents.length) 0
    let (rs1, got) := mergeTake approx (total + 1) (min 1024 left) runs ses.emitted []
    let seen := got.map (·.2) ++ ses.emitted
    let rest := dedup ((rs1.flatMap fun r => r.ents.drop r.cur).filter fun e => !seen.contains e.2)
    let more := decide (rest != [] ∧ got.length < left)
    let ties := if more then 0 else match got.getLast? with
      | some e => if got.length < left then 0 else (rest.filter fun x => x.1 == e.1).length
      | none => 0
    let s1 := uPoke s dom out (selBlock got)
    let s2 := (rs1.zipIdx).foldl (fun s p => uPoke s dom (la + 16 * p.2 + 8) (bytesOf 4 p.1.cur)) s1
    let v2 := laneOf s2 inst
    let s3 := setLane s2 inst { v2 with sessions := if more then tins others la { ses with emitted := seen } else others }
    let st := if !more && got.length < left then stSHORT else stOK
    .ok (endCmd s3 4 inst c st 0 got.length (selSpec ties more 0))) s

/-- The entries of `n` selection blocks in a row. -/
def areaBlocks (s : State) (dom area n : Nat) : Work (List KI) :=
  (List.range n).foldlM (fun (l : List KI) i => do
    let x ← operand s dom (area + blockSize * i) blockSize
    .ok (l ++ parseBlock x)) []

/-- MERGE_SPILL_SORT (R316): what is left in the scratch area the manual does not state. -/
def mergeSpillSort (inst : Nat) (s : State) : State :=
  engine 4 inst .merge 2 (fun s c => do
    let d := c.tok.desc
    let dom := c.tok.dom
    let area := laneBits d 0 0 56
    let n := laneBits d 1 0 32
    let scratch := laneBits d 2 0 56
    need (n ≥ 1 && laneBits d 0 56 8 == 0 && laneBits d 1 32 32 == 0 && laneBits d 2 56 8 == 0 && area % 64 == 0 && scratch % 64 == 0)
      (.report stBAD_OPERATOR 0x60 0 0)
    let l ← areaBlocks s dom area n
    writable s dom area (blockSize * n) 4 inst
    writable s dom scratch (blockSize * n) 4 inst
    let sorted := sortKI false (dedup l)
    let s1 := freeNext (uPoke s dom scratch (freeBytes s (blockSize * n)))
    let s2 := uPoke s1 dom area ((List.range n).flatMap fun i => selBlock ((sorted.drop (1024 * i)).take 1024))
    .ok (endCmd s2 4 inst c stOK 0 sorted.length 0)) s

/-! ### UNIQ (R317) -/

/-- The groups of a list under a mask: smallest key, its identifier, group value, size. -/
def groupsOf (mask : Nat) (l : List KI) : List (Nat × Nat × Nat × Nat) :=
  let vals := (l.map fun e => Nat.land e.2 mask).eraseDups
  vals.map fun v =>
    let g := l.filter fun e => Nat.land e.2 mask == v
    let m := (sortKI false g).headD (0, 0)
    (m.1, m.2, v, g.length)

/-- UNIQ. -/
def uniq (inst op : Nat) (s : State) : State :=
  engine 4 inst .uniq op (fun s c => do
    need (inst < 16) (.report stBAD_OPERATOR 0x64 0 0)
    let d := c.tok.desc
    let dom := c.tok.dom
    let n := laneBits d 0 56 8
    let out := laneBits d 1 0 56
    need (1 ≤ n && n ≤ 16 && laneBits d 1 56 8 == 0 && out % 64 == 0) (.report stBAD_OPERATOR 0x60 0 0)
    let l ← inputBlocks s dom (laneBits d 0 0 56) n
    writable s dom out blockSize 4 inst
    let gs := (groupsOf (lane64 d 2) l).mergeSort fun a b => a.1 < b.1 || (a.1 == b.1 && a.2.2.1 ≤ b.2.2.1)
    let es : List KI := gs.map fun g => if op = 0 then (g.1, g.2.1) else (min g.2.2.2 (2 ^ 32 - 1), g.2.2.1)
    .ok (endCmd (uPoke s dom out (selBlock (es.take 1024))) 4 inst c stOK 0 (min 1024 es.length) (selSpec 0 (decide (es.length > 1024)) 0))) s

/-! ### The collective (R318 to R320) -/

/-- Stride of the child slots of an inbox. -/
def contribStride (nmax : Nat) : Nat := round64 (16512 + 8 * nmax)
/-- The epoch list of a contribution: (node, epoch) pairs. -/
def epochList (b : List Byte) : List (Nat × Nat) :=
  (List.range (fieldOf b 16448 2)).map fun i => (fieldOf b (16512 + 8 * i) 2 % 4096, fieldOf b (16512 + 8 * i + 2) 6)
/-- The bytes of an epoch header and list (R319). -/
def epochBytes (tag : Nat) (l : List (Nat × Nat)) : List Byte :=
  bytesOf 2 l.length ++ bytesOf 1 1 ++ bytesOf 5 0 ++ bytesOf 8 tag ++ List.replicate 48 (0 : Byte)
    ++ l.flatMap fun p => bytesOf 2 p.1 ++ bytesOf 6 p.2

/-- The child slots of an inbox that hold a contribution with the tag, with their bytes (R319, R320). -/
def collectKids (s : State) (dom inbox z nc tag : Nat) : Work (List (Nat × List Byte)) :=
  (List.range nc).foldlM (fun (l : List (Nat × List Byte)) i => do
    let x ← operand s dom (inbox + z * i) z
    .ok (if fieldOf x 16450 1 == 1 && fieldOf x 16456 8 == tag then l ++ [(i, x)] else l)) []

/-- MERGE_COLLECTIVE (R320). -/
def mergeCollective (inst : Nat) (s : State) : State :=
  engine 4 inst .merge 3 (fun s c => do
    need (inst == 16) (.report stBAD_OPERATOR 0x64 0 0)
    let d := c.tok.desc
    let dom := c.tok.dom
    need (laneBits d 0 56 8 == 0 && lane64 d 1 == 0 && lane64 d 2 == 0) (.report stBAD_OPERATOR 0x60 0 0)
    let p ← operand s dom (laneBits d 0 0 56) 64
    let k := fieldOf p 0 2
    let approx := bitAt (fieldOf p 2 1) 0
    let nc := fieldOf p 3 1
    let nmax := fieldOf p 4 2
    let ep := fieldOf p 8 8
    let localA := fieldOf p 0x10 8
    let inbox := fieldOf p 0x18 8
    let out := fieldOf p 0x20 8
    let tag := fieldOf p 0x28 8
    let z := contribStride nmax
    need (1 ≤ k && k ≤ 1024 && fieldOf p 2 1 < 2 && nc ≤ 16 && 1 ≤ nmax && nmax ≤ 4096 && fieldOf p 6 2 == 0 && ep < 2 ^ 48
      && fieldOf p 0x30 16 == 0 && localA % 64 == 0 && inbox % 64 == 0 && out % 64 == 0) (.report stBAD_OPERATOR 0x60 0 0)
    let lb ← operand s dom localA blockSize
    let kids ← collectKids s dom inbox z nc tag
    let eps := ((myNode s).getD 0, ep) :: kids.flatMap fun x => epochList x.2
    need ((eps.map (·.1)).Nodup && eps.length ≤ nmax) (.report stBAD_OPERATOR 0x65 0 0)
    writable s dom out (16512 + 8 * eps.length) 4 inst
    if kids = [] then .ok () else writable s dom inbox (z * nc) 4 inst
    let (best, ties) := selectBest approx k [] (dedup (parseBlock lb ++ kids.flatMap fun x => parseBlock x.2))
    let sortedE := eps.mergeSort fun a b => a.1 ≤ b.1
    let s1 := uPoke s dom out (selBlock best ++ epochBytes tag sortedE)
    let s2 := kids.foldl (fun s x => uPoke s dom (inbox + z * x.1 + 16450) [0]) s1
    .ok (endCmd s2 4 inst c (if best.length < k then stSHORT else stOK) 0 best.length (selSpec ties false (nc - kids.length)))) s

/-! ### The rows -/

/-- CANDIDATE_INTAKE (R298). -/
def execCandidateIntake (lane : BitVec 4) (s : State) : Out := .next (candidateIntake lane.toNat s)
/-- SEL_ARM_EXACT (R304). -/
def execSelArmExact (inst : Nat) (s : State) : Out := .next (selArm inst false s)
/-- SEL_ARM_APPROX (R304). -/
def execSelArmApprox (inst : Nat) (s : State) : Out := .next (selArm inst true s)
/-- SEL_DRAIN (R310). -/
def execSelDrain (inst : Nat) (s : State) : Out := .next (selDrain inst s)
/-- MERGE_PARTIAL (R314). -/
def execMergePartial (inst : Nat) (s : State) : Out := .next (mergePartial inst s)
/-- MERGE_PASS (R315). -/
def execMergePass (inst : Nat) (s : State) : Out := .next (mergePass inst s)
/-- MERGE_SPILL_SORT (R316). -/
def execMergeSpillSort (inst : Nat) (s : State) : Out := .next (mergeSpillSort inst s)
/-- MERGE_COLLECTIVE (R320). -/
def execMergeCollective (inst : Nat) (s : State) : Out := .next (mergeCollective inst s)
/-- UNIQ_VALUES (R317). -/
def execUniqValues (inst : Nat) (s : State) : Out := .next (uniq inst 0 s)
/-- UNIQ_COUNTS (R317). -/
def execUniqCounts (inst : Nat) (s : State) : Out := .next (uniq inst 1 s)

end Sys2Proof.Machine
end

