-- ==== Sys2Proof/Machine/SpenexMem.lean ====
section
/-!
DEFINITION. Memory, descriptor and selection-vector instructions of Spenex (R116 to R120).
-/

namespace Sys2Proof.Machine

open Sys2Proof


/-- LD (R117). -/
def execLd (q : BitVec 7) (f : Spx) (s : State) : Out :=
  .next (spx q f 0x20 8 (tileLoad f 8 8 fun c bs => setG c f.a (BitVec.ofNat 64 (numOf bs))) s)
/-- ST (R117). -/
def execSt (q : BitVec 7) (f : Spx) (s : State) : Out :=
  .next (spx q f 0x21 2 (tileStore f 8 (fun c => bytesOf 8 (gReg c f.a).toNat) 8) s)
/-- LDD (R117). -/
def execLdd (q : BitVec 7) (f : Spx) (s : State) : Out :=
  .next (spx q f 0x22 8 (tileLoad f 32 32 fun c bs => setD c f.a.toNat (BitVec.ofNat 256 (numOf bs))) s)
/-- STD (R117). -/
def execStd (q : BitVec 7) (f : Spx) (s : State) : Out :=
  .next (spx q f 0x23 2 (tileStore f 32 (fun c => bytesOf 32 (dReg c f.a.toNat).toNat) 32) s)
/-- DSET (R117): one 64-bit lane of dA. -/
def execDset (q : BitVec 7) (f : Spx) (s : State) : Out :=
  .next (pureOp q f 0x24 1
    (fun c => setD c f.a.toNat (BitVec.ofNat 256 (putBits (dReg c f.a.toNat).toNat (64 * fnN f) 64 (gReg c f.b).toNat))) s)
/-- DGET (R117). -/
def execDget (q : BitVec 7) (f : Spx) (s : State) : Out :=
  .next (pureOp q f 0x25 1
    (fun c => setG c f.a (BitVec.ofNat 64 (bitsOf (dReg c f.b.toNat).toNat (64 * fnN f) 64))) s)

/-- Entry `i` of a selection block (R119) as an entry of a selection vector: distance, then identifier. -/
def blockEnt (bs : List Byte) (i : Nat) : BitVec 96 :=
  BitVec.ofNat 96 (fieldOf bs (64 + 16 * i) 4 + 2 ^ 32 * fieldOf bs (72 + 16 * i) 8)
/-- The context with a selection block loaded into a vector; a COUNT above 1,024 is 1,024. -/
def loadBlock (c : Ctx) (v : Nat) (bs : List Byte) : Ctx :=
  (List.range 1024).foldl (fun c i => setV c v i (blockEnt bs i)) (setVCount c v (min 1024 (fieldOf bs 0 2)))
/-- The 16 bytes of an entry in a selection block. -/
def entBytes (e : BitVec 96) : List Byte := bytesOf 4 (bitsOf e.toNat 0 32) ++ bytesOf 4 0 ++ bytesOf 8 (bitsOf e.toNat 32 64)
/-- The selection block of a vector (R119). -/
def blockBytes (c : Ctx) (v : Nat) : List Byte :=
  bytesOf 2 (vCount c v) ++ bytesOf 62 0 ++ (List.range 1024).flatMap fun i => entBytes (vEnt c v i)

/-- VLD (R117, R119). -/
def execVld (q : BitVec 7) (f : Spx) (s : State) : Out :=
  .next (spx q f 0x26 265 (tileLoad f 64 16448 fun c bs => loadBlock c f.a.toNat bs) s)
/-- VST (R117, R119). -/
def execVst (q : BitVec 7) (f : Spx) (s : State) : Out :=
  .next (spx q f 0x27 258 (tileStore f 64 (fun c => blockBytes c f.a.toNat) 16448) s)
/-- VGET (R117, R118): an index of 1,024 or more gives all ones. -/
def execVget (q : BitVec 7) (f : Spx) (s : State) : Out :=
  .next (pureOp q f 0x28 2 (fun c =>
    let i := (gReg c f.c).toNat
    let e := (vEnt c f.b.toNat i).toNat
    setG c f.a (if i ≥ 1024 then BitVec.allOnes 64 else BitVec.ofNat 64 (if fnN f = 0 then bitsOf e 0 32 else bitsOf e 32 64))) s)
/-- VPUT (R117, R118): an index of 1,024 or more has no effect. -/
def execVput (q : BitVec 7) (f : Spx) (s : State) : Out :=
  .next (pureOp q f 0x29 2 (fun c =>
    let i := (gReg c f.b).toNat
    let e := (vEnt c f.a.toNat i).toNat
    let v := (gReg c f.c).toNat
    if i ≥ 1024 then c
    else setV c f.a.toNat i (BitVec.ofNat 96 (if fnN f = 0 then putBits e 0 32 v else putBits e 32 64 v))) s)
/-- VCNT (R117). -/
def execVcnt (q : BitVec 7) (f : Spx) (s : State) : Out :=
  .next (pureOp q f 0x2A 1
    (fun c => setG c f.a (BitVec.ofNat 64 (vCount c f.b.toNat))) s)
/-- VSETC (R117): saturates at 1,024. -/
def execVsetc (q : BitVec 7) (f : Spx) (s : State) : Out :=
  .next (pureOp q f 0x2B 1
    (fun c => setVCount c f.a.toNat (min 1024 (gReg c f.b).toNat)) s)
/-- TIME (R117, R120). -/
def execTime (q : BitVec 7) (f : Spx) (s : State) : Out :=
  .next (spx q f 0x2C 4
    (fun s tag j => retire f s tag j fun c => setG c f.a (BitVec.ofNat 64 s.now)) s)

end Sys2Proof.Machine
end

