-- ==== Sys2Proof/Machine/Dispatch.lean ====
section
/-!
DEFINITION. The one dispatch from a command to its meaning.
-/

namespace Sys2Proof.Machine

open Sys2Proof

def exec (i : Instr) (s : State) : Host.Outcome State Fault Refusal :=
  match i with
  | .registerWrite r inst v => Sys2Proof.Machine.execRegisterWrite r inst v s
  | .bar0BadAccess isWrite off size => Sys2Proof.Machine.execBar0BadAccess isWrite off size s
  | .paceTargetWrite v => Sys2Proof.Machine.execPaceTargetWrite v s
  | .limiterRamp governor achieved amount => Sys2Proof.Machine.execLimiterRamp governor achieved amount s
  | .paceMonWindow cw ce iod limited governed => Sys2Proof.Machine.execPaceMonWindow cw ce iod limited governed s
  | .clrMin v => Sys2Proof.Machine.execClrMin v s
  | .ptpMessage mgb offset rate => Sys2Proof.Machine.execPtpMessage mgb offset rate s
  | .holdoverEntry => Sys2Proof.Machine.execHoldoverEntry s
  | .grandmasterReturn mgb offset rate => Sys2Proof.Machine.execGrandmasterReturn mgb offset rate s
  | .ptpSwitchover mgb rate => Sys2Proof.Machine.execPtpSwitchover mgb rate s
  | .smcTimeLoRead => Sys2Proof.Machine.execSmcTimeLoRead s
  | .planLoad tag => Sys2Proof.Machine.execPlanLoad tag s
  | .planUnload tag => Sys2Proof.Machine.execPlanUnload tag s
  | .jobPlacement => Sys2Proof.Machine.execJobPlacement s
  | .deadlineReached tag => Sys2Proof.Machine.execDeadlineReached tag s
  | .pendingJobLate tag => Sys2Proof.Machine.execPendingJobLate tag s
  | .takenRequestLate tag slot => Sys2Proof.Machine.execTakenRequestLate tag slot s
  | .claim q f => Sys2Proof.Machine.execClaim q f s
  | .heldClaimGrant => Sys2Proof.Machine.execHeldClaimGrant s
  | .handFree q f => Sys2Proof.Machine.execHandFree q f s
  | .handToJob q f => Sys2Proof.Machine.execHandToJob q f s
  | .handToEngine q f => Sys2Proof.Machine.execHandToEngine q f s
  | .handRecall q f => Sys2Proof.Machine.execHandRecall q f s
  | .yieldPoint q f => Sys2Proof.Machine.execYieldPoint q f s
  | .seqWatchdogAbort q => Sys2Proof.Machine.execSeqWatchdogAbort q s
  | .nbuWatchdogAbort bank => Sys2Proof.Machine.execNbuWatchdogAbort bank s
  | .seqOverrun q => Sys2Proof.Machine.execSeqOverrun q s
  | .nbuOverrun bank => Sys2Proof.Machine.execNbuOverrun bank s
  | .forcedRefreshSuspension bank => Sys2Proof.Machine.execForcedRefreshSuspension bank s
  | .seqViolCntClear v => Sys2Proof.Machine.execSeqViolCntClear v s
  | .seqStalePulseClear v => Sys2Proof.Machine.execSeqStalePulseClear v s
  | .creditStallResume q => Sys2Proof.Machine.execCreditStallResume q s
  | .pulse idx gen inc => Sys2Proof.Machine.execPulse idx gen inc s
  | .makeWayRequest => Sys2Proof.Machine.execMakeWayRequest s
  | .jobResume ue => Sys2Proof.Machine.execJobResume ue s
  | .add q f => Sys2Proof.Machine.execAdd q f s
  | .sub q f => Sys2Proof.Machine.execSub q f s
  | .mul q f => Sys2Proof.Machine.execMul q f s
  | .mulhu q f => Sys2Proof.Machine.execMulhu q f s
  | .divu q f => Sys2Proof.Machine.execDivu q f s
  | .remu q f => Sys2Proof.Machine.execRemu q f s
  | .div q f => Sys2Proof.Machine.execDiv q f s
  | .rem q f => Sys2Proof.Machine.execRem q f s
  | .andOp q f => Sys2Proof.Machine.execAndOp q f s
  | .orOp q f => Sys2Proof.Machine.execOrOp q f s
  | .xorOp q f => Sys2Proof.Machine.execXorOp q f s
  | .shl q f => Sys2Proof.Machine.execShl q f s
  | .shr q f => Sys2Proof.Machine.execShr q f s
  | .sar q f => Sys2Proof.Machine.execSar q f s
  | .minu q f => Sys2Proof.Machine.execMinu q f s
  | .maxu q f => Sys2Proof.Machine.execMaxu q f s
  | .minOp q f => Sys2Proof.Machine.execMinOp q f s
  | .maxOp q f => Sys2Proof.Machine.execMaxOp q f s
  | .cmp q f => Sys2Proof.Machine.execCmp q f s
  | .mov q f => Sys2Proof.Machine.execMov q f s
  | .popc q f => Sys2Proof.Machine.execPopc q f s
  | .clz q f => Sys2Proof.Machine.execClz q f s
  | .li q f => Sys2Proof.Machine.execLi q f s
  | .ld q f => Sys2Proof.Machine.execLd q f s
  | .st q f => Sys2Proof.Machine.execSt q f s
  | .ldd q f => Sys2Proof.Machine.execLdd q f s
  | .std q f => Sys2Proof.Machine.execStd q f s
  | .dset q f => Sys2Proof.Machine.execDset q f s
  | .dget q f => Sys2Proof.Machine.execDget q f s
  | .vld q f => Sys2Proof.Machine.execVld q f s
  | .vst q f => Sys2Proof.Machine.execVst q f s
  | .vget q f => Sys2Proof.Machine.execVget q f s
  | .vput q f => Sys2Proof.Machine.execVput q f s
  | .vcnt q f => Sys2Proof.Machine.execVcnt q f s
  | .vsetc q f => Sys2Proof.Machine.execVsetc q f s
  | .time q f => Sys2Proof.Machine.execTime q f s
  | .br q f => Sys2Proof.Machine.execBr q f s
  | .bc q f => Sys2Proof.Machine.execBc q f s
  | .jal q f => Sys2Proof.Machine.execJal q f s
  | .jr q f => Sys2Proof.Machine.execJr q f s
  | .nop q f => Sys2Proof.Machine.execNop q f s
  | .endJob q f => Sys2Proof.Machine.execEndJob q f s
  | .tinst q f => Sys2Proof.Machine.execTinst q f s
  | .scan q f => Sys2Proof.Machine.execScan q f s
  | .rank q f => Sys2Proof.Machine.execRank q f s
  | .lrank q f => Sys2Proof.Machine.execLrank q f s
  | .sel q f => Sys2Proof.Machine.execSel q f s
  | .merge q f => Sys2Proof.Machine.execMerge q f s
  | .uniq q f => Sys2Proof.Machine.execUniq q f s
  | .gath q f => Sys2Proof.Machine.execGath q f s
  | .scat q f => Sys2Proof.Machine.execScat q f s
  | .move q f => Sys2Proof.Machine.execMove q f s
  | .enc q f => Sys2Proof.Machine.execEnc q f s
  | .maxsim q f => Sys2Proof.Machine.execMaxsim q f s
  | .fld q f => Sys2Proof.Machine.execFld q f s
  | .fst q f => Sys2Proof.Machine.execFst q f s
  | .fatom q f => Sys2Proof.Machine.execFatom q f s
  | .acopyPush q f => Sys2Proof.Machine.execAcopyPush q f s
  | .acopyPull q f => Sys2Proof.Machine.execAcopyPull q f s
  | .fabricReply p => Sys2Proof.Machine.execFabricReply p s
  | .await q f => Sys2Proof.Machine.execAwait q f s
  | .awaitSatisfied q => Sys2Proof.Machine.execAwaitSatisfied q s
  | .extTimeout q => Sys2Proof.Machine.execExtTimeout q s
  | .fence q f => Sys2Proof.Machine.execFence q f s
  | .fenceRetire q => Sys2Proof.Machine.execFenceRetire q s
  | .viewBind q f => Sys2Proof.Machine.execViewBind q f s
  | .viewUnbind q f => Sys2Proof.Machine.execViewUnbind q f s
  | .ard q f => Sys2Proof.Machine.execArd q f s
  | .take q f => Sys2Proof.Machine.execTake q f s
  | .takeRetire q => Sys2Proof.Machine.execTakeRetire q s
  | .postChild q f => Sys2Proof.Machine.execPostChild q f s
  | .postCompletion q f => Sys2Proof.Machine.execPostCompletion q f s
  | .scanLoadGroup cluster => Sys2Proof.Machine.execScanLoadGroup cluster s
  | .scanStackList cluster dissent split => Sys2Proof.Machine.execScanStackList cluster dissent split s
  | .scanResidentList cluster dissent split => Sys2Proof.Machine.execScanResidentList cluster dissent split s
  | .rankCommand stack => Sys2Proof.Machine.execRankCommand stack s
  | .nbuNop bank m => Sys2Proof.Machine.execNbuNop bank m s
  | .nbuYield bank m => Sys2Proof.Machine.execNbuYield bank m s
  | .nbuEnd bank m => Sys2Proof.Machine.execNbuEnd bank m s
  | .nbuLdr bank m => Sys2Proof.Machine.execNbuLdr bank m s
  | .nbuLdh bank m => Sys2Proof.Machine.execNbuLdh bank m s
  | .nbuStc bank m => Sys2Proof.Machine.execNbuStc bank m s
  | .nbuLdz bank m => Sys2Proof.Machine.execNbuLdz bank m s
  | .nbuLds bank m => Sys2Proof.Machine.execNbuLds bank m s
  | .nbuMac bank m => Sys2Proof.Machine.execNbuMac bank m s
  | .nbuMacr bank m => Sys2Proof.Machine.execNbuMacr bank m s
  | .nbuMqz bank m => Sys2Proof.Machine.execNbuMqz bank m s
  | .nbuRed bank m => Sys2Proof.Machine.execNbuRed bank m s
  | .nbuFop bank m => Sys2Proof.Machine.execNbuFop bank m s
  | .nbuSetm bank m => Sys2Proof.Machine.execNbuSetm bank m s
  | .nbuSetp bank m => Sys2Proof.Machine.execNbuSetp bank m s
  | .nbuAddp bank m => Sys2Proof.Machine.execNbuAddp bank m s
  | .nbuMovp bank m => Sys2Proof.Machine.execNbuMovp bank m s
  | .nbuBr bank m => Sys2Proof.Machine.execNbuBr bank m s
  | .nbuLoop bank m => Sys2Proof.Machine.execNbuLoop bank m s
  | .nbuBz bank m => Sys2Proof.Machine.execNbuBz bank m s
  | .nbuEmit bank m => Sys2Proof.Machine.execNbuEmit bank m s
  | .refreshDue bank => Sys2Proof.Machine.execRefreshDue bank s
  | .stkDeferMaxClr stack v => Sys2Proof.Machine.execStkDeferMaxClr stack v s
  | .lrankLoadTable channel => Sys2Proof.Machine.execLrankLoadTable channel s
  | .lrankScorePages channel => Sys2Proof.Machine.execLrankScorePages channel s
  | .lunReadIssue channel lun join => Sys2Proof.Machine.execLunReadIssue channel lun join s
  | .pageReadComplete channel lun dec mismatch => Sys2Proof.Machine.execPageReadComplete channel lun dec mismatch s
  | .candidateIntake lane => Sys2Proof.Machine.execCandidateIntake lane s
  | .selArmExact inst => Sys2Proof.Machine.execSelArmExact inst s
  | .selArmApprox inst => Sys2Proof.Machine.execSelArmApprox inst s
  | .selDrain inst => Sys2Proof.Machine.execSelDrain inst s
  | .mergePartial inst => Sys2Proof.Machine.execMergePartial inst s
  | .mergePass inst => Sys2Proof.Machine.execMergePass inst s
  | .mergeSpillSort inst => Sys2Proof.Machine.execMergeSpillSort inst s
  | .mergeCollective inst => Sys2Proof.Machine.execMergeCollective inst s
  | .uniqValues inst => Sys2Proof.Machine.execUniqValues inst s
  | .uniqCounts inst => Sys2Proof.Machine.execUniqCounts inst s
  | .encLayer sca bad => Sys2Proof.Machine.execEncLayer sca bad s
  | .encCentroid sca bad => Sys2Proof.Machine.execEncCentroid sca bad s
  | .encProjection sca bad => Sys2Proof.Machine.execEncProjection sca bad s
  | .encCrossScore sca bad => Sys2Proof.Machine.execEncCrossScore sca bad s
  | .maxsimScore sca bad => Sys2Proof.Machine.execMaxsimScore sca bad s
  | .gathGather tbe => Sys2Proof.Machine.execGathGather tbe s
  | .gathPool tbe => Sys2Proof.Machine.execGathPool tbe s
  | .scatOverwrite tbe => Sys2Proof.Machine.execScatOverwrite tbe s
  | .scatAdd tbe => Sys2Proof.Machine.execScatAdd tbe s
  | .scatReplace tbe => Sys2Proof.Machine.execScatReplace tbe s
  | .rowRequest tbe => Sys2Proof.Machine.execRowRequest tbe s
  | .replicaCopyRetry id => Sys2Proof.Machine.execReplicaCopyRetry id s
  | .moveCopy channel => Sys2Proof.Machine.execMoveCopy channel s
  | .moveCopyList channel => Sys2Proof.Machine.execMoveCopyList channel s
  | .hazeAppend tag => Sys2Proof.Machine.execHazeAppend tag s
  | .commitRequest tag => Sys2Proof.Machine.execCommitRequest tag s
  | .pin tag => Sys2Proof.Machine.execPin tag s
  | .unpin tag => Sys2Proof.Machine.execUnpin tag s
  | .mergeOpen tag => Sys2Proof.Machine.execMergeOpen tag s
  | .mergeFold tag => Sys2Proof.Machine.execMergeFold tag s
  | .mergeSwap tag => Sys2Proof.Machine.execMergeSwap tag s
  | .mergeClose tag => Sys2Proof.Machine.execMergeClose tag s
  | .park tag => Sys2Proof.Machine.execPark tag s
  | .unpark tag => Sys2Proof.Machine.execUnpark tag s
  | .updraftPage tag => Sys2Proof.Machine.execUpdraftPage tag s
  | .updraftHotset tag => Sys2Proof.Machine.execUpdraftHotset tag s
  | .engineCommandComplete cls inst => Sys2Proof.Machine.execEngineCommandComplete cls inst s
  | .groupCommit journaled => Sys2Proof.Machine.execGroupCommit journaled s
  | .replicaBatch src index id ops => Sys2Proof.Machine.execReplicaBatch src index id ops s
  | .replicaAck src id tags refusal => Sys2Proof.Machine.execReplicaAck src id tags refusal s
  | .commitNotice src id => Sys2Proof.Machine.execCommitNotice src id s
  | .noticeAck src id => Sys2Proof.Machine.execNoticeAck src id s
  | .discardNotice src id => Sys2Proof.Machine.execDiscardNotice src id s
  | .commitTimeout id => Sys2Proof.Machine.execCommitTimeout id s
  | .outcomeQueryTimer id => Sys2Proof.Machine.execOutcomeQueryTimer id s
  | .outcomeQuery src id => Sys2Proof.Machine.execOutcomeQuery src id s
  | .indexInstall v => Sys2Proof.Machine.execIndexInstall v s
  | .indexRemove v => Sys2Proof.Machine.execIndexRemove v s
  | .overrideSet v => Sys2Proof.Machine.execOverrideSet v s
  | .overrideClear v => Sys2Proof.Machine.execOverrideClear v s
  | .indexCommandComplete => Sys2Proof.Machine.execIndexCommandComplete s
  | .tirIdxOvlClear v => Sys2Proof.Machine.execTirIdxOvlClear v s
  | .epochLoRead => Sys2Proof.Machine.execEpochLoRead s
  | .holdLoRead => Sys2Proof.Machine.execHoldLoRead s
  | .regionCreate v => Sys2Proof.Machine.execRegionCreate v s
  | .regionRemove v => Sys2Proof.Machine.execRegionRemove v s
  | .regionClean v => Sys2Proof.Machine.execRegionClean v s
  | .regionInvalidate v => Sys2Proof.Machine.execRegionInvalidate v s
  | .regionCleanInvalidate v => Sys2Proof.Machine.execRegionCleanInvalidate v s
  | .regionCommandComplete busError => Sys2Proof.Machine.execRegionCommandComplete busError s
  | .migrationPassEnd page => Sys2Proof.Machine.execMigrationPassEnd page s
  | .migrationFlip page => Sys2Proof.Machine.execMigrationFlip page s
  | .migrationDrain page => Sys2Proof.Machine.execMigrationDrain page s
  | .migFinalMaxClr v => Sys2Proof.Machine.execMigFinalMaxClr v s
  | .flashProgramComplete channel lun ok => Sys2Proof.Machine.execFlashProgramComplete channel lun ok s
  | .flashEraseComplete channel lun ok => Sys2Proof.Machine.execFlashEraseComplete channel lun ok s
  | .readDisturbLimit block => Sys2Proof.Machine.execReadDisturbLimit block s
  | .patrolRead block => Sys2Proof.Machine.execPatrolRead block s
  | .garbageCollection channel lun => Sys2Proof.Machine.execGarbageCollection channel lun s
  | .readSuspend channel lun => Sys2Proof.Machine.execReadSuspend channel lun s
  | .channelHeldOut channel => Sys2Proof.Machine.execChannelHeldOut channel s
  | .flsDiscard v => Sys2Proof.Machine.execFlsDiscard v s
  | .discardComplete => Sys2Proof.Machine.execDiscardComplete s
  | .windowCreate v => Sys2Proof.Machine.execWindowCreate v s
  | .windowRemove v => Sys2Proof.Machine.execWindowRemove v s
  | .windowCommandComplete => Sys2Proof.Machine.execWindowCommandComplete s
  | .load p => Sys2Proof.Machine.execLoad p s
  | .store p => Sys2Proof.Machine.execStore p s
  | .atomic p => Sys2Proof.Machine.execAtomic p s
  | .copyPush p => Sys2Proof.Machine.execCopyPush p s
  | .copyPull p => Sys2Proof.Machine.execCopyPull p s
  | .copyData p => Sys2Proof.Machine.execCopyData p s
  | .copyDone p => Sys2Proof.Machine.execCopyDone p s
  | .copyCancel p => Sys2Proof.Machine.execCopyCancel p s
  | .rowRead p => Sys2Proof.Machine.execRowRead p s
  | .rowUpdate p => Sys2Proof.Machine.execRowUpdate p s
  | .fabricOperationTimeout tag => Sys2Proof.Machine.execFabricOperationTimeout tag s
  | .copyTrackerTimeout key => Sys2Proof.Machine.execCopyTrackerTimeout key s
  | .portTrainingDone port lanes direct peer peerValid authOk => Sys2Proof.Machine.execPortTrainingDone port lanes direct peer peerValid authOk s
  | .qualificationComplete port pass => Sys2Proof.Machine.execQualificationComplete port pass s
  | .linkLoss port => Sys2Proof.Machine.execLinkLoss port s
  | .frameReceive port crcOk authOk => Sys2Proof.Machine.execFrameReceive port crcOk authOk s
  | .rekey port rx => Sys2Proof.Machine.execRekey port rx s
  | .pathNotice port node => Sys2Proof.Machine.execPathNotice port node s
  | .pathRestored port node => Sys2Proof.Machine.execPathRestored port node s
  | .endToEndReplay tag => Sys2Proof.Machine.execEndToEndReplay tag s
  | .portRetry v => Sys2Proof.Machine.execPortRetry v s
  | .portHold v => Sys2Proof.Machine.execPortHold v s
  | .sliceDefine v => Sys2Proof.Machine.execSliceDefine v s
  | .mapStage v => Sys2Proof.Machine.execMapStage v s
  | .mapCancel v => Sys2Proof.Machine.execMapCancel v s
  | .mapHorizon comp => Sys2Proof.Machine.execMapHorizon comp s
  | .drainDone p => Sys2Proof.Machine.execDrainDone p s
  | .ledgerRead p => Sys2Proof.Machine.execLedgerRead p s
  | .ledgerCas p => Sys2Proof.Machine.execLedgerCas p s
  | .offer p => Sys2Proof.Machine.execOffer p s
  | .accept p => Sys2Proof.Machine.execAccept p s
  | .handoffOffer v => Sys2Proof.Machine.execHandoffOffer v s
  | .handoffLedgerRead v => Sys2Proof.Machine.execHandoffLedgerRead v s
  | .handoffTimeout => Sys2Proof.Machine.execHandoffTimeout s
  | .hostLinkChange speed width flit => Sys2Proof.Machine.execHostLinkChange speed width flit s
  | .bar2Read off len => Sys2Proof.Machine.execBar2Read off len s
  | .bar2Write off data => Sys2Proof.Machine.execBar2Write off data s
  | .sqTailDoorbell q v => Sys2Proof.Machine.execSqTailDoorbell q v s
  | .eqHeadDoorbell q v => Sys2Proof.Machine.execEqHeadDoorbell q v s
  | .sysEqHeadWrite v => Sys2Proof.Machine.execSysEqHeadWrite v s
  | .sqEnable v => Sys2Proof.Machine.execSqEnable v s
  | .sqDisable v => Sys2Proof.Machine.execSqDisable v s
  | .eqEnable v => Sys2Proof.Machine.execEqEnable v s
  | .eqDisable v => Sys2Proof.Machine.execEqDisable v s
  | .submissionFetch busError => Sys2Proof.Machine.execSubmissionFetch busError s
  | .msixTimer eq => Sys2Proof.Machine.execMsixTimer eq s
  | .msixUnmask vec addr data => Sys2Proof.Machine.execMsixUnmask vec addr data s
  | .flr => Sys2Proof.Machine.execFlr s
  | .dmaBusError channel idx addr started => Sys2Proof.Machine.execDmaBusError channel idx addr started s
  | .dmaRestart v => Sys2Proof.Machine.execDmaRestart v s
  | .spdmMessage msg => Sys2Proof.Machine.execSpdmMessage msg s
  | .attestationRequest nonce => Sys2Proof.Machine.execAttestationRequest nonce s
  | .periodicRelease id => Sys2Proof.Machine.execPeriodicRelease id s
  | .seriesStop v => Sys2Proof.Machine.execSeriesStop v s
  | .dspPolWrite v => Sys2Proof.Machine.execDspPolWrite v s
  | .dspCountClear r v => Sys2Proof.Machine.execDspCountClear r v s
  | .trfIngDropClear v => Sys2Proof.Machine.execTrfIngDropClear v s
  | .gateListArm v => Sys2Proof.Machine.execGateListArm v s
  | .gateListCancel v => Sys2Proof.Machine.execGateListCancel v s
  | .gateListHorizon port => Sys2Proof.Machine.execGateListHorizon port s
  | .gateWindowEdge port => Sys2Proof.Machine.execGateWindowEdge port s
  | .egressServe port => Sys2Proof.Machine.execEgressServe port s
  | .sampleTick => Sys2Proof.Machine.execSampleTick s
  | .samplingEnable v => Sys2Proof.Machine.execSamplingEnable v s
  | .samplingDisable v => Sys2Proof.Machine.execSamplingDisable v s
  | .sampleHeadWrite v => Sys2Proof.Machine.execSampleHeadWrite v s
  | .domainCreate v => Sys2Proof.Machine.execDomainCreate v s
  | .domainRelease v => Sys2Proof.Machine.execDomainRelease v s
  | .domainReleaseDone => Sys2Proof.Machine.execDomainReleaseDone s
  | .heartbeat m => Sys2Proof.Machine.execHeartbeat m s
  | .mgmtFence m => Sys2Proof.Machine.execMgmtFence m s
  | .unfence m => Sys2Proof.Machine.execUnfence m s
  | .expel m => Sys2Proof.Machine.execExpel m s
  | .readmit m => Sys2Proof.Machine.execReadmit m s
  | .statusRequest m => Sys2Proof.Machine.execStatusRequest m s
  | .leaseExpiry => Sys2Proof.Machine.execLeaseExpiry s
  | .cfgArm v => Sys2Proof.Machine.execCfgArm v s
  | .cfgCancel v => Sys2Proof.Machine.execCfgCancel v s
  | .cfgHorizon => Sys2Proof.Machine.execCfgHorizon s
  | .cfgGraceExpiry => Sys2Proof.Machine.execCfgGraceExpiry s
  | .railsAndReference rails ref warm => Sys2Proof.Machine.execRailsAndReference rails ref warm s
  | .fuseLoad parity => Sys2Proof.Machine.execFuseLoad parity s
  | .firstStageVerification ok => Sys2Proof.Machine.execFirstStageVerification ok s
  | .unitBist bad => Sys2Proof.Machine.execUnitBist bad s
  | .yieldMapReconciliation => Sys2Proof.Machine.execYieldMapReconciliation s
  | .firmwareImageLoad verifies busError => Sys2Proof.Machine.execFirmwareImageLoad verifies busError s
  | .firmwareBroadcast ok => Sys2Proof.Machine.execFirmwareBroadcast ok s
  | .stackTraining bad => Sys2Proof.Machine.execStackTraining bad s
  | .flashDiscovery part bad => Sys2Proof.Machine.execFlashDiscovery part bad s
  | .fabricTraining => Sys2Proof.Machine.execFabricTraining s
  | .linkQualification => Sys2Proof.Machine.execLinkQualification s
  | .fullPcieFunction => Sys2Proof.Machine.execFullPcieFunction s
  | .timeSync => Sys2Proof.Machine.execTimeSync s
  | .configurationLoad readable records => Sys2Proof.Machine.execConfigurationLoad readable records s
  | .ready => Sys2Proof.Machine.execReady s
  | .stepComplete => Sys2Proof.Machine.execStepComplete s
  | .brownoutStart rails => Sys2Proof.Machine.execBrownoutStart rails s
  | .brownoutEnd lowMv => Sys2Proof.Machine.execBrownoutEnd lowMv s
  | .railResetLevel rail => Sys2Proof.Machine.execRailResetLevel rail s
  | .governorWindow power => Sys2Proof.Machine.execGovernorWindow power s
  | .prbPowerClr v => Sys2Proof.Machine.execPrbPowerClr v s
  | .thermalThrottle die tj => Sys2Proof.Machine.execThermalThrottle die tj s
  | .thermalEmergency die tj => Sys2Proof.Machine.execThermalEmergency die tj s
  | .emergencyEnd => Sys2Proof.Machine.execEmergencyEnd s
  | .thermalTrip die tj => Sys2Proof.Machine.execThermalTrip die tj s
  | .prbThermClrMax v => Sys2Proof.Machine.execPrbThermClrMax v s
  | .powerStateEntry => Sys2Proof.Machine.execPowerStateEntry s
  | .wakeComplete => Sys2Proof.Machine.execWakeComplete s
  | .waketolWrite v => Sys2Proof.Machine.execWaketolWrite v s
  | .warmReset v => Sys2Proof.Machine.execWarmReset v s
  | .fabricIsolationReset v => Sys2Proof.Machine.execFabricIsolationReset v s
  | .coldResetCommand v => Sys2Proof.Machine.execColdResetCommand v s
  | .perst => Sys2Proof.Machine.execPerst s
  | .powerOn => Sys2Proof.Machine.execPowerOn s
  | .ref100Loss => Sys2Proof.Machine.execRef100Loss s
  | .stackHeldOut stack => Sys2Proof.Machine.execStackHeldOut stack s
  | .stackPatrol stack => Sys2Proof.Machine.execStackPatrol stack s
  | .quarantine cls unit => Sys2Proof.Machine.execQuarantine cls unit s
  | .shadowClear v => Sys2Proof.Machine.execShadowClear v s
  | .goProd v => Sys2Proof.Machine.execGoProd v s
  | .lock v => Sys2Proof.Machine.execLock v s
  | .thermalLevelNormal die tj => Sys2Proof.Machine.execThermalLevelNormal die tj s
  | .replayRecordExpiry key => Sys2Proof.Machine.execReplayRecordExpiry key s

end Sys2Proof.Machine
end

