-- ==== Sys2Proof/Safety.lean ====
section
/-!
DEFINITION. What a sound state is, in the terms claims use: every memory and the register file in their canonical form, every
bounded store within its bound, and a step that stops.
-/

namespace Sys2Proof.Machine

open Sys2Proof

/-- A memory is in canonical form: addresses strictly rising, no byte listed that reads as zero anyway. -/
abbrev Memory.wf (m : List Host.Cell) : Prop := tcanon (0 : Byte) m = true

/-- The four memories of the machine are in canonical form. -/
def Mem.Wf (m : Mem) : Prop := Memory.wf m.stk ∧ Memory.wf m.tile ∧ Memory.wf m.flash ∧ Memory.wf m.host

/-- The register file is in canonical form: keys strictly rising, each that of a register, no register listed with its reset word. -/
def RegsWf (m : Table W32) : Prop := tsorted m = true ∧ ∀ p ∈ m, ∃ r b, p.1 = regKey r b ∧ p.2 ≠ regReset r

/-- A sound state: its memories, its register file and the frames its journal keeps are in canonical form; the hold of event records has its
4,096 (R497), the fault log its 1,024 (R619), and fault records are numbered from 1 in 32 bits. -/
def Sound (s : State) : Prop :=
  s.mem.Wf ∧ RegsWf s.regs ∧ (∀ j, s.prb.journal = some j → Memory.wf j.area) ∧ s.hiu.hold.length ≤ 4096 ∧ s.flt.log.length ≤ 1024
    ∧ 1 ≤ s.flt.nextSeq ∧ s.flt.nextSeq < 2 ^ 32

/-- A step stops: it faults or refuses. -/
def Stops (s : State) : Prop := ∀ t, step s ≠ .next t

end Sys2Proof.Machine
end

