-- ==== Sys2Proof/Certificates/Slice0/Obligations.lean ====
section
/-!
DEFINITION. The statements about the model: what every command of the YS-20 does, what it leaves alone, and what every
step keeps.
-/

namespace Sys2Proof.Claims

open Sys2Proof Sys2Proof.Machine

/-! ### The host (R656) -/

/-- Nothing that the host sent before waits to take effect: HIU holds no access, and no BAR2 write is deferred at a bank. -/
abbrev Prompt (s : State) : Prop := s.hiu.waiting = [] ∧ ∀ p ∈ s.stk.defer, ∀ d ∈ p.2, d.pkt ≠ none ∨ d.data = none

/-! ### Spenex (chapter 5) -/

/-- A sequencer begins a defined instruction of opcode `opc`: its job `j` runs, its deadline and the watchdog leave it to run,
and the instruction lies in the text section, without an uncorrectable word (R84, R106 to R109). -/
def Begins (opc : Nat) (q : BitVec 7) (f : Spx) (s : State) (tag : Nat) (j : Job) : Prop :=
  seqTag s q.toNat = some tag ∧ jobOf s tag = some j ∧ mayRun s j = true ∧ f.ue = false ∧ inText s j f = true
    ∧ defined opc (planOf s j.plan).phases.length f = true

/-- The job once `n` steps and the misses of the fetch have been counted (R110). -/
def paid (f : Spx) (n : Nat) (j : Job) : Job := { j with steps := j.steps + (n + min f.miss.toNat 192) }

/-- The job once an instruction of `n` steps has retired with registers and flags as in `c`: the pc is past its words. -/
def retired (f : Spx) (n : Nat) (c : Ctx) (j : Job) : Job :=
  { paid f n j with ctx := { c with pc := c.pc + (if f.x then 16 else 8) } }

/-- The flags register with C, Z, N given and CF kept (R112). -/
def flagWord (old : Byte) (c z n : Bool) : Byte :=
  0#4 ++ (BitVec.ofBool (old.getLsbD 3) ++ (BitVec.ofBool n ++ (BitVec.ofBool z ++ BitVec.ofBool c)))

/-- The flags register with CF given and C, Z, N kept (R112). -/
def flagCF (old : Byte) (cf : Bool) : Byte := old.extractLsb 7 4 ++ (BitVec.ofBool cf ++ old.extractLsb 2 0)

/-- gA written, with the flags. -/
def wroteG (f : Spx) (r : W64) (fl : Byte) (c : Ctx) : Ctx := { c with g := tput 0 c.g f.a.toNat r, flags := fl }

/-- A row of R114 of two operands: result, C and N as functions of gB and the second operand (gC, or the signed IMM), Z where
the result is zero; nothing else of the machine changes. -/
def AluRow (i : BitVec 7 → Spx → Instr) (opc n : Nat) (r : W64 → W64 → W64) (c ng : W64 → W64 → Bool) : Prop :=
  ∀ q f s tag j a b, Begins opc q f s tag j → a = gReg j.ctx f.b →
    b = (if f.fn.getLsbD 0 then f.imm.signExtend 64 else gReg j.ctx f.c) →
    exec (i q f) s = .next (setJob s tag
      (retired f n (wroteG f (r a b) (flagWord j.ctx.flags (c a b) (r a b == 0) (ng a b)) j.ctx) j))

/-- A row whose C is clear and whose N is bit 63 of the result. -/
def PlainRow (i : BitVec 7 → Spx → Instr) (opc n : Nat) (r : W64 → W64 → W64) : Prop :=
  AluRow i opc n r (fun _ _ => false) fun a b => (r a b).msb

/-- An instruction of `n` steps whose whole effect is on the registers of its job. -/
def PureRow (i : BitVec 7 → Spx → Instr) (opc n : Nat) (g : Spx → Ctx → Ctx) : Prop :=
  ∀ q f s tag j, Begins opc q f s tag j → exec (i q f) s = .next (setJob s tag (retired f n (g f j.ctx) j))

end Sys2Proof.Claims

open Sys2Proof Sys2Proof.Machine Sys2Proof.Claims

/-- R114, R112, R110: the arithmetic rows, their flags and their steps; the frame is in the equation. -/
def Sys2Proof.Claims.SpenexArithmetic : Prop :=
  AluRow .add 0x00 1 (fun a b => BitVec.ofNat 64 (a.toNat + b.toNat)) (fun a b => decide (2 ^ 64 ≤ a.toNat + b.toNat))
      (fun a b => (a + b).msb)
    ∧ AluRow .sub 0x01 1 (fun a b => BitVec.ofInt 64 (a.toInt - b.toInt)) (fun a b => decide (a.toNat < b.toNat))
      (fun a b => decide (a.toInt < b.toInt))
    ∧ PlainRow .mul 0x02 3 (fun a b => BitVec.ofNat 64 (a.toNat * b.toNat))
    ∧ PlainRow .mulhu 0x03 3 (fun a b => BitVec.ofNat 64 (a.toNat * b.toNat / 2 ^ 64))
    ∧ (∀ q f s tag j, Begins 0x12 q f s tag j → ∀ a b, a = gReg j.ctx f.b →
      b = (if f.fn.getLsbD 0 then f.imm.signExtend 64 else gReg j.ctx f.c) →
      exec (.cmp q f) s = .next (setJob s tag (retired f 1
        { j.ctx with flags := flagWord j.ctx.flags (decide (a.toNat < b.toNat)) (a == b) (decide (a.toInt < b.toInt)) } j)))

/-- R115: division; a zero divisor gives all ones, and the job goes on. -/
def Sys2Proof.Claims.SpenexDivision : Prop :=
  PlainRow .divu 0x04 34 (fun a b => if b = 0 then BitVec.allOnes 64 else BitVec.ofNat 64 (a.toNat / b.toNat))
    ∧ PlainRow .remu 0x05 34 (fun a b => if b = 0 then BitVec.allOnes 64 else BitVec.ofNat 64 (a.toNat % b.toNat))
    ∧ PlainRow .div 0x06 34 (fun a b => if b = 0 then BitVec.allOnes 64 else BitVec.ofInt 64 (a.toInt.tdiv b.toInt))
    ∧ PlainRow .rem 0x07 34 (fun a b => if b = 0 then BitVec.allOnes 64 else BitVec.ofInt 64 (a.toInt.tmod b.toInt))

/-- R114: logic, shifts, minima and maxima, moves and bit counts. -/
def Sys2Proof.Claims.SpenexLogicAndMoves : Prop :=
  PlainRow .andOp 0x08 1 (fun a b => a &&& b) ∧ PlainRow .orOp 0x09 1 (fun a b => a ||| b)
    ∧ PlainRow .xorOp 0x0A 1 (fun a b => a ^^^ b)
    ∧ PlainRow .shl 0x0B 1 (fun a b => BitVec.ofNat 64 (a.toNat * 2 ^ (b.toNat % 64)))
    ∧ PlainRow .shr 0x0C 1 (fun a b => BitVec.ofNat 64 (a.toNat / 2 ^ (b.toNat % 64)))
    ∧ PlainRow .sar 0x0D 1 (fun a b => BitVec.ofInt 64 (a.toInt / 2 ^ (b.toNat % 64)))
    ∧ PlainRow .minu 0x0E 1 (fun a b => if a.toNat ≤ b.toNat then a else b)
    ∧ PlainRow .maxu 0x0F 1 (fun a b => if a.toNat ≤ b.toNat then b else a)
    ∧ PlainRow .minOp 0x10 1 (fun a b => if a.toInt ≤ b.toInt then a else b)
    ∧ PlainRow .maxOp 0x11 1 (fun a b => if a.toInt ≤ b.toInt then b else a)
    ∧ PureRow .mov 0x13 1 (fun f c => wroteG f (if f.fn.getLsbD 0 then f.imm.signExtend 64 else gReg c f.b) c.flags c)
    ∧ PureRow .popc 0x14 1 (fun f c => let r : W64 := BitVec.ofNat 64 ((List.range 64).countP fun i => (gReg c f.b).getLsbD i)
        wroteG f r (flagWord c.flags false (r == 0) false) c)
    ∧ PureRow .clz 0x15 1 (fun f c => let r : W64 := BitVec.ofNat 64 (if gReg c f.b = 0 then 64 else 63 - (gReg c f.b).toNat.log2)
        wroteG f r (flagWord c.flags false (r == 0) false) c)
    ∧ PureRow .li 0x16 2 (fun f c => wroteG f f.ext c.flags c)

/-- R109 and R94: an instruction outside the text section, or an undefined encoding, ends the job with `ABORTED` whatever its
opcode; an uncorrectable word in it ends the job with `UNCORRECTABLE`. -/
def Obligations.UndefinedEncodingEndsTheJob : Prop :=
  ∀ (row : (BitVec 7 → Spx → Instr) × Nat), row ∈
    [(.add, 0x00), (.sub, 0x01), (.mul, 0x02), (.mulhu, 0x03), (.divu, 0x04), (.remu, 0x05), (.div, 0x06), (.rem, 0x07),
     (.andOp, 0x08), (.orOp, 0x09), (.xorOp, 0x0A), (.shl, 0x0B), (.shr, 0x0C), (.sar, 0x0D), (.minu, 0x0E), (.maxu, 0x0F),
     (.minOp, 0x10), (.maxOp, 0x11), (.cmp, 0x12), (.mov, 0x13), (.popc, 0x14), (.clz, 0x15), (.li, 0x16),
     (.ld, 0x20), (.st, 0x21), (.ldd, 0x22), (.std, 0x23), (.dset, 0x24), (.dget, 0x25), (.vld, 0x26), (.vst, 0x27),
     (.vget, 0x28), (.vput, 0x29), (.vcnt, 0x2A), (.vsetc, 0x2B), (.time, 0x2C), (.br, 0x40), (.bc, 0x41), (.jal, 0x42),
     (.jr, 0x43), (.nop, 0x44), (.endJob, 0x45), (.claim, 0x60), (.yieldPoint, 0x62), (.tinst, 0x63), (.scan, 0x80),
     (.rank, 0x81), (.lrank, 0x82), (.sel, 0x83), (.merge, 0x84), (.uniq, 0x85), (.gath, 0x86), (.scat, 0x87), (.move, 0x88),
     (.enc, 0x89), (.maxsim, 0x8A), (.fld, 0xA0), (.fst, 0xA1), (.fatom, 0xA2), (.await, 0xC0), (.fence, 0xC1), (.ard, 0xC3),
     (.take, 0xC8)] →
  ∀ q f s tag j, seqTag s q.toNat = some tag → jobOf s tag = some j → mayRun s j = true →
    (f.ue = true → exec (row.1 q f) s = .next (ueJob s tag)) ∧
    (f.ue = false → inText s j f = false ∨ defined row.2 (planOf s j.plan).phases.length f = false →
      exec (row.1 q f) s = .next (faultJob s tag 3 0x0C 0x0D 0))

/-- R116 to R118, R120: loads, stores, descriptor lanes, selection vectors and the time. -/
def Sys2Proof.Claims.SpenexMemoryAndVectors : Prop :=
  (∀ q f s tag j, Begins 0x20 q f s tag j → ∀ x, tileAddr s tag (paid f 8 j) f 8 8 = some x → tileBad s x 8 = false →
      exec (.ld q f) s = .next (setJob s tag
        (retired f 8 { j.ctx with g := tput 0 j.ctx.g f.a.toNat (BitVec.ofNat 64 (numOf (tileBytes s x 8))) } j)))
    ∧ (∀ q f s tag j, Begins 0x21 q f s tag j → ∀ x, tileAddr s tag (paid f 2 j) f 8 8 = some x →
      exec (.st q f) s = .next (setJob (tileWrite s x (bytesOf 8 (gReg j.ctx f.a).toNat)) tag (retired f 2 j.ctx j)))
    ∧ (∀ q f s tag j, Begins 0x22 q f s tag j → ∀ x, tileAddr s tag (paid f 8 j) f 32 32 = some x → tileBad s x 32 = false →
      exec (.ldd q f) s = .next (setJob s tag
        (retired f 8 { j.ctx with d := tput 0 j.ctx.d f.a.toNat (BitVec.ofNat 256 (numOf (tileBytes s x 32))) } j)))
    ∧ (∀ q f s tag j, Begins 0x23 q f s tag j → ∀ x, tileAddr s tag (paid f 2 j) f 32 32 = some x →
      exec (.std q f) s = .next (setJob (tileWrite s x (bytesOf 32 (dReg j.ctx f.a.toNat).toNat)) tag (retired f 2 j.ctx j)))
    ∧ PureRow .dset 0x24 1 (fun f c => setD c f.a.toNat
        (BitVec.ofNat 256 (putBits (dReg c f.a.toNat).toNat (64 * f.fn.toNat) 64 (gReg c f.b).toNat)))
    ∧ PureRow .dget 0x25 1 (fun f c => wroteG f (BitVec.ofNat 64 ((dReg c f.b.toNat).toNat / 2 ^ (64 * f.fn.toNat))) c.flags c)
    ∧ (∀ q f s tag j, Begins 0x26 q f s tag j → ∀ x, tileAddr s tag (paid f 265 j) f 64 16448 = some x → tileBad s x 16448 = false →
      exec (.vld q f) s = .next (setJob s tag (retired f 265 (loadBlock j.ctx f.a.toNat (tileBytes s x 16448)) j)))
    ∧ (∀ q f s tag j, Begins 0x27 q f s tag j → ∀ x, tileAddr s tag (paid f 258 j) f 64 16448 = some x →
      exec (.vst q f) s = .next (setJob (tileWrite s x (blockBytes j.ctx f.a.toNat)) tag (retired f 258 j.ctx j)))
    ∧ PureRow .vget 0x28 2 (fun f c => wroteG f (if (gReg c f.c).toNat ≥ 1024 then BitVec.allOnes 64
        else if f.fn = 0 then ((vEnt c f.b.toNat (gReg c f.c).toNat).extractLsb' 0 32).setWidth 64
        else (vEnt c f.b.toNat (gReg c f.c).toNat).extractLsb' 32 64) c.flags c)
    ∧ PureRow .vput 0x29 2 (fun f c => let i := (gReg c f.b).toNat
        let e := vEnt c f.a.toNat i
        if i ≥ 1024 then c else setV c f.a.toNat i
          (if f.fn = 0 then e.extractLsb' 32 64 ++ (gReg c f.c).setWidth 32 else gReg c f.c ++ e.extractLsb' 0 32))
    ∧ PureRow .vcnt 0x2A 1 (fun f c => wroteG f (BitVec.ofNat 64 (tget 0 c.vn f.b.toNat)) c.flags c)
    ∧ PureRow .vsetc 0x2B 1 (fun f c => { c with vn := tput 0 c.vn f.a.toNat (min 1024 (gReg c f.b).toNat) })
    ∧ (∀ q f s tag j, Begins 0x2C q f s tag j →
      exec (.time q f) s = .next (setJob s tag (retired f 4 (wroteG f (BitVec.ofNat 64 s.now) j.ctx.flags j.ctx) j)))

/-- R116 and R65: a sequencer's access to tile SRAM is refused where its tile address breaks R116, and the job ends with
`PLAN_VIOLATION`; and an address that passes names bytes of one region that the job holds. -/
def Sys2Proof.Claims.TileAccessStaysInsideHeldRegion : Prop :=
  (∀ s tag j f align size x, 0 < align → tileAddr s tag j f align size = some x →
    ∃ g r, tokGrantOf s j ((gReg j.ctx f.b).toNat / 2 ^ 24 % 8) = some g ∧ g.cls = 1
      ∧ g.insts[(gReg j.ctx f.b).toNat / 2 ^ 16 % 256]? = some r ∧ ownerOf s 1 r = .job tag
      ∧ r * 65536 ≤ x ∧ x + size ≤ (r + 1) * 65536 ∧ (gReg j.ctx f.b).toNat < 2 ^ 27)
  ∧ ∀ q f s tag j, (Begins 0x20 q f s tag j → tileAddr s tag (paid f 8 j) f 8 8 = none →
      exec (.ld q f) s = .next (violation (setJob s tag (paid f 8 j)) tag 1 (tileInst s (paid f 8 j) f)))
    ∧ (Begins 0x21 q f s tag j → tileAddr s tag (paid f 2 j) f 8 8 = none →
      exec (.st q f) s = .next (violation (setJob s tag (paid f 2 j)) tag 1 (tileInst s (paid f 2 j) f)))

/-- R121, R113: branches, jumps, NOP, and END, which ends the job under R61 with `OK` or `SHORT`. -/
def Obligations.SpenexControl : Prop :=
  (∀ q f s tag j, Begins 0x40 q f s tag j → exec (.br q f) s = .next (setJob s tag
      { paid f 2 j with ctx := { j.ctx with pc := j.ctx.pc + BitVec.ofInt 64 (8 * f.imm.toInt) } }))
    ∧ (∀ q f s tag j, Begins 0x41 q f s tag j → ∀ taken, taken = (match f.fn.toNat with
        | 0 => j.ctx.flags.getLsbD 1 | 1 => !j.ctx.flags.getLsbD 1 | 2 => j.ctx.flags.getLsbD 0 | 3 => !j.ctx.flags.getLsbD 0
        | 4 => j.ctx.flags.getLsbD 2 | 5 => !j.ctx.flags.getLsbD 2 | 6 => j.ctx.flags.getLsbD 3 | _ => !j.ctx.flags.getLsbD 3) →
      exec (.bc q f) s = .next (setJob s tag (if taken then
          { paid f 2 j with ctx := { j.ctx with pc := j.ctx.pc + BitVec.ofInt 64 (8 * f.imm.toInt) } }
        else { paid f 1 j with ctx := { j.ctx with pc := j.ctx.pc + 8 } })))
    ∧ (∀ q f s tag j, Begins 0x42 q f s tag j → exec (.jal q f) s = .next (setJob s tag { paid f 2 j with ctx :=
      { wroteG f (j.ctx.pc + 8) j.ctx.flags j.ctx with pc := j.ctx.pc + BitVec.ofInt 64 (8 * f.imm.toInt) } }))
    ∧ (∀ q f s tag j, Begins 0x43 q f s tag j → exec (.jr q f) s = .next (setJob s tag
      { paid f 2 j with ctx := { j.ctx with pc := BitVec.ofNat 64 ((gReg j.ctx f.a).toNat / 8 * 8) } }))
    ∧ PureRow .nop 0x44 1 (fun _ c => c)
    ∧ (∀ q f s tag j, Begins 0x45 q f s tag j → exec (.endJob q f) s =
        .next (finishJob (setJob s tag (paid f 2 j)) tag (if f.fn = 0 then 0 else 1) 0 0))

namespace Sys2Proof.Claims

/-- The instruction row of an engine-issue class (R130). -/
def issueRow : EngKind → BitVec 7 → Spx → Instr
  | .scan => .scan | .rank => .rank | .lrank => .lrank | .sel => .sel | .merge => .merge | .uniq => .uniq
  | .gath => .gath | .scat => .scat | .move => .move | .enc => .enc | .maxsim => .maxsim

/-- The opcode and the class of instances of an engine-issue row (R130). -/
def issueTable : EngKind → Nat × Nat
  | .scan => (0x80, 3) | .rank => (0x81, 0) | .lrank => (0x82, 6) | .sel => (0x83, 4) | .merge => (0x84, 4) | .uniq => (0x85, 4)
  | .gath => (0x86, 7) | .scat => (0x87, 7) | .move => (0x88, 8) | .enc => (0x89, 5) | .maxsim => (0x8A, 5)

/-- The instances an issue names (R127): one by the ordinal in IMM[23:16], or with 255 every one of the token. -/
def named (f : Spx) (g : Grant) : List Nat :=
  if f.imm.extractLsb' 16 8 = 255#8 then g.insts else (g.insts[(f.imm.extractLsb' 16 8).toNat]?).toList

/-- The command token of R85, with the counter and generation of the view in aC where the issue asks for a pulse. -/
def tokenFor (k : EngKind) (f : Spx) (tag : Nat) (j : Job) (insts : List Nat) : Token :=
  let v := aReg j.ctx f.c.toNat
  let p := f.imm.extractLsb' 0 16 != 0#16
  { kind := k, op := f.fn, tok := f.b.toNat, counter := if p then v.extractLsb' 0 12 else 0
    gen := if p then v.extractLsb' 12 16 else 0, inc := f.imm.extractLsb' 0 16, q := j.q, job := tag, dom := j.dom
    desc := dReg j.ctx f.a.toNat, insts := insts }

/-- The fabric rows: kind, opcode, and the test of ACOPY's direction bit (R134). -/
def fabricRow : FabKind → BitVec 7 → Spx → Instr
  | .fld => .fld | .fst => .fst | .fatom => .fatom | .push => .acopyPush | .pull => .acopyPull

end Sys2Proof.Claims

/-- R56, R57, R124: a CLAIM whose phase writes no valid token is granted whole, with CF clear; or not at all: then CF is set,
or with wait the claim is held and the job waits; a valid token among those it writes ends the job. -/
def Sys2Proof.Claims.ClaimGrantsWholeOrNotAtAll : Prop :=
  ∀ q f s tag j s0 phase, Begins 0x60 q f s tag j → s0 = setJob s tag (paid f 320 j) → phase = (f.fn.extractLsb' 0 6).toNat →
    ((∀ e ∈ phaseEntries (planOf s j.plan) phase, tokValid (tokOf j (maskEnt ((planOf s j.plan).masks.getD e 0)).tok) = false) →
      (∀ s1, claimPhase s0 tag (paid f 320 j) phase = some s1 → exec (.claim q f) s =
        .next (modJob s1 tag fun k => { k with ctx := { k.ctx with pc := k.ctx.pc + 8, flags := flagCF k.ctx.flags false } }))
      ∧ (claimPhase s0 tag (paid f 320 j) phase = none → f.fn.getLsbD 6 = false ∨ holdsClaimed s tag = true → exec (.claim q f) s =
        .next (setJob s tag { paid f 320 j with ctx := { j.ctx with pc := j.ctx.pc + 8, flags := flagCF j.ctx.flags true } }))
      ∧ (claimPhase s0 tag (paid f 320 j) phase = none → f.fn.getLsbD 6 = true → holdsClaimed s tag = false → exec (.claim q f) s =
        .next (waitJob { s0 with exec := { s0.exec with held := s.exec.held ++ [⟨tag, phase, j.be, false⟩] } } tag (.claim phase) none 8)))
    ∧ ((∃ e ∈ phaseEntries (planOf s j.plan) phase, tokValid (tokOf j (maskEnt ((planOf s j.plan).masks.getD e 0)).tok) = true) →
      ∃ c, exec (.claim q f) s = .next (violation s0 tag c 0))

/-- R125: a HAND of each kind on a token fit for it notes the handover for the next yield point and shows the token in transit out
(HOLD 0b01); on an empty token, or one whose HOLD does not fit, the job ends with `PLAN_VIOLATION`. -/
def Sys2Proof.Claims.HandShowsTokenInTransit : Prop :=
  ∀ (row : (BitVec 7 → Spx → Instr) × Nat), row ∈ [(.handFree, 0), (.handToJob, 1), (.handToEngine, 2), (.handRecall, 3)] →
  ∀ q f s tag j w, Begins 0x61 q f s tag j → f.fn.toNat % 4 = row.2 → w = tokOf j f.a.toNat →
    (∀ g, tokGrantOf s j f.a.toNat = some g → tokHold w = (if row.2 = 3 then 2 else 0) → (row.2 = 2 → g.cls = 0) →
      exec (row.1 q f) s = .next (setJob s tag
        { retired f 2 { j.ctx with t := tput 0 j.ctx.t f.a.toNat (tokSetHold w 1) } j with
          hands := tins j.hands f.a.toNat { kind := row.2
                                            tag := if row.2 = 1 then ((gReg j.ctx f.b).extractLsb' 0 32).toNat else 0
                                            tok := if row.2 = 1 then f.c.toNat else 0 } }))
    ∧ (tokGrantOf s j f.a.toNat = none → exec (row.1 q f) s = .next (violation (setJob s tag (paid f 2 j)) tag 0 0))
    ∧ (∀ g, tokGrantOf s j f.a.toNat = some g → tokHold w ≠ (if row.2 = 3 then 2 else 0) ∨ (row.2 = 2 ∧ g.cls ≠ 0) →
      exec (row.1 q f) s = .next (violation (setJob s tag (paid f 2 j)) tag g.cls (g.insts.headD 0)))

/-- R63, R123, R126: YIELD reaches a yield point once it has retired; TINST reads a token and never faults. -/
def Sys2Proof.Claims.YieldAndTokenRead : Prop :=
  (∀ q f s tag j, Begins 0x62 q f s tag j →
      exec (.yieldPoint q f) s = .next (seqYield (setJob s tag (retired f 1 j.ctx j)) tag))
  ∧ ∀ q f s tag j, Begins 0x63 q f s tag j → ∃ r,
      exec (.tinst q f) s = .next (setJob s tag (retired f 2 (wroteG f r j.ctx.flags j.ctx) j))
      ∧ (tokGrantOf s j f.b.toNat = none → r = if f.fn = 2 then 0 else BitVec.allOnes 64)
      ∧ ∀ g, tokGrantOf s j f.b.toNat = some g →
        (f.fn = 0 → g.insts.length ≤ f.imm.toNat → r = BitVec.allOnes 64)
        ∧ (∀ l i, f.fn = 0 → sliceOf s (planOf s j.plan).slice = some l → g.insts[f.imm.toNat]? = some i →
          r = BitVec.ofNat 64 (relInst l g.cls i))
        ∧ (f.fn = 1 → r = BitVec.ofNat 64 (if 9 ≤ g.cls ∧ g.cls ≤ 12 then g.credits else g.insts.length))
        ∧ (f.fn = 2 → r = tokOf j f.b.toNat)

/-- R85, R127, R128, R130: an engine-issue instruction whose token holds instances of the row's class, fit to issue (engine-held
for RANK, job-held for the others), with a bound view where it asks for a pulse and room at every instance, sends the command
token of R85 to each instance it names and retires; 8 steps, and 4 for each further token. -/
def Sys2Proof.Claims.EngineIssueSendsTokens : Prop :=
  ∀ k q f s tag j g, Begins (issueTable k).1 q f s tag j → tokGrantOf s j f.b.toNat = some g → g.cls = (issueTable k).2 →
    (tokHold (tokOf j f.b.toNat) = 2 ↔ k = .rank) → (f.imm.extractLsb' 16 8 ≠ 255#8 → named f g ≠ []) →
    (f.imm.extractLsb' 0 16 ≠ 0#16 → viewBound (aReg j.ctx f.c.toNat) = true) →
    issueFull s k f.fn.toNat tag (named f g) = false →
    exec (issueRow k q f) s = .next (setJob
        (sendTokens k (tokenFor k f tag j (named f g)) tag (named f g) (setJob s tag (paid f 8 j))) tag
        (retired f (8 + 4 * (tokenCount k (named f g) - 1)) j.ctx j))
    ∧ (∀ i, named f g = [i] → k ≠ .rank → (k = .move → f.fn.toNat < 0x10) →
      exec (issueRow k q f) s = .next
        { setJob s tag (retired f 8 j.ctx j) with
          cmds := tput [] s.cmds (ekey (issueTable k).2 i)
            (cmdsOf s (issueTable k).2 i ++ [{ id := s.nextCmd, tok := tokenFor k f tag j [i] }])
          nextCmd := s.nextCmd + 1 })

/-- R86, R128: an engine-issue instruction whose queue is full waits at a yield point; one whose token is empty, of another class,
or not fit to issue ends its job with `PLAN_VIOLATION`. -/
def Sys2Proof.Claims.EngineIssueStallsOrViolates : Prop :=
  ∀ k q f s tag j, Begins (issueTable k).1 q f s tag j →
    (∀ g, tokGrantOf s j f.b.toNat = some g → g.cls = (issueTable k).2 →
      (tokHold (tokOf j f.b.toNat) = 2 ↔ k = .rank) → (f.imm.extractLsb' 16 8 ≠ 255#8 → named f g ≠ []) →
      (f.imm.extractLsb' 0 16 ≠ 0#16 → viewBound (aReg j.ctx f.c.toNat) = true) →
      issueFull s k f.fn.toNat tag (named f g) = true →
      exec (issueRow k q f) s = .next (waitJob (setJob s tag (paid f 8 j)) tag (.issue k f) none 8))
    ∧ (tokGrantOf s j f.b.toNat = none → exec (issueRow k q f) s =
        .next (violation (setJob s tag (paid f 8 j)) tag (issueTable k).2 0))
    ∧ (∀ g, tokGrantOf s j f.b.toNat = some g →
        (g.cls ≠ (issueTable k).2 ∨ ¬ (tokHold (tokOf j f.b.toNat) = 2 ↔ k = .rank)
          ∨ (f.imm.extractLsb' 16 8 ≠ 255#8 ∧ named f g = [])) →
        exec (issueRow k q f) s = .next (violation (setJob s tag (paid f 8 j)) tag g.cls (g.insts.headD 0)))

/-- R131 to R136: a fabric instruction with a fabric credit to draw, a bound view where it asks for a pulse, a source or destination
in its domain's range, and a node number draws one credit of the share, puts 0xFF into its status register, sends its request
under a tag that no operation in flight has, and retires. -/
def Obligations.FabricInstructionSendsRequest : Prop :=
  ∀ k q f s tag j g, Begins (match k with | .fld => 0xA0 | .fst => 0xA1 | .fatom => 0xA2 | _ => 0xA3) q f s tag j →
    (k = .push → f.fn.getLsbD 4 = false) → (k = .pull → f.fn.getLsbD 4 = true) →
    tokGrantOf s j (f.imm.extractLsb' 16 3).toNat = some g → g.cls = 12 →
    (f.imm.extractLsb' 0 16 ≠ 0#16 → viewBound (aReg j.ctx (f.fn.toNat % 16)) = true) →
    (k = .push ∨ k = .pull → inRange (setJob s tag (paid f 8 j)) j.dom ((gReg j.ctx f.a).extractLsb' 0 56).toNat (f.ext.toNat % 2 ^ 26) = true) →
    fget s F.FAB_NODE_VALID = 1 → g.used < g.credits → s.fab.ops.length < 16384 →
    ∀ j1, j1 = { paid f 8 j with ctx := { j.ctx with g := tput 0 j.ctx.g f.c.toNat 0xFF } } →
    exec (fabricRow k q f) s = .next (modJob
      (launch (setGrant (setJob s tag j1) (tokGrant (tokOf j (f.imm.extractLsb' 16 3).toNat)) { g with used := g.used + 1 })
        (domQueue s j.dom j.be)
        { kind := 0, job := tag, pkt := fabPkt (setJob s tag (paid f 8 j)) k f (paid f 8 j), statusReg := f.c.toNat, destReg := f.a.toNat
          width := fabWidth f, inc := (f.imm.extractLsb' 0 16).toNat
          counter := (aReg j.ctx (f.fn.toNat % 16)).extractLsb' 0 12, gen := (aReg j.ctx (f.fn.toNat % 16)).extractLsb' 12 16
          share := tokGrant (tokOf j (f.imm.extractLsb' 16 3).toNat), fence := j.fence
          src := ((gReg j.ctx f.a).extractLsb' 0 56).toNat, dom := j.dom })
      tag fun k => { k with ctx := { k.ctx with pc := k.ctx.pc + (if f.x then 16 else 8) } })

namespace Sys2Proof.Claims

/-- A job waits on a sequencer and its deadline has not come (R82, R84). -/
def Waits (q : BitVec 7) (s : State) (tag : Nat) (j : Job) : Prop :=
  seqTag s q.toNat = some tag ∧ jobOf s tag = some j ∧ j.phase = .waiting ∧ (j.deadline = 0 ∨ s.now < j.deadline)

/-- A waiting instruction retires with CF at `cf`; a yield point has passed, so no step is counted (R63, R139). -/
def released (j : Job) (cf : Bool) : Job :=
  { j with phase := .running, wait := none, timeout := none, steps := 0, overrun := false
           ctx := { j.ctx with pc := j.ctx.pc + BitVec.ofNat 64 j.ilen, flags := flagCF j.ctx.flags cf } }

/-- The distance of a view's counter from its base, modulo 2^32 (R90). -/
def viewAhead (s : State) (w : W64) : BitVec 32 := (ctrOf s (viewIdx w)).val - w.extractLsb' 28 32

/-- The job with the base of view `a` raised by `n` (the advancing form of R139). -/
def rebased (j : Job) (a n : Nat) : Job :=
  let w := aReg j.ctx a
  { j with ctx := { j.ctx with a := tput 0 j.ctx.a a (1#1 ++ (0#3 ++ ((w.extractLsb' 28 32 + BitVec.ofNat 32 n) ++ w.extractLsb' 0 28))) } }

end Sys2Proof.Claims

/-- R90, R139: AWAIT on a bound view is satisfied when the counter is ahead of the base by the count, up to 2^31 - 1: it retires with
CF clear, the base advanced in the advancing form; else it waits, with the timeout of EXT; ahead by 2^31 or more is an overrun
and ends the job `ABORTED`; an unbound view ends it `PLAN_VIOLATION`. -/
def Sys2Proof.Claims.AwaitOnView : Prop :=
  ∀ q f s tag j, Begins 0xC0 q f s tag j → f.fn.getLsbD 2 = false →
    ∀ w n, w = aReg j.ctx f.a.toNat → n = (if f.fn.getLsbD 1 then ((gReg j.ctx f.b).extractLsb' 0 32).toNat else f.imm.toNat) → n < 2 ^ 31 →
    (w.getLsbD 63 = true →
      (n ≤ (viewAhead s w).toNat → (viewAhead s w).toNat < 2 ^ 31 → exec (.await q f) s = .next (setJob s tag
        (let j1 := if f.fn.getLsbD 0 then rebased j f.a.toNat n else j
         retired f 2 { j1.ctx with flags := flagCF j.ctx.flags false } j1)))
      ∧ ((viewAhead s w).toNat < n → exec (.await q f) s =
        .next (waitJob (setJob s tag (paid f 2 j)) tag (.view f.a.toNat n (f.fn.getLsbD 0))
          (if f.x then some (s.now + f.ext.toNat) else none) (if f.x then 16 else 8)))
      ∧ (2 ^ 31 ≤ (viewAhead s w).toNat → exec (.await q f) s = .next (abortJob (setJob s tag (paid f 2 j)) tag)))
    ∧ (w.getLsbD 63 = false → exec (.await q f) s = .next (violation (setJob s tag (paid f 2 j)) tag 13 (viewIdx w)))

/-- R139: AWAIT on a token retires with CF clear once the token is valid and job-held; it waits for one in transit or for a
handover that is pending; with neither the job ends `PLAN_VIOLATION`. -/
def Sys2Proof.Claims.AwaitOnToken : Prop :=
  ∀ q f s tag j w, Begins 0xC0 q f s tag j → f.fn.getLsbD 2 = true → w = tokOf j f.a.toNat →
    (w.getLsbD 0 = true → w.extractLsb' 1 2 = 0#2 →
      exec (.await q f) s = .next (setJob s tag (retired f 2 { j.ctx with flags := flagCF j.ctx.flags false } j)))
    ∧ ((w.getLsbD 0 = true ∧ w.extractLsb' 1 2 ≠ 0#2) ∨
        (w.getLsbD 0 = false ∧ handoverPending (setJob s tag (paid f 2 j)) tag f.a.toNat = true) → exec (.await q f) s =
        .next (waitJob (setJob s tag (paid f 2 j)) tag (.token f.a.toNat)
          (if f.x then some (s.now + f.ext.toNat) else none) (if f.x then 16 else 8)))
    ∧ (w.getLsbD 0 = false → handoverPending (setJob s tag (paid f 2 j)) tag f.a.toNat = false →
      exec (.await q f) s = .next (violation (setJob s tag (paid f 2 j)) tag 0 0))

/-- R91, R138, R139, R465: the events that end a wait: an AWAIT whose view or token is ready and a FENCE whose operations are all
acknowledged retire with CF clear; an EXT timeout that has come, with neither of these, retires the instruction with CF set. -/
def Sys2Proof.Claims.WaitsEndWithTheirCondition : Prop :=
  ∀ q s tag j, Waits q s tag j →
    (∀ a n adv, j.wait = some (.view a n adv) → (aReg j.ctx a).getLsbD 63 = true → n ≤ (viewAhead s (aReg j.ctx a)).toNat →
      (viewAhead s (aReg j.ctx a)).toNat < 2 ^ 31 →
      exec (.awaitSatisfied q) s = .next (setJob s tag (released (if adv then rebased j a n else j) false)))
    ∧ (∀ t, j.wait = some (.token t) → (tokOf j t).getLsbD 0 = true → (tokOf j t).extractLsb' 1 2 = 0#2 →
      exec (.awaitSatisfied q) s = .next (setJob s tag (released j false)))
    ∧ (∀ e node, j.wait = some (.fence e node) → fenceDone s tag node = true →
      exec (.fenceRetire q) s = .next (setJob s tag (released j false)))
    ∧ (∀ t, j.timeout = some t → t ≤ s.now → awaitDone s tag j = none → fenceEnd s tag j = none →
      exec (.extTimeout q) s = .next (setJob s tag (released j true)))

/-- R140, R465: FENCE raises the job's fence epoch by one and retires, with CF clear, when every operation of the job in its scope
(every node, or the node in gB) has been acknowledged; else it waits for that. -/
def Sys2Proof.Claims.FenceWaitsForItsOperations : Prop :=
  ∀ q f s tag j node j1, Begins 0xC1 q f s tag j →
    node = (if f.fn = 1 then some ((gReg j.ctx f.b).extractLsb' 0 12).toNat else none) →
    j1 = { paid f 4 j with fence := (j.fence + 1) % 65536 } →
    ((∀ p ∈ s.fab.ops, p.2.kind = 0 → p.2.job = tag → ∃ n, node = some n ∧ p.2.pkt.dst.toNat ≠ n) →
      exec (.fence q f) s = .next (setJob s tag
        { j1 with ctx := { j.ctx with pc := j.ctx.pc + (if f.x then 16 else 8), flags := flagCF j.ctx.flags false } }))
    ∧ ((∃ p ∈ s.fab.ops, p.2.kind = 0 ∧ p.2.job = tag ∧ ∀ n, node = some n → p.2.pkt.dst.toNat = n) →
      exec (.fence q f) s = .next (waitJob (setJob s tag j1) tag (.fence j1.fence node)
        (if f.x then some (s.now + f.ext.toNat) else none) (if f.x then 16 else 8)))

/-- R88, R90, R141: VIEW binds a view to a counter the job holds, with its generation and its value as base, or unbinds one; ARD reads
how far the counter of a bound view is ahead; an overrun ends the job `ABORTED`, an unbound view `PLAN_VIOLATION`. -/
def Sys2Proof.Claims.ViewAndCounterRead : Prop :=
  (∀ q f s tag j i, Begins 0xC2 q f s tag j → f.fn.getLsbD 0 = false → i = (gReg j.ctx f.b).extractLsb' 0 12 →
      (holdsCtr s tag i.toNat = true → exec (.viewBind q f) s = .next (setJob s tag (retired f 4
        { j.ctx with a := tput 0 j.ctx.a f.a.toNat (1#1 ++ (0#3 ++ ((ctrOf s i.toNat).val ++ ((ctrOf s i.toNat).gen ++ i)))) } j)))
      ∧ (holdsCtr s tag i.toNat = false → exec (.viewBind q f) s = .next (violation (setJob s tag (paid f 4 j)) tag 13 i.toNat)))
  ∧ (∀ q f s tag j, Begins 0xC2 q f s tag j → f.fn.getLsbD 0 = true →
      exec (.viewUnbind q f) s = .next (setJob s tag (retired f 4 { j.ctx with a := tput 0 j.ctx.a f.a.toNat 0 } j)))
  ∧ (∀ q f s tag j w, Begins 0xC3 q f s tag j → w = aReg j.ctx f.b.toNat → w.getLsbD 63 = false →
      exec (.ard q f) s = .next (violation (setJob s tag (paid f 2 j)) tag 13 (w.extractLsb' 0 12).toNat))
  ∧ ∀ q f s tag j w, Begins 0xC3 q f s tag j → w = aReg j.ctx f.b.toNat → w.getLsbD 63 = true →
      ((viewAhead s w).toNat < 2 ^ 31 →
        exec (.ard q f) s = .next (setJob s tag (retired f 2 (wroteG f ((viewAhead s w).setWidth 64) j.ctx.flags j.ctx) j)))
      ∧ (2 ^ 31 ≤ (viewAhead s w).toNat → exec (.ard q f) s = .next (abortJob (setJob s tag (paid f 2 j)) tag))

/-- R92, R142: a TAKE with a free take slot that finds an entry delivers it (the entry in four descriptor registers, the epoch in gB,
the handle in gC) and retires with CF clear, at once or from its wait; with all 64 slots in use it retires with CF set. -/
def Sys2Proof.Claims.TakeDeliversOneEntry : Prop :=
  (∀ q f s tag j s1 s2, Begins 0xC8 q f s tag j → tryTake f (setJob s tag (paid f 12 j)) tag (paid f 12 j) = (some s1, s2) →
      exec (.take q f) s = .next (modJob s1 tag fun k =>
        { k with ctx := { k.ctx with pc := k.ctx.pc + (if f.x then 16 else 8), flags := flagCF k.ctx.flags false } }))
  ∧ (∀ q f s tag j, Begins 0xC8 q f s tag j → (∀ k < 64, (tfind j.take k).isSome = true) →
      exec (.take q f) s = .next (setJob s tag (retired f 12 { j.ctx with flags := flagCF j.ctx.flags true } j)))
  ∧ (∀ q f s tag j s1 s2, Waits q s tag j → j.wait = some (.take f) → tryTake f s tag j = (some s1, s2) →
      exec (.takeRetire q) s = .next (modJob s1 tag fun k => released k false))
  ∧ ∀ f s tag j s1 s2, tryTake f s tag j = (some s1, s2) → ∃ k e t, k < 64 ∧ tfind j.take k = none ∧
      (∀ i < k, (tfind j.take i).isSome = true) ∧ s1 = modJob s2 tag fun x =>
        { x with
          take := tins x.take k { tag := t, epoch := s.tir.epoch % 2 ^ 48, sq := f.imm.toNat, cookie := fieldOf e 16 8
                                  deadline := fieldOf e 24 8, ovc := overcast s }
          ctx := setG (setG { x.ctx with d := (List.range 4).foldl (fun m i => tput 0 m (f.a.toNat + i)
            (BitVec.ofNat 256 (fieldOf e (32 * i) 32))) x.ctx.d } f.b (BitVec.ofNat 64 (s.tir.epoch % 2 ^ 48)))
            f.c (BitVec.ofNat 64 (k + t * 65536)) }

/-- R93, R144: POST of a child submits the entry in four descriptor registers to an enabled queue of the domain with an intake
credit; POST of a completion ends the taken request its handle names, once, with the job's counts g4 and g5, and has no effect
for a handle that names none; both retire. -/
def Sys2Proof.Claims.PostSubmitsOrCompletes : Prop :=
  (∀ q f s tag j s0, Begins 0xC9 q f s tag j → f.fn.getLsbD 0 = false → s0 = setJob s tag (paid f 4 j) →
      intakeFree s0 j.dom = true → queueOf s f.imm.toNat j.dom 0 = true →
      exec (.postChild q f) s = .next (modJob
        (admitEntry (intakeDraw s0 j.dom) f.imm.toNat j.dom true none
          (fieldOf (quadBytes j.ctx f.a.toNat) 24 8) (quadBytes j.ctx f.a.toNat)) tag
        fun k => { k with ctx := { k.ctx with pc := k.ctx.pc + 8 } }))
  ∧ (∀ q f s tag j h, Begins 0xC9 q f s tag j → f.fn.getLsbD 0 = true → h = (gReg j.ctx f.a).toNat →
      (∀ t, tfind j.take (h % 64) = some t → h = h % 64 + t.tag * 65536 →
        exec (.postCompletion q f) s = .next (flushPosts (setJob
          { s with exec := { s.exec with posts := s.exec.posts ++
            [{ job := tag, dom := j.dom, planId := (planOf s j.plan).id, req := t
               status := if f.fn.getLsbD 7 then (if ((gReg j.ctx f.b).extractLsb' 0 8).toNat > 0x0F then 0x0D
                 else ((gReg j.ctx f.b).extractLsb' 0 8).toNat) else (f.fn.extractLsb' 1 4).toNat
               count0 := ((gReg j.ctx 4).extractLsb' 0 32).toNat, count1 := ((gReg j.ctx 5).extractLsb' 0 32).toNat
               waits := dmaCmds s tag }] } } tag
          { retired f 4 j.ctx j with take := tdel j.take (h % 64) })))
      ∧ ((∀ t, tfind j.take (h % 64) = some t → h ≠ h % 64 + t.tag * 65536) →
        exec (.postCompletion q f) s = .next (setJob s tag (retired f 4 j.ctx j))))

/-- R22, R86: a stalled instruction issues when what it waits for is there: an engine issue whose queues have room, a fabric
instruction with a credit, a child POST with an intake credit; while it is not, nothing changes. -/
def Sys2Proof.Claims.StalledInstructionsIssueAgain : Prop :=
  ∀ q s tag j, Waits q s tag j →
    (∀ k f n s1, j.wait = some (.issue k f) → tryIssue k f s tag j = .sent n s1 →
      exec (.creditStallResume q) s = .next (modJob s1 tag fun x => released x (x.ctx.flags.getLsbD 3)))
    ∧ (∀ k f s1, j.wait = some (.fabric k f) → tryFabric k f s tag j = .sent s1 →
      exec (.creditStallResume q) s = .next (modJob s1 tag fun x => released x (x.ctx.flags.getLsbD 3)))
    ∧ (∀ f s1, j.wait = some (.post f) → tryPost f s j = some s1 →
      exec (.creditStallResume q) s = .next (modJob s1 tag fun x => released x (x.ctx.flags.getLsbD 3)))
    ∧ (∀ k f, j.wait = some (.issue k f) → tryIssue k f s tag j = .stalls → exec (.creditStallResume q) s = .next s)

/-- R77, R516, R519: the job DSP places next starts on a free sequencer with the state of R77: its identity, the time, the epoch and
its deadline in g0 to g3, its entry in d0 to d3, every other register zero, and the pc at the entry point of its operator. -/
def Sys2Proof.Claims.PlacementStartsTheJob : Prop :=
  ∀ s p q pl, fget s F.PRB_PWR_STAT_STATE = 0 → nextPlaced s = some p → tfind s.exec.plans p.plan = some pl →
    pl.unloading = false → pl.dom = p.dom → freeSeq s p.be p.dom = some q →
    exec .jobPlacement s = .next (placeOn s p q) ∧ seqTag (placeOn s p q) q = some p.tag ∧
    ∃ j, jobOf (placeOn s p q) p.tag = some j ∧ j.phase = .running ∧ j.q = q ∧ j.dom = p.dom ∧ j.deadline = p.deadline
      ∧ gReg j.ctx 0 = BitVec.ofNat 64 (p.tag + p.dom * 2 ^ 32 + q * 2 ^ 44 + if p.be then 2 ^ 51 else 0)
      ∧ gReg j.ctx 1 = BitVec.ofNat 64 s.now ∧ gReg j.ctx 2 = BitVec.ofNat 64 (s.tir.epoch % 2 ^ 48)
      ∧ gReg j.ctx 3 = BitVec.ofNat 64 p.deadline ∧ (∀ r : BitVec 5, 4 ≤ r.toNat → gReg j.ctx r = 0)
      ∧ (∀ i < 4, dReg j.ctx i = BitVec.ofNat 256 (fieldOf p.entry (32 * i) 32)) ∧ (∀ i, 4 ≤ i → dReg j.ctx i = 0)
      ∧ j.ctx.a = [] ∧ j.ctx.t = [] ∧ j.ctx.v = [] ∧ j.ctx.vn = [] ∧ j.ctx.flags = 0
      ∧ j.ctx.pc = BitVec.ofNat 64 ((pl.entries[p.op]?).getD (0, 0)).1

/-- R78, R52, R53: a PLAN_LOAD whose image passes every check of R52 stores the plan and its micro-programs and completes `OK`;
one in a domain that is not ACTIVE is refused `BAD_OPERATOR` 0xE3. PLAN_UNLOAD marks the plan, so that it takes no new job and leaves
with its last one. -/
def Sys2Proof.Claims.PlanLoadAndUnload : Prop :=
  (∀ s tag p k l b img r, fget s F.PRB_PWR_STAT_STATE = 0 →
      s.exec.sysops.find? (fun x => x.tag == tag.toNat && x.op == 0xFF01) = some p →
      (tget {} s.smc.doms p.dom).state = 1 → tfind s.exec.plans p.plan = none → loadSlice s p = some (k, l) →
      loadImage s p = some b → img = parseImage b → imageOk s p.dom l img = true →
      (img.micro ≠ [] → freeRun s img.micro.length = some r) → (img.micro = [] → r = 0xA0) →
      ∀ pl : Plan, pl =
        { id := img.id, dom := p.dom, slice := k, image := b, run := r, micro := img.micro, text := img.text
          entries := img.entries.map (fun e => (e % 2 ^ 32, e / 2 ^ 32)), phases := img.phases.map phaseOf
          masks := img.masks, routes := img.routes, shares := img.shares } →
      exec (.planLoad tag) s = .next (endSysop
        { s with exec := { s.exec with plans := tins s.exec.plans p.plan pl }
                 stk := { s.stk with store := storePut s.stk.store r img.micro } } p 0x00 0))
  ∧ (∀ s tag p, fget s F.PRB_PWR_STAT_STATE = 0 →
      s.exec.sysops.find? (fun x => x.tag == tag.toNat && x.op == 0xFF01) = some p → (tget {} s.smc.doms p.dom).state ≠ 1 →
      exec (.planLoad tag) s = .next (endSysop s p 0x0B 0xE3))
  ∧ ∀ s tag p pl, fget s F.PRB_PWR_STAT_STATE = 0 →
      s.exec.sysops.find? (fun x => x.tag == tag.toNat && x.op == 0xFF02) = some p → tfind s.exec.plans p.plan = some pl →
      pl.unloading = false → pl.dom = p.dom →
      exec (.planUnload tag) s = .next (endSysop (planLeave
        { s with exec := { s.exec with plans := tins s.exec.plans p.plan { pl with unloading := true } } } p.plan) p 0x00 0)

/-- R84, R93, R521: a deadline that device time has reached ends the placed job with `LATE` and no fault record, drops the pending job
with its credit returned, and completes the taken request `LATE` while its job goes on. -/
def Sys2Proof.Claims.DeadlinesEndWorkLate : Prop :=
  (∀ s tag j, jobOf s tag.toNat = some j → j.deadline ≠ 0 → j.deadline ≤ s.now →
      exec (.deadlineReached tag) s = .next (finishJob s tag.toNat 0x02 0 0))
  ∧ (∀ s tag p, s.exec.pend.find? (fun x => x.tag == tag.toNat && deadlineMet s x.deadline) = some p →
      exec (.pendingJobLate tag) s = .next (workRecord
        (intakeGive { s with exec := { s.exec with pend := s.exec.pend.filter fun x => x.tag != p.tag } } p.dom)
        p.dom p.sq p.tag (planOf s p.plan).id p.cookie 0x02 0 false 0 0 0))
  ∧ ∀ s tag slot j t, jobOf s tag.toNat = some j → tfind j.take slot = some t → t.deadline ≠ 0 → t.deadline ≤ s.now →
      exec (.takenRequestLate tag slot) s = .next (workRecord (setJob s tag.toNat { j with take := tdel j.take slot })
        j.dom t.sq t.tag (planOf s j.plan).id t.cookie 0x02 0 t.ovc 0 0 0)

/-- R58: DSP grants the first held claim that it can grant whole, latency-critical ones before best-effort ones and each in order of
arrival, of jobs whose deadline has not come; with none that can be granted nothing changes. -/
def Sys2Proof.Claims.HeldClaimsAreGrantedInOrder : Prop :=
  ∀ s order, order = s.exec.held.filter (fun h => !h.be) ++ s.exec.held.filter (fun h => h.be) →
    (∀ pre h post j s1, order = pre ++ h :: post →
      (∀ x ∈ pre, grantHeld s x = none ∨ ∀ k, jobOf s x.tag = some k → deadlineMet s k.deadline = true) →
      jobOf s h.tag = some j → deadlineMet s j.deadline = false → grantHeld s h = some s1 →
      exec .heldClaimGrant s = .next s1)
    ∧ ((∀ h ∈ order, grantHeld s h = none) → exec .heldClaimGrant s = .next s)

/-- R69, R70: 25,600 steps without a yield point end a running job `ABORTED`, counted in `SEQ_WDOG`; more than 6,400 are counted once,
and the job runs on. -/
def Sys2Proof.Claims.StepBoundsOfASequencer : Prop :=
  ∀ q s tag j, seqTag s q.toNat = some tag → jobOf s tag = some j → j.phase = .running →
    (25600 ≤ j.steps → exec (.seqWatchdogAbort q) s =
      .next (faultJob (fset s F.SEQ_OVERRIDE_CNT_SEQ_WDOG (min (fget s F.SEQ_OVERRIDE_CNT_SEQ_WDOG + 1) (2 ^ F.SEQ_OVERRIDE_CNT_SEQ_WDOG.w - 1)))
        tag 3 2 0x0D 0 0 0 0 j.steps))
    ∧ (j.steps < 25600 → exec (.seqWatchdogAbort q) s = .next s)
    ∧ (6400 < j.steps → j.overrun = false → exec (.seqOverrun q) s =
      .next (fset (setJob s tag { j with overrun := true }) F.SEQ_OVERRIDE_CNT_SEQ_OVR
        (min (fget s F.SEQ_OVERRIDE_CNT_SEQ_OVR + 1) (2 ^ F.SEQ_OVERRIDE_CNT_SEQ_OVR.w - 1))))
    ∧ (j.steps ≤ 6400 ∨ j.overrun = true → exec (.seqOverrun q) s = .next s)

/-- R89: a pulse adds its increment, modulo 2^32, to an owned counter of its generation, and does nothing else; any other pulse is
discarded and counted in `SEQ_STALE_PULSE`. -/
def Sys2Proof.Claims.PulseCountsOrIsStale : Prop :=
  ∀ s idx gen inc,
    (ownerOf s 13 (BitVec.toNat idx) ≠ .free → (ctrOf s idx.toNat).gen = gen → exec (.pulse idx gen inc) s =
      .next (setCtr s idx.toNat { (ctrOf s idx.toNat) with val := (ctrOf s idx.toNat).val + BitVec.setWidth 32 inc }))
    ∧ (ownerOf s 13 idx.toNat = .free ∨ (ctrOf s idx.toNat).gen ≠ gen → exec (.pulse idx gen inc) s =
      .next (fset s F.SEQ_STALE_PULSE_V (min (fget s F.SEQ_STALE_PULSE_V + 1) (2 ^ F.SEQ_STALE_PULSE_V.w - 1))))

/-- R99, R100, R520: while more latency-critical jobs are stuck than jobs are asked, DSP asks the eligible best-effort job placed or
resumed last; one that waits makes way at once. The oldest parked job that can have a sequencer resumes: on it at once, or once
DSP has granted again what it returned. -/
def Sys2Proof.Claims.MakingWayAndResuming : Prop :=
  (∀ s tag j, (askedJobs s).length < (lcStuck s).length →
      (lcStuck s).findSome? (fun w => leastBy (fun (p : Nat × Job) => (2 ^ 64 - p.2.order) * 128 + p.2.q) (mayAsk s w)) = some (tag, j) →
      (j.phase ≠ .waiting → exec .makeWayRequest s = .next (setJob s tag { j with asked := true, noSlot := false }))
      ∧ (j.phase = .waiting → exec .makeWayRequest s = .next (makeWay (setJob s tag { j with asked := true, noSlot := false }) tag)))
  ∧ ∀ s tag j q s1, fget s F.PRB_PWR_STAT_STATE = 0 → leastBy (fun p => p.2.order) (resumable s) = some (tag, j) →
      freeSeq s true j.dom = some q →
      ∀ j1 : Job, j1 = { j with q := q, phase := .resuming, slot := none, order := s.exec.nextOrder, steps := 0, ovc := j.ovc || overcast s } →
      s1 = { s with exec := { s.exec with
        jobs := tins s.exec.jobs tag j1
        seqs := tins s.exec.seqs q tag
        slots := (match j.slot with | some k => tdel s.exec.slots k | none => s.exec.slots)
        nextOrder := s.exec.nextOrder + 1 } } →
      (j.reclaim ≠ [] → exec (.jobResume false) s =
        .next { s1 with exec := { s1.exec with held := s.exec.held ++ [⟨tag, 0, j.be, true⟩] } })
      ∧ (j.reclaim = [] → j.wait = none → exec (.jobResume false) s =
        .next { s1 with exec := { s1.exec with jobs := tins s.exec.jobs tag { j1 with phase := .running } } })
      ∧ exec (.jobResume true) s = .next (faultJob (fset s F.PRB_ECC_STAT_UE (min (fget s F.PRB_ECC_STAT_UE + 1) (2 ^ F.PRB_ECC_STAT_UE.w - 1)))
          tag 3 4 0x08 0)

namespace Sys2Proof.Claims

/-- A program of command `i` runs in the NBU of a bank and may execute a defined micro-op: it is not at a yield point, owes fewer than
eight refreshes and is below the watchdog (R68, R69, R246). -/
def MicroRuns (s : State) (bank : Nat) (n : Nbu) (i op : Nat) (m : Mop) : Prop :=
  nbuOf s bank = n ∧ n.cmd = some i ∧ n.yielding = false ∧ n.owed < 8 ∧ n.micro < 32768 ∧ mopDefined op m = true ∧ m.mismatch = false

/-- The unit past the micro-op: the next index, one more micro-op counted. -/
def nextMicro (old n : Nbu) : Nbu := { n with pc := n.pc + 1, micro := old.micro + 1 }

/-- A micro-op that reads no column. -/
def MicroRow (i : Nat → Mop → Instr) (op : Nat) (g : Mop → Nbu → Nbu) : Prop :=
  ∀ s bank n k m, MicroRuns s bank n k op m → exec (i bank m) s = .next (setNbu s bank (nextMicro n (g m n)))

/-- A micro-op that reads the column pP + IMM[11:0], or with `w` bits of offset; an uncorrectable word stops the program (R259). -/
def ColumnRow (i : Nat → Mop → Instr) (op w : Nat) (ok : Mop → Prop) (g : Mop → Nbu → W256 → Nbu) : Prop :=
  ∀ s bank n k m, MicroRuns s bank n k op m → ok m →
    (∀ x, readCol s bank n (mopCol n m w) = some x → exec (i bank m) s = .next (setNbu s bank (nextMicro n (g m n x))))
    ∧ (readCol s bank n (mopCol n m w) = none → exec (i bank m) s = .next (ueNbu s bank k (mopCol n m w)))

/-- Displacement of a branch, signed in 10 bits (R246). -/
def mopTarget (n : Nbu) (m : Mop) : Int := (n.pc.toNat : Int) + (m.imm.extractLsb' 0 10).toInt

/-- A branch of `n1`: taken within the program's own region, not taken, or a micro-op fault where the target lies outside. -/
def BranchRow (i : Nat → Mop → Instr) (op : Nat) (g : Mop → Nbu → Nbu) (taken : Mop → Nbu → Bool) : Prop :=
  ∀ s bank n k m, MicroRuns s bank n k op m →
    (taken m n = false → exec (i bank m) s = .next (setNbu s bank (nextMicro n (g m n))))
    ∧ (taken m n = true → (n.lo : Int) ≤ mopTarget n m → mopTarget n m < n.hi →
        exec (i bank m) s = .next (setNbu s bank { g m n with pc := BitVec.ofInt 8 (mopTarget n m), micro := n.micro + 1 }))
    ∧ (taken m n = true → mopTarget n m < n.lo ∨ (n.hi : Int) ≤ mopTarget n m →
        exec (i bank m) s = .next (abortNbu s bank k 9 (mopWord op m)))

end Sys2Proof.Claims

/-- R247, R249: the micro-ops that move columns, registers and parameters. -/
def Sys2Proof.Claims.NbuMoves : Prop :=
  MicroRow .nbuNop 0x00 (fun _ n => n)
    ∧ ColumnRow .nbuLdr 0x03 12 (fun _ => True) (fun m n x => setN n m.d.toNat x)
    ∧ (∀ s bank n k m, MicroRuns s bank n k 0x04 m →
        (∀ x y, readCol s bank n (mopCol n m 12) = some x → readCol s bank n ((mopCol n m 12 + 1) % 2 ^ 22) = some y →
          exec (.nbuLdh bank m) s = .next (setNbu s bank (nextMicro n (setN n m.d.toNat (y.extractLsb' 0 128 ++ x.extractLsb' 128 128)))))
        ∧ (readCol s bank n (mopCol n m 12) = none → exec (.nbuLdh bank m) s = .next (ueNbu s bank k (mopCol n m 12))))
    ∧ (∀ s bank n k m, MicroRuns s bank n k 0x05 m →
        (n.wbuf.length < 8 → exec (.nbuStc bank m) s =
          .next (setNbu s bank (nextMicro n { n with wbuf := n.wbuf ++ [(mopCol n m 12, nReg n m.a.toNat)] })))
        ∧ (8 ≤ n.wbuf.length → exec (.nbuStc bank m) s = .next (abortNbu s bank k 9 (mopWord 0x05 m))))
    ∧ ColumnRow .nbuLdz 0x06 12 (fun _ => True) (fun _ n x => { n with zb := x })
    ∧ ColumnRow .nbuLds 0x07 12 (fun _ => True) (fun _ n x => { n with sb := x })
    ∧ MicroRow .nbuSetm 0x0D (fun m n => { n with
        int16 := m.imm.getLsbD 0, fp16 := m.imm.getLsbD 1, acc := if m.imm.getLsbD 2 then [] else n.acc })
    ∧ MicroRow .nbuSetp 0x0E (fun m n => setP n m.p.toNat (m.imm.setWidth 32))
    ∧ MicroRow .nbuAddp 0x0F (fun m n => setP n m.p.toNat (pReg n (m.imm.extractLsb' 13 3).toNat +
        if m.imm.getLsbD 12 then pReg n (m.imm.extractLsb' 0 3).toNat else (m.imm.extractLsb' 0 12).signExtend 32))
    ∧ MicroRow .nbuMovp 0x10 (fun m n => setP n m.p.toNat ((nReg n m.a.toNat).extractLsb' (32 * (m.imm.extractLsb' 0 3).toNat) 32))

/-- R248: the multiply-accumulate micro-ops update every accumulator lane; in int16 mode a lane rises by the exact product, or
squared difference, of its operands modulo 2^48; RED adds the lanes' sum to the partial lane and clears them. -/
def Sys2Proof.Claims.NbuArithmetic : Prop :=
  ColumnRow .nbuMac 0x08 12 (fun _ => True) (fun m n x => macUpdate n (m.imm.extractLsb' 12 2).toNat (nReg n m.a.toNat) x)
    ∧ MicroRow .nbuMacr 0x09 (fun m n => macUpdate n (m.imm.extractLsb' 12 2).toNat (nReg n m.a.toNat) (nReg n m.d.toNat))
    ∧ ColumnRow .nbuMqz 0x0A 10 (fun m => m.imm.getLsbD 10 = false)
        (fun m n x => mqzUpdate { n with cb := x } (nReg n m.a.toNat) false (m.imm.getLsbD 12))
    ∧ (∀ s bank n k m, MicroRuns s bank n k 0x0A m → m.imm.getLsbD 10 = true → exec (.nbuMqz bank m) s =
        .next (setNbu s bank (nextMicro n (let n1 := mqzUpdate n (nReg n m.a.toNat) true (m.imm.getLsbD 12)
          if m.imm.getLsbD 11 then closeBlock n1 (m.imm.getLsbD 12) else n1))))
    ∧ MicroRow .nbuRed 0x0B (fun _ n => setPLane { n with acc := [] } ((pReg n 6).toNat % 64)
        (add32 (pLane n ((pReg n 6).toNat % 64)) (accSum n)))
    ∧ MicroRow .nbuFop 0x0C (fun m n => setN n m.d.toNat (fop (m.imm.extractLsb' 4 3).toNat (m.imm.getLsbD 7)
        (m.imm.extractLsb' 8 3).toNat (nReg n m.a.toNat) (nReg n (m.imm.extractLsb' 0 4).toNat)))
    ∧ (∀ n kind a x j, tsorted n.acc = true → n.int16 = true → j < 16 →
        accLane (macUpdate n kind a x) j = accLane n j + BitVec.ofInt 48
          (let p : Int := (a.extractLsb' (16 * j) 16).toInt
           let q : Int := (x.extractLsb' (16 * j) 16).toInt
           match kind with | 0 => p * q | 1 => q * q | _ => (p - q) * (p - q)))

/-- R246, R247, R257: branches stay in the program's region; LOOP counts its parameter down; EMIT queues an entry with the score of the
partial lane, drops a NaN score with BADREC counted, and faults with eight entries waiting. -/
def Sys2Proof.Claims.NbuBranchesAndEmit : Prop :=
  BranchRow .nbuBr 0x11 (fun _ n => n) (fun _ _ => true)
    ∧ BranchRow .nbuLoop 0x12 (fun m n => setP n m.p.toNat (pReg n m.p.toNat - 1)) (fun m n => pReg n m.p.toNat - 1 != 0)
    ∧ BranchRow .nbuBz 0x13 (fun _ n => n) (fun m n => pReg n m.p.toNat == 0)
    ∧ (∀ s bank n k m r, MicroRuns s bank n k 0x14 m → tfind s.stk.ranks k = some r → n.dropRec = false →
        (n.ebuf.length < 8 → isNan32 (pLane n ((pReg n 6).toNat % 64)) = false → exec (.nbuEmit bank m) s =
          .next (setRank (setNbu s bank (nextMicro n { n with
            ebuf := n.ebuf ++ [emitEntry r bank (nReg n m.a.toNat) (pLane n ((pReg n 6).toNat % 64))] })) k
            { r with count := r.count + 1 }))
        ∧ (n.ebuf.length < 8 → isNan32 (pLane n ((pReg n 6).toNat % 64)) = true → exec (.nbuEmit bank m) s =
          .next (fbump (setRank (setNbu s bank (nextMicro n n)) k (rankNote r 0x07 0x43)) F.STK_NBU_STAT_BADREC (bank / 1024)))
        ∧ (8 ≤ n.ebuf.length → exec (.nbuEmit bank m) s = .next (abortNbu s bank k 9 (mopWord 0x14 m))))

/-- R68 to R70, R261, R264, R268: YIELD and END take a yield point; a refresh that falls due is taken at once by an idle bank and owed by a
running one, eight owed force a suspension; the watchdog and the overrun count of an NBU; and `STK_DEFER_MAX` is cleared by bit 31. -/
def Sys2Proof.Claims.NbuYieldsAndRefresh : Prop :=
  (∀ s bank n k m, MicroRuns s bank n k 0x01 m → exec (.nbuYield bank m) s =
      .next (nbuYieldPoint (setNbu s bank { n with pc := n.pc + 1, yielding := true, ending := false, micro := 0 }) bank k))
  ∧ (∀ s bank n k m, MicroRuns s bank n k 0x02 m → exec (.nbuEnd bank m) s =
      .next (nbuYieldPoint (setNbu s bank { n with pc := n.pc + 1, yielding := true, ending := true, micro := 0 }) bank k))
  ∧ (∀ s bank n, nbuOf s bank = n →
      (n.cmd ≠ none → n.yielding = false → exec (.refreshDue bank) s = .next (setNbu s bank { n with owed := min 8 (n.owed + 1) }))
      ∧ (n.cmd = none ∨ n.yielding = true → exec (.refreshDue bank) s = .next s)
      ∧ (∀ i, n.cmd = some i → 8 ≤ n.owed → ∃ r, r.block = 6 ∧ r.kind = 3 ∧ r.inst = bank ∧ r.info = n.owed ∧
          exec (.forcedRefreshSuspension bank) s =
            .next (faultRec (fbump (setNbu s bank { n with owed := 0 }) F.STK_NBU_STAT_FSUSP (bank / 1024)) r))
      ∧ (∀ i, n.cmd = some i → 32768 ≤ n.micro → n.yielding = false → exec (.nbuWatchdogAbort bank) s =
          .next (abortNbu (fbump s F.SEQ_OVERRIDE_CNT_NBU_WDOG) bank i 2 n.micro))
      ∧ (n.cmd ≠ none → 128 < n.micro → n.overrun = false → exec (.nbuOverrun bank) s =
          .next (fbump (setNbu s bank { n with overrun := true }) F.SEQ_OVERRIDE_CNT_NBU_OVR))
      ∧ (n.micro ≤ 128 ∨ n.overrun = true → exec (.nbuOverrun bank) s = .next s))
  ∧ ∀ s stack v, 7 ≤ fget s F.PRB_STEP_LAST → fget s F.PRB_PWR_STAT_STATE = 0 → Prompt s → exec (.stkDeferMaxClr stack v) s =
      .next (if BitVec.getLsbD v 31 then fset s F.STK_DEFER_MAX_MAX 0 stack else s)

/-- R255: the oldest RANK command of a stack that passes every check starts: its query is in the operand buffer, it holds its
share, and each idle bank begins the program with the query columns, the parameters and the entry point. -/
def Obligations.RankCommandStarts : Prop :=
  (∀ s stack i r j lane share qs, s.stk.ranks.find? (fun p => p.2.stack == stack && !p.2.started) = some (i, r) →
      jobOf s r.tok.job = some j → (rankEntry s j r.tok.op.toNat).isSome = true → laneBits r.tok.desc 1 52 9 ≤ 256 →
      (∀ b ∈ r.banks, ownerOf s 0 b = .nbu r.tok.job ∧ (nbuOf s b).queue.contains i = true ∧ quarantined s 1 b = false) →
      (hasResult r.tok.desc = true → writable s j.dom (resAddr r.tok.desc + 8 * r.word) 8 0 (r.banks.headD 0) = .ok ()) →
      jobInst s r.tok.job 4 (laneBits r.tok.desc 1 48 4) = .ok lane → laneShare s r.tok.job lane = .ok share →
      s.flt.stacksOut.contains r.stack = false → operandUsed s r.stack + 32 * laneBits r.tok.desc 1 52 9 ≤ 65536 →
      uRead s j.dom (laneBits r.tok.desc 2 0 56) (32 * laneBits r.tok.desc 1 52 9) = .ok qs →
      exec (.rankCommand stack) s = .next (r.banks.foldl beginNext (setRank
        (if 32 * laneBits r.tok.desc 1 52 9 = 0 then s else useRange s j.dom (laneBits r.tok.desc 2 0 56) (32 * laneBits r.tok.desc 1 52 9)) i
        { r with started := true, left := r.banks, query := qs, share := share, stopped := 0 })))
  ∧ ∀ s bank i r j e lo hi, (nbuOf s bank).cmd = none → (nbuOf s bank).queue.head? = some i → tfind s.stk.ranks i = some r →
      r.started = true → jobOf s r.tok.job = some j → rankEntry s j r.tok.op.toNat = some (e, lo, hi) →
      ∃ n, nbuOf (beginNext s bank) bank = n ∧ n.cmd = some i ∧ n.queue = (nbuOf s bank).queue.drop 1 ∧ n.pc = BitVec.ofNat 8 e
        ∧ n.lo = lo ∧ n.hi = hi ∧ n.n = [] ∧ n.acc = [] ∧ n.micro = 0 ∧ n.int16 = false ∧ n.fp16 = false
        ∧ pReg n 0 = BitVec.ofNat 32 (laneBits r.tok.desc 0 0 32) ∧ pReg n 1 = BitVec.ofNat 32 (laneBits r.tok.desc 0 32 32)
        ∧ pReg n 2 = BitVec.ofNat 32 (laneBits r.tok.desc 1 0 32) ∧ pReg n 3 = BitVec.ofNat 32 (laneBits r.tok.desc 1 32 16)

namespace Sys2Proof.Claims

/-- A command `c` of a kind and operation is the one an engine instance serves, its job owns the instance, and its result area, if it
names one, may be written (R85, R128, R129). -/
def Serves (s : State) (sel : Option Cmd) (cls inst : Nat) (kind : EngKind) (op : Nat) (c : Cmd) : Prop :=
  sel = some c ∧ c.tok.kind = kind ∧ c.tok.op.toNat = op ∧ ownerOf s cls inst = .job c.tok.job
    ∧ (hasResult c.tok.desc = true → writable s c.tok.dom (resAddr c.tok.desc + resOff c inst) 8 cls inst = .ok ())

/-- The command an engine instance serves: its first that has not come to its end. -/
abbrev Heads (s : State) (cls inst : Nat) (kind : EngKind) (op : Nat) (c : Cmd) : Prop :=
  Serves s (engHead s cls inst) cls inst kind op c

/-- The lane with candidate sets of one kind armed in `slots`. -/
def armed (v : Lane) (slots : List Nat) (c : CSet) : Lane :=
  { v with sets := slots.foldl (fun m q => tins m q c) (v.sets.filter fun p => !slots.contains p.1) }

end Sys2Proof.Claims

/-- R218, R221, R224 to R236: loading a query group replaces the cluster's group, or releases it where the address is zero; a scan whose
checks pass streams its list and sends candidates as far as credits allow; and one that waited for credits goes on. -/
def Obligations.SketchScans : Prop :=
  (∀ s k c s1, Heads s 3 (BitVec.toNat k) .scan 0 c → (cmdsOf s 3 k.toNat).head?.map (·.id) = some c.id → writeCounters s k.toNat = some s1 →
      ∀ s2, s2 = setLane { s1 with groups := tdel s1.groups k.toNat } k.toNat { laneOf s1 k.toNat with reports := [] } →
      (laneBits c.tok.desc 0 0 56 = 0 → exec (.scanLoadGroup k) s = .next (endCmd s2 3 k.toNat c 0 0 0 0))
      ∧ (laneBits c.tok.desc 0 0 56 ≠ 0 → ∀ g s3, loadGroup s2 c (laneBits c.tok.desc 0 0 56) = .ok g →
          s3 = useRange s2 c.tok.dom (laneBits c.tok.desc 0 0 56) (64 + 64 * g.slots.length + g.slots.length * (skBits g.width / 8)) →
          exec (.scanLoadGroup k) s = .next (endCmd { s3 with groups := tins s3.groups k.toNat g } 3 k.toNat c 0 0
            (g.slots.filter fun p => p.2.valid).length 0)))
  ∧ (∀ (row : (BitVec 4 → List Nat → Option Nat → Instr) × Nat), row ∈ [(.scanStackList, 1), (.scanResidentList, 2)] →
      ∀ s k dissent split c, Heads s 3 (BitVec.toNat k) .scan row.2 c →
      (c.phase = .queued → ∀ t, scanStart k.toNat (row.2 == 2) dissent split s c = .ok t → exec (row.1 k dissent split) s = .next t)
      ∧ (c.phase = .queued → ∀ st rs n sp, rs ≠ 0x31 → scanStart k.toNat (row.2 == 2) dissent split s c = .error (.report st rs n sp) →
          exec (row.1 k dissent split) s = .next (putCmd s 3 k.toNat
            { c with phase := .finishing, status := st, reason := rs, count := n, spec := sp, aux := [0] }))
      ∧ (c.phase = .running → exec (row.1 k dissent split) s = .next (scanDrain k.toNat (takeReports s k.toNat) c c.aux)))

/-- R276 to R287: a scorer's table is loaded from a query whose elements are finite; a page set whose checks pass is given to its
scorers; an entry whose record and scales have arrived is scored; overcast stops both operations. -/
def Obligations.FlashScoring : Prop :=
  (∀ s ch c l t, Serves s (scHead s (BitVec.toNat ch)) 6 ch.toNat .lrank 0 c → overcast s = false → buildTable s c = .ok (l, t) →
      ∀ s1, s1 = useRange s c.tok.dom (laneBits c.tok.desc 0 0 56) (2 * t.query.length) →
      exec (.lrankLoadTable ch) s = .next (endCmd
        { s1 with fls := { s1.fls with tables := tins s1.fls.tables (ch.toNat * 16 + l) t } } 6 ch.toNat c 0 0 t.query.length 0))
  ∧ (∀ s ch c t, (∀ w ∈ s.fls.work, w.chan = BitVec.toNat ch → entReady w = false) →
      Serves s (scHead s ch.toNat) 6 ch.toNat .lrank 1 c → scoreStart ch.toNat s c = .ok t →
      exec (.lrankScorePages ch) s = .next t)
  ∧ (∀ s ch w, s.fls.work.find? (fun w => w.chan == BitVec.toNat ch && entReady w) = some w →
      exec (.lrankScorePages ch) s = .next (scoreEntry s w false))
  ∧ (∀ s ch c, Serves s (scHead s (BitVec.toNat ch)) 6 ch.toNat .lrank 0 c → overcast s = true →
      exec (.lrankLoadTable ch) s = .next (faultJob s c.tok.job 7 0x0C 0x09 0 6 ch.toNat))

/-- R298, R299, R303 to R312: a lane takes its oldest entry, whose credit returns; an entry for a slot that is not armed is an orphan, else the
set of its slot takes or rejects it. SEL arms empty sets of the size asked in every slot named, and drains them into selection blocks. -/
def Sys2Proof.Claims.SelectionLanes : Prop :=
  (∀ s l e rest, (laneOf s (BitVec.toNat l)).inq = e :: rest →
      ∀ s1, s1 = giveShare (setLane s l.toNat { laneOf s l.toNat with inq := rest }) e.share →
      (tfind (laneOf s1 l.toNat).sets (bitsOf e.e.toNat 16 6) = none → exec (.candidateIntake l) s =
        .next (fset s1 F.SEL_STAT_ORPHAN (min (fget s1 F.SEL_STAT_ORPHAN + 1) (2 ^ F.SEL_STAT_ORPHAN.w - 1))))
      ∧ (∀ cs cs1 rep s2, tfind (laneOf s1 l.toNat).sets (bitsOf e.e.toNat 16 6) = some cs →
        placeEntry s1 (match jobOf s1 e.tag with | some j => j.dom | none => 0) cs (candKey s1 e.e.toNat) e.e = some (cs1, rep, s2) →
        exec (.candidateIntake l) s = .next (setLane s2 l.toNat { laneOf s2 l.toNat with
          sets := tins (laneOf s2 l.toNat).sets (bitsOf e.e.toNat 16 6) cs1
          reports := (match rep with | some b => (laneOf s2 l.toNat).reports ++ [(bitsOf e.e.toNat 16 6, b)] | none => (laneOf s2 l.toNat).reports) })))
  ∧ (∀ (row : (Nat → Instr) × Nat × Bool), row ∈ [(.selArmExact, 0, false), (.selArmApprox, 1, true)] →
      ∀ s i c slots k allot blocks spill cs, Heads s 4 i .sel row.2.1 c → i < 16 → slots = maskList (lane64 c.tok.desc 0) 64 →
      k = laneBits c.tok.desc 1 0 24 → allot = laneBits c.tok.desc 1 32 9 → blocks = laneBits c.tok.desc 1 48 16 →
      spill = laneBits c.tok.desc 2 0 56 → slots ≠ [] → 1 ≤ k → 1 ≤ allot → allot ≤ 256 →
      laneBits c.tok.desc 1 24 8 = 0 → laneBits c.tok.desc 1 41 7 = 0 → laneBits c.tok.desc 2 56 8 = 0 →
      (k ≤ 8192 → 2 * k ≤ allot * 64 ∧ spill = 0 ∧ blocks = 0) →
      (8192 < k → row.2.2 = false ∧ allot % 16 = 0 ∧ spill ≠ 0 ∧ blocks ≠ 0 ∧ spill % 64 = 0
        ∧ writable s c.tok.dom spill (blocks * blockSize) 4 i = .ok ()) →
      storeUsed { laneOf s i with sets := (laneOf s i).sets.filter fun p => !slots.contains p.1 } + slots.length * allot * 64 ≤ 65536 →
      cs = { approx := row.2.2, k := k, allot := allot, collect := decide (8192 < k), spill := spill, blocks := blocks } →
      exec (row.1 i) s = .next (endCmd (setLane s i (armed (laneOf s i) slots cs)) 4 i c 0 0 slots.length 0))
  ∧ ∀ s i c slots out loc s1 ds s2 w, Heads s 4 i .sel 2 c → i < 16 → slots = maskList (lane64 c.tok.desc 0) 64 →
      out = laneBits c.tok.desc 1 0 56 → loc = laneBits c.tok.desc 2 0 56 → laneBits c.tok.desc 1 56 8 = 0 → laneBits c.tok.desc 2 56 8 = 0 →
      out % 64 = 0 → loc % 8 = 0 →
      (hasResult c.tok.desc = true → writable s c.tok.dom (resAddr c.tok.desc) (8 * max 1 slots.length) 4 i = .ok ()) →
      drainSlots s c.tok.dom (laneOf s i) (loc != 0) slots = some (s1, ds) →
      writable s1 c.tok.dom out (ds.flatMap (·.blocks)).length 4 i = .ok () →
      writable s1 c.tok.dom loc (ds.flatMap (·.locs)).length 4 i = .ok () →
      s2 = uPoke (uPoke s1 c.tok.dom out (ds.flatMap (·.blocks))) c.tok.dom loc (ds.flatMap (·.locs)) → w = (ds.map (·.word)).headD 0 →
      exec (.selDrain i) s = .next (putCmd
        (setLane s2 i { laneOf s2 i with sets := (laneOf s2 i).sets.filter fun p => !slots.contains p.1 }) 4 i { c with
          phase := .finishing, status := bitsOf w 0 8, reason := bitsOf w 8 8, count := bitsOf w 16 32, spec := bitsOf w 48 16
          aux := (ds.map (·.word)).drop 1, silent := if ds = [] then 1 else 0 })

/-- R314 to R320: the merges and UNIQ read their input blocks, and write a selection block of the result, with the result word of R311:
`SHORT` where fewer than asked were found, ties left out, children missing. -/
def Sys2Proof.Claims.MergesAndUniq : Prop :=
  (∀ s i c n k l best ties, Heads s 4 i .merge 0 c → n = laneBits c.tok.desc 0 56 8 → k = laneBits c.tok.desc 2 0 11 →
      1 ≤ n → n ≤ 16 → 1 ≤ k → k ≤ 1024 → laneBits c.tok.desc 1 56 8 = 0 → laneBits c.tok.desc 2 12 52 = 0 →
      laneBits c.tok.desc 1 0 56 % 64 = 0 → inputBlocks s c.tok.dom (laneBits c.tok.desc 0 0 56) n = .ok l →
      writable s c.tok.dom (laneBits c.tok.desc 1 0 56) blockSize 4 i = .ok () →
      selectBest (bitAt (lane64 c.tok.desc 2) 11) k [] (dedup l) = (best, ties) →
      exec (.mergePartial i) s = .next (endCmd (uPoke s c.tok.dom (laneBits c.tok.desc 1 0 56) (selBlock best)) 4 i c
        (if best.length < k then 0x01 else 0x00) 0 best.length (selSpec ties false 0)))
  ∧ (∀ s i c n k la out runs rs1 got ses, Heads s 4 i .merge 1 c → n = laneBits c.tok.desc 0 56 8 → k = laneBits c.tok.desc 2 0 14 →
      la = laneBits c.tok.desc 0 0 56 → out = laneBits c.tok.desc 1 0 56 →
      1 ≤ n → n ≤ 16 → 1025 ≤ k → k ≤ 8192 → laneBits c.tok.desc 1 56 8 = 0 → laneBits c.tok.desc 2 15 49 = 0 → out % 64 = 0 →
      passRuns s c.tok.dom la n = .ok runs → writable s c.tok.dom la (16 * n) 4 i = .ok () → writable s c.tok.dom out blockSize 4 i = .ok () →
      ((∀ r ∈ runs, r.cur = 0) ∧ storeUsed { laneOf s i with sessions := tdel (laneOf s i).sessions la } + 8192 ≤ 65536 ∧ ses = { runs := n }
        ∨ (∃ r ∈ runs, r.cur ≠ 0) ∧ tfind (laneOf s i).sessions la = some ses) →
      mergeTake (bitAt (lane64 c.tok.desc 2) 14) (runs.foldl (fun m r => m + r.ents.length) 0 + 1)
        (min 1024 (k - ses.emitted.length)) runs ses.emitted [] = (rs1, got) →
      ∀ seen rest more ties s2, seen = got.map (·.2) ++ ses.emitted →
      rest = dedup ((rs1.flatMap fun r => r.ents.drop r.cur).filter fun e => !seen.contains e.2) →
      more = decide (rest ≠ [] ∧ got.length < k - ses.emitted.length) →
      ties = (if more then 0 else match got.getLast? with
        | some e => if got.length < k - ses.emitted.length then 0 else (rest.filter fun x => x.1 == e.1).length
        | none => 0) →
      s2 = (rs1.zipIdx).foldl (fun s p => uPoke s c.tok.dom (la + 16 * p.2 + 8) (bytesOf 4 p.1.cur)) (uPoke s c.tok.dom out (selBlock got)) →
      ∀ s3, s3 = setLane s2 i { laneOf s2 i with sessions := (if more then tins (tdel (laneOf s i).sessions la) la { ses with emitted := seen } else tdel (laneOf s i).sessions la) } →
      exec (.mergePass i) s = .next (endCmd s3 4 i c
        (if !more && got.length < k - ses.emitted.length then 0x01 else 0x00) 0 got.length (selSpec ties more 0)))
  ∧ (∀ s i c area n scratch l, Heads s 4 i .merge 2 c → area = laneBits c.tok.desc 0 0 56 → n = laneBits c.tok.desc 1 0 32 →
      scratch = laneBits c.tok.desc 2 0 56 → 1 ≤ n → laneBits c.tok.desc 0 56 8 = 0 → laneBits c.tok.desc 1 32 32 = 0 →
      laneBits c.tok.desc 2 56 8 = 0 → area % 64 = 0 → scratch % 64 = 0 → areaBlocks s c.tok.dom area n = .ok l →
      writable s c.tok.dom area (blockSize * n) 4 i = .ok () → writable s c.tok.dom scratch (blockSize * n) 4 i = .ok () →
      exec (.mergeSpillSort i) s = .next (endCmd (uPoke (freeNext (uPoke s c.tok.dom scratch (freeBytes s (blockSize * n)))) c.tok.dom area
        ((List.range n).flatMap fun b => selBlock (((sortKI false (dedup l)).drop (1024 * b)).take 1024))) 4 i c 0 0 (dedup l).length 0))
  ∧ (∀ (row : (Nat → Instr) × Nat), row ∈ [(.uniqValues, 0), (.uniqCounts, 1)] →
      ∀ s i c n out l gs es, Heads s 4 i .uniq row.2 c → i < 16 → n = laneBits c.tok.desc 0 56 8 → out = laneBits c.tok.desc 1 0 56 →
      1 ≤ n → n ≤ 16 → laneBits c.tok.desc 1 56 8 = 0 → out % 64 = 0 → inputBlocks s c.tok.dom (laneBits c.tok.desc 0 0 56) n = .ok l →
      writable s c.tok.dom out blockSize 4 i = .ok () →
      gs = (groupsOf (lane64 c.tok.desc 2) l).mergeSort (fun a b => a.1 < b.1 || (a.1 == b.1 && a.2.2.1 ≤ b.2.2.1)) →
      es = gs.map (fun g => if row.2 = 0 then (g.1, g.2.1) else (min g.2.2.2 (2 ^ 32 - 1), g.2.2.1)) →
      exec (row.1 i) s = .next (endCmd (uPoke s c.tok.dom out (selBlock (es.take 1024))) 4 i c 0 0 (min 1024 es.length)
        (selSpec 0 (decide (1024 < es.length)) 0)))

/-- R318 to R320: the merge stage joins its node's own block and the contributions of the children that have arrived, writes the
result with its epoch list, frees their slots, and reports the children that are missing. -/
def Sys2Proof.Claims.CollectiveJoinsContributions : Prop :=
  ∀ s c p k nc nmax z kids eps best ties lb inbox out, Heads s 4 16 .merge 3 c → laneBits c.tok.desc 0 56 8 = 0 →
    lane64 c.tok.desc 1 = 0 → lane64 c.tok.desc 2 = 0 → operand s c.tok.dom (laneBits c.tok.desc 0 0 56) 64 = .ok p →
    k = fieldOf p 0 2 → nc = fieldOf p 3 1 → nmax = fieldOf p 4 2 → z = contribStride nmax → inbox = fieldOf p 0x18 8 → out = fieldOf p 0x20 8 →
    1 ≤ k → k ≤ 1024 → fieldOf p 2 1 < 2 → nc ≤ 16 → 1 ≤ nmax → nmax ≤ 4096 → fieldOf p 6 2 = 0 → fieldOf p 8 8 < 2 ^ 48 → fieldOf p 0x30 16 = 0 →
    fieldOf p 0x10 8 % 64 = 0 → inbox % 64 = 0 → out % 64 = 0 →
    operand s c.tok.dom (fieldOf p 0x10 8) blockSize = .ok lb → collectKids s c.tok.dom inbox z nc (fieldOf p 0x28 8) = .ok kids →
    eps = ((myNode s).getD 0, fieldOf p 8 8) :: kids.flatMap (fun x => epochList x.2) → (eps.map (·.1)).Nodup → eps.length ≤ nmax →
    writable s c.tok.dom out (16512 + 8 * eps.length) 4 16 = .ok () → (kids ≠ [] → writable s c.tok.dom inbox (z * nc) 4 16 = .ok ()) →
    selectBest (bitAt (fieldOf p 2 1) 0) k [] (dedup (parseBlock lb ++ kids.flatMap fun x => parseBlock x.2)) = (best, ties) →
    exec (.mergeCollective 16) s = .next (endCmd
      (kids.foldl (fun s x => uPoke s c.tok.dom (inbox + z * x.1 + 16450) [0])
        (uPoke s c.tok.dom out (selBlock best ++ epochBytes (fieldOf p 0x28 8) (eps.mergeSort fun a b => a.1 ≤ b.1)))) 4 16 c
      (if best.length < k then 0x01 else 0x00) 0 best.length (selSpec ties false (nc - kids.length)))

/-- R302, R306, R312: what a selection keeps: at most K entries, in rising order of key and, in EXACT order, item; all from its input, none twice
once copies of an item are removed; and no entry left out comes before one kept. -/
def Sys2Proof.Claims.SelectionKeepsTheBest : Prop :=
  ∀ k cuts l out ties, 1 ≤ k → selectBest false k cuts (dedup l) = (out, ties) →
    out.length = min k (dedup l).length ∧ out.Pairwise (fun a b => a.1 < b.1 ∨ (a.1 = b.1 ∧ a.2 < b.2))
    ∧ (∀ x ∈ out, x ∈ l) ∧ (out.map (·.2)).Nodup
    ∧ ∀ x ∈ dedup l, x ∉ out → ∀ y ∈ out, y.1 < x.1 ∨ (y.1 = x.1 ∧ y.2 < x.2)

/-- R327 to R344: the scoring array. A layer or projection writes its own blocks' rows and pulses per chunk; the first cluster of a
centroid ranking writes it once the others have begun; model heads and MaxSim score their own items and send entries as far as credits
allow. The cluster's working regions hold free bytes afterwards. -/
def Obligations.ScoringArray : Prop :=
  (∀ (row : (BitVec 3 → Option TileFault → Instr) × Bool), row ∈ [(.encLayer, false), (.encProjection, true)] →
      ∀ s cl bad c p, Heads s 5 (BitVec.toNat cl) .enc (if row.2 then 2 else 0) c → overcast s = false →
      productStart cl.toNat row.2 bad s c = .ok p →
      (∀ w ∈ productWrites row.2 p, ∃ t, uWrite s c.tok.dom w.1 w.2 = .ok t) →
      exec (row.1 cl bad) s = .next (productEnd cl.toNat row.2 bad
        ((productWrites row.2 p).foldl (fun s w => uPoke s c.tok.dom w.1 w.2) s) c p))
  ∧ (∀ s cl c out n bs, Heads s 5 (BitVec.toNat cl) .enc 1 c → workRegions s c.tok.job cl.toNat = .ok () → c.tok.insts.idxOf cl.toNat = 0 →
      (∀ p ∈ c.tok.insts.zipIdx, p.2 ≠ 0 → ∀ x ∈ cmdsOf s 5 p.1, x.id = c.id + p.2 → x.phase ≠ .queued) →
      centroidStart cl.toNat s c = .ok (out, n, bs) → c.work = 0 →
      exec (.encCentroid cl none) s = .next (putCmd (spoilRegions (uPoke s c.tok.dom out bs) cl.toNat) 5 cl.toNat
        { c with phase := .finishing, work := 0, status := 0x00, reason := 0, count := n }))
  ∧ (∀ s cl c, Heads s 5 (BitVec.toNat cl) .enc 1 c → workRegions s c.tok.job cl.toNat = .ok () → c.tok.insts.idxOf cl.toNat ≠ 0 →
      exec (.encCentroid cl none) s = .next (putCmd (spoilRegions s cl.toNat) 5 cl.toNat { c with phase := .finishing, silent := 2 }))
  ∧ (∀ s cl bad c m, Heads s 5 (BitVec.toNat cl) .enc 3 c → overcast s = false → c.phase ≠ .running → crossStart cl.toNat s c = .ok m →
      exec (.encCrossScore cl bad) s = .next (modelStart cl.toNat bad s c m.x m.index m.lane m.items))
  ∧ (∀ s cl bad c m, Heads s 5 (BitVec.toNat cl) .maxsim 0 c → overcast s = false → c.phase ≠ .running → maxsimStart cl.toNat s c = .ok m →
      exec (.maxsimScore cl bad) s = .next (modelStart cl.toNat bad s c m.x m.index m.lane m.items))
  ∧ ∀ s cl bad c, overcast s = false → c.phase = .running →
      (Heads s 5 (BitVec.toNat cl) .enc 3 c → exec (.encCrossScore cl bad) s = .next (modelDrain cl.toNat c.work s c c.aux))
      ∧ (Heads s 5 (BitVec.toNat cl) .maxsim 0 c → exec (.maxsimScore cl bad) s = .next (modelDrain cl.toNat c.work s c c.aux))

/-- R355 to R366: a gather or scatter whose checks pass sends its row requests and ends once every one is answered; a serving engine
applies the request at its queue's head in one piece and, for an update, copies it to the other nodes; a copy unacknowledged for 1 ms is
sent again. -/
def Obligations.TableEngines : Prop :=
  (∀ (row : (BitVec 1 → Instr) × Nat), row ∈ [(.gathGather, 0), (.gathPool, 1)] →
      ∀ s e c r, Heads s 7 (BitVec.toNat e) .gath row.2 c → c.phase ≠ .running → gatherStart row.2 e.toNat s c = .ok r →
      exec (row.1 e) s = .next (runRows e.toNat s c r))
  ∧ (∀ (row : (BitVec 1 → Instr) × Nat), row ∈ [(.scatOverwrite, 0), (.scatAdd, 1), (.scatReplace, 2)] →
      ∀ s e c r, Heads s 7 (BitVec.toNat e) .scat row.2 c → c.phase ≠ .running → scatterStart row.2 e.toNat s c = .ok r →
      exec (row.1 e) s = .next (runRows e.toNat s c r))
  ∧ (∀ s e r l o s1, rowQueue s (BitVec.toNat e) = r :: l → (∀ p, r.pkt = some p → p.flags.getLsbD 2 = false) →
      serveRow (setRowQueue s e.toNat l) r = (o, s1) →
      exec (.rowRequest e) s = .next (replyRow
        (match o with | .row v present b => if r.mode = 0 then s1 else copyRow s1 r v present b | _ => s1) r o))
  ∧ (∀ s r b v s2, uRead s r.dom r.addr (if r.mode = 0 || r.mode = 2 then slotBytes r.elem r.dim else 8) = .ok b → 1 ≤ r.mode → r.mode ≤ 2 →
      v = (fieldOf b 0 4 + 1) % 2 ^ 32 → ∀ row, row = (if r.mode = 1 then r.row
        else outRow r.elem (List.zipWith add32 (rowFp r.elem r.dim (b.drop 8)) (rowFp 9 r.dim r.row))) →
      uWrite (useRange s r.dom r.addr (if r.mode = 0 || r.mode = 2 then slotBytes r.elem r.dim else 8)) r.dom r.addr
        (bytesOf 4 v ++ bytesOf 4 1 ++ row) = .ok s2 → serveRow s r = (.row v true row, s2))
  ∧ ∀ s id cp, tfind s.tbe.copies id = some cp → cp.sent + 1000000 ≤ s.now →
      ∀ s1, s1 = sendSys (fset s F.TBE_STAT_COPY_RETRY (min (fget s F.TBE_STAT_COPY_RETRY + 1) (2 ^ F.TBE_STAT_COPY_RETRY.w - 1)))
        { cp.pkt with flags := cp.pkt.flags ||| 4 } →
      exec (.replicaCopyRetry id) s = .next { s1 with tbe := { s1.tbe with copies := tins s1.tbe.copies id { cp with sent := s1.now } } }

/-- R506 to R512: a DMA copy reads its source pieces and writes the same bytes, in order, to its destination pieces (free bytes where the
two overlap); a bus error stops the whole engine, and its restart lets it go on. -/
def Obligations.DmaCopies : Prop :=
  (∀ (row : (BitVec 6 → Instr) × Nat), row ∈ [(.moveCopy, 0), (.moveCopyList, 1)] →
      ∀ s ch c src dst bs, fget s F.DMA_ERR_VALID ≠ 1 → Heads s 8 (BitVec.toNat ch) .move row.2 c → copyPlan s ch.toNat c = .ok (src, dst, bs) →
      (¬ (∃ p ∈ src, ∃ q ∈ dst, spansMeet p q = true) → exec (row.1 ch) s = .next (endCmd (pourSpans c.tok.job c.tok.dom dst bs
        (src.foldl (fun s p => touchSpan s c.tok.dom p) s)) 8 ch.toNat c 0 0 (spanTotal src) 0)))
  ∧ (∀ (row : (BitVec 6 → Instr)), row ∈ [.moveCopy, .moveCopyList] → ∀ s ch, fget s F.DMA_ERR_VALID = 1 → exec (row ch) s = .next s)
  ∧ (∀ s ch idx addr started, fget s F.DMA_ERR_VALID = 1 → exec (.dmaBusError ch idx addr started) s =
      .next (fset s F.DMA_ERR_LATER (min (fget s F.DMA_ERR_LATER + 1) (2 ^ F.DMA_ERR_LATER.w - 1))))
  ∧ (∀ s ch idx addr started others c s1, fget s F.DMA_ERR_VALID ≠ 1 → engHead s 8 (BitVec.toNat ch) = some c →
      others = started.filter (fun k => k != ch.toNat && k < 64) →
      s1 = others.foldl (fun s k => partCopy s k fun _ => false) (partCopy s ch.toNat (fedBytes s ch.toNat idx (BitVec.toNat addr))) →
      exec (.dmaBusError ch idx addr started) s = .next (devEvent
        ((dmaJobs s (ch.toNat :: others)).eraseDups.foldl (fun s t => faultJob s t 12 0x0C 0x0F 0 8 ch.toNat addr.toNat)
          (fset (fset (fset (fset (fset s1 F.DMA_ERR_CHANNEL ch.toNat) F.DMA_ERR_INDEX idx) F.DMA_ERR_VALID 1)
            F.DMA_ERR_ADDR_LO_V addr.toNat) F.DMA_ERR_ADDR_HI_V (addr.toNat / 2 ^ 32)))
        0x04 0x0F 0 (bytesOf 8 (ch.toNat + idx % 2 ^ 32 * 2 ^ 16) ++ bytesOf 8 addr.toNat)))
  ∧ ∀ s v, 7 ≤ fget s F.PRB_STEP_LAST → fget s F.PRB_PWR_STAT_STATE = 0 → Prompt s → BitVec.getLsbD v 31 = true →
      exec (.dmaRestart v) s = .next (fset (regWritePlain s .DMA_ERR 0 v) F.DMA_ERR_VALID 0)

/-- R85, R65: an engine that meets at its head a command whose job does not own the instance refuses it: the job ends with
`PLAN_VIOLATION`. -/
def Sys2Proof.Claims.EngineRefusesForeignInstance : Prop :=
  ∀ s c inst, ∀ (row : Instr × Nat × EngKind × Nat), row ∈
    [(.scanLoadGroup (BitVec.ofNat 4 inst), 3, .scan, 0), (.scanStackList (BitVec.ofNat 4 inst) [] none, 3, .scan, 1),
     (.scanResidentList (BitVec.ofNat 4 inst) [] none, 3, .scan, 2), (.selArmExact inst, 4, .sel, 0), (.selArmApprox inst, 4, .sel, 1),
     (.selDrain inst, 4, .sel, 2), (.mergePartial inst, 4, .merge, 0), (.mergePass inst, 4, .merge, 1), (.mergeSpillSort inst, 4, .merge, 2),
     (.mergeCollective inst, 4, .merge, 3), (.uniqValues inst, 4, .uniq, 0), (.uniqCounts inst, 4, .uniq, 1),
     (.encCentroid (BitVec.ofNat 3 inst) none, 5, .enc, 1), (.gathGather (BitVec.ofNat 1 inst), 7, .gath, 0),
     (.gathPool (BitVec.ofNat 1 inst), 7, .gath, 1), (.scatOverwrite (BitVec.ofNat 1 inst), 7, .scat, 0),
     (.scatAdd (BitVec.ofNat 1 inst), 7, .scat, 1), (.scatReplace (BitVec.ofNat 1 inst), 7, .scat, 2)] →
  inst < (match row.2.1 with | 3 => 16 | 4 => 17 | 5 => 8 | _ => 2) →
  engHead s row.2.1 inst = some c → c.tok.kind = row.2.2.1 → c.tok.op.toNat = row.2.2.2 → ownerOf s row.2.1 inst ≠ .job c.tok.job →
  exec row.1 s = .next (violation s c.tok.job row.2.1 inst)

namespace Sys2Proof.Claims

/-- Every block of the register file answers, nothing sleeps, and nothing that the host sent before waits: step 7 has passed, and the node is in
P0 (R572, R607, R656). -/
def Awake (s : State) : Prop := 7 ≤ fget s F.PRB_STEP_LAST ∧ fget s F.PRB_PWR_STAT_STATE = 0 ∧ Prompt s

/-- A register command whose effect, where its block answers and nothing sleeps, is `f`. -/
def RegRow (i : W32 → Instr) (f : W32 → State → State) : Prop := ∀ v s, Awake s → exec (i v) s = .next (f v s)

/-- Registers whose write has rules of its own beside the types of their fields. -/
def ruled : List Reg :=
  [.HIU_SQ_CTL, .HIU_EQ_CTL, .HIU_SQ_BASE_LO, .HIU_SQ_BASE_HI, .HIU_EQ_BASE_LO, .HIU_EQ_BASE_HI, .HIU_EVQ_SYS_HEAD, .HIU_PAGE_DOM,
   .HIU_APT_DOM, .HIU_DOM_PASID, .DSP_LC_SET0, .DSP_LC_SET1, .DSP_LC_SET2, .DSP_LC_SET3, .DSP_BE_SET0, .DSP_BE_SET1, .DSP_BE_SET2,
   .DSP_BE_SET3, .DSP_POL, .DSP_SERIES, .DSP_CNT_ADM, .DSP_CNT_DONE, .DSP_CNT_LATE, .DSP_CNT_POL, .SEQ_VIOL_CNT, .SEQ_STALE_PULSE,
   .TRF_ING_DROP, .TIR_IDX_OVL, .STK_DEFER_MAX, .FLS_DSC_CMD, .FLS_POL, .TIR_IDX_CMD, .TIR_RGN_CMD, .TIR_MIG_STAT, .DMA_ERR,
   .FAB_MAP_CMD, .FAB_HO_CMD, .FAB_PORT_CMD, .FAB_WIN_CMD, .FAB_MINPORTS, .TRF_GL_CTL, .TRF_GL_LO, .TRF_GL_HI, .TRF_SMP_CTL,
   .TRF_SMP_DOM, .TRF_SMP_BASE_LO, .TRF_SMP_BASE_HI, .SMC_CFG_CTL, .SMC_DOM_CMD, .SMC_LIFECYCLE, .SMC_TENANCY, .PRB_PACE_MON,
   .PRB_POWER, .PRB_THERM, .PRB_WAKETOL, .PRB_RESET, .PRB_SHD_CTL, .PRB_STEP]

end Sys2Proof.Claims

/-- R12, R13, R662, R663: a host write to a register without rules of its own: an RW field takes the written bits; an RWL field does unless
the lock is set; an RW1C field is cleared whole when a 1 is written to any of its bits; RO and WO fields keep theirs; no other register
changes, and nothing else of the machine, but that under the lock a write to a register with RWL fields counts in `REFUSED`. -/
def Obligations.RegisterFieldsFollowTheirTypes : Prop :=
  ∀ (r : Reg) (inst : Nat) (v : W32) (s : State), Awake s → tsorted s.regs = true → inst < dirInsts r → r ∉ ruled →
    ∃ t, exec (.registerWrite r inst v) s = .next t ∧ { t with regs := s.regs } = s
    ∧ (∀ g ∈ regFields r, ∀ was took, was = bitsOf (rget s r (regBank s r inst)).toNat g.lsb g.w → took = bitsOf v.toNat g.lsb g.w →
        bitsOf (rget t r (regBank s r inst)).toNat g.lsb g.w = (match g.ty with
          | .rw => took
          | .rwl => (if fget s F.SMC_LIFECYCLE_LOCKED = 1 then was else took)
          | .rw1c => (if took = 0 then was else 0)
          | _ => was))
    ∧ (∀ r2 b2, (r2 ≠ r ∨ b2 % 65536 ≠ regBank s r inst % 65536) → r2 ≠ .SMC_LIFECYCLE → rget t r2 b2 = rget s r2 b2)
    ∧ fget t F.SMC_LIFECYCLE_REFUSED = (if fget s F.SMC_LIFECYCLE_LOCKED = 1 ∧ (∃ g ∈ regFields r, g.ty = .rwl)
        then min (fget s F.SMC_LIFECYCLE_REFUSED + 1) (2 ^ F.SMC_LIFECYCLE_REFUSED.w - 1) else fget s F.SMC_LIFECYCLE_REFUSED)

/-- R487, R572, R655: a write of an instance that does not exist changes nothing; one whose block does not answer yet is ignored and counted in
`BADACC`; an access of a wrong size or alignment, or to such a block, counts, and a read answers all ones. -/
def Obligations.RegisterAccessesThatAreRefused : Prop :=
  (∀ r inst v s, dirInsts r ≤ inst → exec (.registerWrite r inst v) s = .next s)
  ∧ (∀ r inst v s, inst < dirInsts r → regBlock r ∉ [1, 15, 16] → fget s F.PRB_STEP_LAST < 7 → Prompt s →
      exec (.registerWrite r inst v) s = .next (fbump s F.HIU_STAT_BADACC))
  ∧ (∀ off size s, ¬ ((size = 4 ∧ off % 4 = 0) ∨ (size = 8 ∧ off % 8 = 0)) ∨
        (fget s F.PRB_STEP_LAST < 7 ∧ off / 2 ^ 24 ∉ [0, 14, 15]) →
      exec (.bar0BadAccess true off size) s = .next (fbump s F.HIU_STAT_BADACC)
      ∧ exec (.bar0BadAccess false off size) s =
        .next { fbump s F.HIU_STAT_BADACC with out := .readReply (some (List.replicate size 0xFF)) :: s.out })
  ∧ ∀ (row : (W32 → Instr) × Reg), row ∈ [(.seqViolCntClear, .SEQ_VIOL_CNT), (.seqStalePulseClear, .SEQ_STALE_PULSE),
      (.trfIngDropClear, .TRF_ING_DROP), (.tirIdxOvlClear, .TIR_IDX_OVL), (.indexInstall, .TIR_IDX_CMD), (.indexRemove, .TIR_IDX_CMD),
      (.overrideSet, .TIR_IDX_CMD), (.overrideClear, .TIR_IDX_CMD), (.regionCreate, .TIR_RGN_CMD), (.regionRemove, .TIR_RGN_CMD),
      (.regionClean, .TIR_RGN_CMD), (.regionInvalidate, .TIR_RGN_CMD), (.regionCleanInvalidate, .TIR_RGN_CMD),
      (.migFinalMaxClr, .TIR_MIG_STAT), (.flsDiscard, .FLS_DSC_CMD), (.windowCreate, .FAB_WIN_CMD), (.windowRemove, .FAB_WIN_CMD),
      (.dmaRestart, .DMA_ERR), (.portRetry, .FAB_PORT_CMD), (.portHold, .FAB_PORT_CMD), (.sliceDefine, .FAB_MAP_CMD),
      (.mapStage, .FAB_MAP_CMD), (.mapCancel, .FAB_MAP_CMD), (.handoffOffer, .FAB_HO_CMD), (.handoffLedgerRead, .FAB_HO_CMD),
      (.seriesStop, .DSP_SERIES), (.dspPolWrite, .DSP_POL), (.gateListArm, .TRF_GL_CTL), (.gateListCancel, .TRF_GL_CTL),
      (.samplingEnable, .TRF_SMP_CTL), (.samplingDisable, .TRF_SMP_CTL), (.sampleHeadWrite, .TRF_SMP_HEAD)] →
    ∀ v s, fget s F.PRB_STEP_LAST < 7 → Prompt s → exec (row.1 v) s = .next (fbump s F.HIU_STAT_BADACC)

/-- R607, R651, R656: in P1 to P4 a write outside the blocks HIU, SMC and PRB wakes the node and waits for P0; a write or a doorbell waits
behind the host accesses that wait already, and behind a BAR2 write that is deferred; an access whose turn comes does what it does on
arrival, and those behind it follow until one must wait on. -/
def Obligations.HostAccessesKeepTheirOrder : Prop :=
  (∀ r inst v s, inst < dirInsts r → regBlock r ∉ [1, 15, 16] → 7 ≤ fget s F.PRB_STEP_LAST → fget s F.PRB_PWR_STAT_STATE ≠ 0 →
      exec (.registerWrite r inst v) s = .next { s with
        prb := { s.prb with waking := some (s.prb.waking.getD s.now) }, hiu := { s.hiu with waiting := s.hiu.waiting ++ [.reg r inst v] } })
  ∧ (∀ r inst v s, inst < dirInsts r → ¬ Prompt s → ∃ t, exec (.registerWrite r inst v) s = .next t
      ∧ t.hiu.waiting = s.hiu.waiting ++ [.reg r inst v] ∧ { t with hiu := s.hiu, prb := { t.prb with waking := s.prb.waking } } = s)
  ∧ (∀ q v s, ¬ Prompt s → ∃ t, exec (.sqTailDoorbell q v) s = .next t ∧ t.hiu.waiting = s.hiu.waiting ++ [.sqTail q.toNat v.toNat]
      ∧ { t with hiu := s.hiu, prb := { t.prb with waking := s.prb.waking } } = s)
  ∧ (∀ q v s, ¬ Prompt s → ∃ t, exec (.eqHeadDoorbell q v) s = .next t ∧ t.hiu.waiting = s.hiu.waiting ++ [.eqHead q.toNat v.toNat]
      ∧ { t with hiu := s.hiu, prb := { t.prb with waking := s.prb.waking } } = s)
  ∧ (∀ s r inst v, inst < dirInsts r → exec (.registerWrite r inst v) s = .next (hostAccess (.reg r inst v) s))
  ∧ (∀ s q v, exec (.sqTailDoorbell q v) s = .next (hostAccess (.sqTail q.toNat v.toNat) s)
      ∧ exec (.eqHeadDoorbell q v) s = .next (hostAccess (.eqHead q.toNat v.toNat) s))
  ∧ ∀ s a rest n t, s.hiu.waiting = a :: rest → t = hostAccess a { s with hiu := { s.hiu with waiting := [] } } →
      (t.hiu.waiting = [] → hostPump (n + 1) s = hostPump n { t with hiu := { t.hiu with waiting := rest } })
      ∧ (t.hiu.waiting ≠ [] → hostPump (n + 1) s = s)

/-- R12, R35, R400, R523, R525, R527, R529, R600, R602, R636, R661, R662: the writes that clear a count or a maximum, start an action of one
step, or set a policing rate. -/
def Sys2Proof.Claims.RegisterWritesThatAct : Prop :=
  RegRow .paceTargetWrite (fun v s => regWritePlain s .PRB_PACE_CTL 0 v)
  ∧ RegRow .clrMin (fun v s => if v.getLsbD 31 then fset s F.PRB_PACE_MON_MIN 0xFFF else s)
  ∧ RegRow .seqViolCntClear (fun _ s => rset s .SEQ_VIOL_CNT 0 0)
  ∧ RegRow .seqStalePulseClear (fun _ s => rset s .SEQ_STALE_PULSE 0 0)
  ∧ RegRow .trfIngDropClear (fun _ s => rset s .TRF_ING_DROP 0 0)
  ∧ RegRow .tirIdxOvlClear (fun _ s => fset s F.TIR_IDX_OVL_V 0 (fget s F.TIR_IDX_CMD_INDEX))
  ∧ RegRow .migFinalMaxClr (fun v s => let s1 := regWritePlain s .TIR_MIG_STAT 0 v
      if v.getLsbD 31 then fset s1 F.TIR_MIG_STAT_FINAL_MAX 0 else s1)
  ∧ (∀ r ∈ [Reg.DSP_CNT_ADM, .DSP_CNT_DONE, .DSP_CNT_LATE, .DSP_CNT_POL],
      RegRow (.dspCountClear r) (fun _ s => rset s r (fget s F.DSP_DOM_SEL_V) 0))
  ∧ RegRow .dspPolWrite (fun v s =>
      let s1 := regWritePlain s .DSP_POL (fget s F.DSP_DOM_SEL_V) v
      let b : Bucket := { level := max 1 (fget s1 F.DSP_POL_BURST (fget s F.DSP_DOM_SEL_V)) * 1000000, last := s.now }
      { s1 with exec := { s1.exec with bucket := tput {} s.exec.bucket (fget s F.DSP_DOM_SEL_V) b } })
  ∧ RegRow .seriesStop (fun v s =>
      let s1 := regWritePlain s .DSP_SERIES 0 (v ||| 0x8000)
      { s1 with exec := { s1.exec with series := s.exec.series.filter fun p => p.2.sq != fget s1 F.DSP_SERIES_QUEUE } })
  ∧ RegRow .sampleHeadWrite (fun v s => regWritePlain s .TRF_SMP_HEAD 0 v)
  ∧ RegRow .prbPowerClr (fun v s => if v.getLsbD 31 then fset s F.PRB_POWER_MAX_W 0 else s)
  ∧ RegRow .prbThermClrMax (fun v s => if v.getLsbD 31 then
      fset s F.PRB_THERM_MAX_TJ (fget s F.PRB_THERM_TJ (fget s F.PRB_THERM_SEL_V)) (fget s F.PRB_THERM_SEL_V) else s)
  ∧ RegRow .waketolWrite (fun v s => regWritePlain s .PRB_WAKETOL 0 v)
  ∧ RegRow .shadowClear (fun v s =>
      let s1 := regWritePlain s .PRB_SHD_CTL 0 (v ||| 0x100)
      { s1 with flt := { s1.flt with charge := [], bins := [], plans := [] } })
  ∧ RegRow .goProd (fun v s =>
      let s1 := regWritePlain s .SMC_LIFECYCLE 0 (v ||| 0x10000)
      let s2 := if v.extractLsb' 8 8 = 0xA5#8 ∧ locked s = false ∧ fget s F.PRB_STEP_READY = 0 then
        fset { s1 with prb := { s1.prb with prodFuse := true } } F.SMC_LIFECYCLE_PRODUCTION 1 else s1
      if v.getLsbD 17 then fset s2 F.SMC_LIFECYCLE_LOCKED 1 else s2)
  ∧ (∀ v s, Awake s → tsorted s.regs = true → ∃ t, exec (.lock v) s = .next t ∧ fget t F.SMC_LIFECYCLE_LOCKED = 1
      ∧ { t with regs := s.regs, prb := { t.prb with prodFuse := s.prb.prodFuse } } = s
      ∧ (v.getLsbD 16 = false → t.prb.prodFuse = s.prb.prodFuse))

/-- R46, R183, R203: a read of the low half of device time, of the published epoch or of the oldest hold latches its upper half. -/
def Sys2Proof.Claims.LowHalvesLatchHighHalves : Prop :=
  (∀ s, Prompt s → exec .smcTimeLoRead s = .next
      (rset (rset s .SMC_TIME_LO 0 (BitVec.ofNat 32 s.now)) .SMC_TIME_HI 0 (BitVec.ofNat 32 (s.now / 2 ^ 32))))
  ∧ (∀ s, Awake s → exec .epochLoRead s = .next { s with tir := { s.tir with epochHi := s.tir.epoch / 2 ^ 32 } })
  ∧ ∀ s, Awake s → ∃ h, exec .holdLoRead s = .next { s with tir := { s.tir with holdHi := h / 2 ^ 32 } }
      ∧ (∀ x ∈ holds s, h ≤ x) ∧ (h ∈ holds s ∨ (h = noEpoch ∧ ∀ x ∈ holds s, noEpoch ≤ x))

/-- R33, R34, R35: once its microsecond has passed the limiter, or the governor's cap, moves towards its setting: to it at once where the
setting is within 100 Mstep/s of the achieved pace, else by at most 100 Mstep/s, and never below 500; a pace window that ends at a
multiple of 10 µs gives the lowest of the three paces, and `MIN` follows it. -/
def Sys2Proof.Claims.PaceMovesBounded : Prop :=
  (∀ s achieved amount goal a, s.prb.pace.limAt + 1000 ≤ s.now → a = min s.prb.pace.lim paceCeiling →
      goal = (if fget s F.PRB_STEP_LAST < 2 then 500 else if fget s F.PRB_PACE_CTL_TARGET = 0 then paceCeiling
        else max 500 (min (fget s F.PRB_PACE_CTL_TARGET) paceCeiling)) →
      ∃ l, exec (.limiterRamp false achieved amount) s =
          .next { s with prb := { s.prb with pace := { s.prb.pace with lim := l, limAt := s.now } } }
        ∧ 500 ≤ l ∧ l ≤ max 500 (max a goal) ∧ min a goal ≤ l
        ∧ (goal ≤ achieved + 100 → achieved ≤ goal + 100 → l = goal)
        ∧ (achieved + 100 < goal ∨ goal + 100 < achieved → a ≤ l + 100 ∧ l ≤ max 500 (a + 100)))
  ∧ (∀ s achieved amount goal a, s.prb.pace.capAt + 1000 ≤ s.now → a = s.prb.pace.cap → goal = s.prb.pace.capGoal →
      ∃ l, exec (.limiterRamp true achieved amount) s =
          .next { s with prb := { s.prb with pace := { s.prb.pace with cap := l, capAt := s.now } } }
        ∧ 500 ≤ l ∧ l ≤ max 500 (max a goal) ∧ min a goal ≤ l
        ∧ (goal ≤ achieved + 100 → achieved ≤ goal + 100 → a ≤ goal + 1900 → goal ≤ a + 1900 → l = max 500 goal)
        ∧ (achieved + 100 < goal ∨ goal + 100 < achieved → a ≤ l + 100 ∧ l ≤ max 500 (a + 100)))
  ∧ (∀ s gov achieved amount, s.now < (if gov then s.prb.pace.capAt else s.prb.pace.limAt) + 1000 →
      exec (.limiterRamp gov achieved amount) s = .next s)
  ∧ (∀ s cw ce iod limited governed n, tsorted s.regs = true → s.now % 10000 = 0 → s.now ≠ s.prb.pace.window →
      n = min (min (min cw ce) (min iod paceCeiling)) 4095 →
      ∃ t, exec (.paceMonWindow cw ce iod limited governed) s = .next t ∧ fget t F.PRB_PACE_MON_NOW = n
        ∧ fget t F.PRB_PACE_MON_MIN = min n (fget s F.PRB_PACE_MON_MIN)
        ∧ fget t F.PRB_PACE_MON_LIMITED = (if limited then 1 else 0) ∧ fget t F.PRB_PACE_MON_GOVERNED = (if governed then 1 else 0)
        ∧ (∀ r b, r ≠ .PRB_PACE_MON → rget t r b = rget s r b)
        ∧ { t with regs := s.regs, prb := { t.prb with pace := { t.prb.pace with window := s.prb.pace.window } } } = s)

/-- R42 to R45, R48: a PTP message on the enabled active port, or on any enabled one while none is active, disciplines device time, which
never steps; on the standby port its offset is tracked; a message on a port not enabled is ignored. In step 13 after a cold reset
the first sets device time. Holdover keeps the rate; a grandmaster that returns more than 1 ms off raises `UNIT_FAULT`. -/
def Sys2Proof.Claims.DeviceTimeIsDisciplined : Prop :=
  (∀ s mgb o rate t, tsorted s.regs = true → t = discipline s mgb o rate →
      t.now = s.now ∧ fget t F.SMC_PTP_STAT_ACTIVE = (if mgb then 2 else 1)
      ∧ fget t F.SMC_PTP_STAT_SYNC = (if -1000 ≤ BitVec.toInt o ∧ BitVec.toInt o ≤ 1000 then 1 else 0)
      ∧ fget t F.SMC_PTP_STAT_SLEWING = (if 100 < rate then 1 else 0) ∧ t.prb.ptp.slew = min rate 100
      ∧ rget t .SMC_PTP_OFFSET 0 = (if 2 ^ 31 - 1 < o.toInt then 0x7FFFFFFF else if o.toInt < 1 - 2 ^ 31 then 0x80000001 else o.setWidth 32))
  ∧ (∀ s mgb o rate, ptpOn s mgb = true → ∀ s1, s1 = ptpHeard s mgb o →
      ((fget s F.SMC_PTP_STAT_ACTIVE = 0 ∨ fget s F.SMC_PTP_STAT_ACTIVE = ptpPort mgb) →
        (timeSets s = false → exec (.ptpMessage mgb o rate) s = .next (discipline s1 mgb o rate))
        ∧ (timeSets s = true → exec (.ptpMessage mgb o rate) s = .next (setFromMaster s1 mgb)
          ∧ (setFromMaster s1 mgb).now = ((s.now : Int) - o.toInt).toNat))
      ∧ (fget s F.SMC_PTP_STAT_ACTIVE ≠ 0 → fget s F.SMC_PTP_STAT_ACTIVE ≠ ptpPort mgb →
        exec (.ptpMessage mgb o rate) s = .next s1)
      ∧ (fget s F.SMC_PTP_STAT_ACTIVE = 0 → exec (.grandmasterReturn mgb o rate) s = .next
        (if 1000000 < o.toInt.natAbs then unitFault (discipline s1 mgb o rate) 15 0x0C 0 0 (if mgb then 1 else 0)
          else discipline s1 mgb o rate)))
  ∧ (∀ s mgb o rate, ptpOn s mgb = false →
      exec (.ptpMessage mgb o rate) s = .next s ∧ exec (.grandmasterReturn mgb o rate) s = .next s)
  ∧ (∀ s, fget s F.SMC_PTP_STAT_ACTIVE ≠ 0 → ∀ s1,
      s1 = fset (fset (fset s F.SMC_PTP_STAT_ACTIVE 0) F.SMC_PTP_STAT_SYNC 0) F.SMC_PTP_STAT_HOLDOVER_SEEN 1 →
      exec .holdoverEntry s = .next { s1 with prb := { s1.prb with ptp := { s1.prb.ptp with heard := 0 } } })
  ∧ ∀ s mgb rate, ptpOn s mgb = true → fget s F.SMC_PTP_STAT_ACTIVE ≠ 0 → fget s F.SMC_PTP_STAT_ACTIVE ≠ ptpPort mgb →
      s.prb.ptp.heard &&& ptpPort mgb ≠ 0 → exec (.ptpSwitchover mgb rate) s = .next
        (fset (discipline s mgb (if mgb then s.prb.ptp.offB else s.prb.ptp.offA) rate) F.SMC_PTP_STAT_SWITCHOVER_SEEN 1)

/-- R595, R603, R604: the first rail below warning starts a brownout: counted, shown with its rails, recorded; a further rail is
added; once 50 µs have passed its end is recorded with its length. VCCQ_FL at its Reset level takes every flash channel out of service;
any other rail there is a cold reset (R596). -/
def Sys2Proof.Claims.BrownoutsAreReported : Prop :=
  (∀ s rails m, m = rails % 512 → m ≠ 0 → s.prb.brown = none →
      ∀ s1, s1 = spoilTests (lunsThrough { s with prb := { s.prb with brown := some (s.now, m) } }) →
      exec (.brownoutStart rails) s = .next (devEvent
        (fbump (fset (fset s1 F.PRB_PWR_STAT_BROWNOUT 1) F.PRB_PWR_STAT_RAILS m) F.PRB_PWR_STAT_BROWNOUTS) 0x06 0 0 (bytesOf 2 m)))
  ∧ (∀ s rails m t old, m = rails % 512 → m ≠ 0 → s.prb.brown = some (t, old) → exec (.brownoutStart rails) s = .next
      (fset { s with prb := { s.prb with brown := some (t, old ||| m) } } F.PRB_PWR_STAT_RAILS (fget s F.PRB_PWR_STAT_RAILS ||| m)))
  ∧ (∀ s lowMv t m, s.prb.brown = some (t, m) → t + 50000 ≤ s.now → s.prb.warmWait = false →
      ∀ s1, s1 = { s with prb := { s.prb with brown := none }, fls := { s.fls with brownout := false } } →
      exec (.brownoutEnd lowMv) s = .next (devEvent (fset (fset s1 F.PRB_PWR_STAT_BROWNOUT 0) F.PRB_PWR_STAT_RAILS 0) 0x07 0 0
        (bytesOf 4 m ++ bytesOf 4 ((s.now - t) / 1000) ++ bytesOf 2 lowMv)))
  ∧ (∀ s lowMv t m, s.prb.brown = some (t, m) → s.now < t + 50000 → exec (.brownoutEnd lowMv) s = .next s)
  ∧ (∀ s, exec (.railResetLevel 6) s = .next ((List.range 64).foldl holdChannel s))
  ∧ ∀ s rail, rail ≤ 8 → rail ≠ 6 → exec (.railResetLevel rail) s = .next (coldReset 1 s)

/-- R598 to R602: at the end of a power window `NOW_W` and `MAX_W` follow the power, and the cap's setting falls when it is above the
target, and rises (by an amount the manual leaves open, log entry 104) when below 95 % of it and no heat holds it; a die at or above its
thresholds gets its level, and the cap falls; Emergency sets overcast cause 2 until every die has been below Throttle for 1 s; Trip asserts
THERMTRIP# and resets. -/
def Sys2Proof.Claims.PowerAndTemperature : Prop :=
  (∀ s power w, tsorted s.regs = true → s.now % 10000 = 0 → s.now ≠ s.prb.govAt → w = min power 4095 →
      ∃ t, exec (.governorWindow power) s = .next t ∧ fget t F.PRB_POWER_NOW_W = w
        ∧ fget t F.PRB_POWER_MAX_W = max w (fget s F.PRB_POWER_MAX_W) ∧ t.prb.govAt = s.now
        ∧ (powerTarget s < w → s.prb.pace.capGoal ≤ 1900 →
            t.prb.pace.capGoal ≤ s.prb.pace.capGoal ∨ t.prb.pace.capGoal = 500)
        ∧ (w ≤ powerTarget s → 95 * powerTarget s ≤ 100 * w ∨ heatHolds s = true → t.prb.pace.capGoal = s.prb.pace.capGoal)
        ∧ (100 * w < 95 * powerTarget s → heatHolds s = false → s.prb.pace.capGoal ≤ 1900 →
            s.prb.pace.capGoal ≤ t.prb.pace.capGoal ∧ t.prb.pace.capGoal ≤ 1900))
  ∧ (∀ s die tj, die < 23 → (if die < 3 then 840 else 680) ≤ tj → ∀ s1, s1 = watchCool (senseTj s die tj) →
      exec (.thermalThrottle die tj) s = .next (heatCap (if fget s1 F.PRB_THERM_LEVEL die = 0 then setLevel s1 die 1 else s1)))
  ∧ (∀ s die tj, die < 23 → (if die < 3 then 896 else 760) ≤ tj → exec (.thermalEmergency die tj) s = .next
      (ovcSet (setCap (fset (setLevel (watchCool (senseTj s die tj)) die 2) F.PRB_PWR_STAT_EMERGENCY 1) 500) 2))
  ∧ (∀ s die tj, die < 23 → tj + 16 ≤ (if die < 3 then 840 else 680) →
      exec (.thermalLevelNormal die tj) s = .next (setLevel (watchCool (senseTj s die tj)) die 0))
  ∧ (∀ s t, s.prb.cool = some t → fget s F.PRB_PWR_STAT_EMERGENCY ≠ 0 → t + 1000000000 ≤ s.now →
      exec .emergencyEnd s = .next (ovcClear
        (((List.range 23).filter fun d => fget s F.PRB_THERM_LEVEL d == 2).foldl
          (fun s d => setLevel s d (if fget s F.PRB_THERM_TJ d + 16 ≤ (if d < 3 then 840 else 680) then 0 else 1))
          (fset s F.PRB_PWR_STAT_EMERGENCY 0)) 2))
  ∧ (∀ s die tj, die < 23 → (if die < 3 then 960 else 840) ≤ tj →
      exec (.thermalTrip die tj) s = .next (coldReset 3 { s with out := .pin 0 true :: s.out }))

/-- R605 to R608: a node that has been idle for HYST enters the deepest state that TOL allows, deeper than its own: P1, P2, or P3, where tile
SRAM is lost; P4 where nothing bars it, once every write-back is durable, else P3 with `P4_BLOCKED`. A wake ends in P0, counted, and what
waited goes on. -/
def Obligations.PowerStatesAndWakes : Prop :=
  (∀ s want, nodeIdle s = true → s.prb.waking = none → s.prb.lastActive + max 1 (fget s F.PRB_WAKETOL_HYST) * 10000 ≤ s.now →
      want = tolState (fget s F.PRB_WAKETOL_TOL) → fget s F.PRB_PWR_STAT_STATE < want →
      (want ≤ 2 → exec .powerStateEntry s = .next (fset s F.PRB_PWR_STAT_STATE want))
      ∧ (want = 3 → exec .powerStateEntry s = .next (fset (loseTiles s) F.PRB_PWR_STAT_STATE 3))
      ∧ (want = 4 → p4Barred s = true → exec .powerStateEntry s = .next
        (fset (if fget s F.PRB_PWR_STAT_STATE = 3 then s else fset (loseTiles s) F.PRB_PWR_STAT_STATE 3) F.PRB_PWR_STAT_P4_BLOCKED 1))
      ∧ (want = 4 → p4Barred s = false → ∀ s1, s1 = writeAllBack (fset s F.PRB_PWR_STAT_P4_BLOCKED 0) →
        exec .powerStateEntry s = .next (if allDurable s1 then
          fset (loseTiles (restoreStacks s1 (journalOf s1))) F.PRB_PWR_STAT_STATE 4 else s1)))
  ∧ (∀ s, nodeIdle s = false ∨ s.now < s.prb.lastActive + max 1 (fget s F.PRB_WAKETOL_HYST) * 10000 → exec .powerStateEntry s = .next s)
  ∧ (∀ tol, tolState tol = if 10000000 ≤ tol then 4 else if 1000 ≤ tol then 3 else if 25 ≤ tol then 2 else if 1 ≤ tol then 1 else 0)
  ∧ ∀ s t0, s.prb.waking = some t0 → fget s F.PRB_PWR_STAT_STATE ≤ 2 →
      ∀ s1 s2, s1 = fset (fset s F.PRB_PWR_STAT_STATE 0) F.PRB_PWR_STAT_P4_BLOCKED 0 →
      s2 = releaseWake (fbump { s1 with prb := { s1.prb with waking := none, lastActive := s.now } } F.PRB_PWR_STAT_WAKES) →
      exec .wakeComplete s = .next (hostPump s2.hiu.waiting.length s2)

namespace Sys2Proof.Claims

/-- A write of step `n` is one that the sequence accepts (R574): nothing runs, the first stage has not failed, and the step is the next, or one
that may be repeated and was the last to start and pass, or step 9 after ready. -/
def StepTaken (s : State) (n : Nat) : Prop :=
  fget s F.PRB_STEP_BUSY = 0 ∧ s.prb.dead = false ∧
    (n = fget s F.PRB_STEP_LAST + 1 ∨ (n = fget s F.PRB_STEP_CURRENT ∧ n = fget s F.PRB_STEP_LAST ∧ n ∈ [6, 10, 11, 13])
      ∨ (fget s F.PRB_STEP_READY = 1 ∧ n = 9))

/-- The node with step `n` shown as running. -/
def stepShown (s : State) (n : Nat) : State := fset (fset s F.PRB_STEP_CURRENT n) F.PRB_STEP_BUSY 1

/-- The state with a step in progress. -/
def runs (s : State) (r : StepRun) : State := { s with prb := { s.prb with run := some r } }

end Sys2Proof.Claims

/-- R574, R576, R577: an accepted write of a step shows it as CURRENT with BUSY and starts it, with the arguments as they stand; any other write
is refused and counted. -/
def Sys2Proof.Claims.BringUpStepsStart : Prop :=
  (∀ s n s1, Prompt s → StepTaken s n → s1 = stepShown s n →
      (∀ a b c, n = 1 → exec (.railsAndReference a b c) s = .next (runs s1 (.rails a b c)))
      ∧ (∀ p, n = 2 → exec (.fuseLoad p) s = .next (runs s1 (.fuses p)))
      ∧ (∀ ok, n = 3 → exec (.firstStageVerification ok) s = .next (runs s1 (.firstStage ok)))
      ∧ (∀ l, n = 4 → exec (.unitBist l) s = .next (runs s1 (.bist l)))
      ∧ (n = 5 → exec .yieldMapReconciliation s = .next (runs s1 .ymap))
      ∧ (∀ v e, n = 6 → exec (.firmwareImageLoad v e) s = .next (runs (fset s1 F.DMA_ERR_VALID 0)
          (.image (rpair s .PRB_STEP_ARG0 .PRB_STEP_ARG1) (rget s .PRB_STEP_ARG2 0).toNat v e)))
      ∧ (∀ ok, n = 7 → exec (.firmwareBroadcast ok) s = .next (runs s1 (.broadcast ok)))
      ∧ (∀ l, n = 8 → exec (.stackTraining l) s = .next (runs s1 (.training l)))
      ∧ (∀ p l, n = 9 → exec (.flashDiscovery p l) s = .next (runs s1 (.discovery p l)))
      ∧ (n = 10 → (myNode s = none → exec .fabricTraining s = .next (runs s1 (.ports s.now)))
        ∧ ((∀ p < 8, (linkOf s p).held = true ∨ fget s F.FAB_PORT_STAT_STATE p ∈ [1, 2, 3, 4]) →
          exec .fabricTraining s = .next (runs s1 (.ports s.now)))
        ∧ exec .fabricTraining s = .next (runs (portsStart s1).1 (.ports s.now)))
      ∧ (n = 11 → exec .linkQualification s = .next (runs
          (((List.range 8).filter fun p => fget s F.FAB_PORT_STAT_STATE p == 2).foldl
            (fun s p => setLink s p { linkOf s p with spoiled := false }) s1) (.lanes false)))
      ∧ (n = 12 → exec .fullPcieFunction s = .next (runs s1 .pcie))
      ∧ (n = 13 → (BitVec.getLsbD (rget s .PRB_STEP_ARG2 0) 0 = true → s.prb.timeOpen = true → exec .timeSync s = .next
          (runs (setTime s1 (rpair s .PRB_STEP_ARG0 .PRB_STEP_ARG1)) (.time true 0)))
        ∧ (s.prb.timeOpen = false → exec .timeSync s = .next (runs s1 (.time false (s.now + syncLimit s))))
        ∧ (BitVec.getLsbD (rget s .PRB_STEP_ARG2 0) 0 = false → s.prb.timeOpen = true → ∀ s2,
          s2 = (if fget s F.SMC_PTP_STAT_ACTIVE = 0 then s1 else setFromMaster s1 (fget s F.SMC_PTP_STAT_ACTIVE == 2)) →
          exec .timeSync s = .next (runs s2 (.time false (s2.now + syncLimit s2)))))
      ∧ (∀ ok k, n = 14 → exec (.configurationLoad ok k) s = .next
          (runs s1 (.config (BitVec.getLsbD (rget s .PRB_STEP_ARG2 0) 0) ok k)))
      ∧ (n = 15 → exec .ready s = .next (runs s1 .ready)))
  ∧ ∀ (row : Instr × Nat), row ∈ [(.yieldMapReconciliation, 5), (.fabricTraining, 10), (.linkQualification, 11), (.fullPcieFunction, 12),
      (.timeSync, 13), (.ready, 15)] → ∀ s, Prompt s → ¬ StepTaken s row.2 → exec row.1 s = .next (fbump s F.PRB_STEP_STAT_REFUSED)

/-- R573, R575, R578, R580 to R594: how each step of bring-up ends: its checks in order, its status and reason, what it leaves, and that
LAST rises with a step that passes. -/
def Sys2Proof.Claims.BringUpStepsEnd : Prop :=
  (∀ s n st rs v t, tsorted s.regs = true → n ≤ 15 → st < 256 → rs < 256 → t = stepDone s n st rs v →
      fget t F.PRB_STEP_BUSY = 0 ∧ t.prb.run = none ∧ fget t F.PRB_STEP_STAT_STATUS = st ∧ fget t F.PRB_STEP_STAT_REASON = rs
      ∧ fget t F.PRB_STEP_LAST = (if (st = 0x00 ∨ (n = 9 ∧ st = stOVERCAST) ∨ (n = 13 ∧ st = stSHORT)) ∧ n = fget s F.PRB_STEP_LAST + 1
          then n else fget s F.PRB_STEP_LAST))
  ∧ (∀ s a b c, s.prb.run = some (.rails a b c) → exec .stepComplete s = .next
      (if a = false then stepDone s 1 0x0D 0xF1 0 else if b = false then stepDone s 1 0x0D 0xF2 0
        else if c = false then stepDone s 1 0x0D 0xF5 0 else stepDone s 1 0x00 0 0))
  ∧ (∀ s ok, s.prb.run = some (.firstStage ok) → exec .stepComplete s = .next
      (if ok then stepDone s 3 0x00 0 0 else stepDone { s with prb := { s.prb with dead := true } } 3 0x0D 0xF4 0))
  ∧ (∀ s l, s.prb.run = some (.bist l) → exec .stepComplete s = .next
      (stepDone { s with prb := { s.prb with badTest := l.eraseDups } } 4 0x00 0 0))
  ∧ (∀ s addr n ok, s.prb.run = some (.image addr n ok none) → addr % 4096 = 0 → ∀ s1 img, s1 = emit s (.hostRead none addr n) →
      img = hostRead s addr n →
      (imageCheck s1 img ok ≠ 0 → exec .stepComplete s = .next (stepDone s1 6 0x0B (imageCheck s1 img ok) 0))
      ∧ (imageCheck s1 img ok = 0 → ∀ svn s2, svn = fieldOf img 4 1 → s2 = (if fieldOf img 5 1 = 1 ∧ fget s F.PRB_ID_FW_FUSED_SVN < svn
          then fset { s1 with prb := { s.prb with image := img, svnBurn := svn } } F.PRB_ID_FW_FUSED_SVN svn
          else { s1 with prb := { s.prb with image := img } }) →
        exec .stepComplete s = .next (stepDone (fset (fset s2 F.PRB_ID_FW_IMAGE_SVN svn) F.PRB_ID_FW_IMAGE_VALID 1) 6 0x00 0 0)))
  ∧ (∀ s, s.prb.run = some (.broadcast false) → exec .stepComplete s = .next (stepDone s 7 0x0D 0xF7 0))
  ∧ (∀ s, s.prb.run = some (.training []) → ∀ s1 : State, s1 = { s with
        mem := { s.mem with stk := if s.prb.stacksLost then [] else s.mem.stk, badStk := if s.prb.stacksLost then [] else s.mem.badStk }
        flt := { s.flt with stacksOut := [] }
        prb := { s.prb with stacksLost := false } } → exec .stepComplete s = .next (stepDone s1 8 0x00 0 0))
  ∧ (∀ s t, s.prb.run = some (.ports t) → (myNode s = none → exec .stepComplete s = .next (stepDone s 10 0x0B 0xFA 0))
      ∧ (myNode s ≠ none → (∀ p < 8, fget s F.FAB_PORT_STAT_STATE p ≠ 1) → exec .stepComplete s = .next (stepDone s 10 0x00 0 0))
      ∧ (myNode s ≠ none → (∃ p < 8, fget s F.FAB_PORT_STAT_STATE p = 1) → s.now < t + 200000000 → exec .stepComplete s = .next s))
  ∧ (∀ s, s.prb.run = some .pcie → exec .stepComplete s = .next
      (stepDone s 12 0x00 0 (fget s F.HIU_LINK_STAT_SPEED + 256 * fget s F.HIU_LINK_STAT_WIDTH)))
  ∧ (∀ s due, s.prb.run = some (.time false due) → ∀ s1 off, s1 = { s with prb := { s.prb with timeOpen := false } } →
      off = BitVec.toNat ((rget s .SMC_PTP_OFFSET 0).signExtend 64) →
      (fget s F.SMC_PTP_STAT_SYNC = 1 → exec .stepComplete s = .next (stepDone s1 13 0x00 0 off))
      ∧ (fget s F.SMC_PTP_STAT_SYNC ≠ 1 → due ≤ s.now → exec .stepComplete s = .next (stepDone s1 13 stSHORT 0xFD off))
      ∧ (fget s F.SMC_PTP_STAT_SYNC ≠ 1 → s.now < due → exec .stepComplete s = .next s))
  ∧ (∀ s f n, s.prb.run = some (.config f false n) → exec .stepComplete s = .next
      (if f then stepDone (restart { s with prb := { s.prb with journal := some {}, restoreDue := false } } {} s.prb.restoreDue) 14 0x00 0 0
        else stepDone s 14 stMEDIA_ERROR 0xFE 0))
  ∧ ∀ s, s.prb.run = some .ready → (countsHold s = false → exec .stepComplete s = .next (stepDone s 15 0x0D 0xF6 0))
      ∧ (countsHold s = true → fget (countPorts s) F.FAB_MINPORTS_BELOW = 1 → exec .stepComplete s = .next (stepDone s 15 0x0D 0xFB 0))
      ∧ (countsHold s = true → fget (countPorts s) F.FAB_MINPORTS_BELOW ≠ 1 → ∀ s1 s2, s1 = fset s F.PRB_STEP_READY 1 →
        s2 = (if fget s F.SMC_LIFECYCLE_PRODUCTION = 1 then fset s1 F.SMC_LIFECYCLE_LOCKED 1 else s1) → exec .stepComplete s = .next
          (stepDone { s2 with tir := { s.tir with nextCommit := s.now }, prb := { s.prb with lastActive := s.now } } 15 0x00 0 0))

/-- R596, R611 to R613, R646, R647: a write of `PRB_RESET` without CONFIRM 0x5A resets nothing. A cold reset zeroes device time, returns every
register to reset and names its cause; flash, the fuses and the fault log stay, and what waits in the queue. A warm reset waits for the
end of a brownout; else it ends every job, plans and windows go, and device time runs on. Isolation and the function-level reset name
their causes; the latter returns the queues, the held records and MSI-X to reset, ends every series, and leaves jobs and memory. -/
def Obligations.ResetsByCause : Prop :=
  (∀ (row : W32 → Instr), row ∈ [.warmReset, .fabricIsolationReset, .coldResetCommand] → ∀ v s,
      Prompt s → BitVec.extractLsb' 8 8 v ≠ 0x5A#8 → exec (row v) s = .next s)
  ∧ (∀ (row : Instr × Nat), row ∈ [(.perst, 2), (.coldResetCommand 0x5A03, 4), (.powerOn, 0)] → ∀ s, Prompt s → ∃ t, exec row.1 s = .next t
      ∧ t.now = 0 ∧ fget t F.PRB_RESET_CAUSE = row.2 ∧ t.exec.jobs = [] ∧ t.exec.pend = [] ∧ t.exec.plans = [] ∧ t.mem.stk = []
      ∧ t.fab.windows = [] ∧ t.pending = s.pending ∧ t.prb.prodFuse = s.prb.prodFuse ∧ t.smc.root = s.smc.root
      ∧ (∀ r b, r ≠ .PRB_RESET → r ≠ .SMC_LIFECYCLE → rget t r b = regReset r)
      ∧ (row.2 ≠ 0 → t.flt.log = s.flt.log) ∧ (row.2 = 0 → t.flt.log = []))
  ∧ (∀ s, fget s F.PRB_STEP_READY = 1 → ∃ t u, exec .ref100Loss s = .next t ∧ exec .perst s = .next u
      ∧ (∀ r b, r ≠ .PRB_RESET → rget t r b = rget u r b) ∧ { t with regs := u.regs } = u ∧ fget t F.PRB_RESET_CAUSE = 8)
  ∧ (∀ s v, Prompt s → BitVec.extractLsb' 8 8 v = 0x5A#8 → BitVec.extractLsb' 0 4 v = 1#4 → fget s F.PRB_RESET_BUSY = 0 →
      (s.prb.brown = none → ∃ t, exec (.warmReset v) s = .next t ∧ t.now = s.now ∧ t.exec.jobs = [] ∧ t.exec.plans = []
        ∧ t.pending = s.pending ∧ t.fab.windows = [] ∧ t.smc.doms = [])
      ∧ (s.prb.brown ≠ none → exec (.warmReset v) s =
        .next (fset { s with prb := { s.prb with warmWait := true } } F.PRB_RESET_BUSY 1)))
  ∧ (∀ s v, Prompt s → BitVec.extractLsb' 8 8 v = 0x5A#8 → BitVec.extractLsb' 0 4 v = 2#4 → fget s F.PRB_RESET_BUSY = 0 →
      ∃ t, exec (.fabricIsolationReset v) s = .next t ∧ fget t F.PRB_RESET_CAUSE = 6)
  ∧ (∀ s, ∃ t, exec .flr s = .next t ∧ fget t F.PRB_RESET_CAUSE = 7 ∧ t.exec.series = [] ∧ t.hiu.evq = []
      ∧ t.hiu.hold = [] ∧ t.hiu.msix = [] ∧ t.exec.jobs = s.exec.jobs ∧ t.mem = s.mem ∧ t.tir = s.tir ∧ t.fab = s.fab ∧ t.now = s.now
      ∧ (∀ q, rget t .HIU_SQ_CTL q = regReset .HIU_SQ_CTL ∧ rget t .HIU_EQ_CTL q = regReset .HIU_EQ_CTL))

/-- R491, R492, R498, R522, R540, R672: a submission queue is enabled with a valid page of an ACTIVE domain, a size, and an enabled event queue
of that domain; else `REFUSED` is set; disabling it ends its series. An event queue starts empty, and drops what was held for it when
disabled. A good tail is taken; a bad doorbell is discarded and counted. -/
def Sys2Proof.Claims.QueuesAndDoorbells : Prop :=
  (∀ s v q s1 d e, Prompt s → q = fget s F.HIU_SQ_SEL_V → fget s F.HIU_SQ_CTL_ENABLE q ≠ 1 → s1 = regWritePlain s .HIU_SQ_CTL q (v &&& 0xFFFEFFFF) →
      d = fget s F.HIU_PAGE_DOM_DOM (q / 16) → e = fget s1 F.HIU_SQ_CTL_EVQ q →
      exec (.sqDisable v) s = .next s1
      ∧ (fget s F.HIU_PAGE_DOM_VALID (q / 16) = 1 → fget s1 F.HIU_SQ_CTL_SIZE q ≠ 0 → fget s F.HIU_EQ_CTL_ENABLE e = 1 →
        fget s F.HIU_EQ_CTL_DOMAIN e = d → e ≠ fget s F.HIU_EVQ_SYS_V → (tget {} s.smc.doms d).state = 1 → exec (.sqEnable v) s = .next
          (rset (fset (fset (fset s1 F.HIU_SQ_CTL_ENABLE 1 q) F.HIU_SQ_CTL_FETCH_ERR 0 q) F.HIU_SQ_CTL_REFUSED 0 q) .HIU_SQ_STAT q 0))
      ∧ ((fget s F.HIU_PAGE_DOM_VALID (q / 16) = 0 ∨ fget s1 F.HIU_SQ_CTL_SIZE q = 0 ∨ fget s F.HIU_EQ_CTL_ENABLE e = 0 ∨
          fget s F.HIU_EQ_CTL_DOMAIN e ≠ d ∨ e = fget s F.HIU_EVQ_SYS_V ∨ (tget {} s.smc.doms d).state ≠ 1) →
        exec (.sqEnable v) s = .next (fset s1 F.HIU_SQ_CTL_REFUSED 1 q)))
  ∧ (∀ s v q s1, Prompt s → q = fget s F.HIU_SQ_SEL_V → fget s F.HIU_SQ_CTL_ENABLE q = 1 → s1 = fset s F.HIU_SQ_CTL_ENABLE 0 q →
      exec (.sqEnable v) s = .next s ∧ exec (.sqDisable v) s =
        .next { s1 with exec := { s.exec with series := s.exec.series.filter fun p => p.2.sq != q } })
  ∧ (∀ s v e s1, Prompt s → e = fget s F.HIU_EQ_SEL_V → fget s F.HIU_EQ_CTL_ENABLE e ≠ 1 → s1 = regWritePlain s .HIU_EQ_CTL e (v &&& 0xFFFEFFFF) →
      exec (.eqDisable v) s = .next s1
      ∧ (fget s1 F.HIU_EQ_CTL_SIZE e ≠ 0 → (e = fget s F.HIU_EVQ_SYS_V ∨ (tget {} s.smc.doms (fget s1 F.HIU_EQ_CTL_DOMAIN e)).state = 1) →
        exec (.eqEnable v) s = .next (setEvq (rset (fset s1 F.HIU_EQ_CTL_ENABLE 1 e) .HIU_EQ_STAT e 0) e {})))
  ∧ (∀ s v e, Prompt s → tsorted s.regs = true → e = fget s F.HIU_EQ_SEL_V → fget s F.HIU_EQ_CTL_ENABLE e = 1 → ∃ t, exec (.eqDisable v) s = .next t
      ∧ t.hiu.hold = s.hiu.hold.filter (fun p => p.1 != e) ∧ fget t F.HIU_EQ_CTL_SIZE e = fget s F.HIU_EQ_CTL_SIZE e
      ∧ fget t F.HIU_EQ_CTL_DOMAIN e = fget s F.HIU_EQ_CTL_DOMAIN e ∧ fget t F.HIU_EQ_CTL_ENABLE e = 0)
  ∧ (∀ s q v, Prompt s → fget s F.PRB_PWR_STAT_STATE = 0 →
      (doorbellOpen s (BitVec.toNat q) = true → BitVec.toNat v < 2 ^ fget s F.HIU_SQ_CTL_SIZE q.toNat →
        exec (.sqTailDoorbell q v) s = .next (fset s F.HIU_SQ_STAT_TAIL v.toNat q.toNat))
      ∧ (doorbellOpen s q.toNat = false ∨ 2 ^ fget s F.HIU_SQ_CTL_SIZE q.toNat ≤ v.toNat →
        exec (.sqTailDoorbell q v) s = .next (fbump s F.HIU_STAT_BADDB)))
  ∧ (∀ s q v e, Prompt s → fget s F.PRB_PWR_STAT_STATE = 0 → e = fget s F.HIU_SQ_CTL_EVQ (BitVec.toNat q) →
      (doorbellOpen s q.toNat = true → e ≠ fget s F.HIU_EVQ_SYS_V → fget s F.HIU_EQ_CTL_ENABLE e = 1 →
        BitVec.toNat v < 2 ^ fget s F.HIU_EQ_CTL_SIZE e →
        exec (.eqHeadDoorbell q v) s = .next (eqDrain e s.hiu.hold.length (fset s F.HIU_EQ_STAT_HEAD v.toNat e)))
      ∧ (doorbellOpen s q.toNat = false → exec (.eqHeadDoorbell q v) s = .next (fbump s F.HIU_STAT_BADDB))
      ∧ (doorbellOpen s q.toNat = true → e = fget s F.HIU_EVQ_SYS_V → exec (.eqHeadDoorbell q v) s = .next s))
  ∧ ∀ s v h e, Prompt s → h = BitVec.toNat v % 65536 → e = fget s F.HIU_EVQ_SYS_V →
      (fget s F.HIU_EQ_CTL_ENABLE e = 1 → h < 2 ^ fget s F.HIU_EQ_CTL_SIZE e → ∀ s1, s1 = regWritePlain s .HIU_EVQ_SYS_HEAD 0 v →
        exec (.sysEqHeadWrite v) s = .next (eqDrain e s.hiu.hold.length (fset s1 F.HIU_EQ_STAT_HEAD h e)))
      ∧ (fget s F.HIU_EQ_CTL_ENABLE e = 0 ∨ 2 ^ fget s F.HIU_EQ_CTL_SIZE e ≤ h →
        exec (.sysEqHeadWrite v) s = .next (fbump s F.HIU_STAT_BADDB))

namespace Sys2Proof.Claims

/-- HIU fetches an entry `e` of queue `q` of domain `d`: the node is ready, the queue is next in turn, `s2` is the node once the entry has been
read and its credit drawn (R491, R518, R594). -/
def Fetches (s : State) (q d : Nat) (e : List Byte) (s2 : State) : Prop :=
  fget s F.PRB_STEP_READY = 1 ∧ nextQueue s = some q ∧ d = fget s F.HIU_PAGE_DOM_DOM (q / 16)
    ∧ ∃ s1, sqFetch { s with hiu := { s.hiu with rr := q } } q d = (e, s1) ∧ s2 = intakeDraw s1 d

end Sys2Proof.Claims

/-- R491, R494, R495, R522, R526, R564: what a fetched entry comes to: `FENCED` while the node is self-fenced; `BAD_OPERATOR` with the reason of
the first check that fails; `POLICED`; or a job of its own tag, that no work held, pending behind the others. A bus error disables the queue.
A periodic release admits the next instance of its series. -/
def Sys2Proof.Claims.AdmissionOfEntries : Prop :=
  (∀ s q d e s2, Fetches s q d e s2 →
      (fget s F.SMC_FENCE_STAT_FENCED = 1 → exec (.submissionFetch false) s = .next (intakeGive (refuseEntry s2 q stFENCED 0 e) d))
      ∧ (fget s F.SMC_FENCE_STAT_FENCED = 0 → ∀ r, entryBad s2 q d false e = some r →
        exec (.submissionFetch false) s = .next (intakeGive (refuseEntry s2 q 0x0B r e) d))
      ∧ (fget s F.SMC_FENCE_STAT_FENCED = 0 → entryBad s2 q d false e = none → ∀ s3, police s2 d = (false, s3) →
        exec (.submissionFetch false) s = .next (intakeGive (policedEntry s3 q d e) d))
      ∧ (fget s F.SMC_FENCE_STAT_FENCED = 0 → entryBad s2 q d false e = none → ∀ s3, police s2 d = (true, s3) →
        entOp e < 0xFF00 → entPeriod e = 0 → (heldTags s).length < 2 ^ 32 - 2 → ∃ t tag, exec (.submissionFetch false) s = .next t
        ∧ t.exec.pend = s.exec.pend ++ [{ tag := tag, dom := d, be := entBe e, sq := q, plan := entPlan e, op := entOp e
                                          cookie := entCookie e, deadline := entDeadline e, entry := e, series := none }]
        ∧ tag ∉ heldTags s ∧ (s.exec.nextTag ≠ 0 → tag ≠ 0) ∧ t.exec.jobs = s.exec.jobs))
  ∧ (∀ s q, fget s F.PRB_STEP_READY = 1 → nextQueue s = some q → ∀ s1, s1 = fset s F.HIU_SQ_CTL_ENABLE 0 q →
      exec (.submissionFetch true) s = .next (fset { s1 with
        hiu := { s.hiu with rr := q }
        exec := { s.exec with series := s.exec.series.filter fun p => p.2.sq != q } } F.HIU_SQ_CTL_FETCH_ERR 1 q))
  ∧ (∀ s b, fget s F.PRB_STEP_READY = 0 ∨ nextQueue s = none → exec (.submissionFetch b) s = .next s)
  ∧ ∀ s id x, tfind s.exec.series id = some x →
      (x.t0 + x.next * x.period * 1000 ≤ s.now → intakeFree s x.dom = true → exec (.periodicRelease id) s = .next
        (admitEntry (intakeDraw { s with exec := { s.exec with series := tins s.exec.series id { x with next := x.next + 1 } } } x.dom)
          x.sq x.dom false (some id) (x.deadline + x.next * x.period * 1000) x.entry))
      ∧ (s.now < x.t0 + x.next * x.period * 1000 → exec (.periodicRelease id) s = .next s)

/-- R482 to R484, R488, R489, R503, R504, R555, R556: the host link; BAR2 reads and writes through a valid aperture slice; MSI-X; evidence, and SPDM
messages, of which only the reply, the responder's state and IDE_ON may change. -/
def Obligations.HostLinkAndAperture : Prop :=
  (∀ s speed width flit, speed ∈ linkSpeeds → width ∈ linkWidths → ∀ s1 s2 same,
      s1 = fset (fset (fset (fset s F.HIU_LINK_STAT_SPEED speed) F.HIU_LINK_STAT_WIDTH width) F.HIU_LINK_STAT_FLIT
        (if flit = true ∨ 64 ≤ speed then 1 else 0)) F.HIU_LINK_STAT_USABLE (if 256 ≤ width * speed then 1 else 0) →
      s2 = (if fget s F.HIU_LINK_STAT_SPEED = 0 then s1 else fbump s1 F.HIU_LINK_STAT_RETRAINS) →
      (same ↔ fget s F.HIU_LINK_STAT_SPEED = speed ∧ fget s F.HIU_LINK_STAT_WIDTH = width) →
      (same → exec (.hostLinkChange speed width flit) s = .next s2)
      ∧ (¬ same → exec (.hostLinkChange speed width flit) s =
        .next (devEvent s2 0x05 0 0 (bytesOf 1 8 ++ bytesOf 1 3 ++ bytesOf 1 width ++ bytesOf 1 0))))
  ∧ (∀ s off, fget s F.PRB_PWR_STAT_STATE = 0 → Prompt s → off < 2 ^ 36 →
      (aperture s off = none →
        (∀ n, 0 < n → off % 4096 + n ≤ 4096 → exec (.bar2Read off n) s = .next { s with out := .readReply none :: s.out })
        ∧ (∀ bs : List Byte, bs ≠ [] → off % 4096 + bs.length ≤ 4096 → exec (.bar2Write off bs) s = .next (fbump s F.HIU_STAT_BAR2_WR)))
      ∧ (∀ dom a, aperture s off = some (dom, a) → (∀ b, bankOfAccess s dom a = some b → hostDefers s b = false) →
        (∀ n bs s1, 0 < n → off % 4096 + n ≤ 4096 → uLoad s dom a n = (.ok bs, s1) →
          exec (.bar2Read off n) s = .next { s1 with out := .readReply (some bs) :: s1.out })
        ∧ (∀ bs : List Byte, bs ≠ [] → off % 4096 + bs.length ≤ 4096 →
          (∀ i < bs.length, locate s dom (a + i) ≠ .outside ∧ parkedAt s dom (a + i) = false ∧ readOnly s dom (a + i) = false
            ∧ tirOnly s dom (a + i) = false) → exec (.bar2Write off bs) s = .next (uPoke s dom a bs))))
  ∧ (∀ s eq e q, e = BitVec.toNat eq → q = evqOf s e → fget s F.HIU_EQ_CTL_MSIX e = 1 → fget s F.HIU_EQ_CTL_IRQ_US e ≠ 0 →
      q.unsignalled ≠ 0 → q.first + fget s F.HIU_EQ_CTL_IRQ_US e * 1000 ≤ s.now →
      ((tget {} s.hiu.msix e).mask = false → exec (.msixTimer eq) s = .next { setEvq s e { q with unsignalled := 0 } with
        out := .msix e (tget {} s.hiu.msix e).addr (tget {} s.hiu.msix e).data (eqPasid s e) :: s.out })
      ∧ ((tget {} s.hiu.msix e).mask = true → exec (.msixTimer eq) s = .next { s with hiu := { s.hiu with
        evq := tput {} s.hiu.evq e { q with unsignalled := 0 }
        msix := tput {} s.hiu.msix e { (tget {} s.hiu.msix e) with pba := true } } }))
  ∧ (∀ s vec addr data, Prompt s → (tget {} s.hiu.msix (BitVec.toNat vec)).pba = false → exec (.msixUnmask vec addr data) s =
      .next { s with hiu := { s.hiu with msix := tput {} s.hiu.msix vec.toNat { addr := addr, data := data, mask := false, pba := false } } })
  ∧ (∀ s vec addr data, Prompt s → (tget {} s.hiu.msix (BitVec.toNat vec)).pba = true →
      ∃ t, exec (.msixUnmask vec addr data) s = .next t ∧ t.out = .msix vec.toNat addr data (eqPasid s vec.toNat) :: s.out)
  ∧ (∀ s nonce, ∃ proof, exec (.attestationRequest nonce) s =
      .next { s with out := .reply (bytesOf 32 (BitVec.toNat nonce) ++ bytesOf 8 s.now ++ (evidence s nonce).drop 40 ++ proof) :: s.out })
  ∧ ∀ s msg, ∃ t r, exec (.spdmMessage msg) s = .next t ∧ t.out = .reply r :: s.out
      ∧ { t with out := s.out, regs := s.regs, hiu := { t.hiu with spdm := s.hiu.spdm } } = s
      ∧ (∀ g b, g ≠ .HIU_LINK_STAT → rget t g b = rget s g b) ∧ (s.hiu.spdm = 0 → t.regs = s.regs)

/-- R532 to R534: a gate list that is whole, well formed and at least 10 µs ahead is staged, else `ERR` is set; until its horizon CANCEL discards it;
at its horizon it becomes active; at the end of a window the next entry opens. At each, the start tags of the queues that open rise to V (R535). -/
def Sys2Proof.Claims.GateLists : Prop :=
  (∀ s v p s1 l, Awake s → p = fget s F.TRF_GL_SEL_PORT → p ≤ 8 → BitVec.getLsbD v 10 = false →
      s1 = regWritePlain s .TRF_GL_CTL p (v ||| 0x200) →
      l = (List.range (fget s1 F.TRF_GL_CTL_LEN p)).map (fun i => tget 0 (portOf s p).words i) →
      (fget s1 F.TRF_GL_CTL_LEN p ≠ 0 → fget s1 F.TRF_GL_CTL_LEN p ≤ 256 →
        (∀ w ∈ l, 100 ≤ (BitVec.extractLsb' 0 32 w).toNat ∧ BitVec.extractLsb' 47 17 w = 0#17) → s.now + 10000 ≤ gateHorizon s →
        exec (.gateListArm v) s = .next (fset (fset (setPort s1 p { portOf s p with staged := some (l, gateHorizon s) })
          F.TRF_GL_CTL_STAGED 1 p) F.TRF_GL_CTL_ERR 0 p))
      ∧ ((fget s1 F.TRF_GL_CTL_LEN p = 0 ∨ 256 < fget s1 F.TRF_GL_CTL_LEN p ∨
          (∃ w ∈ l, (BitVec.extractLsb' 0 32 w).toNat < 100 ∨ BitVec.extractLsb' 47 17 w ≠ 0#17) ∨ gateHorizon s < s.now + 10000) →
        exec (.gateListArm v) s = .next (fset s1 F.TRF_GL_CTL_ERR 1 p)))
  ∧ (∀ s v p s1, Awake s → p = fget s F.TRF_GL_SEL_PORT → p ≤ 8 → s1 = regWritePlain s .TRF_GL_CTL p ((v ||| 0x400) &&& 0xFFFFFDFF) →
      (∀ l h, (portOf s p).staged = some (l, h) → s.now < h →
        exec (.gateListCancel v) s = .next (fset (setPort s1 p { portOf s p with staged := none }) F.TRF_GL_CTL_STAGED 0 p))
      ∧ ((portOf s p).staged = none → exec (.gateListCancel v) s = .next s1))
  ∧ (∀ s p l h, (portOf s p).staged = some (l, h) →
      (h ≤ s.now → exec (.gateListHorizon p) s = .next (fset (fset
        (setPort s p (openTags { portOf s p with active := some { entries := l, pos := 0, start := h }, staged := none }))
        F.TRF_GL_CTL_STAGED 0 p) F.TRF_GL_CTL_ACTIVE 1 p))
      ∧ (s.now < h → exec (.gateListHorizon p) s = .next s))
  ∧ (∀ s p g e, (portOf s p).active = some g → e = g.start + gateDur (g.entries.getD g.pos 0) →
      (e ≤ s.now → exec (.gateWindowEdge p) s = .next
        (setPort s p (openTags { portOf s p with active := some { g with pos := (g.pos + 1) % g.entries.length, start := e } })))
      ∧ (s.now < e → exec (.gateWindowEdge p) s = .next s))
  ∧ ∀ (x : Port) q, q < 15 → tsorted x.tags = true → tget 0 (openTags x).tags q =
      (if (match x.active with | none => true | some g => (g.entries.getD g.pos 0).getLsbD (32 + q)) then max (tget 0 x.tags q) x.vt
        else tget 0 x.tags q)

/-- R530, R533, R535, R536: a free port in service sends the head of its system queue, else that of the open queue with the smallest start tag
(the lowest number on a tie) whose packet ends before the window does; the packet leaves its queue, the line is busy for its line time, V
becomes the start tag, and the queue's tag rises by the packet's bytes over its weight. -/
def Sys2Proof.Claims.EgressServesByVirtualTime : Prop :=
  (∀ s p q e rest x, p < 8 → portUp s p = true → x = portOf s p → x.busyUntil ≤ s.now → tget [] x.queues q = e :: rest →
      (q = 15 ∨ (q < 15 ∧ tget [] x.queues 15 = [] ∧ bitAt (openMask x) q = true ∧ (∀ t, windowEnd x = some t → s.now + lineTime s p e.bytes ≤ t)
        ∧ tsorted x.queues = true
        ∧ (∀ k l, (k, l) ∈ x.queues → k < 15 → bitAt (openMask x) k = true →
          tget 0 x.tags q < tget 0 x.tags k ∨ (tget 0 x.tags q = tget 0 x.tags k ∧ q ≤ k)))) →
      exec (.egressServe p) s = .next (sendEgress (setPort s p { x with
        queues := tput [] x.queues q rest
        vt := if q = 15 then x.vt else tget 0 x.tags q
        busyUntil := s.now + lineTime s p e.bytes
        tags := if q = 15 then x.tags else tput 0 x.tags q (tget 0 x.tags q + e.bytes * (tagUnit / weightOf s p q)) }) p e))
  ∧ (∀ s p, p < 8 → portUp s p = false ∨ s.now < (portOf s p).busyUntil → exec (.egressServe p) s = .next s)
  ∧ ∀ w : Nat, 1 ≤ w → w ≤ 255 → w ∣ tagUnit

/-- R537, R538, R667: enabling sampling empties the ring and sets the first sample time; at each sample time one record of every port in PORTS goes to
the ring, or is dropped and counted while it is full; in P3 and P4 none is taken. Disabling leaves PORTS and SIZE. -/
def Sys2Proof.Claims.QueueSampling : Prop :=
  (∀ s v, Awake s → fget s F.TRF_SMP_CTL_ENABLE ≠ 1 → ∀ s1 s2, s1 = regWritePlain s .TRF_SMP_CTL 0 (v ||| 0x80000) →
      s2 = fset (rset s1 .TRF_SMP_HEAD 0 0) F.TRF_SMP_STAT_TAIL 0 →
      exec (.samplingEnable v) s = .next { s2 with trf := { s.trf with
        smpPhase := true, smpStart := s.now, smpNext := s.now + max 1 (fget s1 F.TRF_SMP_CTL_INTERVAL) * 1000 } })
  ∧ (∀ s v, Awake s → tsorted s.regs = true → fget s F.TRF_SMP_CTL_ENABLE = 1 → ∃ t, exec (.samplingDisable v) s = .next t
      ∧ fget t F.TRF_SMP_CTL_ENABLE = 0 ∧ fget t F.TRF_SMP_CTL_PORTS = fget s F.TRF_SMP_CTL_PORTS
      ∧ fget t F.TRF_SMP_CTL_SIZE = fget s F.TRF_SMP_CTL_SIZE ∧ { t with regs := s.regs } = s)
  ∧ (∀ s, fget s F.TRF_SMP_CTL_ENABLE = 1 → s.trf.smpNext ≤ s.now → fget s F.PRB_PWR_STAT_STATE < 3 →
      ∀ s1, s1 = ((List.range 9).filter fun p => bitAt (fget s F.TRF_SMP_CTL_PORTS) p).foldl putSample s →
      exec .sampleTick s = .next { s1 with trf := { s1.trf with
        smpNext := s.trf.smpNext + max 1 (fget s F.TRF_SMP_CTL_INTERVAL) * 1000 } })
  ∧ (∀ s, fget s F.TRF_SMP_CTL_ENABLE = 0 ∨ s.now < s.trf.smpNext ∨ 3 ≤ fget s F.PRB_PWR_STAT_STATE → exec .sampleTick s = .next s)
  ∧ (∀ s p, (sampleRec s p).length = 128)
  ∧ ∀ s p t, tsorted s.regs = true → t = fget s F.TRF_SMP_STAT_TAIL → fget s F.TRF_SMP_CTL_SIZE ≤ 16 →
      ((t + 1) % 2 ^ fget s F.TRF_SMP_CTL_SIZE = fget s F.TRF_SMP_HEAD_V → putSample s p = fbump s F.TRF_SMP_STAT_LOST)
      ∧ ((t + 1) % 2 ^ fget s F.TRF_SMP_CTL_SIZE ≠ fget s F.TRF_SMP_HEAD_V →
        fget (putSample s p) F.TRF_SMP_STAT_TAIL = (t + 1) % 2 ^ fget s F.TRF_SMP_CTL_SIZE ∧ (putSample s p).mem.host =
          cellsWrite s.mem.host (rpair s .TRF_SMP_BASE_LO .TRF_SMP_BASE_HI + 128 * t) (sampleRec s p))

namespace Sys2Proof.Claims

/-- A domain command has completed with a status and reason (R541). -/
def domEnds (s : State) (st rs : Nat) : State :=
  fset (fset (fset s F.SMC_DOM_STAT_STATUS st) F.SMC_DOM_STAT_REASON rs) F.SMC_DOM_STAT_BUSY 0

end Sys2Proof.Claims

/-- R541 to R543, R551, R558: creating a FREE domain makes it ACTIVE with a new key generation; releasing an ACTIVE one that holds nothing starts its
release, and its end, once its tile SRAM is scrubbed, leaves it FREE; each other case completes `BAD_OPERATOR` with its reason. -/
def Sys2Proof.Claims.DomainsComeAndGo : Prop :=
  (∀ s v s1 d, Prompt s → fget s F.SMC_DOM_STAT_BUSY = 0 → BitVec.extractLsb' 12 4 v = 1#4 → s1 = regWritePlain s .SMC_DOM_CMD 0 v →
      d = fget s1 F.SMC_DOM_CMD_DOMAIN →
      ((tget {} s.smc.doms d).state ≠ 0 → exec (.domainCreate v) s = .next (domEnds s1 0x0B 0xE1))
      ∧ ((tget {} s.smc.doms d).state = 0 → fget s F.SMC_TENANCY_MODE = 0 → exec (.domainCreate v) s = .next
        (domEnds (setDom s1 d { state := 1, part := 0, gen := ((tget {} s.smc.doms d).gen + 1) % 2 ^ 32 }) 0x00 0))
      ∧ ((tget {} s.smc.doms d).state = 0 → fget s F.SMC_TENANCY_MODE = 1 → tfind s.fab.slices (fget s1 F.SMC_DOM_CMD_PART) = none →
        exec (.domainCreate v) s = .next (domEnds s1 0x0B 0xE2))
      ∧ (∀ l, (tget {} s.smc.doms d).state = 0 → fget s F.SMC_TENANCY_MODE = 1 → tfind s.fab.slices (fget s1 F.SMC_DOM_CMD_PART) = some l →
        exec (.domainCreate v) s = .next (domEnds (setDom s1 d
          { state := 1, part := fget s1 F.SMC_DOM_CMD_PART, gen := ((tget {} s.smc.doms d).gen + 1) % 2 ^ 32 }) 0x00 0)))
  ∧ (∀ s v s1 d, Prompt s → fget s F.SMC_DOM_STAT_BUSY = 0 → BitVec.extractLsb' 12 4 v = 2#4 → s1 = regWritePlain s .SMC_DOM_CMD 0 v →
      d = fget s1 F.SMC_DOM_CMD_DOMAIN →
      ((tget {} s.smc.doms d).state ≠ 1 → exec (.domainRelease v) s = .next (domEnds s1 0x0B 0xE4))
      ∧ ((tget {} s.smc.doms d).state = 1 → domHolds s1 d = true → exec (.domainRelease v) s = .next (domEnds s1 0x0B 0xE0))
      ∧ ((tget {} s.smc.doms d).state = 1 → domHolds s1 d = false → domTiles s d = [] → ∀ s2 o, o = tget {} s.smc.doms d →
        s2 = flashDrop (setDom s1 d { o with state := 2, gen := (o.gen + 1) % 2 ^ 32 }) d 0 (2 ^ 56) →
        exec (.domainRelease v) s = .next (fset { s2 with smc := { s2.smc with releasing := some d } } F.SMC_DOM_STAT_BUSY 1)))
  ∧ (∀ s, s.smc.releasing = none → exec .domainReleaseDone s = .next s)
  ∧ ∀ s d, s.smc.releasing = some d → fget s F.PRB_PWR_STAT_STATE = 0 → ∀ s1, s1 = (domTiles s d).foldl
      (fun s i => let s1 := scrubTile s i; { s1 with exec := { s1.exec with tileDom := tput 0 s1.exec.tileDom i 0 } }) s →
      ∃ t, exec .domainReleaseDone s = .next t ∧ t.smc.releasing = none ∧ (tsorted s1.regs = true → fget t F.SMC_DOM_STAT_STATUS = 0) ∧ t.mem = s1.mem ∧ t.exec = s1.exec
        ∧ t.smc.doms = tput {} s1.smc.doms d { (tget {} s1.smc.doms d) with state := 0, part := 0 }

/-- R559 to R564: a signed message that passes the checks of R560 has its effect, its ISSUE_TIME is kept, and it is answered; one that fails is
discarded, counted, and answered; STATUS is answered. A lease that has run out fences the node, once. -/
def Sys2Proof.Claims.ManagementAndFence : Prop :=
  (∀ (row : (Mgmt → Instr) × Nat), row ∈ [(.heartbeat, 1), (.mgmtFence, 2), (.unfence, 3), (.expel, 4), (.readmit, 5)] → ∀ s m, mgmtOk s row.2 m = false →
      exec (row.1 m) s = .next (mgmtReply (fbump s F.SMC_FENCE_STAT_REJECTED)))
  ∧ (∀ (s : State) (m : Mgmt) (s1 : Nat → State), (∀ k, s1 k = { s with smc := { s.smc with issued := tins s.smc.issued k (BitVec.toNat m.issueTime) } }) →
      (mgmtOk s 1 m = true → fget s F.SMC_FENCE_STAT_FENCED = 0 → fget s F.PRB_STEP_READY = 1 → exec (.heartbeat m) s = .next (mgmtReply
        (fset { s1 1 with smc := { (s1 1).smc with lease := m.issueTime.toNat, leaseDone := false } } F.SMC_FENCE_STAT_ARMED 1)))
      ∧ (mgmtOk s 2 m = true → fget s F.SMC_FENCE_STAT_FENCED = 0 → exec (.mgmtFence m) s = .next (mgmtReply
        (devEvent (fset (fset (s1 2) F.SMC_FENCE_STAT_FENCED 1) F.SMC_FENCE_STAT_CAUSE 2) 0x0C 0 0 (bytesOf 8 2 ++ bytesOf 8 (tget 0 s.smc.issued 1)))))
      ∧ (mgmtOk s 3 m = true → (∀ n, myNode s = some n → n ∉ s.smc.expelled) → exec (.unfence m) s = .next (mgmtReply
        (fset (fset (s1 3) F.SMC_FENCE_STAT_FENCED 0) F.SMC_FENCE_STAT_CAUSE 0)))
      ∧ (mgmtOk s 4 m = true → exec (.expel m) s = .next (mgmtReply (expel m.node.toNat (s1 4))))
      ∧ (mgmtOk s 5 m = true → exec (.readmit m) s = .next (mgmtReply
        { s1 5 with smc := { (s1 5).smc with expelled := s.smc.expelled.filter fun k => k != m.node.toNat } })))
  ∧ (∀ s n t, t = expel n s → n ∈ t.smc.expelled ∧ (∀ k ∈ s.smc.expelled, k ∈ t.smc.expelled) ∧ (myNode s = some n → fenced s = false →
      tsorted s.regs = true → fget t F.SMC_FENCE_STAT_CAUSE = 3))
  ∧ (∀ s m, exec (.statusRequest m) s = .next (mgmtReply s) ∧ ∃ b, mgmtReply s = { s with out := .reply b :: s.out } ∧ b.length = 44)
  ∧ ∀ s lease, lease = max 100 (min 5000 (fget s F.SMC_MGMT_CTL_LEASE_MS)) * 1000000 →
      (fget s F.SMC_FENCE_STAT_ARMED ≠ 0 → s.smc.leaseDone = false → s.smc.lease + lease ≤ s.now → fget s F.SMC_FENCE_STAT_FENCED = 0 →
        ∀ s1, s1 = { s with smc := { s.smc with leaseDone := true } } → exec .leaseExpiry s = .next (devEvent
          (fset (fset s1 F.SMC_FENCE_STAT_FENCED 1) F.SMC_FENCE_STAT_CAUSE 1) 0x0C 0 0 (bytesOf 8 1 ++ bytesOf 8 (tget 0 s.smc.issued 1))))
      ∧ (fget s F.SMC_FENCE_STAT_ARMED = 0 ∨ s.smc.leaseDone = true ∨ s.now < s.smc.lease + lease → exec .leaseExpiry s = .next s)

/-- R567, R568: an epoch with a horizon at least 10 ms ahead is staged while none is, else `ERR`; CANCEL discards it before its horizon; at its horizon
it is published and its grace begins; a digest that differs at the end of the grace sets `MISMATCH`, with a record. -/
def Obligations.ConfigurationAgreement : Prop :=
  (∀ s v s1 h, Prompt s → h = rpair s .SMC_CFG_HZN_LO .SMC_CFG_HZN_HI → BitVec.getLsbD v 1 = false → s1 = regWritePlain s .SMC_CFG_CTL 0 (v ||| 1) →
      (s.smc.cfg = none → s.now + 10000000 ≤ h → ∀ s2, s2 = { s1 with smc := { s.smc with
          cfg := some (rpair s .SMC_CFG_STG_LO .SMC_CFG_STG_HI, digOf s cfgExpRegs 0, h) } } →
        exec (.cfgArm v) s = .next (fset (fset s2 F.SMC_CFG_CTL_STAGED 1) F.SMC_CFG_CTL_ERR 0))
      ∧ (s.smc.cfg ≠ none ∨ h < s.now + 10000000 → exec (.cfgArm v) s = .next (fset s1 F.SMC_CFG_CTL_ERR 1)))
  ∧ (∀ s v s1, Prompt s → s1 = regWritePlain s .SMC_CFG_CTL 0 ((v ||| 2) &&& 0xFFFFFFFE) →
      (∀ e d h, s.smc.cfg = some (e, d, h) → s.now < h →
        exec (.cfgCancel v) s = .next (fset { s1 with smc := { s.smc with cfg := none } } F.SMC_CFG_CTL_STAGED 0))
      ∧ (s.smc.cfg = none → exec (.cfgCancel v) s = .next s1))
  ∧ (∀ s e d h, s.smc.cfg = some (e, d, h) →
      (h ≤ s.now → ∀ s1, s1 = { s with smc := { s.smc with cfg := none, cfgDue := some (e, d, h + max 1 (fget s F.SMC_CFG_CTL_GRACE_MS) * 1000000), expect := d } } →
        exec .cfgHorizon s = .next (cfgSettle (fset
          (rset (rset s1 .SMC_CFG_EPOCH_LO 0 (BitVec.ofNat 32 e)) .SMC_CFG_EPOCH_HI 0 (BitVec.ofNat 32 (e / 2 ^ 32))) F.SMC_CFG_CTL_STAGED 0)))
      ∧ (s.now < h → exec .cfgHorizon s = .next s))
  ∧ ∀ s e d t, s.smc.cfgDue = some (e, d, t) → ∀ s1, s1 = { s with smc := { s.smc with cfgDue := none } } →
      (t ≤ s.now → cfgDigest s ≠ d → exec .cfgGraceExpiry s = .next (devEvent (fset s1 F.SMC_CFG_CTL_MISMATCH 1) 0x0B 0 0
        (bytesOf 8 e ++ bytesOf 8 d.toNat ++ bytesOf 8 (cfgDigest s).toNat)))
      ∧ (t ≤ s.now → cfgDigest s = d → exec .cfgGraceExpiry s = .next (cfgSettle s1))
      ∧ (s.now < t → exec .cfgGraceExpiry s = .next s)

namespace Sys2Proof.Claims

/-- A request of TYPE `ty` reaches the checks of R437: the node is in P0 and has a number, the header is good and new, a replay record is free,
its source is not policed, and it is no further segment of a copy already decided. -/
def Comes (s : State) (p : Pkt) (ty : Nat) : Prop :=
  p.ty.toNat = ty ∧ pktOk s p = true ∧ p.flags.getLsbD 0 = false ∧ p.flags.getLsbD 2 = false ∧ fget s F.PRB_PWR_STAT_STATE = 0
    ∧ s.fab.records.length < 131072 ∧ fget s F.TRF_ING_RATE p.src.toNat = 0 ∧ (ty = 4 → tfind s.fab.copies (copyKey p) = none)

/-- Address and first byte of what a request concerns in its window's domain: of a push segment, the segment's. -/
def lands (w : Window) (p : Pkt) : Nat := w.base + ((pktRange p).1 - w.foff) + if p.ty = 4 then 1024 * p.seg.toNat else 0

/-- A request of TYPE `ty` passes its checks into window `w`, where no near-bank unit runs and no job owns the bank. -/
def Applies (s : State) (p : Pkt) (ty : Nat) (w : Window) : Prop :=
  Comes s p ty ∧ verdict s p = .pass w ∧ (ty = 4 ∨ ty = 5 → s.fab.copies.length < 8192)
    ∧ ∀ b, bankOfAccess s w.dom (lands w p) = some b → nbuRunning (nbuOf s b) = false ∧ ∀ t, ownerOf s 0 b ≠ .job t

/-- A refused request is answered; of a copy of several segments the refusal is remembered for the others (R437). -/
def refused (s : State) (p : Pkt) (r : Pkt) : State :=
  sendSys (if p.ty = 4 ∧ p.lastSeg ≠ 0 then { s with fab := { s.fab with
    copies := tins s.fab.copies (copyKey p) { pkt := p, got := [p.seg.toNat], last := s.now, refused := some r } } } else s) r

end Sys2Proof.Claims

/-- R430, R437, R438, R470, R528, R561: the checks of a request in their order: a header that is malformed or names another node is discarded
and counted; a source above its rate is `POLICED`; a map epoch that is older answers `MOVED` with the new node, and one that is staged waits;
an expelled source, and a write to a self-fenced node, is `FENCED`; no window that admits the source and the access is `NOT_OWNER`. -/
def Sys2Proof.Claims.RequestsAreCheckedInOrder : Prop :=
  ∀ (row : (Pkt → Instr) × Nat), row ∈ [(.load, 1), (.store, 2), (.atomic, 3), (.copyPush, 4), (.copyPull, 5), (.rowRead, 9), (.rowUpdate, 10)] →
    (∀ s p, BitVec.toNat p.ty = row.2 → pktOk s p = false → exec (row.1 p) s = .next (fbump s F.FAB_XACT_STAT_BADHDR))
    ∧ (∀ s p s1, BitVec.toNat p.ty = row.2 → pktOk s p = true → p.flags.getLsbD 0 = false → p.flags.getLsbD 2 = false →
        fget s F.PRB_PWR_STAT_STATE = 0 → s.fab.records.length < 131072 → (row.2 = 4 → tfind s.fab.copies (copyKey p) = none) →
        policePkt s p false = (false, s1) → exec (row.1 p) s = .next (sendSys (fbump s1 F.TRF_ING_DROP_V) (replyPkt s1 p stPOLICED)))
    ∧ (∀ s p k c off, Comes s p row.2 → off = (pktRange p).1 → p.mepoch ≠ 0 → compAt s off = some (k, c) →
        (some p.mepoch.toNat ≠ mapEpoch c.current → some p.mepoch.toNat ≠ mapEpoch c.draining → some p.mepoch.toNat ≠ mapEpoch c.staged →
          exec (row.1 p) s = .next (refused s p (replyPkt s p stMOVED ((mapNode c.current off).getD 0))))
        ∧ (some p.mepoch.toNat ≠ mapEpoch c.current → some p.mepoch.toNat ≠ mapEpoch c.draining → some p.mepoch.toNat = mapEpoch c.staged →
          s.fab.hold.length < 1024 → exec (row.1 p) s = .next (holdPkt s { bank := 2 ^ 70 + k, pkt := some p })))
    ∧ (∀ s p, Comes s p row.2 → p.mepoch = 0 →
        (p.src.toNat ∈ s.smc.expelled ∨ (row.2 ∈ [2, 3, 4, 10] ∧ fget s F.SMC_FENCE_STAT_FENCED = 1) →
          exec (row.1 p) s = .next (refused s p (replyPkt s p stFENCED)))
        ∧ (p.src.toNat ∉ s.smc.expelled → (row.2 ∈ [2, 3, 4, 10] → fget s F.SMC_FENCE_STAT_FENCED = 0) →
          liveWin s (pktRange p).1 (pktRange p).2 = none → exec (row.1 p) s = .next (refused s p (replyPkt s p stNOT_OWNER)))
        ∧ (∀ k w, p.src.toNat ∉ s.smc.expelled → (row.2 ∈ [2, 3, 4, 10] → fget s F.SMC_FENCE_STAT_FENCED = 0) → p.flags.getLsbD 3 = false →
          liveWin s (pktRange p).1 (pktRange p).2 = some (k, w) → (admits w p = false ∨ accessOk p w.access = false) →
          exec (row.1 p) s = .next (refused s p (replyPkt s p stNOT_OWNER))))
    ∧ ∀ s p, BitVec.toNat p.ty = row.2 → pktOk s p = true → p.flags.getLsbD 0 = false → fget s F.PRB_PWR_STAT_STATE ≠ 0 →
        s.prb.waking = none → s.fab.hold.length < 1024 → ∀ s1, s1 = { s with prb := { s.prb with waking := some s.now } } →
        exec (row.1 p) s = .next (holdPkt s1 { bank := 2 ^ 71, pkt := some p })

/-- R135, R436, R441 to R445, R464: what an admitted request does at its target: a load answers the bytes; a store writes them, keeps a replay record
and is acknowledged; an atomic answers the old value and writes the new one; a copy of one segment is written, pulses where asked, and is
acknowledged; a pull is answered in segments; row requests go to their serving engine. A bank whose unit runs defers the access. -/
def Sys2Proof.Claims.RequestsAreAppliedAtTheirTarget : Prop :=
  (∀ s p w bs s1, Applies s p 1 w → uLoad s w.dom (lands w p) (pktRange p).2 = (.ok bs, s1) →
      exec (.load p) s = .next (sendSys s1 (replyPkt s1 p 0 0 0 bs)))
  ∧ (∀ s p w s1, Applies s p 2 w → uWrite s w.dom (lands w p) ((p.payload ++ List.replicate 64 0).take (pktRange p).2) = .ok s1 →
      exec (.store p) s = .next (sendSys (keepRecord s1 p (some (replyPkt s1 p 0))) (replyPkt s1 p 0)))
  ∧ (∀ s p w bs s1 old, Applies s p 3 w → hostBacked s w.dom (lands w p) = false → pageWaits s (pageKey w.dom (lands w p)) = false →
      uBytes s w.dom (lands w p) 8 = some bs → old = BitVec.ofNat 64 (numOf bs) →
      uWrite s w.dom (lands w p) (bytesOf 8 (atomicOp p.atop.toNat old p.operand p.compare).toNat) = .ok s1 →
      exec (.atomic p) s = .next (sendSys (keepRecord s1 p (some (replyPkt s1 p 0 0 old))) (replyPkt s1 p 0 0 old)))
  ∧ (∀ (old x c : W64), atomicOp 0 old x c = old + x ∧ atomicOp 1 old x c = x ∧ atomicOp 2 old x c = (if old = c then x else old)
      ∧ atomicOp 3 old x c = old &&& x ∧ atomicOp 4 old x c = old ||| x ∧ atomicOp 5 old x c = old ^^^ x
      ∧ atomicOp 6 old x c = (if old.toNat < x.toNat then old else x) ∧ atomicOp 7 old x c = (if old.toNat < x.toNat then x else old)
      ∧ atomicOp 8 old x c = (if old.toInt < x.toInt then old else x) ∧ atomicOp 9 old x c = (if old.toInt < x.toInt then x else old))
  ∧ (∀ s p w s0 s1 s2, Applies s p 4 w →
      s0 = { s with fab := { s.fab with copies := tins s.fab.copies (copyKey p) { pkt := p, last := s.now } } } →
      uWrite s0 w.dom (lands w p) (p.payload.take (min 1024 ((pktRange p).2 - 1024 * p.seg.toNat))) = .ok s1 →
      tfind s1.fab.copies (copyKey p) = some { pkt := p, last := s.now } →
      (segCount (pktRange p).2 ≤ 1 → s2 = { s1 with fab := { s1.fab with copies := tdel s1.fab.copies (copyKey p) } } →
        ∀ s3, s3 = (if p.flags.getLsbD 1 then remotePulse s2 p else s2) →
        exec (.copyPush p) s = .next (sendSys (keepRecord s3 p (some (replyPkt s3 p 0))) (replyPkt s3 p 0)))
      ∧ (1 < segCount (pktRange p).2 → s2 = { s1 with fab := { s1.fab with
          copies := tins s1.fab.copies (copyKey p) { pkt := p, got := [p.seg.toNat], last := s.now } } } →
        exec (.copyPush p) s = .next (keepRecord s2 p none)))
  ∧ (∀ s p w bs s1 s2 n, Applies s p 5 w → n = (pktRange p).2 → uLoad s w.dom (lands w p) n = (.ok bs, s1) →
      s2 = (if p.flags.getLsbD 1 then { s1 with fab := { s1.fab with copies := tins s1.fab.copies (copyKey p) { pkt := p, last := s.now } } } else s1) →
      exec (.copyPull p) s = .next ((List.range (segCount n)).foldl (fun s i => sendSys s { replyPkt s p 0 0 0 ((bs.drop (1024 * i)).take 1024) with
        ty := 6, flags := 0, seg := BitVec.ofNat 16 i, lastSeg := BitVec.ofNat 16 (segCount n - 1)
        total := p.total, off := p.off + BitVec.ofNat 48 (1024 * i) }) s2))
  ∧ (∀ (row : (Pkt → Instr) × Nat), row ∈ [(.rowRead, 9), (.rowUpdate, 10)] → ∀ s p w, Comes s p row.2 → verdict s p = .pass w →
      exec (row.1 p) s = .next (pushRow s (rowOfPkt p w.dom (w.base + ((pktRange p).1 - w.foff)))))
  ∧ (∀ (row : (Pkt → Instr) × Nat), row ∈ [(.load, 1), (.store, 2), (.atomic, 3)] → ∀ s p w b d, Comes s p row.2 → verdict s p = .pass w →
      bankOfAccess s w.dom (lands w p) = some b → d = { bank := b, dom := w.dom, addr := lands w p, pkt := some p } →
      (nbuRunning (nbuOf s b) = true → (deferOf s (b / 1024)).length < 256 → ∃ t, deferPut s d = some t ∧ exec (row.1 p) s = .next t
        ∧ deferOf t (b / 1024) = deferOf s (b / 1024) ++ [{ d with since := s.now }])
      ∧ (∀ g j, nbuRunning (nbuOf s b) = false → ownerOf s 0 b = .job g → jobOf s g = some j → hasWindow s j = false → s.fab.hold.length < 1024 →
        exec (row.1 p) s = .next (holdPkt s d)))

/-- R133, R134, R436, R446 to R448, R464: the final reply to a job's operation writes its status register (with the new node of `MOVED`), on
`OK` its destination, returns its credit and pulses; other replies change nothing. A segment of a pull is written, the last ends the copy. Timers
free operations, trackers and records whose time has come. -/
def Obligations.RepliesCompleteOperations : Prop :=
  (∀ s p tag o s1 j, tag = BitVec.toNat p.tag → knownType p.ty.toNat = true → pktOk s p = true → p.flags.getLsbD 0 = true →
      tfind s.tbe.copies tag = none → tfind s.fab.ops tag = some o → o.kind = 0 → p.ty = o.pkt.ty → p.ty ≠ 4 → p.src = o.pkt.dst →
      fabStatus p.status.toNat = true → (p.ty = 5 → p.status ≠ 0) →
      s1 = giveShare (dropOp s tag) o.share → jobOf s1 o.job = some j → ∀ word : W64,
      word = BitVec.ofNat 64 (p.status.toNat + if p.status.toNat = stMOVED then p.newNode.toNat * 256 else 0) → ∀ s2,
      s2 = setJob s1 o.job { j with ctx := setG (if p.status = 0 then replyRegs j.ctx o p else j.ctx) (BitVec.ofNat 5 o.statusReg) word } →
      exec (.fabricReply p) s = .next (afterOp (if o.inc = 0 then s2 else pulseCtr s2 o.counter.toNat o.gen o.inc)))
  ∧ (∀ s p, pktOk s p = true → p.flags.getLsbD 0 = true → tfind s.tbe.copies (BitVec.toNat p.tag) = none →
      (∀ o, tfind s.fab.ops p.tag.toNat = some o → p.ty ≠ o.pkt.ty ∨ p.src ≠ o.pkt.dst ∨ fabStatus p.status.toNat = false) →
      tfind s.fab.orphans p.tag.toNat = none → exec (.fabricReply p) s = .next s)
  ∧ (∀ s p tag o s1 o1, tag = BitVec.toNat p.tag → p.ty.toNat = 6 → pktOk s p = true → p.flags.getLsbD 0 = false →
      tfind s.fab.ops tag = some o → o.pkt.ty = 5 → p.src = o.pkt.dst → p.seg.toNat ∈ o.segs →
      uWrite s o.dom (o.src + 1024 * p.seg.toNat) (p.payload.take (min 1024 (o.pkt.total.toNat - 1024 * p.seg.toNat))) = .ok s1 →
      o1 = { o with segs := o.segs.filter fun i => i != p.seg.toNat } →
      (o1.segs ≠ [] → exec (.copyData p) s = .next { s1 with fab := { s1.fab with ops := tins s1.fab.ops tag o1 } })
      ∧ (o1.segs = [] → ∀ s2, s2 = (if o.pkt.flags.getLsbD 1 then sendSys s1 { o.pkt with ty := 7, payload := [], len := 0 } else s1) →
        exec (.copyData p) s = .next (afterOp (jobReply s2 tag o1 { noPkt with ty := 5 }))))
  ∧ (∀ s p c, BitVec.toNat p.ty = 7 → pktOk s p = true → p.flags.getLsbD 0 = false → tfind s.fab.copies (copyKey p) = some c → c.pkt.ty = 5 →
      exec (.copyDone p) s = .next (remotePulse { s with fab := { s.fab with copies := tdel s.fab.copies (copyKey p) } } c.pkt))
  ∧ (∀ s p, BitVec.toNat p.ty = 8 → pktOk s p = true → p.flags.getLsbD 0 = false → exec (.copyCancel p) s = .next (dropCopyIn s (copyKey p)))
  ∧ (∀ s tag o, tfind s.fab.ops (BitVec.toNat tag) = some o →
      (o.issued + 10000000 ≤ s.now → exec (.fabricOperationTimeout tag) s = .next (freeOp tag.toNat o (fbump s F.FAB_XACT_STAT_TMO)))
      ∧ (s.now < o.issued + 10000000 → exec (.fabricOperationTimeout tag) s = .next s))
  ∧ (∀ s key c, tfind s.fab.copies key = some c →
      (c.last + 10000000 ≤ s.now → exec (.copyTrackerTimeout key) s = .next
        (if c.refused = none then fbump (dropCopyIn s key) F.FAB_XACT_STAT_TMO else dropCopyIn s key))
      ∧ (s.now < c.last + 10000000 → exec (.copyTrackerTimeout key) s = .next s))
  ∧ ∀ s key r, tfind s.fab.records key = some r →
      (r.until_ ≤ s.now → exec (.replayRecordExpiry key) s = .next { s with fab := { s.fab with records := tdel s.fab.records key } })
      ∧ (s.now < r.until_ → exec (.replayRecordExpiry key) s = .next s)

/-- R456 to R463, R477, R557, R590, R591: a training port comes into service, tests its lanes, or is held; a lost link retrains without a
test, or is held at the fourth loss in 60 s; eight frames refused in a row lose it; keys change after 2^40 frames or an hour; a path notice cuts a
route; an operation due goes out again with REPLAY set; RETRY trains held ports, HOLD holds them. -/
def Obligations.PortsAndLinks : Prop :=
  (∀ s p lanes direct peer peerValid authOk w s1 l, fget s F.FAB_PORT_STAT_STATE (BitVec.toNat p) = 1 → w = trainedWidth (BitVec.toNat lanes) →
      s1 = fset (fset s F.FAB_PORT_STAT_DIRECT (if direct then 1 else 0) p.toNat) F.FAB_PORT_STAT_PEER (if direct then BitVec.toNat peer else 0) p.toNat →
      l = { linkOf s p.toNat with lanes := lanes.toNat, frames := 0, keyed := s.now, rx := 0, rxKeyed := s.now } →
      ((w = 0 ∨ authOk = false ∨ (direct = true ∧ (peerValid = false ∨ myNode s = some peer.toNat ∨ peer.toNat ∈ s.smc.expelled))) →
        exec (.portTrainingDone p lanes direct peer peerValid authOk) s = .next (portState (setLink s1 p.toNat l) p.toNat 5 0))
      ∧ (w ≠ 0 → authOk = true → (direct = true → peerValid = true ∧ myNode s ≠ some peer.toNat ∧ peer.toNat ∉ s.smc.expelled) →
        exec (.portTrainingDone p lanes direct peer peerValid authOk) s = .next
          (if l.qualify then portState (setLink s1 p.toNat l) p.toNat 2 w else portService (setLink s1 p.toNat l) p.toNat w)))
  ∧ (∀ s p, fget s F.FAB_PORT_STAT_STATE (BitVec.toNat p) = 2 → (linkOf s p.toNat).spoiled = false → ∀ pass : BitVec 8,
      exec (.qualificationComplete p pass) s = .next (portService s p.toNat (testWidth (linkOf s p.toNat).lanes pass.toNat)))
  ∧ (∀ s p recent s1, portUp s (BitVec.toNat p) = true →
      recent = s.now :: (linkOf s p.toNat).losses.filter (fun t => s.now < t + 60000000000) →
      s1 = portState (setLink s p.toNat { linkOf s p.toNat with losses := recent.take 4 }) p.toNat 0 0 →
      (4 ≤ recent.length → exec (.linkLoss p) s = .next (portState s1 p.toNat 5 0))
      ∧ (recent.length < 4 → exec (.linkLoss p) s = .next (portTrain (fbump s1 F.FAB_PORT_STAT_RETRAINS p.toNat) p.toNat false)))
  ∧ (∀ s p l, portUp s (BitVec.toNat p) = true → l = linkOf s p.toNat →
      exec (.frameReceive p true true) s = .next (setLink s p.toNat { l with rx := l.rx + 1, replays := 0 })
      ∧ (l.replays < 7 → exec (.frameReceive p false true) s = .next (setLink s p.toNat { l with replays := l.replays + 1 }))
      ∧ (l.replays < 7 → exec (.frameReceive p true false) s = .next
        (setLink (fbump s F.FAB_PORT_STAT_AUTH_FAIL p.toNat) p.toNat { l with replays := l.replays + 1 }))
      ∧ (7 ≤ l.replays → exec (.frameReceive p false true) s = exec (.linkLoss p) (setLink s p.toNat { l with replays := l.replays + 1 }))
      ∧ (2 ^ 40 ≤ l.rx ∨ l.rxKeyed + 3600000000000 ≤ s.now → exec (.rekey p true) s = .next (setLink s p.toNat { l with rx := 0, rxKeyed := s.now }))
      ∧ (2 ^ 40 ≤ l.frames ∨ l.keyed + 3600000000000 ≤ s.now → exec (.rekey p false) s = .next (setLink s p.toNat { l with frames := 0, keyed := s.now })))
  ∧ (∀ s p n k, k = BitVec.toNat p * 4096 + BitVec.toNat n →
      (∃ t, exec (.pathNotice p n) s = .next t ∧ k ∈ t.fab.cut ∧ (∀ x, x ≠ k → (x ∈ t.fab.cut ↔ x ∈ s.fab.cut))
        ∧ { t with fab := { t.fab with cut := s.fab.cut } } = s)
      ∧ exec (.pathRestored p n) s = .next { s with fab := { s.fab with cut := s.fab.cut.filter fun x => x != k } })
  ∧ (∀ s tag o q port s1, tfind s.fab.ops (BitVec.toNat tag) = some o → replayDue s o = true → o.pkt.ty ≠ 4 →
      q = (if o.kind = 0 ∨ o.kind = 2 then domQueue s o.dom (match jobOf s o.job with | some j => j.be | none => true) else 15) →
      sendPkt s q (fenceFlag s { o.pkt with flags := o.pkt.flags ||| 4 }) = (port, s1) →
      exec (.endToEndReplay tag) s = .next { s1 with fab := { s1.fab with ops := tins s1.fab.ops tag.toNat { o with sent := s.now, port := port } } })
  ∧ (∀ s tag o, tfind s.fab.ops (BitVec.toNat tag) = some o → replayDue s o = false → exec (.endToEndReplay tag) s = .next s)
  ∧ ∀ s v s1, Awake s → s1 = regWritePlain s .FAB_PORT_CMD 0 v →
      (BitVec.getLsbD v 8 = true → v.getLsbD 9 = false → exec (.portRetry v) s = .next ((cmdPorts s1).foldl
        (fun s p => if fget s F.FAB_PORT_STAT_STATE p = 5 then portTrain s p true else s) s1))
      ∧ (BitVec.getLsbD v 8 = false → v.getLsbD 9 = true → exec (.portHold v) s = .next ((cmdPorts s1).foldl (fun s p =>
        if fget s F.FAB_PORT_STAT_STATE p = 5 then setLink s p { linkOf s p with held := true }
        else portState (setLink s p { linkOf s p with held := true }) p 5 0) s1))

namespace Sys2Proof.Claims

/-- A packet of TYPE `ty` for this node arrives, with a good header, as a request (R430, R437). -/
def Arrives (s : State) (p : Pkt) (ty : Nat) : Prop := p.ty.toNat = ty ∧ pktOk s p = true ∧ p.flags.getLsbD 0 = false

/-- A map command has completed (R479). -/
def mapEnds (s : State) (st rs : Nat) : State := fset (fset s F.FAB_MAP_STAT_STATUS st) F.FAB_MAP_REASON_V rs

end Sys2Proof.Claims

/-- R433, R452, R466 to R471, R479: a window that its descriptor allows is created, one that exists and admits nothing more is removed; a slice is
defined where no loaded plan names it and it shares no unit; a map of the next epoch is staged while none is staged or draining, cancelled, and at its
horizon becomes current while the old one drains; every member's DRAIN_DONE ends the drain. -/
def Obligations.WindowsSlicesAndMaps : Prop :=
  (∀ (row : (W32 → Instr) × Nat), row ∈ [(.windowCreate, 1), (.windowRemove, 2)] → ∀ s v s1, Awake s → fget s F.FAB_WIN_STAT_BUSY = 0 →
      BitVec.toNat (BitVec.extractLsb' 12 4 v) = row.2 → s1 = regWritePlain s .FAB_WIN_CMD 0 v →
      ∃ t go, exec (row.1 v) s = .next t
        ∧ (∀ l, l = [fget s1 F.FAB_WIN_CMD_DOMAIN, rpair s .FAB_WIN_DESC_LO .FAB_WIN_DESC_HI, go] →
          t.fab.winCmd = some { op := row.2, arg := fget s1 F.FAB_WIN_CMD_WINDOW, args := l })
        ∧ t.regs = (fset s1 F.FAB_WIN_STAT_BUSY 1).regs
        ∧ (row.2 = 1 → go = 0 ∧ t.fab.windows = s.fab.windows) ∧ { t with fab := s.fab, regs := s.regs } = s)
  ∧ (∀ s a dom win b w s1, s.fab.winCmd = some { op := 1, arg := win, args := [dom, a, 0] } → (tget {} s.smc.doms dom).state = 1 →
      readDesc s dom a 64 false false = some b → parseWindow dom win b = some w → s1 = { s with fab := { s.fab with winCmd := none } } →
      (tfind s.fab.windows win = none → (∀ x ∈ s.fab.windows, crosses x.2.foff x.2.len w.foff w.len = false) →
        pagesIn s dom w.base w.len = true → exec .windowCommandComplete s = .next
          (fset (fset (fset { s1 with fab := { s1.fab with windows := tins s.fab.windows win w } } F.FAB_WIN_STAT_STATUS 0)
            F.FAB_WIN_STAT_REASON 0) F.FAB_WIN_STAT_BUSY 0))
      ∧ ((tfind s.fab.windows win).isSome = true → exec .windowCommandComplete s = .next
          (fset (fset (fset s1 F.FAB_WIN_STAT_STATUS 0x0B) F.FAB_WIN_STAT_REASON 0xB1) F.FAB_WIN_STAT_BUSY 0)))
  ∧ (∀ s a dom win w s1, s.fab.winCmd = some { op := 2, arg := win, args := [dom, a, 1] } → (tget {} s.smc.doms dom).state = 1 →
      tfind s.fab.windows win = some w → w.removing = true → s1 = { s with fab := { s.fab with winCmd := none, windows := tdel s.fab.windows win } } →
      (windowBusy s w = true → exec .windowCommandComplete s = .next s)
      ∧ (windowBusy s w = false → exec .windowCommandComplete s = .next
          (fset (fset (fset s1 F.FAB_WIN_STAT_STATUS 0) F.FAB_WIN_STAT_REASON 0) F.FAB_WIN_STAT_BUSY 0)))
  ∧ (∀ s v s1 b k l, Awake s → BitVec.extractLsb' 8 4 v = 1#4 → s1 = regWritePlain s .FAB_MAP_CMD 0 v → mapDesc s1 32 = some b →
      parseSlice b = some (k, l) →
      ((∀ p ∈ s.exec.plans, p.2.slice ≠ k) → (∀ p ∈ s.fab.slices, p.1 = k ∨ slicesMeet p.2 l = false) → exec (.sliceDefine v) s =
        .next (mapEnds { s1 with fab := { s.fab with slices := tins s.fab.slices k l } } 0x00 0))
      ∧ ((∃ p ∈ s.exec.plans, p.2.slice = k) → exec (.sliceDefine v) s = .next (mapEnds s1 0x0B 0xB5)))
  ∧ (∀ s v s1 k c m, Awake s → BitVec.extractLsb' 8 4 v = 2#4 → s1 = regWritePlain s .FAB_MAP_CMD 0 v → k = fget s1 F.FAB_MAP_CMD_COMP →
      c = tget {} s.fab.comps k → readMap s1 k = some m → k ≠ 255 →
      (m.epoch = nextEpoch ((mapEpoch c.current).getD 0) → c.draining = none → c.staged = none → exec (.mapStage v) s =
        .next (mapEnds (setComp s1 k { c with staged := some m }) 0x00 0))
      ∧ (m.epoch ≠ nextEpoch ((mapEpoch c.current).getD 0) → exec (.mapStage v) s = .next (mapEnds s1 0x0B 0xB4))
      ∧ (m.epoch = nextEpoch ((mapEpoch c.current).getD 0) → c.draining ≠ none ∨ c.staged ≠ none →
        exec (.mapStage v) s = .next (mapEnds s1 0x0B 0xB3)))
  ∧ (∀ s v s1 k, Awake s → BitVec.extractLsb' 8 4 v = 3#4 → s1 = regWritePlain s .FAB_MAP_CMD 0 v → k = fget s1 F.FAB_MAP_CMD_COMP →
      (∀ d ∈ s.fab.hold, d.bank ≠ 2 ^ 70 + k) → exec (.mapCancel v) s =
        .next (mapEnds (setComp s1 k { (tget {} s.fab.comps k) with staged := none }) 0x00 0))
  ∧ (∀ s k c m, c = tget {} s.fab.comps (BitVec.toNat k) → c.staged = some m →
      (m.horizon ≤ s.now → s.tir.pages = [] → exec (.mapHorizon k) s = .next (pumpDrain (releaseComp
        (setComp s k.toNat { c with current := some m, draining := c.current, staged := none, sentDone := false }) k.toNat) k.toNat))
      ∧ (s.now < m.horizon → exec (.mapHorizon k) s = .next s))
  ∧ (∀ s p k c d, Arrives s p 0x16 → k = (BitVec.extractLsb' 16 8 p.operand).toNat → c = tget {} s.fab.comps k → c ≠ {} →
      d = (BitVec.extractLsb' 0 16 p.operand).toNat * 4096 + p.src.toNat → d ∉ c.done →
      exec (.drainDone p) s = .next (pumpDrain (setComp s k { c with done := d :: c.done }) k))
  ∧ ∀ s k c m, tsorted s.fab.comps = true → c = tget {} s.fab.comps k → c.draining = some m → drainCount s m = 0 → c.sentDone = true →
      (∀ n ∈ drainMembers c, some n = myNode s ∨ n ∈ s.smc.expelled ∨ m.epoch * 4096 + n ∈ c.done) →
      (tget {} (pumpDrain s k).fab.comps k).draining = none ∧ (tget {} (pumpDrain s k).fab.comps k).current = c.current

/-- R439, R472 to R474, R481: the home answers a LEDGER_READ with owner and generation, and a LEDGER_CAS swaps them where they are as compared, once what
was admitted before is applied; an offer leaves when this node's writes to the home are acknowledged, is declined, or asks the ledger; an ACCEPT ends
the command; a party that has waited too long turns to the ledger. -/
def Obligations.LedgerAndHandoff : Prop :=
  (∀ s p, Arrives s p 0x10 → fget s F.PRB_PWR_STAT_STATE = 0 →
      (p.src.toNat ∈ s.smc.expelled → exec (.ledgerRead p) s = .next (sendSys s (replyPkt s p stFENCED)))
      ∧ (p.src.toNat ∉ s.smc.expelled → ledWin s p = none → exec (.ledgerRead p) s = .next (sendSys s (replyPkt s p stNOT_OWNER)))
      ∧ (∀ k w, p.src.toNat ∉ s.smc.expelled → ledWin s p = some (k, w) → exec (.ledgerRead p) s = .next
        (sendSys s (replyPkt s p 0 0 (BitVec.ofNat 64 (w.owner + w.gen % 2 ^ 32 * 2 ^ 32))))))
  ∧ (∀ s p k w hit s1 r, Arrives s p 0x11 → fget s F.PRB_PWR_STAT_STATE = 0 → p.flags.getLsbD 2 = false → p.src.toNat ∉ s.smc.expelled →
      ledWin s p = some (k, w) → windowBusy s w = false → s.fab.records.length < 131072 →
      (hit ↔ w.owner = (BitVec.extractLsb' 0 12 p.compare).toNat ∧ w.gen = (BitVec.extractLsb' 32 32 p.compare).toNat) →
      (hit → s1 = { s with fab := { s.fab with windows := tins s.fab.windows k { w with
          owner := (BitVec.extractLsb' 0 12 p.operand).toNat, gen := (BitVec.extractLsb' 32 32 p.operand).toNat } } } →
        r = replyPkt s1 p 0 0 p.operand → exec (.ledgerCas p) s = .next (sendSys (keepRecord s1 p (some r)) r))
      ∧ (¬ hit → r = replyPkt s p stNOT_OWNER 0 (BitVec.ofNat 64 (w.owner + w.gen % 2 ^ 32 * 2 ^ 32)) →
        exec (.ledgerCas p) s = .next (sendSys (keepRecord s p (some r)) r)))
  ∧ (∀ s p k w, Arrives s p 0x11 → fget s F.PRB_PWR_STAT_STATE = 0 → p.flags.getLsbD 2 = false → p.src.toNat ∉ s.smc.expelled →
      ledWin s p = some (k, w) → windowBusy s w = true → exec (.ledgerCas p) s = .next s)
  ∧ (∀ s p (h : Handoff), Arrives s p 0x12 → fget s F.PRB_PWR_STAT_STATE = 0 →
      h = { role := 1, home := p.newNode.toNat, foff := p.off.toNat, peer := p.src.toNat, gen := (BitVec.extractLsb' 32 32 p.operand).toNat
            dom := p.sdom.toNat, start := s.now, sent := true } →
      (fenced s = true → exec (.offer p) s = .next (sendAccept s h stFENCED p.operand))
      ∧ (fenced s = false → overcast s = true → exec (.offer p) s = .next (sendAccept s h stOVERCAST p.operand))
      ∧ (fenced s = false → overcast s = false → fget s F.FAB_HO_CMD_ACCEPT = 0 → exec (.offer p) s = .next (sendAccept s h stABORTED p.operand))
      ∧ (∀ tag s1, fenced s = false → overcast s = false → fget s F.FAB_HO_CMD_ACCEPT ≠ 0 →
        launchLed s h 0x11 1 (ledWord (meNode s) (h.gen + 1)) (ledWord h.peer h.gen) = (tag, s1) →
        exec (.offer p) s = .next { s1 with fab := { s1.fab with receives := s1.fab.receives ++ [{ h with tag := tag }] } }))
  ∧ (∀ s p h, Arrives s p 0x13 → s.fab.handoff = some h → h.role = 0 → h.sent = true → h.resolving = false → h.peer = p.src.toNat →
      h.foff = p.off.toNat → exec (.accept p) s =
        .next (hoDone s h p.status.toNat (if p.status.toNat = stABORTED then 0xB8 else 0) p.operand))
  ∧ (∀ s v s1 dom a b (h : Handoff), Awake s → s1 = regWritePlain s .FAB_HO_CMD 0 v → fget s1 F.FAB_HO_CMD_BUSY = 0 → dom = fget s1 F.FAB_HO_CMD_DOMAIN →
      a = rpair s .FAB_HO_DESC_LO .FAB_HO_DESC_HI → uBytes s1 dom a 32 = some b →
      h = { home := bitsOf (fieldOf b 0 8) 48 12, foff := bitsOf (fieldOf b 0 8) 0 48, peer := fieldOf b 8 2 % 4096, gen := fieldOf b 0xC 4
            dom := dom, desc := a, start := s.now } → ∀ s2, s2 = fset s1 F.FAB_HO_CMD_BUSY 1 →
      (BitVec.extractLsb' 12 4 v = 1#4 → exec (.handoffOffer v) s =
        .next (pumpOffer { s2 with fab := { s2.fab with handoff := some { h with role := 0 } } }))
      ∧ (∀ tag s3, BitVec.extractLsb' 12 4 v = 2#4 → launchLed s2 { h with role := 2 } 0x10 3 0 0 = (tag, s3) →
        exec (.handoffLedgerRead v) s = .next { s3 with fab := { s3.fab with handoff := some { h with role := 2, tag := tag } } }))
  ∧ (∀ s h, s.fab.handoff = some h → h.role = 0 → h.sent = false → myNode s ≠ none →
      ((∃ p ∈ s.fab.ops, writesAt p.2.pkt = true ∧ p.2.pkt.dst.toNat = h.home) → pumpOffer s = s)
      ∧ ((∀ p ∈ s.fab.ops, writesAt p.2.pkt = true → p.2.pkt.dst.toNat ≠ h.home) →
        (pumpOffer s).fab.handoff = some { h with sent := true, start := s.now }))
  ∧ (∀ s h tag s1, s.fab.handoff = some h → h.role = 0 → h.sent = true → h.resolving = false → h.start + hoTmo s < s.now → myNode s ≠ none →
      launchLed s h 0x11 0 (ledWord (meNode s) (h.gen + 1)) (ledWord (meNode s) h.gen) = (tag, s1) →
      s1.fab.receives = [] →
      exec .handoffTimeout s = .next { s1 with fab := { s1.fab with handoff := some { h with resolving := true, tag := tag } } })
  ∧ ∀ s, (∀ h, s.fab.handoff = some h → s.now ≤ h.start + hoTmo s) → (∀ h ∈ s.fab.receives, s.now ≤ h.start + hoTmo s) →
      exec .handoffTimeout s = .next s

namespace Sys2Proof.Claims

/-- A LUN may start a read: none is issued, nothing holds it, its channel is in service, and the node is not in P3 or P4 (R285). -/
def LunFree (s : State) (chan lun : Nat) : Prop :=
  ((lunOf s chan lun).suspended = true ∨ ((lunOf s chan lun).erase = none ∧ (lunOf s chan lun).progs = []))
    ∧ (∀ r ∈ (lunOf s chan lun).reads, r.issued = false) ∧ chan ∈ s.fls.inService ∧ fget s F.PRB_PWR_STAT_STATE < 3

/-- The operation in progress at a LUN may end (R420). -/
def LunEnds (s : State) (chan lun : Nat) : Prop :=
  fget s F.PRB_PWR_STAT_STATE < 3 ∧ (lunOf s chan lun).suspended = false ∧ (s.fls.brownout = false ∨ (lunOf s chan lun).started = true)

end Sys2Proof.Claims

/-- R271, R273, R284, R285, R411, R412: a free LUN issues its oldest read that may go, whose block is resolved and counted then; a scoring read draws
a flash credit of its share. A page that arrives returns the credit, each needed codeword has its decode counted, and the entries that wait
for it get it; a codeword that fails marks the page lost. -/
def Sys2Proof.Claims.FlashReads : Prop :=
  (∀ s ch lun pre r post b lu s1 s2, LunFree s (BitVec.toNat ch) lun → lu = lunOf s ch.toNat lun → lu.reads = pre ++ r :: post →
      (∀ x ∈ pre, x.src = 0 ∧ shareFree s x.share = false) → (r.src ≠ 0 ∨ shareFree s r.share = true) → fget s F.FLS_GEOM_MP_READ = 0 →
      b = (match tfind s.fls.map (r.dom * 2 ^ 42 + r.lpage) with | some p => p.blk | none => 0) →
      s1 = setLun s ch.toNat lun { lu with reads := lu.reads.map fun x => if x = r then { x with issued := true, blk := b } else x } →
      s2 = setBlk s1 b { blkOf s b with reads := (blkOf s b).reads + 1 } → ∀ join,
      exec (.lunReadIssue ch lun join) s = .next (if r.src = 0 then drawShare s2 r.share else s2))
  ∧ (∀ s ch lun join, (∃ r ∈ (lunOf s (BitVec.toNat ch) lun).reads, r.issued = true) ∨ 3 ≤ fget s F.PRB_PWR_STAT_STATE →
      exec (.lunReadIssue ch lun join) s = .next s)
  ∧ (∀ s ch lun dec mm pre r post lu left s1, lu = lunOf s (BitVec.toNat ch) lun → lu.reads = pre ++ r :: post →
      (∀ x ∈ pre, x.issued = false) → r.issued = true → left = pre ++ post →
      s1 = setLun s ch.toNat lun { lu with reads := left, suspended := lu.suspended && left != [] } →
      (r.src ≠ 0 → exec (.pageReadComplete ch lun dec mm) s = .next ((List.range 4).foldl (codewordDone r ch.toNat dec) s1))
      ∧ (r.src = 0 → exec (.pageReadComplete ch lun dec mm) s = .next (deliverPage r dec mm
        ((neededWords (giveShare s1 r.share) r).foldl (codewordDone r ch.toNat dec) (giveShare s1 r.share)))))
  ∧ ∀ s r ch dec i, (dec.getD i 0 ≤ min 65535 (fget s F.FLS_MEDIA_CTL_ERR_THRESH) → codewordDone r ch dec s i = s)
      ∧ (dec.getD i 0 = 65536 → codewordDone r ch dec s i = schedule (setBlk (fbump s F.FLS_SCORE_STAT_SOFT) r.blk
        { blkOf s r.blk with reads := (blkOf s r.blk).reads + 2 }) r.blk 1)
      ∧ (65536 < dec.getD i 0 → codewordDone r ch dec s i = losePage (setBlk (fbump s F.FLS_SCORE_STAT_SOFT) r.blk
        { blkOf s r.blk with reads := (blkOf s r.blk).reads + 2 }) r ch i)

/-- R403, R408 to R418, R420, R429: a program that succeeds makes its copy the page's, unless a newer one is; one that fails goes to another block,
and its block is retired; an erase that succeeds frees its block, one that fails is tried again or retires it; the read limit schedules a
rewrite; patrol queues every valid page of a closed block; reads suspend a slow operation; a channel held out is reported; host discards. -/
def Sys2Proof.Claims.FlashMedia : Prop :=
  (∀ s ch lun g rest lu s1, LunEnds s (BitVec.toNat ch) lun → lu = lunOf s ch.toNat lun → lu.progs = g :: rest →
      s1 = setLun s ch.toNat lun { lu with progs := rest, suspends := 0, started := false } →
      (tfind s.fls.map (g.dom * 2 ^ 42 + g.lpage) = none → exec (.flashProgramComplete ch lun true) s = .next s1)
      ∧ (∀ p, tfind s.fls.map (g.dom * 2 ^ 42 + g.lpage) = some p →
        (g.seq < p.seq → exec (.flashProgramComplete ch lun true) s = .next s1)
        ∧ (p.seq ≤ g.seq → ∀ (place : Phys) (s2 : State), place = { chan := ch.toNat, lun := lun, blk := g.blk, page := g.page, seq := g.seq } →
          s2 = { s1 with fls := { s1.fls with map := tins s1.fls.map (g.dom * 2 ^ 42 + g.lpage) place } } →
          exec (.flashProgramComplete ch lun true) s = .next (if p.blk = g.blk then s2 else drainBlk s2 p.blk)))
      ∧ (∀ s2, s2 = schedule s1 g.blk 4 → openBlock s2 ch.toNat lun g.stream = none → exec (.flashProgramComplete ch lun false) s =
        .next (setLun s2 ch.toNat lun { lunOf s2 ch.toNat lun with progs := (lunOf s2 ch.toNat lun).progs ++ [g] })))
  ∧ (∀ s ch lun b lu s1, LunEnds s (BitVec.toNat ch) lun → lu = lunOf s ch.toNat lun → lu.erase = some b →
      s1 = setLun s ch.toNat lun { lu with erase := none, eraseTries := 0, suspends := 0, started := false } →
      (∀ s2, s2 = setBlk s1 b { erases := (blkOf s b).erases + 1 } → exec (.flashEraseComplete ch lun true) s =
        .next (if (blkOf s b).rewrite = 1 then fbump s2 F.FLS_MEDIA_STAT_REWRITES
          else if (blkOf s b).rewrite = 2 then fbump s2 F.FLS_MEDIA_STAT_RD_REFRESH else s2))
      ∧ (bitAt (blkOf s b).stream 0 = true ∨ 2 ≤ lu.eraseTries →
        exec (.flashEraseComplete ch lun false) s = .next (retireBlk s1 b))
      ∧ (bitAt (blkOf s b).stream 0 = false → lu.eraseTries < 2 → exec (.flashEraseComplete ch lun false) s =
        .next (setLun s ch.toNat lun { lu with eraseTries := lu.eraseTries + 1 })))
  ∧ (∀ s b, (max 1 (fget s F.FLS_MEDIA_CTL_RD_LIMIT) * 1024 ≤ (blkOf s b).reads → exec (.readDisturbLimit b) s = .next (schedule s b 2))
      ∧ ((blkOf s b).reads < max 1 (fget s F.FLS_MEDIA_CTL_RD_LIMIT) * 1024 → exec (.readDisturbLimit b) s = .next s))
  ∧ (∀ s b c l rs s1, (blkOf s b).isOpen = false → (blkOf s b).used ≠ 0 → (blkOf s b).retired = false → flsKeeps s = true →
      c = blkChan b → l = blkLun b → rs = (validPages s b).map (fun mk =>
        { src := 1, dom := mk / 2 ^ 42, lpage := mk % 2 ^ 42, plane := b % max 1 s.fls.planes, since := s.now : FRead }) →
      s1 = setBlk (setLun s c l { lunOf s c l with reads := (lunOf s c l).reads ++ rs }) b { blkOf s b with patrolled := s.now } →
      exec (.patrolRead b) s = .next (rs.foldl (fun s r => writeBack s (pageKey r.dom (r.lpage * 16384))) s1))
  ∧ (∀ s ch lun b, s.fls.brownout = false → flsKeeps s = true → BitVec.toNat ch ∈ s.fls.inService →
      (s.fls.blks.find? fun p => blkChan p.1 == ch.toNat && blkLun p.1 == lun && p.2.rewrite != 0 && p.2.rewrite != 3).map (·.1) = some b →
      exec (.garbageCollection ch lun) s = .next (rewriteBlk s b))
  ∧ (∀ s ch lun b good pool lu s1, s.fls.brownout = false → flsKeeps s = true → BitVec.toNat ch ∈ s.fls.inService →
      (∀ p ∈ s.fls.blks, blkChan p.1 = ch.toNat → blkLun p.1 = lun → p.2.rewrite = 0) → good = goodCount s ch.toNat lun →
      pool = erasedCount s ch.toNat lun → lu = lunOf s ch.toNat lun →
      (100 * pool < 2 * good → s1 = setLun s ch.toNat lun { lu with collecting := true } → victim s1 ch.toNat lun = some b →
        exec (.garbageCollection ch lun) s = .next (rewriteBlk (schedule s1 b 3) b))
      ∧ (3 * good ≤ 100 * pool → 2 * good ≤ 100 * pool → exec (.garbageCollection ch lun) s =
        .next (setLun s ch.toNat lun { lu with collecting := false })))
  ∧ (∀ s ch lun lu, lu = lunOf s (BitVec.toNat ch) lun → (lu.erase ≠ none ∨ lu.progs ≠ []) → lu.suspended = false →
      (∃ r ∈ lu.reads, r.issued = false ∧ r.since + 100000 ≤ s.now) → fget s F.FLS_GEOM_SUSPEND = 1 →
      lu.suspends < (if lu.erase = none then 1 else 4) → exec (.readSuspend ch lun) s =
        .next (setLun s ch.toNat lun { lu with suspended := true, suspends := lu.suspends + 1 }))
  ∧ (∀ s ch, BitVec.toNat ch ∉ s.fls.inService → exec (.channelHeldOut ch) s = .next s)
  ∧ (∀ s ch s1, BitVec.toNat ch ∈ s.fls.inService → s.fls.work = [] → (∀ p ∈ s.fls.luns, p.1 / 256 ≠ ch.toNat) →
      s1 = unitFault { s with fls := { s.fls with inService := s.fls.inService.filter fun c => c != ch.toNat } } 7 0x0B 0 0 ch.toNat →
      exec (.channelHeldOut ch) s = .next (if flashLost s1 then ovcSet s1 0 else s1))
  ∧ (∀ s v s1 dom a n, Awake s → BitVec.getLsbD v 28 = true → fget s F.FLS_DSC_CMD_BUSY = 0 → s1 = regWritePlain s .FLS_DSC_CMD 0 v →
      dom = fget s1 F.FLS_DSC_CMD_DOMAIN → a = rpair s1 .FLS_DSC_ADDR_LO .FLS_DSC_ADDR_HI → n = fget s1 F.FLS_DSC_CMD_PAGES →
      (a % 65536 = 0 → n ≠ 0 → (∀ i < n, mayDiscard s1 dom (a + i * 65536) = true) → exec (.flsDiscard v) s =
        .next { fset (fset s1 F.FLS_DSC_CMD_ERR 0) F.FLS_DSC_CMD_BUSY 1 with fls := { s.fls with dsc := some [dom, a, n * 65536] } })
      ∧ ((a % 65536 ≠ 0 ∨ n = 0 ∨ ∃ i < n, mayDiscard s1 dom (a + i * 65536) = false) →
        exec (.flsDiscard v) s = .next (fset s1 F.FLS_DSC_CMD_ERR 1)))
  ∧ ∀ s dom a n s1, s.fls.dsc = some [dom, a, n] → s1 = flashDrop s dom a n → exec .discardComplete s =
      .next (fset { s1 with fls := { s1.fls with dsc := none } } F.FLS_DSC_CMD_BUSY 0)

/-- R617, R618, R627: a stack held out is recorded and reported, and the fifth sets overcast cause 1; a patrol pass over a stack in service ends once in
24 h, with a record for each uncorrectable word; a unit over its threshold is recorded, reported and quarantined: a spare takes its place, or the
class is short, which is overcast cause 3. -/
def Obligations.UnitsOutOfService : Prop :=
  (∀ s k s1 s2 s3, k < 20 → k ∉ s.flt.stacksOut → s1 = { s with flt := { s.flt with stacksOut := s.flt.stacksOut ++ [k] } } →
      s2 = faultRec s1 { block := 6, kind := 0x0B, die := 3 + k, inst := k } →
      s3 = devEvent s2 0x09 0 0 (bytesOf 1 6 ++ bytesOf 1 0x0B ++ bytesOf 2 0 ++ bytesOf 4 (newestFault s2) ++ bytesOf 4 k) →
      exec (.stackHeldOut k) s = .next (if 4 ≤ s.flt.stacksOut.length then ovcSet s3 1 else s3))
  ∧ (∀ s k, 20 ≤ k ∨ k ∈ s.flt.stacksOut → exec (.stackHeldOut k) s = .next s)
  ∧ (∀ s k, k < 20 → k ∉ s.flt.stacksOut → 8 ≤ fget s F.PRB_STEP_LAST → fget s F.PRB_PWR_STAT_STATE < 3 →
      tget 0 s.stk.patrol k + 86400000000000 ≤ s.now → exec (.stackPatrol k) s = .next ((badWords s k).foldl (fun s w =>
        fbump (faultRec s { block := 6, kind := 4, die := 3 + k, inst := w * 4 / 2 ^ 27, addr := w * 4 / 32 * 32, info := w % 8 })
          F.STK_ECC_STAT_UE k) { s with stk := { s.stk with patrol := tput 0 s.stk.patrol k s.now } }))
  ∧ (∀ s cls u s1 s2 ok, u < shdCount cls → quarantined s cls u = false → overThresh s cls u = true →
      s1 = quarReport { s with flt := { s.flt with quar := s.flt.quar ++ [shdKey cls u] } } cls u →
      (cls = 1 ∨ cls = 2 → exec (.quarantine cls u) s = .next s1)
      ∧ (cls = 0 → takeSpare s1 0 u = (s2, ok) → exec (.quarantine cls u) s = .next (if ok then s2 else ovcSet s2 3))
      ∧ (cls = 3 → takeSpare s1 2 u = (s2, ok) → exec (.quarantine cls u) s = .next (if ok then s2 else ovcSet (scaOut s2 (u / 130)) 3)))
  ∧ ∀ s cls u, shdCount cls ≤ u ∨ quarantined s cls u = true ∨ overThresh s cls u = false → exec (.quarantine cls u) s = .next s

namespace Sys2Proof.Claims

/-- The next command of a job's TIR queue is `c`, of operation `op`, and passes the checks of its channel and result area (R85, R129, R130). -/
def TirNext (op : Nat) (s : State) (tag : W32) (c : Cmd) : Prop :=
  tirHead s tag.toNat = some c ∧ c.tok.op.toNat = op ∧ tirChecks s c = .ok ()

/-- The step command of a merge passes the checks that precede the order of steps (R206): its list exists, it names no choice. -/
def StepNext (step : Nat) (s : State) (tag : W32) (c : Cmd) : Prop :=
  TirNext 0x17 s tag c ∧ mStep c = step ∧ mChoose c = false ∧ overcast s = false ∧ laneBits c.tok.desc 0 42 22 = 0
    ∧ lane64 c.tok.desc 1 = 0 ∧ lane64 c.tok.desc 2 = 0 ∧ ∃ x, indexOf s c.tok.dom (mIndex c) = some x ∧ mList c < x.lists

/-- The record of a merge that expects this step, or repeats it, opened by the command's job. -/
def Expects (step : Nat) (s : State) (c : Cmd) (m : MergeRec) : Prop :=
  mergeOf s (listKey (mIndex c) (mList c)) = some m ∧ m.job = some c.tok.job ∧ (m.next = step ∨ m.last = step)

end Sys2Proof.Claims

/-- R189 to R193: an append to an index that this node leads joins the batch its job collects, and reserves its item; a delete of an item
that is not live changes nothing; a list whose haze is full, and overcast, refuse it. -/
def Sys2Proof.Claims.AppendsJoinABatch : Prop :=
  (∀ s tag c, TirNext 0x10 s tag c → overcast s = true → exec (.hazeAppend tag) s = .next (endCmd s 14 tag.toNat c 0x09 0 0 0))
  ∧ (∀ s tag c x i item, TirNext 0x10 s tag c → overcast s = false → i = laneBits c.tok.desc 0 56 8 → item = lane64 c.tok.desc 1 →
      laneBits c.tok.desc 2 0 1 = 1 → laneBits c.tok.desc 2 1 63 = 0 → item / 2 ^ 48 ≠ 0xFFFF → indexOf s c.tok.dom i = some x →
      (isPrimary s x = false → exec (.hazeAppend tag) s = .next (endCmd s 14 tag.toNat c 0x0B 0 0 0))
      ∧ (isPrimary s x = true → dirState s i item tag.toNat = .absent ∨ dirState s i item tag.toNat = .tombed →
        exec (.hazeAppend tag) s = .next (endTir s tag.toNat c 0 0 0 0))
      ∧ (∀ k lists b v s1, isPrimary s x = true → dirState s i item tag.toNat = .live k lists → openBatch s tag.toNat i = (b, v, s1) →
        (∀ l ∈ lists, (rootAt s c.tok.dom (rootAddr x l)).hazeN < 262144) →
        (∀ s2, appendOp s1 b i v true item lists (tombEntry item) k true = some s2 →
          exec (.hazeAppend tag) s = .next (endTir s2 tag.toNat c 0 0 lists.length 0))
        ∧ (appendOp s1 b i v true item lists (tombEntry item) k true = none →
          exec (.hazeAppend tag) s = .next (endCmd s 14 tag.toNat c 0x0D 0x29 0 0)))
      ∧ (∀ k lists l, isPrimary s x = true → dirState s i item tag.toNat = .live k lists → l ∈ lists →
        262144 ≤ (rootAt s c.tok.dom (rootAddr x l)).hazeN → exec (.hazeAppend tag) s = .next (endCmd s 14 tag.toNat c 0x0B 0x24 0 0)))
  ∧ (∀ s tag c x i item src h body b v s1 k, TirNext 0x10 s tag c → overcast s = false → i = laneBits c.tok.desc 0 56 8 →
      item = lane64 c.tok.desc 1 → src = laneBits c.tok.desc 0 0 56 → lane64 c.tok.desc 2 = 0 → item / 2 ^ 48 ≠ 0xFFFF → src % 64 = 0 →
      operand s c.tok.dom src 64 = .ok h → fieldOf h 0x18 40 = 0 → (∀ q < 4, bitsOf (fieldOf h (4 * q) 4) 24 7 = 0) →
      indexOf s c.tok.dom i = some x → isPrimary s x = true → operand s c.tok.dom (src + 64) (bodyBytes x) = .ok body →
      dirState s i item tag.toNat = .absent → openBatch s tag.toNat i = (b, v, s1) → dirRoom s x = some k →
      1 ≤ (listSlots h).length → (listSlots h).length ≤ x.spill → (∀ l ∈ listSlots h, l < x.lists) →
      (∀ l ∈ listSlots h, (rootAt s c.tok.dom (rootAddr x l)).hazeN < 262144) →
      ∀ s2, appendOp (freeNext s1) b i v false item (listSlots h) (insertBytes x item (fieldOf h 0x10 8) body) k false = some s2 →
        exec (.hazeAppend tag) s = .next (endTir s2 tag.toNat c 0 0 (listSlots h).length 0))
  ∧ ∀ s b i v del item lists bs k had t, appendOp s b i v del item lists bs k had = some t →
      ∃ es op, tfind t.tir.batches b = some { v with ents := v.ents ++ es, ops := v.ops ++ [op] }
        ∧ es.map (·.list) = lists ∧ (∀ e ∈ es, e.item = item ∧ e.tomb = del) ∧ op.item = item ∧ op.del = del ∧ op.lists = lists

/-- R170, R171, R192: a commit of a job that has appended nothing ends at once; one with a batch sends it to the
replicas and waits; under a fence, or in overcast, the batch is discarded and the command says so. -/
def Sys2Proof.Claims.CommitRequests : Prop :=
  ∀ s tag c i, TirNext 0x11 s tag c → i = laneBits c.tok.desc 0 0 8 →
    (collecting s tag.toNat i = none → laneBits c.tok.desc 0 8 56 = 0 → lane64 c.tok.desc 1 = 0 → lane64 c.tok.desc 2 = 0 →
      (∃ x, indexOf s c.tok.dom i = some x) → exec (.commitRequest tag) s = .next (endTir s tag.toNat c 0 0 0 0))
    ∧ (∀ k v x, collecting s tag.toNat i = some (k, v) → fenced s = false → overcast s = false → laneBits c.tok.desc 0 8 56 = 0 →
      lane64 c.tok.desc 1 = 0 → lane64 c.tok.desc 2 = 0 → indexOf s c.tok.dom i = some x →
      (x.repl = 1 → exec (.commitRequest tag) s = .next (putCmd (setBatch s k { v with phase := .waitAcks, cmd := some c.id, sentAt := s.now })
          14 tag.toNat { c with phase := .running }))
      ∧ (1 < x.repl → myNode s = none → exec (.commitRequest tag) s = .next (endTir (failCommit s k v 0x0B 0 false []) tag.toNat c 0x0B 0 0 0))
      ∧ (∀ s1, 1 < x.repl → myNode s ≠ none →
        s1 = putCmd (setBatch s k { v with phase := .waitAcks, cmd := some c.id, sentAt := s.now }) 14 tag.toNat { c with phase := .running } →
        exec (.commitRequest tag) s = .next ((replicasOf x).foldl (fun s2 n => commitMsg s2 0x20 n k i (batchBytes s x v)) s1)))
    ∧ (∀ k v, collecting s tag.toNat i = some (k, v) → fenced s = true →
      exec (.commitRequest tag) s = .next (endTir (failCommit s k v 0x0A 0 false []) tag.toNat c 0x0A 0 0 0))
    ∧ (∀ k v, collecting s tag.toNat i = some (k, v) → fenced s = false → overcast s = true →
      exec (.commitRequest tag) s = .next (endTir (failCommit s k v 0x09 0 false []) tag.toNat c 0x09 0 0 0))

/-- R170 to R172: what the nodes of a replica set do with a batch: the replica appends and acknowledges, or refuses; the primary
collects acknowledgements, gives up at COMMIT_TMO or at a refusal, and answers queries by the outcome; notices are acknowledged. -/
def Obligations.ReplicatedCommits : Prop :=
  (∀ s src i id ops, myNode s ≠ none → tfind s.tir.indexes (BitVec.toNat i) = none → exec (.replicaBatch src i id ops) s =
      .next (commitMsg s 0x21 (BitVec.toNat src) id i.toNat (bytesOf 4 (rget s .PRB_FDOM 0).toNat ++ bytesOf 1 1)))
  ∧ (∀ s src i id ops x, myNode s ≠ none → tfind s.tir.indexes (BitVec.toNat i) = some x → x.removing = false → BitVec.toNat src ∈ x.replicas →
      ∀ d, d = bytesOf 4 (rget s .PRB_FDOM 0).toNat →
      (fenced s = true → exec (.replicaBatch src i id ops) s = .next (commitMsg s 0x21 src.toNat id i.toNat (d ++ bytesOf 1 2)))
      ∧ (fenced s = false → overcast s = true → exec (.replicaBatch src i id ops) s = .next (commitMsg s 0x21 src.toNat id i.toNat (d ++ bytesOf 1 3)))
      ∧ (fenced s = false → overcast s = false → (repBatch s src.toNat id).isSome = true →
        exec (.replicaBatch src i id ops) s = .next (commitMsg s 0x21 src.toNat id i.toNat (d ++ bytesOf 1 0)))
      ∧ (∀ s1, fenced s = false → overcast s = false → repBatch s src.toNat id = none →
        s1 = setBatch { s with tir := { s.tir with nextBatch := s.tir.nextBatch + 1 } } s.tir.nextBatch
          { index := i.toNat, primary := src.toNat, replica := true, phase := .inDoubt, remoteId := id, sentAt := s.now } →
        (repAppend s.tir.nextBatch i.toNat ops s1 = none → exec (.replicaBatch src i id ops) s = .next s)
        ∧ ∀ s2, repAppend s.tir.nextBatch i.toNat ops s1 = some s2 → exec (.replicaBatch src i id ops) s =
          .next (commitMsg s2 0x21 src.toNat id i.toNat (bytesOf 4 (rget s2 .PRB_FDOM 0).toNat ++ bytesOf 1 0))))
  ∧ (∀ s src id tags r v, tfind s.tir.batches id = some v → v.replica = false → v.phase = .waitAcks → BitVec.toNat src ∈ replicasOf (idx s v.index) →
      (r = 1#8 → exec (.replicaAck src id tags r) s = .next (failCommit s id v 0x0C 0 true [src.toNat]))
      ∧ (r = 2#8 → exec (.replicaAck src id tags r) s = .next (failCommit s id v 0x0A 0 true []))
      ∧ (r = 3#8 → exec (.replicaAck src id tags r) s = .next (failCommit s id v 0x09 0 true []))
      ∧ (r = 0#8 → exec (.replicaAck src id tags r) s = .next (setBatch s id { v with acks := tins v.acks src.toNat (BitVec.toNat tags) })))
  ∧ (∀ s src id b v, repBatch s (BitVec.toNat src) id = some (b, v) →
      (v.phase = .inDoubt → exec (.commitNotice src id) s = .next (commitMsg (setBatch s b { v with phase := .noticed }) 0x23 src.toNat id v.index [])
        ∧ exec (.discardNotice src id) s = .next (setBatch s b { v with phase := .dead }))
      ∧ (v.phase ≠ .inDoubt → exec (.commitNotice src id) s = .next (commitMsg s 0x23 src.toNat id v.index [])
        ∧ exec (.discardNotice src id) s = .next s))
  ∧ (∀ s src id, repBatch s (BitVec.toNat src) id = none → (∃ p ∈ s.tir.indexes, src.toNat ∈ p.2.replicas) →
      exec (.commitNotice src id) s = .next (commitMsg s 0x23 src.toNat id 0 []) ∧ exec (.discardNotice src id) s = .next s)
  ∧ (∀ s src id v, tfind s.tir.batches id = some v → v.phase = .waitNotices →
      (BitVec.toNat src ∉ v.noticed → exec (.noticeAck src id) s = .next (setBatch s id { v with noticed := src.toNat :: v.noticed }))
      ∧ (src.toNat ∈ v.noticed → exec (.noticeAck src id) s = .next s)
      ∧ (v.replica = false → exec (.outcomeQuery src id) s = .next (commitMsg s 0x22 src.toNat id v.index [])))
  ∧ (∀ s id v, tfind s.tir.batches id = some v → v.replica = false → v.phase = .waitAcks →
      (v.sentAt + (idx s v.index).commitTmo * 1000 ≤ s.now → (∃ n ∈ replicasOf (idx s v.index), ∀ a ∈ v.acks, a.1 ≠ n) →
        exec (.commitTimeout id) s = .next (failCommit s id v 0x0D 0x23 true []))
      ∧ (s.now < v.sentAt + (idx s v.index).commitTmo * 1000 → exec (.commitTimeout id) s = .next s)
      ∧ ((∀ n ∈ replicasOf (idx s v.index), ∃ a ∈ v.acks, a.1 = n) → exec (.commitTimeout id) s = .next s))
  ∧ (∀ s id v, tfind s.tir.batches id = some v → v.replica = true → v.phase = .inDoubt →
      (v.primary ∈ s.smc.expelled → exec (.outcomeQueryTimer id) s = .next (setBatch s id { v with phase := .noticed }))
      ∧ (v.primary ∉ s.smc.expelled → v.sentAt + (idx s v.index).commitTmo * 1000 ≤ s.now → exec (.outcomeQueryTimer id) s =
        .next (commitMsg (setBatch s id { v with sentAt := s.now }) 0x25 v.primary v.remoteId v.index []))
      ∧ (v.primary ∉ s.smc.expelled → s.now < v.sentAt + (idx s v.index).commitTmo * 1000 → exec (.outcomeQueryTimer id) s = .next s))
  ∧ ∀ s src id, tfind s.tir.batches id = none →
      (tget false s.tir.outcomes id = true → exec (.outcomeQuery src id) s = .next (commitMsg s 0x22 (BitVec.toNat src) id 0 []))
      ∧ (tget false s.tir.outcomes id = false → exec (.outcomeQuery src id) s = .next (commitMsg s 0x24 (BitVec.toNat src) id 0 []))

/-- R180 to R184, R594, R605: a group commit falls due at its interval, in P0 to P2 of a ready node; it publishes the next epoch, with the
batches that are ready; outside P0 one with work wakes the node. -/
def Sys2Proof.Claims.GroupCommitPublishesTheNextEpoch : Prop :=
  (∀ s n, s.now < s.tir.nextCommit → exec (.groupCommit n) s = .next s)
  ∧ (∀ s n, s.tir.nextCommit ≤ s.now → 1 ≤ fget s F.PRB_PWR_STAT_STATE → commitWork s = true → exec (.groupCommit n) s = .next (wakeNode s))
  ∧ (∀ s n, s.tir.nextCommit ≤ s.now → fget s F.PRB_PWR_STAT_STATE = 0 → fget s F.PRB_STEP_READY = 0 → exec (.groupCommit n) s = .next s)
  ∧ (∀ s n s0, s.tir.nextCommit ≤ s.now → fget s F.PRB_PWR_STAT_STATE = 0 → fget s F.PRB_STEP_READY = 1 → flashGone s = false →
      s.tir.epoch + 2 ^ 19 ≤ s.tir.reserve → s.tir.merges = [] → s.tir.retired = [] → s.tir.cuts = [] →
      (∀ p ∈ s.tir.indexes, p.2.ovrNext = none) →
      s0 = { s with tir := { s.tir with
        jdone := max s.tir.jdone (min n s.tir.jseq), nextCommit := s.now + max 10 (min 100 (fget s F.TIR_EPOCH_CTL_INTERVAL)) * 1000 } } →
      (s.tir.batches = [] → exec (.groupCommit n) s = .next { s0 with tir := { s0.tir with epoch := s.tir.epoch + 1 } })
      ∧ (∀ b v id tag c s3, s.tir.batches = [(b, v)] → v.replica = false → v.phase = .decided → (∀ e ∈ v.ents, e.jnl ≤ s0.tir.jdone) →
        v.cmd = some id → findTir s id = some (tag, c) → lane64 c.tok.desc 1 = 0 → s3 = markBatch s0 v (s.tir.epoch + 1) →
        exec (.groupCommit n) s = .next (endTir { s3 with tir := { s3.tir with
          epoch := s.tir.epoch + 1, batches := [], outcomes := tins s3.tir.outcomes b true } } tag c 0 0 0 0)))
  ∧ (∀ s b v, v.replica = false → v.phase = .waitAcks → fenced s = false → overcast s = false →
      (replicasOf (idx s v.index) = [] → decide1 s b v = setBatch s b { v with phase := .decided })
      ∧ (∀ n ∈ replicasOf (idx s v.index), (∀ a ∈ v.acks, a.1 ≠ n) → decide1 s b v = s))

/-- R200 to R202: a pin takes a free handle and holds an epoch until its domain unpins it; none is free at the limit. -/
def Sys2Proof.Claims.PinsHoldEpochs : Prop :=
  (∀ s tag c i, TirNext 0x12 s tag c → i = laneBits c.tok.desc 0 0 8 → laneBits c.tok.desc 0 9 55 = 0 → lane64 c.tok.desc 2 = 0 →
      (∃ x, indexOf s c.tok.dom i = some x) →
      ∀ e, laneBits c.tok.desc 1 48 16 = 0 →
      (laneBits c.tok.desc 0 8 1 = 0 ∧ (∃ j, jobOf s tag.toNat = some j ∧ e = j.epoch)
        ∨ laneBits c.tok.desc 0 8 1 = 1 ∧ e = laneBits c.tok.desc 1 0 48 ∧ epochOk s tag.toNat i e = true) →
      (∀ h, h < 1024 → tfind s.tir.pins h = none → (∀ k < h, tfind s.tir.pins k ≠ none) → exec (.pin tag) s =
        .next (endTir { s with tir := { s.tir with pins := tins s.tir.pins h { dom := c.tok.dom, index := i, epoch := e } } } tag.toNat c 0 0 h 0))
      ∧ ((∀ k < 1024, tfind s.tir.pins k ≠ none) →
        exec (.pin tag) s = .next (endTir (fbump s F.TIR_PIN_STAT_REFUSED) tag.toNat c 0x0E 0 0 0)))
  ∧ (∀ s tag c h p, TirNext 0x13 s tag c → h = laneBits c.tok.desc 1 0 10 → laneBits c.tok.desc 0 8 56 = 0 → laneBits c.tok.desc 1 10 54 = 0 →
      lane64 c.tok.desc 2 = 0 → (∃ x, indexOf s c.tok.dom (laneBits c.tok.desc 0 0 8) = some x) → tfind s.tir.pins h = some p →
      (p.dom = c.tok.dom → p.index = laneBits c.tok.desc 0 0 8 → exec (.unpin tag) s =
        .next (endTir { s with tir := { s.tir with pins := tdel s.tir.pins h } } tag.toNat c 0 0 0 0))
      ∧ (p.dom ≠ c.tok.dom ∨ p.index ≠ laneBits c.tok.desc 0 0 8 → exec (.unpin tag) s = .next (endCmd s 14 tag.toNat c 0x0B 0 0 0)))
  ∧ ∀ s h p, tfind s.tir.pins h = some p → oldestHold s ≤ p.epoch

/-- R205 to R208: the steps of a merge: OPEN of a list without a record makes one at the published epoch, or resumes one that a restart left;
FOLD counts the entries off 65,536 a step and stands complete with the last; SWAP waits for a group commit; CLOSE waits for the swap; a step
out of order, or of another job, is refused. -/
def Obligations.MergesGoStepByStep : Prop :=
  (∀ s tag c k, StepNext 0 s tag c → k = listKey (mIndex c) (mList c) →
      (tfind s.tir.merges k = none → ∀ s1, s1 = { s with tir := { s.tir with jseq := s.tir.jseq + 1 } } →
        exec (.mergeOpen tag) s = .next (endTir (setMerge s1 k { cut := s.tir.epoch, job := some tag.toNat, next := 1, last := 0 }) tag.toNat c 0 0
          (mList c) 2))
      ∧ (∀ m, mergeOf s k = some m → exec (.mergeOpen tag) s = .next (endCmd s 14 tag.toNat c 0x0B 0x2A 0 0)))
  ∧ (∀ s tag c k m, TirNext 0x17 s tag c → mStep c = 0 → mChoose c = true → overcast s = false → laneBits c.tok.desc 0 42 22 = 0 →
      lane64 c.tok.desc 1 = 0 → lane64 c.tok.desc 2 = 0 → (∃ x, indexOf s c.tok.dom (mIndex c) = some x) →
      (s.tir.merges.filter fun p => p.1 / 2 ^ 24 == mIndex c && p.2.job.isNone && !p.2.hotset).head? = some (k, m) →
      exec (.mergeOpen tag) s = .next (endTir (setMerge s k { m with job := some tag.toNat }) tag.toNat c 0 0 (k % 2 ^ 24) (1 + 2 * m.next)))
  ∧ (∀ s tag c x, TirNext 0x17 s tag c → mStep c = 0 → mChoose c = true → overcast s = false → laneBits c.tok.desc 0 42 22 = 0 →
      lane64 c.tok.desc 1 = 0 → lane64 c.tok.desc 2 = 0 → indexOf s c.tok.dom (mIndex c) = some x → s.tir.merges = [] →
      (∀ l < x.lists, listDue x (listRoot s (mIndex c) l) = false) →
      exec (.mergeOpen tag) s = .next (endCmd s 14 tag.toNat c 0x01 0x28 0 0))
  ∧ (∀ s tag c m i l f, StepNext 1 s tag c → Expects 1 s c m → i = mIndex c → l = mList c → f = foldPlan s (idx s i) (listRoot s i l) m.cut →
      ∀ s0, s0 = { s with tir := { s.tir with jseq := s.tir.jseq + 1 } } →
      (m.foldDone = true → exec (.mergeFold tag) s = .next (endTir s tag.toNat c 0 0 0 0))
      ∧ (m.foldDone = false → m.built + 65536 < f.total → exec (.mergeFold tag) s = .next (endTir (setMerge s0 (listKey i l)
          { m with built := m.built + 65536, next := 1, last := 1, jnl := s.tir.jseq + 1 }) tag.toNat c 0 0 (f.total - m.built - 65536) 0))
      ∧ (∀ old new gs s1 all, m.foldDone = false → f.total ≤ m.built + 65536 →
        allSome (f.rewrite.map fun p => allSome (p.2.map (segEnt s (idx s i) p.1 (hotOrds s (idx s i).dom p.1)))) = some old →
        allSome (f.inserts.map (hazeMEnt s (idx s i))) = some new →
        buildChain i l ((new :: old).zipIdx.map fun p =>
          ((f.rewrite.map fun q => q.1.seq).foldl max (f.kept.foldl (fun n g => max n g.seq) 0) + 1 + p.2, p.1))
          (match f.kept.head? with | some g => g.addr | none => 0) s0 = some (gs, s1) → all = gs ++ f.kept →
        exec (.mergeFold tag) s = .next (endTir (setMerge s1 (listKey i l) { m with
          built := f.total, foldDone := true, next := 2, last := 1, jnl := s.tir.jseq + 1, head := (match all.head? with | some g => g.addr | none => 0)
          segs := all.length, items := (all.map (·.items)).foldl (· + ·) 0, tiles := (all.map (·.tiles)).foldl (· + ·) 0
          newSegs := gs.map (·.addr) }) tag.toNat c 0 0 0 0)))
  ∧ (∀ s tag c m k, StepNext 2 s tag c → Expects 2 s c m → k = listKey (mIndex c) (mList c) →
      (m.swapped = true → exec (.mergeSwap tag) s = .next (endTir s tag.toNat c 0 0 0 0))
      ∧ (m.swapped = false → ∀ s1, s1 = { s with tir := { s.tir with jseq := s.tir.jseq + 1 } } → exec (.mergeSwap tag) s =
        .next (putCmd (setMerge s1 k { m with
          scheduled := true, next := 3, last := 2, jnl := max m.jnl (s.tir.jseq + 1), cmds := m.cmds ++ [c.id] }) 14 tag.toNat
          { c with phase := .running })))
  ∧ (∀ s tag c m k, StepNext 3 s tag c → Expects 3 s c m → k = listKey (mIndex c) (mList c) →
      (m.swapped = false → exec (.mergeClose tag) s = .next s)
      ∧ (m.swapped = true → mEvent c = false → exec (.mergeClose tag) s = .next
        (endTir { s with tir := { s.tir with merges := tdel s.tir.merges k, jseq := s.tir.jseq + 1 } } tag.toNat c 0 0 0 0)))
  ∧ (∀ (row : (W32 → Instr) × Nat), row ∈ [(.mergeFold, 1), (.mergeSwap, 2), (.mergeClose, 3)] → ∀ s tag c, StepNext row.2 s tag c →
      (∀ m, mergeOf s (listKey (mIndex c) (mList c)) = some m → m.job ≠ some c.tok.job ∨ m.next ≠ row.2 ∧ m.last ≠ row.2) →
      exec (row.1 tag) s = .next (endCmd s 14 tag.toNat c 0x0B 0x2A 0 0))
  ∧ (∀ (row : (W32 → Instr) × Nat), row ∈ [(.mergeOpen, 0), (.mergeFold, 1), (.mergeSwap, 2), (.mergeClose, 3)] → ∀ s tag c,
      TirNext 0x17 s tag c → mStep c = row.2 → overcast s = true → exec (row.1 tag) s = .next (endCmd s 14 tag.toNat c 0x09 0 0 0))
  ∧ ∀ s k m e t, performSwap s k m e = some t → m.cmds = [] → m.hotset = false →
      tfind t.tir.cuts k = some m.cut ∧ tfind t.tir.merges k = some { m with swapped := true, swapEpoch := e, cmds := [] }

/-- R388 to R390: the page form of UPDRAFT moves its pages to the tier named: a page that is there already is neither acted on nor skipped, a
single-home page migrates, a cached page is filled, or written back and dropped; the hot-set form builds fresh headers for the list's
segments and swaps them at a group commit; it is refused where the index allows none, or a merge of the list is open. -/
def Sys2Proof.Claims.UpdraftMovesPagesAndHotSets : Prop :=
  (∀ s tag c a n t mv, TirNext 0x16 s tag c → laneBits c.tok.desc 0 56 8 = 0 → a = laneBits c.tok.desc 0 0 56 → n = laneBits c.tok.desc 1 0 32 →
      t = laneBits c.tok.desc 1 32 4 → laneBits c.tok.desc 1 36 28 = 0 → lane64 c.tok.desc 2 = 0 →
      (a % 65536 = 0 → 1 ≤ n → n ≤ 65536 → 1 ≤ t → t ≤ 3 → pagesIn s c.tok.dom a (n * 65536) = true →
        (∀ k i, k = pageKey c.tok.dom (a + i * 65536) → mv i = { cmd := c.id, page := k, target := t, host := (match pageRegion s k with
          | some (_, r) => if t = 3 then r.host + (pageAddr k - r.base) else 0
          | none => 0) }) →
        ∀ s1, s1 = putCmd s 14 tag.toNat { c with phase := .running } →
        exec (.updraftPage tag) s = .next (runMoves { s1 with tir := { s1.tir with moves := s1.tir.moves ++ (List.range n).map mv } }))
      ∧ (a % 65536 ≠ 0 ∨ n = 0 ∨ 65536 < n ∨ t = 0 ∨ 3 < t → exec (.updraftPage tag) s = .next (endCmd s 14 tag.toNat c 0x0B 0 0 0)))
  ∧ (∀ s m id r p s1, p = pageOf s m.page → pageRegion s m.page = some (id, r) →
      s1 = { s with tir := { s.tir with moves := s.tir.moves.filter fun x => x != m } } →
      (r.cls = 1 → p.home = m.target → m.target ≠ 3 → movePage s m = s1)
      ∧ (tsorted s.tir.pages = true → r.cls = 1 → p.home ≠ 2 → m.target = 2 → p.mig = none →
        (pageOf (movePage s m) m.page).mig = some { target := 2, hostAddr := m.host, cmd := m.cmd })
      ∧ (r.cls = 0 → m.target = 1 → r.backing ≠ 0 → p.present ≠ BitVec.allOnes 16 → movePage s m = noteMove (fillPage s1 m.page) m.cmd 1 0 false)
      ∧ (r.cls = 0 → m.target = 1 → r.backing = 0 → movePage s m = s1))
  ∧ (∀ s tag c i l n x b, TirNext 0x16 s tag c → overcast s = false → laneBits c.tok.desc 0 56 8 = 1 → laneBits c.tok.desc 1 32 16 = 0 →
      lane64 c.tok.desc 2 = 0 → i = laneBits c.tok.desc 1 24 8 → l = laneBits c.tok.desc 1 0 24 → n = laneBits c.tok.desc 1 48 16 →
      indexOf s c.tok.dom i = some x → l < x.lists →
      (bitAt x.flags 1 = false → exec (.updraftHotset tag) s = .next (endCmd s 14 tag.toNat c 0x0B 0x97 0 0))
      ∧ (∀ m, bitAt x.flags 1 = true → mergeOf s (listKey i l) = some m →
        exec (.updraftHotset tag) s = .next (endCmd s 14 tag.toNat c 0x0B 0x96 0 0))
      ∧ (∀ want chain gs m s1, bitAt x.flags 1 = true → tfind s.tir.merges (listKey i l) = none →
        operand s c.tok.dom (laneBits c.tok.desc 0 0 56) (8 * n) = .ok b → want = (List.range n).map (fun k => fieldOf b (8 * k) 8) →
        chain = chainFrom s c.tok.dom 65536 (listRoot s i l).head →
        (∀ g ∈ chain, ∀ k < g.items, want.contains (segItem s x g k) = true → (segEnt s x g [] k).isSome = true) →
        hotChain i want chain s = some (gs, m, s1) → exec (.updraftHotset tag) s = .next (putCmd
          (setMerge { s1 with tir := { s1.tir with jseq := s1.tir.jseq + 1 } } (listKey i l)
            { hotset := true, scheduled := true, head := (match gs.head? with | some g => g.addr | none => 0), newSegs := gs.map (·.addr)
              built := m, jnl := s1.tir.jseq + 1, cmds := [c.id], job := some tag.toNat }) 14 tag.toNat { c with phase := .running })))

/-- R393, R394: PARK takes the regions of a session block from active to parking, with every page that is not on flash to move there; UNPARK
takes them from parked to unparking, with every page to move to its former home; another state of a region, or a block that is malformed,
is refused; with flash lost a park needs a fallback. -/
def Sys2Proof.Claims.ParkAndUnpark : Prop :=
  ∀ (row : (W32 → Instr) × Nat × ParkState × ParkState), row ∈ [(.park, 0x14, .active, .parking), (.unpark, 0x15, .parked, .unparking)] →
  ∀ s tag c a hdr body, TirNext row.2.1 s tag c → a = laneBits c.tok.desc 0 0 56 → laneBits c.tok.desc 0 56 8 = 0 → lane64 c.tok.desc 1 = 0 →
    lane64 c.tok.desc 2 = 0 → operand s c.tok.dom a 64 = .ok hdr →
    operand s c.tok.dom (a + 64) (8 * min 64 (fieldOf hdr 4 1)) = .ok body →
    (sessionRegions s c.tok.dom hdr body = none → exec (row.1 tag) s = .next (endCmd s 14 tag.toNat c 0x0B 0x98 0 0))
    ∧ (∀ l p, sessionRegions s c.tok.dom hdr body = some l → p ∈ l → p.2.park ≠ row.2.2.1 →
      exec (row.1 tag) s = .next (endCmd s 14 tag.toNat c 0x0B 0x92 0 0))
    ∧ (∀ l, sessionRegions s c.tok.dom hdr body = some l → (l.map (·.1)).Nodup → (∀ p ∈ l, p.2.park = row.2.2.1) →
      (flashGone s = true → fieldOf hdr 8 8 = 0 → exec (row.1 tag) s = .next (endCmd s 14 tag.toNat c 0x07 0x95 0 0))
      ∧ (∀ s1 mv, flashGone s = false ∨ fieldOf hdr 8 8 ≠ 0 →
        s1 = putCmd (useRange s c.tok.dom a (64 + 8 * l.length)) 14 tag.toNat { c with phase := .running } →
        mv = (if row.2.1 = 0x14 then parkMoves s1 c.id (fieldOf hdr 8 8) l 0 else unparkMoves s1 c.id l) →
        exec (row.1 tag) s = .next (runMoves { s1 with tir := { s1.tir with
          regions := s1.tir.regions.map fun p => (p.1, if l.any fun x => x.1 == p.1 then { p.2 with park := row.2.2.2, cmd := c.id } else p.2)
          moves := s1.tir.moves ++ mv } })))

/-- R386, R387: a pass over a page ends; few sub-blocks marked, or three passes, begin the final copy; the flip puts the page at its new home
with what was written meanwhile, and the drain frees the old frame; a sub-block that cannot be read abandons the migration. -/
def Obligations.MigrationPassesFlipsAndDrains : Prop :=
  (∀ s k m, (pageOf s k).mig = some m → m.final = false → m.flipped = false →
      ((∃ i < 64, (m.passes = 0 ∨ m.mask.getLsbD i = true) ∧ homeBad s k i = true) ∨ m.target = 2 ∧ flashGone s = true →
        exec (.migrationPassEnd k) s = .next (abandonMig s k m))
      ∧ ((∀ i < 64, m.passes = 0 ∨ m.mask.getLsbD i = true → homeBad s k i = false) → m.target ≠ 2 ∨ flashGone s = false →
        (1 ≤ m.passes ∧ popcount m.mask.toNat 64 ≤ 16 ∨ 2 ≤ m.passes → exec (.migrationPassEnd k) s =
          .next (setPage s k { pageOf s k with mig := some { m with passes := m.passes + 1, final := true, finalAt := s.now } }))
        ∧ (m.passes = 0 ∨ m.passes = 1 ∧ 16 < popcount m.mask.toNat 64 → exec (.migrationPassEnd k) s =
          .next (setPage s k { pageOf s k with mig := some { m with passes := m.passes + 1, mask := 0 } }))))
  ∧ (∀ s k m, (pageOf s k).mig = some m → m.final = true → m.flipped = false →
      ((∃ i < 64, m.mask.getLsbD i = true ∧ homeBad s k i = true) → exec (.migrationFlip k) s = .next (abandonMig s k m))
      ∧ ((∀ i < 64, m.mask.getLsbD i = true → homeBad s k i = false) →
        (writeHome s k m (homeBytes s k) = none → exec (.migrationFlip k) s = .next (abandonMig s k m))
        ∧ ∀ s1 s2, writeHome s k m (homeBytes s k) = some s1 →
          s2 = setPage s1 k { pageOf s1 k with
            home := m.target, hostAddr := m.hostAddr, frame := m.frame, present := (if m.target = 1 then BitVec.allOnes 16 else 0)
            mig := some { m with flipped := true, waiting := [], oldHome := (pageOf s k).home
                                 old := (if (pageOf s k).home = 2 ∨ (pageOf s k).home = 3 then none else (pageOf s k).frame) } } →
          exec (.migrationFlip k) s = .next (serveHeld (applyWaiting (fset s2 F.TIR_MIG_STAT_FINAL_MAX
            (max (fget s2 F.TIR_MIG_STAT_FINAL_MAX) (min 0xFF (cdiv (s.now - m.finalAt) 100)))) k m.waiting) (holdPage k))))
  ∧ (∀ s k m f, (pageOf s k).mig = some m → m.flipped = true → m.old = some f → ∀ s1, s1 = setPage (scrubFrame s f) k { pageOf s k with mig := none } →
      exec (.migrationDrain k) s = .next (runMoves (noteMove (serveHeld (applyWaiting s1 k m.waiting) (holdPage k)) m.cmd 1 0 false)))
  ∧ (∀ s k, (pageOf s k).mig = none → exec (.migrationPassEnd k) s = .next s ∧ exec (.migrationFlip k) s = .next s
      ∧ exec (.migrationDrain k) s = .next s)
  ∧ ∀ s k m, (pageOf s k).mig = some m → m.flipped = false → exec (.migrationDrain k) s = .next s

/-- R146 to R151, R173 to R177, R656: a write of an index operation starts it, and a remove that will succeed refuses every new use of its
index; as it completes, an install empties the tables and places the index, a remove drops it, an override takes effect at the next group commit. -/
def Obligations.IndexCommands : Prop :=
  (∀ (row : (W32 → Instr) × Nat), row ∈ [(.indexInstall, 1), (.indexRemove, 2), (.overrideSet, 3), (.overrideClear, 4)] →
      ∀ s v s1 i dom, Awake s → fget s F.TIR_IDX_STAT_BUSY = 0 → BitVec.toNat (BitVec.extractLsb' 20 4 v) = row.2 →
      s1 = regWritePlain s .TIR_IDX_CMD 0 v → i = fget s1 F.TIR_IDX_CMD_INDEX → dom = fget s1 F.TIR_IDX_CMD_DOMAIN →
      ∃ t, exec (row.1 v) s = .next t ∧ t.regs = (fset s1 F.TIR_IDX_STAT_BUSY 1).regs ∧ { t with tir := s.tir, regs := s.regs } = s
        ∧ ∀ go l, (go ↔ row.2 = 2 ∧ ownIndex s dom i = true ∧ indexBusy s i = false) →
          (go → l = [dom, rpair s .TIR_IDX_DESC_LO .TIR_IDX_DESC_HI, 1] → t.tir = { s.tir with
            idxCmd := some { op := row.2, arg := i, args := l }, indexes := tmod s.tir.indexes i fun x => { x with removing := true } })
          ∧ (¬ go → l = [dom, rpair s .TIR_IDX_DESC_LO .TIR_IDX_DESC_HI, 0] → t.tir = { s.tir with
            idxCmd := some { op := row.2, arg := i, args := l } }))
  ∧ (∀ s c s1, s.tir.idxCmd = some c → s1 = { s with tir := { s.tir with idxCmd := none } } →
      (indexEffect c s = none → exec .indexCommandComplete s = .next (fset (fset s1 F.TIR_IDX_STAT_STATUS 0x0B) F.TIR_IDX_STAT_BUSY 0))
      ∧ ∀ s2 s3, indexEffect c s = some s2 → s3 = { s2 with tir := { s2.tir with idxCmd := none } } →
        exec .indexCommandComplete s = .next (fset (fset s3 F.TIR_IDX_STAT_STATUS 0) F.TIR_IDX_STAT_BUSY 0))
  ∧ (∀ s c dom a g x, c.op = 3 ∨ c.op = 4 → c.args = [dom, a, g] → tfind s.tir.indexes c.arg = some x →
      (domActive s dom = true → x.dom = dom → indexEffect c s = some (setIndex s c.arg { x with
        ovrCmd := decide (c.op = 3), ovrNext := some (decide (c.op = 3)) }))
      ∧ (domActive s dom = false ∨ x.dom ≠ dom → indexEffect c s = none))
  ∧ (∀ s i, tsorted s.tir.indexes = true → tfind (removeIndex s i).tir.indexes i = none)
  ∧ ∀ s dom i a t, installIndex s dom i a = some t → domActive s dom = true ∧ a % 64 = 0 ∧ tfind s.tir.indexes i = none
      ∧ ∃ b, uBytes s dom a 128 = some b ∧ descWf b i = true ∧ namesNode s (parseIndex s dom b) = true
        ∧ (∃ x, tfind t.tir.indexes i = some x ∧ x.dom = dom ∧ x.lists = fieldOf b 0x10 4 ∧ x.dim = fieldOf b 8 2 ∧ x.root = fieldOf b 0x18 8)

/-- R373 to R375, R383, R397, R656: a write of a region operation starts it, and a remove that will succeed refuses every new use of its
region; as it completes, a create makes a region that overlaps none, with its pages at their first home, a remove scrubs and drops it,
cleaning writes its dirty pages back and invalidating drops its copies; the status says what refused it. -/
def Obligations.RegionCommands : Prop :=
  (∀ (row : (W32 → Instr) × Nat), row ∈ [(.regionCreate, 1), (.regionRemove, 2), (.regionClean, 3), (.regionInvalidate, 4),
        (.regionCleanInvalidate, 5)] →
      ∀ s v s1 dom a h, Awake s → fget s F.TIR_RGN_STAT_BUSY = 0 → BitVec.toNat (BitVec.extractLsb' 12 4 v) = row.2 →
      s1 = regWritePlain s .TIR_RGN_CMD 0 v → dom = fget s1 F.TIR_RGN_CMD_DOMAIN →
      a = fget s1 F.TIR_RGN_DESC_LO_V + 2 ^ 32 * fget s1 F.TIR_RGN_DESC_HI_V → h = fget s1 F.TIR_RGN_DESC_HI_HOST →
      ∃ t id, exec (row.1 v) s = .next t ∧ t.regs = (fset s1 F.TIR_RGN_STAT_BUSY 1).regs ∧ { t with tir := s.tir, regs := s.regs } = s
        ∧ (∀ l, l = [a, h, id] → t.tir.rgnCmd = some { op := row.2, arg := dom, args := l })
        ∧ (row.2 ≠ 2 → id = 0 ∧ t.tir.regions = s.tir.regions)
        ∧ (∀ i, row.2 = 2 → regionChecks s1 2 dom (readDesc s1 dom a 64 (h == 1) false) = (0, 0, i) → 0 < i →
          id = i ∧ t.tir.regions = tmod s.tir.regions i fun r => { r with removing := true }))
  ∧ (∀ s c b st rs s1, s.tir.rgnCmd = some c → regionEffect c b s = (st, rs, s1) → ∀ s2, s2 = { s1 with tir := { s1.tir with rgnCmd := none } } →
      exec (.regionCommandComplete b) s = .next
        (fset (fset (fset s2 F.TIR_RGN_STAT_STATUS st) F.TIR_RGN_STAT_REASON rs) F.TIR_RGN_STAT_BUSY 0))
  ∧ (∀ s c b a h id s0 d, c.args = [a, h, id] → 1 ≤ c.op → c.op ≤ 5 →
      s0 = { s with tir := { s.tir with regions := tmod s.tir.regions id fun r => { r with removing := false } } } →
      readDesc s0 c.arg a 64 (h == 1) b = some d →
      (∀ st rs i, regionChecks s0 c.op c.arg (some d) = (st, rs, i) → st ≠ 0 → regionEffect c b s = (st, rs, s0))
      ∧ (∀ i, regionChecks s0 c.op c.arg (some d) = (0, 0, i) →
        (c.op = 1 → regionEffect c b s = createRegion s0 c.arg d)
        ∧ (c.op = 2 → id ≠ 0 → regionEffect c b s = (0, 0, dropRegion s0 id))
        ∧ (c.op = 3 → regionEffect c b s = (0, 0, (rangePages s0 c.arg (rdBase d) (rdLen d)).foldl writeBack s0))
        ∧ (c.op = 4 → regionEffect c b s = (0, 0, (rangePages s0 c.arg (rdBase d) (rdLen d)).foldl invalidate s0))
        ∧ (c.op = 5 → regionEffect c b s = (0, 0, (rangePages s0 c.arg (rdBase d) (rdLen d)).foldl (fun s2 k => invalidate (writeBack s2 k) k) s0))))
  ∧ (∀ s dom b r, parseRegion dom b = some r → s.tir.regions.length < 65536 →
      ((∃ p ∈ s.tir.regions, p.2.dom = dom ∧ crosses p.2.base p.2.len r.base r.len = true) → createRegion s dom b = (0x0B, 0x90, s))
      ∧ ((∀ p ∈ s.tir.regions, p.2.dom = dom → crosses p.2.base p.2.len r.base r.len = false) →
        (needsFrames r = true → poolFrames s dom < r.len / 65536 → createRegion s dom b = (0x0B, 0x91, s))
        ∧ ∀ s1, needsFrames r = false ∨ r.len / 65536 ≤ poolFrames s dom → homePages r (regionPages r) s = some s1 →
          createRegion s dom b = (0, 0, { s1 with tir := { s1.tir with
            regions := tins s1.tir.regions s1.tir.nextRegion r, nextRegion := s1.tir.nextRegion + 1 } })))
  ∧ (∀ s dom b, parseRegion dom b = none → createRegion s dom b = (0x0B, 0x90, s))
  ∧ ∀ dom b r, parseRegion dom b = some r → r.dom = dom ∧ r.base % 65536 = 0 ∧ r.len % 65536 = 0 ∧ 0 < r.len ∧ r.base + r.len ≤ 2 ^ 55
      ∧ r.cls ≤ 2 ∧ r.park = .active ∧ r.removing = false

/-- R87, R98, R129, R144, R258: a command whose effects are done, and whose candidates are taken, leaves its engine: its result word is written
where it names an area, its counter pulses, and grants and posts that waited for it go; without one nothing changes. -/
def Sys2Proof.Claims.EngineCommandsComplete : Prop :=
  (∀ s cls inst c s1, cls ≠ 0 → (cmdsOf s cls inst).find? (fun c => c.phase == .finishing && !candsWait s c.id) = some c → c.silent = 0 →
      s1 = setCmds s cls inst ((cmdsOf s cls inst).filter fun x => x.id != c.id) →
      ∀ inc, inc = c.tok.inc.toNat + (if c.tok.kind = .enc then c.work else 0) →
      (hasResult c.tok.desc = false → exec (.engineCommandComplete cls inst) s = .next (flushPosts (sweepGrants (pulseTok s1 c.tok inc))))
      ∧ (∀ s2, hasResult c.tok.desc = true → uWrite s1 c.tok.dom (resAddr c.tok.desc + resOff c inst)
          (resWord c.status c.reason c.count c.spec ++ c.aux.flatMap (bytesOf 8)) = .ok s2 →
        exec (.engineCommandComplete cls inst) s = .next (flushPosts (sweepGrants (pulseTok s2 c.tok inc)))))
  ∧ (∀ s cls inst, cls ≠ 0 → (∀ c ∈ cmdsOf s cls inst, c.phase ≠ .finishing) → exec (.engineCommandComplete cls inst) s = .next s)
  ∧ (∀ s stack i r s1 s2, s.stk.ranks.find? (fun p => p.2.stack == stack && p.2.started && p.2.left == [] && !candsWait s p.1) = some (i, r) →
      s1 = { s with stk := { s.stk with ranks := tdel s.stk.ranks i } } → (∃ j, jobOf s r.tok.job = some j) → hasResult r.tok.desc = true →
      uWrite s1 r.tok.dom (resAddr r.tok.desc + 8 * r.word) (resWord r.status r.reason r.count r.stopped) = .ok s2 →
      exec (.engineCommandComplete 0 stack) s = .next (r.banks.foldl beginNext (flushPosts (sweepGrants (pulseTok s2 r.tok r.tok.inc.toNat)))))

/-- A step runs the command at the front of the queue on the state with the rest of the queue, and only then; with no command waiting it lets
a nanosecond pass (the model's choice, log entry 2). -/
def Sys2Proof.Claims.StepRunsTheFrontCommand : Prop :=
  (∀ (s : State) c rest, step { s with pending := c :: rest } = exec c { s with pending := rest })
  ∧ (∀ (s : State), step { s with pending := [] } = .next (tick { s with pending := [] }))
  ∧ ∀ s, s.hiu.waiting = [] → (tick s).now = s.now + 1

/-- Every command of the table has an effect in every state: no command faults and none is refused, so no step stops. -/
def Sys2Proof.Claims.EveryCommandHasAnEffect : Prop :=
  (∀ c s, ∃ t, exec c s = .next t) ∧ ∀ s, ¬ Stops s

/-- A command leaves the queue of waiting commands as it is. -/
def Obligations.CommandsLeaveTheQueue : Prop := ∀ c s t, exec c s = .next t → t.pending = s.pending

/-- R14, R40: after power-on every field of every register holds the value of its Reset column, device time is zero, no memory holds anything but
zeros, no command waits, nothing has left the part, and no job, plan, index, region, window, domain or command exists. -/
def Sys2Proof.Claims.PowerOnState : Prop :=
  (∀ r b, rget State.reset r b = regReset r)
  ∧ (∀ r, ∀ f ∈ regFields r, f.reset < 2 ^ f.w → bitsOf (regReset r).toNat f.lsb f.w = f.reset)
  ∧ State.reset.now = 0 ∧ State.reset.pending = [] ∧ State.reset.out = []
  ∧ (∀ a n, stkBytes State.reset a n = List.replicate n 0) ∧ (∀ a n, tileBytes State.reset a n = List.replicate n 0)
  ∧ (∀ a n, hostRead State.reset a n = List.replicate n 0)
  ∧ State.reset.exec.jobs = [] ∧ State.reset.exec.plans = [] ∧ State.reset.tir.indexes = [] ∧ State.reset.tir.regions = []
  ∧ State.reset.fab.windows = [] ∧ State.reset.smc.doms = [] ∧ State.reset.cmds = [] ∧ State.reset.flt.log = []

/-- The state after power-on is sound. -/
def Sys2Proof.Claims.PowerOnStateIsSound : Prop := Sound State.reset

/-- Every step keeps soundness: the memories and the register file stay in canonical form, so that equal contents are equal states, and the hold
of event records and the fault log stay within R497's 4,096 and R619's 1,024. -/
def Obligations.SoundStatesStaySound : Prop := ∀ s t, Sound s → step s = .next t → Sound t

/-- A write to a memory is read back, and every other byte reads as before: stacks, tile SRAM and host memory (R244, R616, R618). -/
def Obligations.MemoriesKeepWhatIsWritten : Prop :=
  (∀ m a bs x, Memory.wf m → (x < a ∨ a + bs.length ≤ x → cellsRead (cellsWrite m a bs) x 1 = cellsRead m x 1))
  ∧ (∀ m a bs, Memory.wf m → cellsRead (cellsWrite m a bs) a bs.length = bs)
  ∧ (∀ s a bs, Memory.wf s.mem.stk → stackOf a ∉ s.flt.stacksOut → stkBytes (stkWrite s a bs) a bs.length = bs)
  ∧ (∀ s a bs, stackOf a ∈ s.flt.stacksOut → stkWrite s a bs = s)
  ∧ (∀ s a bs i, stackOf a ∉ s.flt.stacksOut → i < bs.length → (a + i) / 4 ∉ (stkWrite s a bs).mem.badStk)
  ∧ (∀ s a bs x n, (x + n ≤ a ∨ a + bs.length ≤ x) → stkBytes (stkWrite s a bs) x n = stkBytes s x n)
  ∧ (∀ s a bs x n, (x + n ≤ a ∨ a + bs.length ≤ x) → tileBytes (tileWrite s a bs) x n = tileBytes s x n)
  ∧ (∀ s pasid a bs x n, (x + n ≤ a ∨ a + bs.length ≤ x) → hostRead (hostWrite s pasid a bs) x n = hostRead s x n)
  ∧ ∀ s f x n, x % 65536 + n ≤ 65536 → x / 65536 ≠ f → stkBytes (scrubFrame s f) x n = stkBytes s x n

/-! ### Statements of several parts -/

/-- R114, R115: every scalar instruction: its result, its flags, its steps, and that nothing else changes. -/
def Obligations.SpenexScalarInstructions : Prop := SpenexArithmetic ∧ SpenexDivision ∧ SpenexLogicAndMoves

/-- Loads, stores and vector rows of Spenex, and the tile regions that they may touch. -/
def Obligations.SpenexMemoryAccess : Prop := SpenexMemoryAndVectors ∧ TileAccessStaysInsideHeldRegion

/-- The life of a token: claimed whole or not at all, handed on, yielded, read. -/
def Obligations.TokensAreClaimedHandedAndYielded : Prop := ClaimGrantsWholeOrNotAtAll ∧ HandShowsTokenInTransit ∧ YieldAndTokenRead

/-- What an engine instruction does: it sends its token, or stalls, or is a violation. -/
def Obligations.EngineIssue : Prop := EngineIssueSendsTokens ∧ EngineIssueStallsOrViolates

/-- The two forms of AWAIT. -/
def Obligations.Awaits : Prop := AwaitOnView ∧ AwaitOnToken

/-- What waits goes on when its condition holds. -/
def Obligations.WaitsAndStallsEnd : Prop := WaitsEndWithTheirCondition ∧ StalledInstructionsIssueAgain

/-- Fences, views of arrival counters, and the pulses that raise them. -/
def Obligations.FencesViewsAndPulses : Prop := FenceWaitsForItsOperations ∧ ViewAndCounterRead ∧ PulseCountsOrIsStale

/-- TAKE and the forms of POST. -/
def Obligations.TakesAndPosts : Prop := TakeDeliversOneEntry ∧ PostSubmitsOrCompletes

/-- Plans are loaded and unloaded, and jobs placed on sequencers. -/
def Obligations.PlansLoadAndJobsStart : Prop := PlacementStartsTheJob ∧ PlanLoadAndUnload

/-- What ends a job for time: deadline, step bound, watchdog. -/
def Obligations.DeadlinesAndStepBounds : Prop := DeadlinesEndWorkLate ∧ StepBoundsOfASequencer

/-- Held claims are granted in order, and a job that makes way comes back. -/
def Obligations.HeldClaimsAndMakingWay : Prop := HeldClaimsAreGrantedInOrder ∧ MakingWayAndResuming

/-- The rows of the near-bank units that work on their registers. -/
def Obligations.NbuInstructions : Prop := NbuMoves ∧ NbuArithmetic

/-- Branches, emissions, yields and refresh of the near-bank units. -/
def Obligations.NbuControl : Prop := NbuBranchesAndEmit ∧ NbuYieldsAndRefresh

/-- Selection lanes, and what a selection keeps. -/
def Obligations.SelectionLanesKeepTheBest : Prop := SelectionLanes ∧ SelectionKeepsTheBest

/-- The operations on selection blocks. -/
def Obligations.MergesUniqAndCollectives : Prop := MergesAndUniq ∧ CollectiveJoinsContributions

/-- What stops an engine command, and how one completes. -/
def Obligations.EngineCommandsEnd : Prop := EngineRefusesForeignInstance ∧ EngineCommandsComplete

/-- Register accesses with an effect of their own. -/
def Obligations.RegisterWritesThatActAndReadsThatLatch : Prop := RegisterWritesThatAct ∧ LowHalvesLatchHighHalves

/-- Pace and device time. -/
def Obligations.PaceAndDeviceTime : Prop := PaceMovesBounded ∧ DeviceTimeIsDisciplined

/-- Brownouts, the governor and temperature. -/
def Obligations.SupplyAndTemperature : Prop := BrownoutsAreReported ∧ PowerAndTemperature

/-- Every step of bring-up, its start and its end. -/
def Obligations.BringUp : Prop := BringUpStepsStart ∧ BringUpStepsEnd

/-- Submission queues, doorbells, and what admits their entries. -/
def Obligations.QueuesAndAdmission : Prop := QueuesAndDoorbells ∧ AdmissionOfEntries

/-- Traffic: gate lists, egress, sampling. -/
def Obligations.GatesEgressAndSampling : Prop := GateLists ∧ EgressServesByVirtualTime ∧ QueueSampling

/-- Domains, management messages and the fence. -/
def Obligations.DomainsAndManagement : Prop := DomainsComeAndGo ∧ ManagementAndFence

/-- What a node does with a fabric request. -/
def Obligations.FabricRequestsAtTheTarget : Prop := RequestsAreCheckedInOrder ∧ RequestsAreAppliedAtTheirTarget

/-- Flash reads, programs, erases and what the media do. -/
def Obligations.FlashChannelsAndMedia : Prop := FlashReads ∧ FlashMedia

/-- Appends and commit requests of a job. -/
def Obligations.AppendsAndCommits : Prop := AppendsJoinABatch ∧ CommitRequests

/-- The group commit, and the pins that hold its epochs. -/
def Obligations.EpochsAndPins : Prop := GroupCommitPublishesTheNextEpoch ∧ PinsHoldEpochs

/-- Commands that move pages between tiers. -/
def Obligations.UpdraftParkAndUnpark : Prop := UpdraftMovesPagesAndHotSets ∧ ParkAndUnpark

/-- What a step is: the front command of the queue, which has an effect in every state. -/
def Obligations.StepsAndEffects : Prop := StepRunsTheFrontCommand ∧ EveryCommandHasAnEffect

/-- The state after power-on. -/
def Obligations.PowerOn : Prop := PowerOnState ∧ PowerOnStateIsSound
end

