-- ==== Sys2Proof/Laws/Map.lean ====
section
/-! SUPPORT. The laws of tables: reading after writing, and that every operation keeps the canonical form. -/

namespace Sys2Proof.Laws

open Sys2Proof Sys2Proof.Machine

variable {α : Type}

/-- Every key of a table is above `n`. -/
def above (n : Nat) (m : Table α) : Prop := ∀ p ∈ m, n < p.1

theorem tsorted_cons {a : Nat × α} {m : Table α} : tsorted (a :: m) = true ↔ above a.1 m ∧ tsorted m = true := by
  induction m generalizing a with
  | nil => simp [tsorted, above]
  | cons b m ih =>
    simp only [tsorted, Bool.and_eq_true, decide_eq_true_eq, above, List.mem_cons, forall_eq_or_imp] at ih ⊢
    constructor
    · rintro ⟨hab, hs⟩
      exact ⟨⟨hab, fun p hp => Nat.lt_trans hab ((ih.1 hs).1 p hp)⟩, hs⟩
    · rintro ⟨⟨hab, _⟩, hs⟩
      exact ⟨hab, hs⟩

theorem tfind_of_above {n : Nat} {m : Table α} (h : above n m) : ∀ k ≤ n, tfind m k = none := by
  induction m with
  | nil => intro k _; rfl
  | cons a m ih =>
    intro k hk
    have ha : n < a.1 := h a (List.mem_cons_self ..)
    have : a.1 ≠ k := by omega
    simp only [tfind, this, if_false]
    exact ih (fun p hp => h p (List.mem_cons_of_mem _ hp)) k hk

/-! ### Reading after a write -/

theorem tfind_tins_same (m : Table α) (k : Nat) (v : α) : tfind (tins m k v) k = some v := by
  induction m with
  | nil => simp [tins, tfind]
  | cons a m ih =>
    simp only [tins]
    split
    · simp [tfind]
    · split
      · simp [tfind]
      · rename_i h1 h2
        simp [tfind, h2, ih]

theorem tfind_tins_other (m : Table α) {k j : Nat} (v : α) (h : j ≠ k) : tfind (tins m k v) j = tfind m j := by
  have hkj : k ≠ j := fun e => h e.symm
  induction m with
  | nil => simp [tins, tfind, hkj]
  | cons a m ih =>
    simp only [tins]
    split
    · simp [tfind, hkj]
    · split
      · rename_i _ h2
        subst h2
        simp [tfind, hkj]
      · simp [tfind, ih]

theorem tfind_tdel_same {m : Table α} (hs : tsorted m = true) (k : Nat) : tfind (tdel m k) k = none := by
  induction m with
  | nil => rfl
  | cons a m ih =>
    have ⟨ha, hm⟩ := tsorted_cons.1 hs
    simp only [tdel]
    split
    · rename_i h
      exact tfind_of_above ha k (by omega)
    · rename_i h
      split
      · rename_i h2
        simp only [tfind, h, if_false]
        exact tfind_of_above ha k (by omega)
      · simp only [tfind, h, if_false]
        exact ih hm

theorem tfind_tdel_other (m : Table α) {k j : Nat} (h : j ≠ k) : tfind (tdel m k) j = tfind m j := by
  have hkj : k ≠ j := fun e => h e.symm
  induction m with
  | nil => rfl
  | cons a m ih =>
    simp only [tdel]
    split
    · rename_i h1
      subst h1
      simp [tfind, hkj]
    · split
      · rfl
      · simp [tfind, ih]

theorem tget_tput_same [DecidableEq α] {d : α} {m : Table α} (hs : tsorted m = true) (k : Nat) (v : α) :
    tget d (tput d m k v) k = v := by
  unfold tput tget
  split
  · rename_i h
    rw [tfind_tdel_same hs, h]; rfl
  · rw [tfind_tins_same]; rfl

theorem tget_tput_other [DecidableEq α] {d : α} (m : Table α) {k j : Nat} (v : α) (h : j ≠ k) :
    tget d (tput d m k v) j = tget d m j := by
  unfold tput tget
  split
  · rw [tfind_tdel_other m h]
  · rw [tfind_tins_other m v h]

theorem tins_tins (m : Table α) (k : Nat) (v w : α) : tins (tins m k v) k w = tins m k w := by
  induction m with
  | nil => simp [tins]
  | cons a m ih =>
    simp only [tins]
    split
    · simp [tins]
    · split
      · simp [tins]
      · rename_i h1 h2
        simp [tins, h1, h2, ih]

/-! ### The canonical form -/

theorem above_tins {n : Nat} {m : Table α} {k : Nat} {v : α} (h : above n m) (hk : n < k) : above n (tins m k v) := by
  induction m with
  | nil => intro p hp; simp only [tins, List.mem_singleton] at hp; subst hp; exact hk
  | cons a m ih =>
    have ha : n < a.1 := h a (List.mem_cons_self ..)
    have hm : above n m := fun p hp => h p (List.mem_cons_of_mem _ hp)
    simp only [tins]
    split
    · intro p hp
      rcases List.mem_cons.1 hp with e | hp
      · subst e; exact hk
      · exact h p hp
    · split
      · intro p hp
        rcases List.mem_cons.1 hp with e | hp
        · subst e; exact hk
        · exact hm p hp
      · intro p hp
        rcases List.mem_cons.1 hp with e | hp
        · subst e; exact ha
        · exact ih hm p hp

theorem above_tdel {n : Nat} {m : Table α} {k : Nat} (h : above n m) : above n (tdel m k) := by
  induction m with
  | nil => exact h
  | cons a m ih =>
    have hm : above n m := fun p hp => h p (List.mem_cons_of_mem _ hp)
    simp only [tdel]
    split
    · exact hm
    · split
      · exact h
      · intro p hp
        rcases List.mem_cons.1 hp with e | hp
        · subst e; exact h _ (List.mem_cons_self ..)
        · exact ih hm p hp

theorem tsorted_tins {m : Table α} (hs : tsorted m = true) (k : Nat) (v : α) : tsorted (tins m k v) = true := by
  induction m with
  | nil => simp [tins, tsorted]
  | cons a m ih =>
    have ⟨ha, hm⟩ := tsorted_cons.1 hs
    simp only [tins]
    split
    · rename_i h
      exact tsorted_cons.2 ⟨fun p hp => by
        rcases List.mem_cons.1 hp with e | hp
        · subst e; exact h
        · exact Nat.lt_trans h (ha p hp), hs⟩
    · split
      · rename_i _ h
        exact tsorted_cons.2 ⟨fun p hp => h ▸ ha p hp, hm⟩
      · rename_i h1 h2
        exact tsorted_cons.2 ⟨above_tins ha (by omega), ih hm⟩

theorem tsorted_tdel {m : Table α} (hs : tsorted m = true) (k : Nat) : tsorted (tdel m k) = true := by
  induction m with
  | nil => exact hs
  | cons a m ih =>
    have ⟨ha, hm⟩ := tsorted_cons.1 hs
    simp only [tdel]
    split
    · exact hm
    · split
      · exact hs
      · exact tsorted_cons.2 ⟨above_tdel ha, ih hm⟩

theorem mem_tins {m : Table α} {k : Nat} {v : α} {p : Nat × α} (h : p ∈ tins m k v) : p = (k, v) ∨ p ∈ m := by
  induction m with
  | nil => exact .inl (List.mem_singleton.1 h)
  | cons a m ih =>
    simp only [tins] at h
    split at h
    · rcases List.mem_cons.1 h with e | h
      · exact .inl e
      · exact .inr h
    · split at h
      · rcases List.mem_cons.1 h with e | h
        · exact .inl e
        · exact .inr (List.mem_cons_of_mem _ h)
      · rcases List.mem_cons.1 h with e | h
        · exact .inr (e ▸ List.mem_cons_self ..)
        · rcases ih h with e | h
          · exact .inl e
          · exact .inr (List.mem_cons_of_mem _ h)

theorem mem_tdel {m : Table α} {k : Nat} {p : Nat × α} (h : p ∈ tdel m k) : p ∈ m := by
  induction m with
  | nil => exact h
  | cons a m ih =>
    simp only [tdel] at h
    split at h
    · exact List.mem_cons_of_mem _ h
    · split at h
      · exact h
      · rcases List.mem_cons.1 h with e | h
        · exact e ▸ List.mem_cons_self ..
        · exact List.mem_cons_of_mem _ (ih h)

theorem tsorted_filter {m : Table α} (hs : tsorted m = true) (f : Nat × α → Bool) : tsorted (m.filter f) = true := by
  induction m with
  | nil => exact hs
  | cons a m ih =>
    have ⟨ha, hm⟩ := tsorted_cons.1 hs
    rw [List.filter_cons]
    split
    · exact tsorted_cons.2 ⟨fun p hp => ha p (List.mem_of_mem_filter hp), ih hm⟩
    · exact ih hm

theorem tcanon_iff [DecidableEq α] {d : α} {m : Table α} : tcanon d m = true ↔ tsorted m = true ∧ ∀ p ∈ m, p.2 ≠ d := by
  simp [tcanon, List.all_eq_true]

theorem tcanon_tput [DecidableEq α] {d : α} {m : Table α} (h : tcanon d m = true) (k : Nat) (v : α) :
    tcanon d (tput d m k v) = true := by
  have ⟨hs, hd⟩ := tcanon_iff.1 h
  unfold tput
  split
  · exact tcanon_iff.2 ⟨tsorted_tdel hs k, fun p hp => hd p (mem_tdel hp)⟩
  · rename_i hv
    refine tcanon_iff.2 ⟨tsorted_tins hs k v, fun p hp => ?_⟩
    rcases mem_tins hp with e | hp
    · subst e; exact hv
    · exact hd p hp

theorem tcanon_filter [DecidableEq α] {d : α} {m : Table α} (h : tcanon d m = true) (f : Nat × α → Bool) :
    tcanon d (m.filter f) = true := by
  have ⟨hs, hd⟩ := tcanon_iff.1 h
  exact tcanon_iff.2 ⟨tsorted_filter hs f, fun p hp => hd p (List.mem_of_mem_filter hp)⟩

/-- A table in canonical form is determined by what it reads. -/
theorem tcanon_ext [DecidableEq α] {d : α} {m n : Table α} (hm : tcanon d m = true) (hn : tcanon d n = true)
    (h : ∀ k, tget d m k = tget d n k) : m = n := by
  induction m generalizing n with
  | nil =>
    cases n with
    | nil => rfl
    | cons b n =>
      have e := h b.1
      simp only [tget, tfind, if_true, Option.getD_some, Option.getD_none] at e
      exact absurd e.symm ((tcanon_iff.1 hn).2 b (List.mem_cons_self ..))
  | cons a m ih =>
    have ⟨hsm, hdm⟩ := tcanon_iff.1 hm
    have ⟨ha, hsm'⟩ := tsorted_cons.1 hsm
    cases n with
    | nil =>
      have e := h a.1
      simp only [tget, tfind, if_true, Option.getD_some, Option.getD_none] at e
      exact absurd e (hdm a (List.mem_cons_self ..))
    | cons b n =>
      have ⟨hsn, hdn⟩ := tcanon_iff.1 hn
      have ⟨hb, hsn'⟩ := tsorted_cons.1 hsn
      have hk : a.1 = b.1 := by
        rcases Nat.lt_trichotomy a.1 b.1 with hlt | he | hlt
        · have e := h a.1
          have hnb : ¬ b.1 = a.1 := by omega
          simp only [tget, tfind, if_true, Option.getD_some, hnb, if_false,
            tfind_of_above hb a.1 (by omega), Option.getD_none] at e
          exact absurd e (hdm a (List.mem_cons_self ..))
        · exact he
        · have e := h b.1
          have hna : ¬ a.1 = b.1 := by omega
          simp only [tget, tfind, if_true, Option.getD_some, hna, if_false,
            tfind_of_above ha b.1 (by omega), Option.getD_none] at e
          exact absurd e.symm (hdn b (List.mem_cons_self ..))
      have hv : a.2 = b.2 := by
        have e := h a.1
        have hba : b.1 = a.1 := hk.symm
        simpa only [tget, tfind, if_true, Option.getD_some, hba] using e
      have hab : a = b := Prod.ext hk hv
      subst hab
      congr 1
      refine ih (tcanon_iff.2 ⟨hsm', fun p hp => hdm p (List.mem_cons_of_mem _ hp)⟩)
        (tcanon_iff.2 ⟨hsn', fun p hp => hdn p (List.mem_cons_of_mem _ hp)⟩) fun k => ?_
      by_cases hka : a.1 = k
      · subst hka
        simp only [tget, tfind_of_above ha a.1 (Nat.le_refl _), tfind_of_above hb a.1 (Nat.le_refl _)]
      · have e := h k
        simpa only [tget, tfind, hka, if_false] using e

end Sys2Proof.Laws
end

