-- ==== Sys2Proof/Laws/Memory.lean ====
section
/-! SUPPORT. The memories: every operation on them keeps their canonical form, and the state after reset has it. -/

namespace Sys2Proof.Laws

open Sys2Proof Sys2Proof.Machine

theorem cellsWrite_wf {m : List Host.Cell} (h : Memory.wf m) (a : Nat) (bs : List Byte) : Memory.wf (cellsWrite m a bs) := by
  induction bs generalizing m a with
  | nil => exact h
  | cons b bs ih => exact ih (tcanon_tput h a b) (a + 1)

theorem filter_wf {m : List Host.Cell} (h : Memory.wf m) (f : Host.Cell → Bool) : Memory.wf (m.filter f) := tcanon_filter h f

theorem empty_wf : Memory.wf [] := by simp [Memory.wf, tcanon, tsorted]

theorem stkWrite_wf {s : State} (h : s.mem.Wf) (a : Nat) (bs : List Byte) : (stkWrite s a bs).mem.Wf := by
  unfold stkWrite
  split
  · exact h
  · exact ⟨cellsWrite_wf h.1 a bs, h.2⟩
theorem scrubFrame_wf {s : State} (h : s.mem.Wf) (f : Nat) : (scrubFrame s f).mem.Wf := ⟨filter_wf h.1 _, h.2⟩
theorem scrubTile_wf {s : State} (h : s.mem.Wf) (r : Nat) : (scrubTile s r).mem.Wf := ⟨h.1, filter_wf h.2.1 _, h.2.2⟩
theorem tileWrite_wf {s : State} (h : s.mem.Wf) (a : Nat) (bs : List Byte) : (tileWrite s a bs).mem.Wf :=
  ⟨h.1, cellsWrite_wf h.2.1 a bs, h.2.2⟩
theorem flashPut_wf {s : State} (h : s.mem.Wf) (dom a : Nat) (bs : List Byte) : (flashPut s dom a bs).mem.Wf :=
  ⟨h.1, h.2.1, cellsWrite_wf h.2.2.1 _ bs, h.2.2.2⟩
theorem flashDrop_wf {s : State} (h : s.mem.Wf) (dom a n : Nat) : (flashDrop s dom a n).mem.Wf :=
  ⟨h.1, h.2.1, filter_wf h.2.2.1 _, h.2.2.2⟩
theorem hostWrite_wf {s : State} (h : s.mem.Wf) (pasid : Option Nat) (a : Nat) (bs : List Byte) : (hostWrite s pasid a bs).mem.Wf :=
  ⟨h.1, h.2.1, h.2.2.1, cellsWrite_wf h.2.2.2 a bs⟩
theorem reset_mem_wf : State.reset.mem.Wf := ⟨empty_wf, empty_wf, empty_wf, empty_wf⟩

end Sys2Proof.Laws
end

