-- ==== Sys2Proof/Laws/Ops.lean ====
section
/-!
SUPPORT. The shared operations, once each: what an instruction that a sequencer begins comes to, what a command at the head of an engine or of a
job's TIR queue comes to, and what a register access of an awake node comes to. A proof about a row cites these and unfolds only the row's body.
-/

namespace Sys2Proof.Laws

open Sys2Proof Sys2Proof.Machine Sys2Proof.Claims

/-! ### Jobs and instructions -/

@[simp] theorem setJob_setJob (s : State) (t : Nat) (a b : Job) : setJob (setJob s t a) t b = setJob s t b := by
  simp [setJob, tins_tins]
@[simp] theorem jobOf_setJob (s : State) (t : Nat) (j : Job) : jobOf (setJob s t j) t = some j := by
  simp [jobOf, setJob, tfind_tins_same]
theorem jobOf_setJob_other (s : State) {t u : Nat} (j : Job) (h : u ≠ t) : jobOf (setJob s t j) u = jobOf s u := by
  simp [jobOf, setJob, tfind_tins_other _ _ h]

theorem packFlags_eq (o : Byte) (c z n : Bool) : packFlags o c z n = flagWord o c z n := by
  unfold packFlags flagWord
  cases c <;> cases z <;> cases n <;> cases o.getLsbD 3 <;> decide
theorem setCF_eq (f : Byte) (b : Bool) : setCF f b = flagCF f b := by
  unfold setCF flagCF; cases b <;> revert f <;> decide

/-- An instruction that begins runs its body on the job with its steps counted. -/
theorem spx_begins {opc : Nat} {q : BitVec 7} {f : Spx} {s : State} {tag : Nat} {j : Job} (h : Begins opc q f s tag j) (n : Nat)
    (body : State → Nat → Job → State) : spx q f opc n body s = body (setJob s tag (paid f n j)) tag (paid f n j) := by
  obtain ⟨a, b, c, d, e, g⟩ := h
  simp [spx, a, b, c, d, e, g, paid, spent]

/-- An instruction whose effect is on the registers alone retires with them. -/
theorem pureOp_begins {opc : Nat} {q : BitVec 7} {f : Spx} {s : State} {tag : Nat} {j : Job} (h : Begins opc q f s tag j) (n : Nat)
    (g : Ctx → Ctx) : pureOp q f opc n g s = setJob s tag (retired f n (g j.ctx) j) := by
  simp only [pureOp, spx_begins h, retire, setJob_setJob, retired, stepPc, ilen, paid]
  split <;> simp

/-! ### Commands of engines and of TIR -/

/-- The command that an engine serves runs its body, or stops. -/
theorem engineOn_serves {s : State} {sel : Option Cmd} {cls inst : Nat} {kind : EngKind} {op : Nat} {c : Cmd}
    (h : Serves s sel cls inst kind op c) (body : State → Cmd → Work State) :
    engineOn sel cls inst kind op body s = match body s c with | .ok t => t | .error e => stopCmd s cls inst c e := by
  obtain ⟨h1, h2, h3, h4, h5⟩ := h
  simp only [engineOn, h1]
  rw [if_neg (by simp [h2, h3])]
  have : startChecks s cls inst c = .ok () := by
    unfold startChecks; rw [if_neg (by simp [h4])]; split
    · rename_i hh; exact h5 hh
    · rfl
  rw [this]; rfl

/-- The next TIR command of a job runs its body, or stops. -/
theorem tirCmd_next {op : Nat} {s : State} {tag : W32} {c : Cmd} (h : TirNext op s tag c) (form : Cmd → Bool) (hf : form c = true)
    (body : State → Cmd → Work State) :
    tirCmd tag.toNat op form body s = match body s c with | .ok t => t | .error e => stopCmd s 14 tag.toNat c e := by
  obtain ⟨h1, h2, h3⟩ := h
  simp only [tirCmd, h1, h2, hf, h3, bne_self_eq_false, Bool.not_true, Bool.or_self, Bool.false_eq_true, if_false]
  rfl

/-! ### Registers -/

/-- An awake node has nothing to wake. -/
theorem wakeNode_awake {s : State} (h : Awake s) : wakeNode s = s := by simp [wakeNode, h.2.1]
/-- Nothing that the host sent before waits. -/
theorem hostFree_prompt {s : State} (h : Prompt s) : hostFree s = true := by
  simp only [hostFree, writeDeferred, h.1, List.isEmpty_nil, Bool.true_and, Bool.not_eq_true', List.any_eq_false]
  intro p hp hc
  simp only [List.any_eq_true, Bool.and_eq_true] at hc
  obtain ⟨d, hd, h1, h2⟩ := hc
  rcases h.2 p hp d hd with h3 | h3
  · exact h3 (by simpa using h1)
  · simp [h3] at h2
/-- An access that may have its effect, with nothing waiting before it, has it. -/
theorem hostTurn_prompt {s : State} (h : Prompt s) (a : HostAcc) (f : State → State) : hostTurn s a true f = f s := by
  simp [hostTurn, hostFree_prompt h]
/-- A register access of an awake node has its effect. -/
theorem hostReg_awake {s : State} (h : Awake s) (r : Reg) (a : HostAcc) (f : State → State) : hostReg s r a f = f s := by
  have h1 := h.1
  simp [hostReg, hostTurn, hostFree_prompt h.2.2, inP0, h.2.1, blockAnswers, wakeNode_awake h, h1]
/-- An access to a register of HIU, SMC or PRB has its effect in every power state. -/
theorem hostReg_early {s : State} (h : Prompt s) (r : Reg) (hr : earlyBlock (regBlock r) = true) (a : HostAcc) (f : State → State) :
    hostReg s r a f = f s := by
  simp [hostReg, hostTurn, hostFree_prompt h, blockAnswers, hr]

end Sys2Proof.Laws
end

