-- ==== Sys2Proof/Laws/Regs.lean ====
section
/-! SUPPORT. The register file: reading after a write, of words and of fields, and that every write keeps its canonical form. -/

namespace Sys2Proof.Laws

open Sys2Proof Sys2Proof.Machine

/-- The key of a register names the register and its bank. -/
theorem regKey_inj {r q : Reg} {b c : Nat} (h : regKey r b = regKey q c) : r = q ∧ b % 65536 = c % 65536 := by
  have e : r.ctorIdx = q.ctorIdx ∧ b % 65536 = c % 65536 := by unfold regKey at h; omega
  refine ⟨?_, e.2⟩
  have hr := Reg.ofNat_ctorIdx r
  have hq := Reg.ofNat_ctorIdx q
  rw [e.1] at hr
  exact hr.symm.trans hq

/-- A register reads as written. -/
theorem rget_rset_same (s : State) (hs : tsorted s.regs = true) (r : Reg) (b : Nat) (v : W32) : rget (rset s r b v) r b = v :=
  tget_tput_same (α := W32) (d := regReset r) hs (regKey r b) v

/-- Another register, or another bank, reads as before. -/
theorem rget_rset_other (s : State) (r q : Reg) (b c : Nat) (v : W32) (h : r ≠ q ∨ b % 65536 ≠ c % 65536) :
    rget (rset s r b v) q c = rget s q c := by
  have e : regKey q c ≠ regKey r b := fun e => by
    have := regKey_inj e
    rcases h with h | h
    · exact h this.1.symm
    · exact h this.2.symm
  unfold rget rset tget tput
  split
  · rw [tfind_tdel_other _ e]
  · rw [tfind_tins_other _ _ e]

/-- Fields of another register read as before. -/
theorem fget_fset_other (s : State) (f g : Fld) (v b c : Nat) (h : f.reg ≠ g.reg ∨ b % 65536 ≠ c % 65536) :
    fget (fset s f v b) g c = fget s g c := by
  unfold fget fset; rw [rget_rset_other _ _ _ _ _ _ h]

/-- The bits that `putBits` puts in. -/
theorem bitsOf_putBits_same (n l w v : Nat) : bitsOf (putBits n l w v) l w = v % 2 ^ w := by
  unfold bitsOf putBits
  have hl : 0 < 2 ^ l := Nat.two_pow_pos l
  have e : n / 2 ^ (l + w) * 2 ^ (l + w) + v % 2 ^ w * 2 ^ l + n % 2 ^ l = 2 ^ l * (n / 2 ^ (l + w) * 2 ^ w + v % 2 ^ w) + n % 2 ^ l := by
    rw [Nat.pow_add]; ring
  rw [e, Nat.mul_add_div hl, Nat.div_eq_of_lt (Nat.mod_lt _ hl), Nat.add_zero, Nat.add_comm, Nat.add_mul_mod_self_right, Nat.mod_mod]

/-- Bits below and above what `putBits` puts in stay. -/
theorem bitsOf_putBits_other (n l w v l2 w2 : Nat) (h : l + w ≤ l2 ∨ l2 + w2 ≤ l) : bitsOf (putBits n l w v) l2 w2 = bitsOf n l2 w2 := by
  apply Nat.eq_of_testBit_eq
  intro i
  unfold bitsOf
  rw [Nat.testBit_mod_two_pow, Nat.testBit_mod_two_pow]
  by_cases hi : i < w2
  · simp only [hi, decide_true, Bool.true_and, Nat.testBit_div_two_pow]
    unfold putBits
    have hl : n % 2 ^ l < 2 ^ l := Nat.mod_lt _ (Nat.two_pow_pos l)
    have hv : v % 2 ^ w < 2 ^ w := Nat.mod_lt _ (Nat.two_pow_pos w)
    have e : n / 2 ^ (l + w) * 2 ^ (l + w) + v % 2 ^ w * 2 ^ l + n % 2 ^ l = 2 ^ l * (2 ^ w * (n / 2 ^ (l + w)) + v % 2 ^ w) + n % 2 ^ l := by
      rw [Nat.pow_add]; ring
    rw [e, Nat.testBit_two_pow_mul_add _ hl]
    rcases h with h | h
    · rw [if_neg (by omega), Nat.testBit_two_pow_mul_add _ hv, if_neg (by omega), Nat.testBit_div_two_pow]
      congr 1; omega
    · rw [if_pos (by omega), Nat.testBit_mod_two_pow]
      simp [show i + l2 < l by omega]
  · simp [hi]

/-- A write keeps the register file in canonical form. -/
theorem regsWf_rset {s : State} (h : RegsWf s.regs) (r : Reg) (b : Nat) (v : W32) : RegsWf (rset s r b v).regs := by
  unfold rset tput
  split
  · exact ⟨tsorted_tdel h.1 _, fun p hp => h.2 p (mem_tdel hp)⟩
  · rename_i hv
    refine ⟨tsorted_tins h.1 _ _, fun p hp => ?_⟩
    rcases mem_tins hp with e | hp
    · subst e; exact ⟨r, b, rfl, hv⟩
    · exact h.2 p hp

end Sys2Proof.Laws
end

