-- ==== Sys2Proof/Laws/State.lean ====
section
/-!
SUPPORT. The small updates of the machine's state: for each, one equation per field that it leaves as it is. A proof that goes through such an
update rewrites with these and unfolds nothing.
-/

namespace Sys2Proof.Laws

open Sys2Proof Sys2Proof.Machine

/-! ### `putOwner`: it changes `exec` only -/

@[simp] theorem putOwner_pending (s : State) (cls inst : Nat) (o : Owner) : (putOwner s cls inst o).pending = s.pending := rfl
@[simp] theorem putOwner_now (s : State) (cls inst : Nat) (o : Owner) : (putOwner s cls inst o).now = s.now := rfl
@[simp] theorem putOwner_regs (s : State) (cls inst : Nat) (o : Owner) : (putOwner s cls inst o).regs = s.regs := rfl
@[simp] theorem putOwner_mem (s : State) (cls inst : Nat) (o : Owner) : (putOwner s cls inst o).mem = s.mem := rfl
@[simp] theorem putOwner_cmds (s : State) (cls inst : Nat) (o : Owner) : (putOwner s cls inst o).cmds = s.cmds := rfl
@[simp] theorem putOwner_nextCmd (s : State) (cls inst : Nat) (o : Owner) : (putOwner s cls inst o).nextCmd = s.nextCmd := rfl
@[simp] theorem putOwner_stk (s : State) (cls inst : Nat) (o : Owner) : (putOwner s cls inst o).stk = s.stk := rfl
@[simp] theorem putOwner_tir (s : State) (cls inst : Nat) (o : Owner) : (putOwner s cls inst o).tir = s.tir := rfl
@[simp] theorem putOwner_lanes (s : State) (cls inst : Nat) (o : Owner) : (putOwner s cls inst o).lanes = s.lanes := rfl
@[simp] theorem putOwner_groups (s : State) (cls inst : Nat) (o : Owner) : (putOwner s cls inst o).groups = s.groups := rfl
@[simp] theorem putOwner_hiu (s : State) (cls inst : Nat) (o : Owner) : (putOwner s cls inst o).hiu = s.hiu := rfl
@[simp] theorem putOwner_trf (s : State) (cls inst : Nat) (o : Owner) : (putOwner s cls inst o).trf = s.trf := rfl
@[simp] theorem putOwner_fls (s : State) (cls inst : Nat) (o : Owner) : (putOwner s cls inst o).fls = s.fls := rfl
@[simp] theorem putOwner_fab (s : State) (cls inst : Nat) (o : Owner) : (putOwner s cls inst o).fab = s.fab := rfl
@[simp] theorem putOwner_tbe (s : State) (cls inst : Nat) (o : Owner) : (putOwner s cls inst o).tbe = s.tbe := rfl
@[simp] theorem putOwner_smc (s : State) (cls inst : Nat) (o : Owner) : (putOwner s cls inst o).smc = s.smc := rfl
@[simp] theorem putOwner_flt (s : State) (cls inst : Nat) (o : Owner) : (putOwner s cls inst o).flt = s.flt := rfl
@[simp] theorem putOwner_prb (s : State) (cls inst : Nat) (o : Owner) : (putOwner s cls inst o).prb = s.prb := rfl
@[simp] theorem putOwner_freeCtr (s : State) (cls inst : Nat) (o : Owner) : (putOwner s cls inst o).freeCtr = s.freeCtr := rfl
@[simp] theorem putOwner_out (s : State) (cls inst : Nat) (o : Owner) : (putOwner s cls inst o).out = s.out := rfl

/-! ### `setJob`: it changes `exec` only -/

@[simp] theorem setJob_pending (s : State) (tag : Nat) (j : Job) : (setJob s tag j).pending = s.pending := rfl
@[simp] theorem setJob_now (s : State) (tag : Nat) (j : Job) : (setJob s tag j).now = s.now := rfl
@[simp] theorem setJob_regs (s : State) (tag : Nat) (j : Job) : (setJob s tag j).regs = s.regs := rfl
@[simp] theorem setJob_mem (s : State) (tag : Nat) (j : Job) : (setJob s tag j).mem = s.mem := rfl
@[simp] theorem setJob_cmds (s : State) (tag : Nat) (j : Job) : (setJob s tag j).cmds = s.cmds := rfl
@[simp] theorem setJob_nextCmd (s : State) (tag : Nat) (j : Job) : (setJob s tag j).nextCmd = s.nextCmd := rfl
@[simp] theorem setJob_stk (s : State) (tag : Nat) (j : Job) : (setJob s tag j).stk = s.stk := rfl
@[simp] theorem setJob_tir (s : State) (tag : Nat) (j : Job) : (setJob s tag j).tir = s.tir := rfl
@[simp] theorem setJob_lanes (s : State) (tag : Nat) (j : Job) : (setJob s tag j).lanes = s.lanes := rfl
@[simp] theorem setJob_groups (s : State) (tag : Nat) (j : Job) : (setJob s tag j).groups = s.groups := rfl
@[simp] theorem setJob_hiu (s : State) (tag : Nat) (j : Job) : (setJob s tag j).hiu = s.hiu := rfl
@[simp] theorem setJob_trf (s : State) (tag : Nat) (j : Job) : (setJob s tag j).trf = s.trf := rfl
@[simp] theorem setJob_fls (s : State) (tag : Nat) (j : Job) : (setJob s tag j).fls = s.fls := rfl
@[simp] theorem setJob_fab (s : State) (tag : Nat) (j : Job) : (setJob s tag j).fab = s.fab := rfl
@[simp] theorem setJob_tbe (s : State) (tag : Nat) (j : Job) : (setJob s tag j).tbe = s.tbe := rfl
@[simp] theorem setJob_smc (s : State) (tag : Nat) (j : Job) : (setJob s tag j).smc = s.smc := rfl
@[simp] theorem setJob_flt (s : State) (tag : Nat) (j : Job) : (setJob s tag j).flt = s.flt := rfl
@[simp] theorem setJob_prb (s : State) (tag : Nat) (j : Job) : (setJob s tag j).prb = s.prb := rfl
@[simp] theorem setJob_freeCtr (s : State) (tag : Nat) (j : Job) : (setJob s tag j).freeCtr = s.freeCtr := rfl
@[simp] theorem setJob_out (s : State) (tag : Nat) (j : Job) : (setJob s tag j).out = s.out := rfl

/-! ### `setGrant`: it changes `exec` only -/

@[simp] theorem setGrant_pending (s : State) (h : Nat) (g : Grant) : (setGrant s h g).pending = s.pending := rfl
@[simp] theorem setGrant_now (s : State) (h : Nat) (g : Grant) : (setGrant s h g).now = s.now := rfl
@[simp] theorem setGrant_regs (s : State) (h : Nat) (g : Grant) : (setGrant s h g).regs = s.regs := rfl
@[simp] theorem setGrant_mem (s : State) (h : Nat) (g : Grant) : (setGrant s h g).mem = s.mem := rfl
@[simp] theorem setGrant_cmds (s : State) (h : Nat) (g : Grant) : (setGrant s h g).cmds = s.cmds := rfl
@[simp] theorem setGrant_nextCmd (s : State) (h : Nat) (g : Grant) : (setGrant s h g).nextCmd = s.nextCmd := rfl
@[simp] theorem setGrant_stk (s : State) (h : Nat) (g : Grant) : (setGrant s h g).stk = s.stk := rfl
@[simp] theorem setGrant_tir (s : State) (h : Nat) (g : Grant) : (setGrant s h g).tir = s.tir := rfl
@[simp] theorem setGrant_lanes (s : State) (h : Nat) (g : Grant) : (setGrant s h g).lanes = s.lanes := rfl
@[simp] theorem setGrant_groups (s : State) (h : Nat) (g : Grant) : (setGrant s h g).groups = s.groups := rfl
@[simp] theorem setGrant_hiu (s : State) (h : Nat) (g : Grant) : (setGrant s h g).hiu = s.hiu := rfl
@[simp] theorem setGrant_trf (s : State) (h : Nat) (g : Grant) : (setGrant s h g).trf = s.trf := rfl
@[simp] theorem setGrant_fls (s : State) (h : Nat) (g : Grant) : (setGrant s h g).fls = s.fls := rfl
@[simp] theorem setGrant_fab (s : State) (h : Nat) (g : Grant) : (setGrant s h g).fab = s.fab := rfl
@[simp] theorem setGrant_tbe (s : State) (h : Nat) (g : Grant) : (setGrant s h g).tbe = s.tbe := rfl
@[simp] theorem setGrant_smc (s : State) (h : Nat) (g : Grant) : (setGrant s h g).smc = s.smc := rfl
@[simp] theorem setGrant_flt (s : State) (h : Nat) (g : Grant) : (setGrant s h g).flt = s.flt := rfl
@[simp] theorem setGrant_prb (s : State) (h : Nat) (g : Grant) : (setGrant s h g).prb = s.prb := rfl
@[simp] theorem setGrant_freeCtr (s : State) (h : Nat) (g : Grant) : (setGrant s h g).freeCtr = s.freeCtr := rfl
@[simp] theorem setGrant_out (s : State) (h : Nat) (g : Grant) : (setGrant s h g).out = s.out := rfl

/-! ### `setNbu`: it changes `stk` only -/

@[simp] theorem setNbu_pending (s : State) (bank : Nat) (n : Nbu) : (setNbu s bank n).pending = s.pending := rfl
@[simp] theorem setNbu_now (s : State) (bank : Nat) (n : Nbu) : (setNbu s bank n).now = s.now := rfl
@[simp] theorem setNbu_regs (s : State) (bank : Nat) (n : Nbu) : (setNbu s bank n).regs = s.regs := rfl
@[simp] theorem setNbu_mem (s : State) (bank : Nat) (n : Nbu) : (setNbu s bank n).mem = s.mem := rfl
@[simp] theorem setNbu_exec (s : State) (bank : Nat) (n : Nbu) : (setNbu s bank n).exec = s.exec := rfl
@[simp] theorem setNbu_cmds (s : State) (bank : Nat) (n : Nbu) : (setNbu s bank n).cmds = s.cmds := rfl
@[simp] theorem setNbu_nextCmd (s : State) (bank : Nat) (n : Nbu) : (setNbu s bank n).nextCmd = s.nextCmd := rfl
@[simp] theorem setNbu_tir (s : State) (bank : Nat) (n : Nbu) : (setNbu s bank n).tir = s.tir := rfl
@[simp] theorem setNbu_lanes (s : State) (bank : Nat) (n : Nbu) : (setNbu s bank n).lanes = s.lanes := rfl
@[simp] theorem setNbu_groups (s : State) (bank : Nat) (n : Nbu) : (setNbu s bank n).groups = s.groups := rfl
@[simp] theorem setNbu_hiu (s : State) (bank : Nat) (n : Nbu) : (setNbu s bank n).hiu = s.hiu := rfl
@[simp] theorem setNbu_trf (s : State) (bank : Nat) (n : Nbu) : (setNbu s bank n).trf = s.trf := rfl
@[simp] theorem setNbu_fls (s : State) (bank : Nat) (n : Nbu) : (setNbu s bank n).fls = s.fls := rfl
@[simp] theorem setNbu_fab (s : State) (bank : Nat) (n : Nbu) : (setNbu s bank n).fab = s.fab := rfl
@[simp] theorem setNbu_tbe (s : State) (bank : Nat) (n : Nbu) : (setNbu s bank n).tbe = s.tbe := rfl
@[simp] theorem setNbu_smc (s : State) (bank : Nat) (n : Nbu) : (setNbu s bank n).smc = s.smc := rfl
@[simp] theorem setNbu_flt (s : State) (bank : Nat) (n : Nbu) : (setNbu s bank n).flt = s.flt := rfl
@[simp] theorem setNbu_prb (s : State) (bank : Nat) (n : Nbu) : (setNbu s bank n).prb = s.prb := rfl
@[simp] theorem setNbu_freeCtr (s : State) (bank : Nat) (n : Nbu) : (setNbu s bank n).freeCtr = s.freeCtr := rfl
@[simp] theorem setNbu_out (s : State) (bank : Nat) (n : Nbu) : (setNbu s bank n).out = s.out := rfl

/-! ### `setCtr`: it changes `exec` only -/

@[simp] theorem setCtr_pending (s : State) (i : Nat) (c : Ctr) : (setCtr s i c).pending = s.pending := rfl
@[simp] theorem setCtr_now (s : State) (i : Nat) (c : Ctr) : (setCtr s i c).now = s.now := rfl
@[simp] theorem setCtr_regs (s : State) (i : Nat) (c : Ctr) : (setCtr s i c).regs = s.regs := rfl
@[simp] theorem setCtr_mem (s : State) (i : Nat) (c : Ctr) : (setCtr s i c).mem = s.mem := rfl
@[simp] theorem setCtr_cmds (s : State) (i : Nat) (c : Ctr) : (setCtr s i c).cmds = s.cmds := rfl
@[simp] theorem setCtr_nextCmd (s : State) (i : Nat) (c : Ctr) : (setCtr s i c).nextCmd = s.nextCmd := rfl
@[simp] theorem setCtr_stk (s : State) (i : Nat) (c : Ctr) : (setCtr s i c).stk = s.stk := rfl
@[simp] theorem setCtr_tir (s : State) (i : Nat) (c : Ctr) : (setCtr s i c).tir = s.tir := rfl
@[simp] theorem setCtr_lanes (s : State) (i : Nat) (c : Ctr) : (setCtr s i c).lanes = s.lanes := rfl
@[simp] theorem setCtr_groups (s : State) (i : Nat) (c : Ctr) : (setCtr s i c).groups = s.groups := rfl
@[simp] theorem setCtr_hiu (s : State) (i : Nat) (c : Ctr) : (setCtr s i c).hiu = s.hiu := rfl
@[simp] theorem setCtr_trf (s : State) (i : Nat) (c : Ctr) : (setCtr s i c).trf = s.trf := rfl
@[simp] theorem setCtr_fls (s : State) (i : Nat) (c : Ctr) : (setCtr s i c).fls = s.fls := rfl
@[simp] theorem setCtr_fab (s : State) (i : Nat) (c : Ctr) : (setCtr s i c).fab = s.fab := rfl
@[simp] theorem setCtr_tbe (s : State) (i : Nat) (c : Ctr) : (setCtr s i c).tbe = s.tbe := rfl
@[simp] theorem setCtr_smc (s : State) (i : Nat) (c : Ctr) : (setCtr s i c).smc = s.smc := rfl
@[simp] theorem setCtr_flt (s : State) (i : Nat) (c : Ctr) : (setCtr s i c).flt = s.flt := rfl
@[simp] theorem setCtr_prb (s : State) (i : Nat) (c : Ctr) : (setCtr s i c).prb = s.prb := rfl
@[simp] theorem setCtr_freeCtr (s : State) (i : Nat) (c : Ctr) : (setCtr s i c).freeCtr = s.freeCtr := rfl
@[simp] theorem setCtr_out (s : State) (i : Nat) (c : Ctr) : (setCtr s i c).out = s.out := rfl

/-! ### `setCmds`: it changes `cmds` only -/

@[simp] theorem setCmds_pending (s : State) (cls inst : Nat) (l : List Cmd) : (setCmds s cls inst l).pending = s.pending := rfl
@[simp] theorem setCmds_now (s : State) (cls inst : Nat) (l : List Cmd) : (setCmds s cls inst l).now = s.now := rfl
@[simp] theorem setCmds_regs (s : State) (cls inst : Nat) (l : List Cmd) : (setCmds s cls inst l).regs = s.regs := rfl
@[simp] theorem setCmds_mem (s : State) (cls inst : Nat) (l : List Cmd) : (setCmds s cls inst l).mem = s.mem := rfl
@[simp] theorem setCmds_exec (s : State) (cls inst : Nat) (l : List Cmd) : (setCmds s cls inst l).exec = s.exec := rfl
@[simp] theorem setCmds_nextCmd (s : State) (cls inst : Nat) (l : List Cmd) : (setCmds s cls inst l).nextCmd = s.nextCmd := rfl
@[simp] theorem setCmds_stk (s : State) (cls inst : Nat) (l : List Cmd) : (setCmds s cls inst l).stk = s.stk := rfl
@[simp] theorem setCmds_tir (s : State) (cls inst : Nat) (l : List Cmd) : (setCmds s cls inst l).tir = s.tir := rfl
@[simp] theorem setCmds_lanes (s : State) (cls inst : Nat) (l : List Cmd) : (setCmds s cls inst l).lanes = s.lanes := rfl
@[simp] theorem setCmds_groups (s : State) (cls inst : Nat) (l : List Cmd) : (setCmds s cls inst l).groups = s.groups := rfl
@[simp] theorem setCmds_hiu (s : State) (cls inst : Nat) (l : List Cmd) : (setCmds s cls inst l).hiu = s.hiu := rfl
@[simp] theorem setCmds_trf (s : State) (cls inst : Nat) (l : List Cmd) : (setCmds s cls inst l).trf = s.trf := rfl
@[simp] theorem setCmds_fls (s : State) (cls inst : Nat) (l : List Cmd) : (setCmds s cls inst l).fls = s.fls := rfl
@[simp] theorem setCmds_fab (s : State) (cls inst : Nat) (l : List Cmd) : (setCmds s cls inst l).fab = s.fab := rfl
@[simp] theorem setCmds_tbe (s : State) (cls inst : Nat) (l : List Cmd) : (setCmds s cls inst l).tbe = s.tbe := rfl
@[simp] theorem setCmds_smc (s : State) (cls inst : Nat) (l : List Cmd) : (setCmds s cls inst l).smc = s.smc := rfl
@[simp] theorem setCmds_flt (s : State) (cls inst : Nat) (l : List Cmd) : (setCmds s cls inst l).flt = s.flt := rfl
@[simp] theorem setCmds_prb (s : State) (cls inst : Nat) (l : List Cmd) : (setCmds s cls inst l).prb = s.prb := rfl
@[simp] theorem setCmds_freeCtr (s : State) (cls inst : Nat) (l : List Cmd) : (setCmds s cls inst l).freeCtr = s.freeCtr := rfl
@[simp] theorem setCmds_out (s : State) (cls inst : Nat) (l : List Cmd) : (setCmds s cls inst l).out = s.out := rfl

/-! ### `setPort`: it changes `trf` only -/

@[simp] theorem setPort_pending (s : State) (p : Nat) (v : Port) : (setPort s p v).pending = s.pending := rfl
@[simp] theorem setPort_now (s : State) (p : Nat) (v : Port) : (setPort s p v).now = s.now := rfl
@[simp] theorem setPort_regs (s : State) (p : Nat) (v : Port) : (setPort s p v).regs = s.regs := rfl
@[simp] theorem setPort_mem (s : State) (p : Nat) (v : Port) : (setPort s p v).mem = s.mem := rfl
@[simp] theorem setPort_exec (s : State) (p : Nat) (v : Port) : (setPort s p v).exec = s.exec := rfl
@[simp] theorem setPort_cmds (s : State) (p : Nat) (v : Port) : (setPort s p v).cmds = s.cmds := rfl
@[simp] theorem setPort_nextCmd (s : State) (p : Nat) (v : Port) : (setPort s p v).nextCmd = s.nextCmd := rfl
@[simp] theorem setPort_stk (s : State) (p : Nat) (v : Port) : (setPort s p v).stk = s.stk := rfl
@[simp] theorem setPort_tir (s : State) (p : Nat) (v : Port) : (setPort s p v).tir = s.tir := rfl
@[simp] theorem setPort_lanes (s : State) (p : Nat) (v : Port) : (setPort s p v).lanes = s.lanes := rfl
@[simp] theorem setPort_groups (s : State) (p : Nat) (v : Port) : (setPort s p v).groups = s.groups := rfl
@[simp] theorem setPort_hiu (s : State) (p : Nat) (v : Port) : (setPort s p v).hiu = s.hiu := rfl
@[simp] theorem setPort_fls (s : State) (p : Nat) (v : Port) : (setPort s p v).fls = s.fls := rfl
@[simp] theorem setPort_fab (s : State) (p : Nat) (v : Port) : (setPort s p v).fab = s.fab := rfl
@[simp] theorem setPort_tbe (s : State) (p : Nat) (v : Port) : (setPort s p v).tbe = s.tbe := rfl
@[simp] theorem setPort_smc (s : State) (p : Nat) (v : Port) : (setPort s p v).smc = s.smc := rfl
@[simp] theorem setPort_flt (s : State) (p : Nat) (v : Port) : (setPort s p v).flt = s.flt := rfl
@[simp] theorem setPort_prb (s : State) (p : Nat) (v : Port) : (setPort s p v).prb = s.prb := rfl
@[simp] theorem setPort_freeCtr (s : State) (p : Nat) (v : Port) : (setPort s p v).freeCtr = s.freeCtr := rfl
@[simp] theorem setPort_out (s : State) (p : Nat) (v : Port) : (setPort s p v).out = s.out := rfl

/-! ### `epochLatch`: it changes `tir` only -/

@[simp] theorem epochLatch_pending (s : State) : (epochLatch s).pending = s.pending := rfl
@[simp] theorem epochLatch_now (s : State) : (epochLatch s).now = s.now := rfl
@[simp] theorem epochLatch_regs (s : State) : (epochLatch s).regs = s.regs := rfl
@[simp] theorem epochLatch_mem (s : State) : (epochLatch s).mem = s.mem := rfl
@[simp] theorem epochLatch_exec (s : State) : (epochLatch s).exec = s.exec := rfl
@[simp] theorem epochLatch_cmds (s : State) : (epochLatch s).cmds = s.cmds := rfl
@[simp] theorem epochLatch_nextCmd (s : State) : (epochLatch s).nextCmd = s.nextCmd := rfl
@[simp] theorem epochLatch_stk (s : State) : (epochLatch s).stk = s.stk := rfl
@[simp] theorem epochLatch_lanes (s : State) : (epochLatch s).lanes = s.lanes := rfl
@[simp] theorem epochLatch_groups (s : State) : (epochLatch s).groups = s.groups := rfl
@[simp] theorem epochLatch_hiu (s : State) : (epochLatch s).hiu = s.hiu := rfl
@[simp] theorem epochLatch_trf (s : State) : (epochLatch s).trf = s.trf := rfl
@[simp] theorem epochLatch_fls (s : State) : (epochLatch s).fls = s.fls := rfl
@[simp] theorem epochLatch_fab (s : State) : (epochLatch s).fab = s.fab := rfl
@[simp] theorem epochLatch_tbe (s : State) : (epochLatch s).tbe = s.tbe := rfl
@[simp] theorem epochLatch_smc (s : State) : (epochLatch s).smc = s.smc := rfl
@[simp] theorem epochLatch_flt (s : State) : (epochLatch s).flt = s.flt := rfl
@[simp] theorem epochLatch_prb (s : State) : (epochLatch s).prb = s.prb := rfl
@[simp] theorem epochLatch_freeCtr (s : State) : (epochLatch s).freeCtr = s.freeCtr := rfl
@[simp] theorem epochLatch_out (s : State) : (epochLatch s).out = s.out := rfl

/-! ### `holdLatch`: it changes `tir` only -/

@[simp] theorem holdLatch_pending (s : State) : (holdLatch s).pending = s.pending := rfl
@[simp] theorem holdLatch_now (s : State) : (holdLatch s).now = s.now := rfl
@[simp] theorem holdLatch_regs (s : State) : (holdLatch s).regs = s.regs := rfl
@[simp] theorem holdLatch_mem (s : State) : (holdLatch s).mem = s.mem := rfl
@[simp] theorem holdLatch_exec (s : State) : (holdLatch s).exec = s.exec := rfl
@[simp] theorem holdLatch_cmds (s : State) : (holdLatch s).cmds = s.cmds := rfl
@[simp] theorem holdLatch_nextCmd (s : State) : (holdLatch s).nextCmd = s.nextCmd := rfl
@[simp] theorem holdLatch_stk (s : State) : (holdLatch s).stk = s.stk := rfl
@[simp] theorem holdLatch_lanes (s : State) : (holdLatch s).lanes = s.lanes := rfl
@[simp] theorem holdLatch_groups (s : State) : (holdLatch s).groups = s.groups := rfl
@[simp] theorem holdLatch_hiu (s : State) : (holdLatch s).hiu = s.hiu := rfl
@[simp] theorem holdLatch_trf (s : State) : (holdLatch s).trf = s.trf := rfl
@[simp] theorem holdLatch_fls (s : State) : (holdLatch s).fls = s.fls := rfl
@[simp] theorem holdLatch_fab (s : State) : (holdLatch s).fab = s.fab := rfl
@[simp] theorem holdLatch_tbe (s : State) : (holdLatch s).tbe = s.tbe := rfl
@[simp] theorem holdLatch_smc (s : State) : (holdLatch s).smc = s.smc := rfl
@[simp] theorem holdLatch_flt (s : State) : (holdLatch s).flt = s.flt := rfl
@[simp] theorem holdLatch_prb (s : State) : (holdLatch s).prb = s.prb := rfl
@[simp] theorem holdLatch_freeCtr (s : State) : (holdLatch s).freeCtr = s.freeCtr := rfl
@[simp] theorem holdLatch_out (s : State) : (holdLatch s).out = s.out := rfl

/-! ### `setComp`: it changes `fab` only -/

@[simp] theorem setComp_pending (s : State) (k : Nat) (c : Comp) : (setComp s k c).pending = s.pending := rfl
@[simp] theorem setComp_now (s : State) (k : Nat) (c : Comp) : (setComp s k c).now = s.now := rfl
@[simp] theorem setComp_regs (s : State) (k : Nat) (c : Comp) : (setComp s k c).regs = s.regs := rfl
@[simp] theorem setComp_mem (s : State) (k : Nat) (c : Comp) : (setComp s k c).mem = s.mem := rfl
@[simp] theorem setComp_exec (s : State) (k : Nat) (c : Comp) : (setComp s k c).exec = s.exec := rfl
@[simp] theorem setComp_cmds (s : State) (k : Nat) (c : Comp) : (setComp s k c).cmds = s.cmds := rfl
@[simp] theorem setComp_nextCmd (s : State) (k : Nat) (c : Comp) : (setComp s k c).nextCmd = s.nextCmd := rfl
@[simp] theorem setComp_stk (s : State) (k : Nat) (c : Comp) : (setComp s k c).stk = s.stk := rfl
@[simp] theorem setComp_tir (s : State) (k : Nat) (c : Comp) : (setComp s k c).tir = s.tir := rfl
@[simp] theorem setComp_lanes (s : State) (k : Nat) (c : Comp) : (setComp s k c).lanes = s.lanes := rfl
@[simp] theorem setComp_groups (s : State) (k : Nat) (c : Comp) : (setComp s k c).groups = s.groups := rfl
@[simp] theorem setComp_hiu (s : State) (k : Nat) (c : Comp) : (setComp s k c).hiu = s.hiu := rfl
@[simp] theorem setComp_trf (s : State) (k : Nat) (c : Comp) : (setComp s k c).trf = s.trf := rfl
@[simp] theorem setComp_fls (s : State) (k : Nat) (c : Comp) : (setComp s k c).fls = s.fls := rfl
@[simp] theorem setComp_tbe (s : State) (k : Nat) (c : Comp) : (setComp s k c).tbe = s.tbe := rfl
@[simp] theorem setComp_smc (s : State) (k : Nat) (c : Comp) : (setComp s k c).smc = s.smc := rfl
@[simp] theorem setComp_flt (s : State) (k : Nat) (c : Comp) : (setComp s k c).flt = s.flt := rfl
@[simp] theorem setComp_prb (s : State) (k : Nat) (c : Comp) : (setComp s k c).prb = s.prb := rfl
@[simp] theorem setComp_freeCtr (s : State) (k : Nat) (c : Comp) : (setComp s k c).freeCtr = s.freeCtr := rfl
@[simp] theorem setComp_out (s : State) (k : Nat) (c : Comp) : (setComp s k c).out = s.out := rfl

/-! ### `emit`: it changes `out` only -/

@[simp] theorem emit_pending (s : State) (o : Output) : (emit s o).pending = s.pending := rfl
@[simp] theorem emit_now (s : State) (o : Output) : (emit s o).now = s.now := rfl
@[simp] theorem emit_regs (s : State) (o : Output) : (emit s o).regs = s.regs := rfl
@[simp] theorem emit_mem (s : State) (o : Output) : (emit s o).mem = s.mem := rfl
@[simp] theorem emit_exec (s : State) (o : Output) : (emit s o).exec = s.exec := rfl
@[simp] theorem emit_cmds (s : State) (o : Output) : (emit s o).cmds = s.cmds := rfl
@[simp] theorem emit_nextCmd (s : State) (o : Output) : (emit s o).nextCmd = s.nextCmd := rfl
@[simp] theorem emit_stk (s : State) (o : Output) : (emit s o).stk = s.stk := rfl
@[simp] theorem emit_tir (s : State) (o : Output) : (emit s o).tir = s.tir := rfl
@[simp] theorem emit_lanes (s : State) (o : Output) : (emit s o).lanes = s.lanes := rfl
@[simp] theorem emit_groups (s : State) (o : Output) : (emit s o).groups = s.groups := rfl
@[simp] theorem emit_hiu (s : State) (o : Output) : (emit s o).hiu = s.hiu := rfl
@[simp] theorem emit_trf (s : State) (o : Output) : (emit s o).trf = s.trf := rfl
@[simp] theorem emit_fls (s : State) (o : Output) : (emit s o).fls = s.fls := rfl
@[simp] theorem emit_fab (s : State) (o : Output) : (emit s o).fab = s.fab := rfl
@[simp] theorem emit_tbe (s : State) (o : Output) : (emit s o).tbe = s.tbe := rfl
@[simp] theorem emit_smc (s : State) (o : Output) : (emit s o).smc = s.smc := rfl
@[simp] theorem emit_flt (s : State) (o : Output) : (emit s o).flt = s.flt := rfl
@[simp] theorem emit_prb (s : State) (o : Output) : (emit s o).prb = s.prb := rfl
@[simp] theorem emit_freeCtr (s : State) (o : Output) : (emit s o).freeCtr = s.freeCtr := rfl

/-! ### `setEvq`: it changes `hiu` only -/

@[simp] theorem setEvq_pending (s : State) (e : Nat) (v : Evq) : (setEvq s e v).pending = s.pending := rfl
@[simp] theorem setEvq_now (s : State) (e : Nat) (v : Evq) : (setEvq s e v).now = s.now := rfl
@[simp] theorem setEvq_regs (s : State) (e : Nat) (v : Evq) : (setEvq s e v).regs = s.regs := rfl
@[simp] theorem setEvq_mem (s : State) (e : Nat) (v : Evq) : (setEvq s e v).mem = s.mem := rfl
@[simp] theorem setEvq_exec (s : State) (e : Nat) (v : Evq) : (setEvq s e v).exec = s.exec := rfl
@[simp] theorem setEvq_cmds (s : State) (e : Nat) (v : Evq) : (setEvq s e v).cmds = s.cmds := rfl
@[simp] theorem setEvq_nextCmd (s : State) (e : Nat) (v : Evq) : (setEvq s e v).nextCmd = s.nextCmd := rfl
@[simp] theorem setEvq_stk (s : State) (e : Nat) (v : Evq) : (setEvq s e v).stk = s.stk := rfl
@[simp] theorem setEvq_tir (s : State) (e : Nat) (v : Evq) : (setEvq s e v).tir = s.tir := rfl
@[simp] theorem setEvq_lanes (s : State) (e : Nat) (v : Evq) : (setEvq s e v).lanes = s.lanes := rfl
@[simp] theorem setEvq_groups (s : State) (e : Nat) (v : Evq) : (setEvq s e v).groups = s.groups := rfl
@[simp] theorem setEvq_trf (s : State) (e : Nat) (v : Evq) : (setEvq s e v).trf = s.trf := rfl
@[simp] theorem setEvq_fls (s : State) (e : Nat) (v : Evq) : (setEvq s e v).fls = s.fls := rfl
@[simp] theorem setEvq_fab (s : State) (e : Nat) (v : Evq) : (setEvq s e v).fab = s.fab := rfl
@[simp] theorem setEvq_tbe (s : State) (e : Nat) (v : Evq) : (setEvq s e v).tbe = s.tbe := rfl
@[simp] theorem setEvq_smc (s : State) (e : Nat) (v : Evq) : (setEvq s e v).smc = s.smc := rfl
@[simp] theorem setEvq_flt (s : State) (e : Nat) (v : Evq) : (setEvq s e v).flt = s.flt := rfl
@[simp] theorem setEvq_prb (s : State) (e : Nat) (v : Evq) : (setEvq s e v).prb = s.prb := rfl
@[simp] theorem setEvq_freeCtr (s : State) (e : Nat) (v : Evq) : (setEvq s e v).freeCtr = s.freeCtr := rfl
@[simp] theorem setEvq_out (s : State) (e : Nat) (v : Evq) : (setEvq s e v).out = s.out := rfl

/-! ### `freeNext`: it changes `freeCtr` only -/

@[simp] theorem freeNext_pending (s : State) : (freeNext s).pending = s.pending := rfl
@[simp] theorem freeNext_now (s : State) : (freeNext s).now = s.now := rfl
@[simp] theorem freeNext_regs (s : State) : (freeNext s).regs = s.regs := rfl
@[simp] theorem freeNext_mem (s : State) : (freeNext s).mem = s.mem := rfl
@[simp] theorem freeNext_exec (s : State) : (freeNext s).exec = s.exec := rfl
@[simp] theorem freeNext_cmds (s : State) : (freeNext s).cmds = s.cmds := rfl
@[simp] theorem freeNext_nextCmd (s : State) : (freeNext s).nextCmd = s.nextCmd := rfl
@[simp] theorem freeNext_stk (s : State) : (freeNext s).stk = s.stk := rfl
@[simp] theorem freeNext_tir (s : State) : (freeNext s).tir = s.tir := rfl
@[simp] theorem freeNext_lanes (s : State) : (freeNext s).lanes = s.lanes := rfl
@[simp] theorem freeNext_groups (s : State) : (freeNext s).groups = s.groups := rfl
@[simp] theorem freeNext_hiu (s : State) : (freeNext s).hiu = s.hiu := rfl
@[simp] theorem freeNext_trf (s : State) : (freeNext s).trf = s.trf := rfl
@[simp] theorem freeNext_fls (s : State) : (freeNext s).fls = s.fls := rfl
@[simp] theorem freeNext_fab (s : State) : (freeNext s).fab = s.fab := rfl
@[simp] theorem freeNext_tbe (s : State) : (freeNext s).tbe = s.tbe := rfl
@[simp] theorem freeNext_smc (s : State) : (freeNext s).smc = s.smc := rfl
@[simp] theorem freeNext_flt (s : State) : (freeNext s).flt = s.flt := rfl
@[simp] theorem freeNext_prb (s : State) : (freeNext s).prb = s.prb := rfl
@[simp] theorem freeNext_out (s : State) : (freeNext s).out = s.out := rfl

/-! ### `dropOp`: it changes `fab` only -/

@[simp] theorem dropOp_pending (s : State) (tag : Nat) : (dropOp s tag).pending = s.pending := rfl
@[simp] theorem dropOp_now (s : State) (tag : Nat) : (dropOp s tag).now = s.now := rfl
@[simp] theorem dropOp_regs (s : State) (tag : Nat) : (dropOp s tag).regs = s.regs := rfl
@[simp] theorem dropOp_mem (s : State) (tag : Nat) : (dropOp s tag).mem = s.mem := rfl
@[simp] theorem dropOp_exec (s : State) (tag : Nat) : (dropOp s tag).exec = s.exec := rfl
@[simp] theorem dropOp_cmds (s : State) (tag : Nat) : (dropOp s tag).cmds = s.cmds := rfl
@[simp] theorem dropOp_nextCmd (s : State) (tag : Nat) : (dropOp s tag).nextCmd = s.nextCmd := rfl
@[simp] theorem dropOp_stk (s : State) (tag : Nat) : (dropOp s tag).stk = s.stk := rfl
@[simp] theorem dropOp_tir (s : State) (tag : Nat) : (dropOp s tag).tir = s.tir := rfl
@[simp] theorem dropOp_lanes (s : State) (tag : Nat) : (dropOp s tag).lanes = s.lanes := rfl
@[simp] theorem dropOp_groups (s : State) (tag : Nat) : (dropOp s tag).groups = s.groups := rfl
@[simp] theorem dropOp_hiu (s : State) (tag : Nat) : (dropOp s tag).hiu = s.hiu := rfl
@[simp] theorem dropOp_trf (s : State) (tag : Nat) : (dropOp s tag).trf = s.trf := rfl
@[simp] theorem dropOp_fls (s : State) (tag : Nat) : (dropOp s tag).fls = s.fls := rfl
@[simp] theorem dropOp_tbe (s : State) (tag : Nat) : (dropOp s tag).tbe = s.tbe := rfl
@[simp] theorem dropOp_smc (s : State) (tag : Nat) : (dropOp s tag).smc = s.smc := rfl
@[simp] theorem dropOp_flt (s : State) (tag : Nat) : (dropOp s tag).flt = s.flt := rfl
@[simp] theorem dropOp_prb (s : State) (tag : Nat) : (dropOp s tag).prb = s.prb := rfl
@[simp] theorem dropOp_freeCtr (s : State) (tag : Nat) : (dropOp s tag).freeCtr = s.freeCtr := rfl
@[simp] theorem dropOp_out (s : State) (tag : Nat) : (dropOp s tag).out = s.out := rfl

/-! ### `setDefer`: it changes `stk` only -/

@[simp] theorem setDefer_pending (s : State) (st : Nat) (l : List Defer) : (setDefer s st l).pending = s.pending := rfl
@[simp] theorem setDefer_now (s : State) (st : Nat) (l : List Defer) : (setDefer s st l).now = s.now := rfl
@[simp] theorem setDefer_regs (s : State) (st : Nat) (l : List Defer) : (setDefer s st l).regs = s.regs := rfl
@[simp] theorem setDefer_mem (s : State) (st : Nat) (l : List Defer) : (setDefer s st l).mem = s.mem := rfl
@[simp] theorem setDefer_exec (s : State) (st : Nat) (l : List Defer) : (setDefer s st l).exec = s.exec := rfl
@[simp] theorem setDefer_cmds (s : State) (st : Nat) (l : List Defer) : (setDefer s st l).cmds = s.cmds := rfl
@[simp] theorem setDefer_nextCmd (s : State) (st : Nat) (l : List Defer) : (setDefer s st l).nextCmd = s.nextCmd := rfl
@[simp] theorem setDefer_tir (s : State) (st : Nat) (l : List Defer) : (setDefer s st l).tir = s.tir := rfl
@[simp] theorem setDefer_lanes (s : State) (st : Nat) (l : List Defer) : (setDefer s st l).lanes = s.lanes := rfl
@[simp] theorem setDefer_groups (s : State) (st : Nat) (l : List Defer) : (setDefer s st l).groups = s.groups := rfl
@[simp] theorem setDefer_hiu (s : State) (st : Nat) (l : List Defer) : (setDefer s st l).hiu = s.hiu := rfl
@[simp] theorem setDefer_trf (s : State) (st : Nat) (l : List Defer) : (setDefer s st l).trf = s.trf := rfl
@[simp] theorem setDefer_fls (s : State) (st : Nat) (l : List Defer) : (setDefer s st l).fls = s.fls := rfl
@[simp] theorem setDefer_fab (s : State) (st : Nat) (l : List Defer) : (setDefer s st l).fab = s.fab := rfl
@[simp] theorem setDefer_tbe (s : State) (st : Nat) (l : List Defer) : (setDefer s st l).tbe = s.tbe := rfl
@[simp] theorem setDefer_smc (s : State) (st : Nat) (l : List Defer) : (setDefer s st l).smc = s.smc := rfl
@[simp] theorem setDefer_flt (s : State) (st : Nat) (l : List Defer) : (setDefer s st l).flt = s.flt := rfl
@[simp] theorem setDefer_prb (s : State) (st : Nat) (l : List Defer) : (setDefer s st l).prb = s.prb := rfl
@[simp] theorem setDefer_freeCtr (s : State) (st : Nat) (l : List Defer) : (setDefer s st l).freeCtr = s.freeCtr := rfl
@[simp] theorem setDefer_out (s : State) (st : Nat) (l : List Defer) : (setDefer s st l).out = s.out := rfl

/-! ### `endSeries`: it changes `exec` only -/

@[simp] theorem endSeries_pending (s : State) (q : Nat) : (endSeries s q).pending = s.pending := rfl
@[simp] theorem endSeries_now (s : State) (q : Nat) : (endSeries s q).now = s.now := rfl
@[simp] theorem endSeries_regs (s : State) (q : Nat) : (endSeries s q).regs = s.regs := rfl
@[simp] theorem endSeries_mem (s : State) (q : Nat) : (endSeries s q).mem = s.mem := rfl
@[simp] theorem endSeries_cmds (s : State) (q : Nat) : (endSeries s q).cmds = s.cmds := rfl
@[simp] theorem endSeries_nextCmd (s : State) (q : Nat) : (endSeries s q).nextCmd = s.nextCmd := rfl
@[simp] theorem endSeries_stk (s : State) (q : Nat) : (endSeries s q).stk = s.stk := rfl
@[simp] theorem endSeries_tir (s : State) (q : Nat) : (endSeries s q).tir = s.tir := rfl
@[simp] theorem endSeries_lanes (s : State) (q : Nat) : (endSeries s q).lanes = s.lanes := rfl
@[simp] theorem endSeries_groups (s : State) (q : Nat) : (endSeries s q).groups = s.groups := rfl
@[simp] theorem endSeries_hiu (s : State) (q : Nat) : (endSeries s q).hiu = s.hiu := rfl
@[simp] theorem endSeries_trf (s : State) (q : Nat) : (endSeries s q).trf = s.trf := rfl
@[simp] theorem endSeries_fls (s : State) (q : Nat) : (endSeries s q).fls = s.fls := rfl
@[simp] theorem endSeries_fab (s : State) (q : Nat) : (endSeries s q).fab = s.fab := rfl
@[simp] theorem endSeries_tbe (s : State) (q : Nat) : (endSeries s q).tbe = s.tbe := rfl
@[simp] theorem endSeries_smc (s : State) (q : Nat) : (endSeries s q).smc = s.smc := rfl
@[simp] theorem endSeries_flt (s : State) (q : Nat) : (endSeries s q).flt = s.flt := rfl
@[simp] theorem endSeries_prb (s : State) (q : Nat) : (endSeries s q).prb = s.prb := rfl
@[simp] theorem endSeries_freeCtr (s : State) (q : Nat) : (endSeries s q).freeCtr = s.freeCtr := rfl
@[simp] theorem endSeries_out (s : State) (q : Nat) : (endSeries s q).out = s.out := rfl

/-! ### `intakeDraw`: it changes `exec` only -/

@[simp] theorem intakeDraw_pending (s : State) (dom : Nat) : (intakeDraw s dom).pending = s.pending := rfl
@[simp] theorem intakeDraw_now (s : State) (dom : Nat) : (intakeDraw s dom).now = s.now := rfl
@[simp] theorem intakeDraw_regs (s : State) (dom : Nat) : (intakeDraw s dom).regs = s.regs := rfl
@[simp] theorem intakeDraw_mem (s : State) (dom : Nat) : (intakeDraw s dom).mem = s.mem := rfl
@[simp] theorem intakeDraw_cmds (s : State) (dom : Nat) : (intakeDraw s dom).cmds = s.cmds := rfl
@[simp] theorem intakeDraw_nextCmd (s : State) (dom : Nat) : (intakeDraw s dom).nextCmd = s.nextCmd := rfl
@[simp] theorem intakeDraw_stk (s : State) (dom : Nat) : (intakeDraw s dom).stk = s.stk := rfl
@[simp] theorem intakeDraw_tir (s : State) (dom : Nat) : (intakeDraw s dom).tir = s.tir := rfl
@[simp] theorem intakeDraw_lanes (s : State) (dom : Nat) : (intakeDraw s dom).lanes = s.lanes := rfl
@[simp] theorem intakeDraw_groups (s : State) (dom : Nat) : (intakeDraw s dom).groups = s.groups := rfl
@[simp] theorem intakeDraw_hiu (s : State) (dom : Nat) : (intakeDraw s dom).hiu = s.hiu := rfl
@[simp] theorem intakeDraw_trf (s : State) (dom : Nat) : (intakeDraw s dom).trf = s.trf := rfl
@[simp] theorem intakeDraw_fls (s : State) (dom : Nat) : (intakeDraw s dom).fls = s.fls := rfl
@[simp] theorem intakeDraw_fab (s : State) (dom : Nat) : (intakeDraw s dom).fab = s.fab := rfl
@[simp] theorem intakeDraw_tbe (s : State) (dom : Nat) : (intakeDraw s dom).tbe = s.tbe := rfl
@[simp] theorem intakeDraw_smc (s : State) (dom : Nat) : (intakeDraw s dom).smc = s.smc := rfl
@[simp] theorem intakeDraw_flt (s : State) (dom : Nat) : (intakeDraw s dom).flt = s.flt := rfl
@[simp] theorem intakeDraw_prb (s : State) (dom : Nat) : (intakeDraw s dom).prb = s.prb := rfl
@[simp] theorem intakeDraw_freeCtr (s : State) (dom : Nat) : (intakeDraw s dom).freeCtr = s.freeCtr := rfl
@[simp] theorem intakeDraw_out (s : State) (dom : Nat) : (intakeDraw s dom).out = s.out := rfl

/-! ### `intakeGive`: it changes `exec` only -/

@[simp] theorem intakeGive_pending (s : State) (dom : Nat) : (intakeGive s dom).pending = s.pending := rfl
@[simp] theorem intakeGive_now (s : State) (dom : Nat) : (intakeGive s dom).now = s.now := rfl
@[simp] theorem intakeGive_regs (s : State) (dom : Nat) : (intakeGive s dom).regs = s.regs := rfl
@[simp] theorem intakeGive_mem (s : State) (dom : Nat) : (intakeGive s dom).mem = s.mem := rfl
@[simp] theorem intakeGive_cmds (s : State) (dom : Nat) : (intakeGive s dom).cmds = s.cmds := rfl
@[simp] theorem intakeGive_nextCmd (s : State) (dom : Nat) : (intakeGive s dom).nextCmd = s.nextCmd := rfl
@[simp] theorem intakeGive_stk (s : State) (dom : Nat) : (intakeGive s dom).stk = s.stk := rfl
@[simp] theorem intakeGive_tir (s : State) (dom : Nat) : (intakeGive s dom).tir = s.tir := rfl
@[simp] theorem intakeGive_lanes (s : State) (dom : Nat) : (intakeGive s dom).lanes = s.lanes := rfl
@[simp] theorem intakeGive_groups (s : State) (dom : Nat) : (intakeGive s dom).groups = s.groups := rfl
@[simp] theorem intakeGive_hiu (s : State) (dom : Nat) : (intakeGive s dom).hiu = s.hiu := rfl
@[simp] theorem intakeGive_trf (s : State) (dom : Nat) : (intakeGive s dom).trf = s.trf := rfl
@[simp] theorem intakeGive_fls (s : State) (dom : Nat) : (intakeGive s dom).fls = s.fls := rfl
@[simp] theorem intakeGive_fab (s : State) (dom : Nat) : (intakeGive s dom).fab = s.fab := rfl
@[simp] theorem intakeGive_tbe (s : State) (dom : Nat) : (intakeGive s dom).tbe = s.tbe := rfl
@[simp] theorem intakeGive_smc (s : State) (dom : Nat) : (intakeGive s dom).smc = s.smc := rfl
@[simp] theorem intakeGive_flt (s : State) (dom : Nat) : (intakeGive s dom).flt = s.flt := rfl
@[simp] theorem intakeGive_prb (s : State) (dom : Nat) : (intakeGive s dom).prb = s.prb := rfl
@[simp] theorem intakeGive_freeCtr (s : State) (dom : Nat) : (intakeGive s dom).freeCtr = s.freeCtr := rfl
@[simp] theorem intakeGive_out (s : State) (dom : Nat) : (intakeGive s dom).out = s.out := rfl

/-! ### `setLink`: it changes `fab` only -/

@[simp] theorem setLink_pending (s : State) (p : Nat) (l : Link) : (setLink s p l).pending = s.pending := rfl
@[simp] theorem setLink_now (s : State) (p : Nat) (l : Link) : (setLink s p l).now = s.now := rfl
@[simp] theorem setLink_regs (s : State) (p : Nat) (l : Link) : (setLink s p l).regs = s.regs := rfl
@[simp] theorem setLink_mem (s : State) (p : Nat) (l : Link) : (setLink s p l).mem = s.mem := rfl
@[simp] theorem setLink_exec (s : State) (p : Nat) (l : Link) : (setLink s p l).exec = s.exec := rfl
@[simp] theorem setLink_cmds (s : State) (p : Nat) (l : Link) : (setLink s p l).cmds = s.cmds := rfl
@[simp] theorem setLink_nextCmd (s : State) (p : Nat) (l : Link) : (setLink s p l).nextCmd = s.nextCmd := rfl
@[simp] theorem setLink_stk (s : State) (p : Nat) (l : Link) : (setLink s p l).stk = s.stk := rfl
@[simp] theorem setLink_tir (s : State) (p : Nat) (l : Link) : (setLink s p l).tir = s.tir := rfl
@[simp] theorem setLink_lanes (s : State) (p : Nat) (l : Link) : (setLink s p l).lanes = s.lanes := rfl
@[simp] theorem setLink_groups (s : State) (p : Nat) (l : Link) : (setLink s p l).groups = s.groups := rfl
@[simp] theorem setLink_hiu (s : State) (p : Nat) (l : Link) : (setLink s p l).hiu = s.hiu := rfl
@[simp] theorem setLink_trf (s : State) (p : Nat) (l : Link) : (setLink s p l).trf = s.trf := rfl
@[simp] theorem setLink_fls (s : State) (p : Nat) (l : Link) : (setLink s p l).fls = s.fls := rfl
@[simp] theorem setLink_tbe (s : State) (p : Nat) (l : Link) : (setLink s p l).tbe = s.tbe := rfl
@[simp] theorem setLink_smc (s : State) (p : Nat) (l : Link) : (setLink s p l).smc = s.smc := rfl
@[simp] theorem setLink_flt (s : State) (p : Nat) (l : Link) : (setLink s p l).flt = s.flt := rfl
@[simp] theorem setLink_prb (s : State) (p : Nat) (l : Link) : (setLink s p l).prb = s.prb := rfl
@[simp] theorem setLink_freeCtr (s : State) (p : Nat) (l : Link) : (setLink s p l).freeCtr = s.freeCtr := rfl
@[simp] theorem setLink_out (s : State) (p : Nat) (l : Link) : (setLink s p l).out = s.out := rfl

/-! ### `setLun`: it changes `fls` only -/

@[simp] theorem setLun_pending (s : State) (chan lun : Nat) (v : Lun) : (setLun s chan lun v).pending = s.pending := rfl
@[simp] theorem setLun_now (s : State) (chan lun : Nat) (v : Lun) : (setLun s chan lun v).now = s.now := rfl
@[simp] theorem setLun_regs (s : State) (chan lun : Nat) (v : Lun) : (setLun s chan lun v).regs = s.regs := rfl
@[simp] theorem setLun_mem (s : State) (chan lun : Nat) (v : Lun) : (setLun s chan lun v).mem = s.mem := rfl
@[simp] theorem setLun_exec (s : State) (chan lun : Nat) (v : Lun) : (setLun s chan lun v).exec = s.exec := rfl
@[simp] theorem setLun_cmds (s : State) (chan lun : Nat) (v : Lun) : (setLun s chan lun v).cmds = s.cmds := rfl
@[simp] theorem setLun_nextCmd (s : State) (chan lun : Nat) (v : Lun) : (setLun s chan lun v).nextCmd = s.nextCmd := rfl
@[simp] theorem setLun_stk (s : State) (chan lun : Nat) (v : Lun) : (setLun s chan lun v).stk = s.stk := rfl
@[simp] theorem setLun_tir (s : State) (chan lun : Nat) (v : Lun) : (setLun s chan lun v).tir = s.tir := rfl
@[simp] theorem setLun_lanes (s : State) (chan lun : Nat) (v : Lun) : (setLun s chan lun v).lanes = s.lanes := rfl
@[simp] theorem setLun_groups (s : State) (chan lun : Nat) (v : Lun) : (setLun s chan lun v).groups = s.groups := rfl
@[simp] theorem setLun_hiu (s : State) (chan lun : Nat) (v : Lun) : (setLun s chan lun v).hiu = s.hiu := rfl
@[simp] theorem setLun_trf (s : State) (chan lun : Nat) (v : Lun) : (setLun s chan lun v).trf = s.trf := rfl
@[simp] theorem setLun_fab (s : State) (chan lun : Nat) (v : Lun) : (setLun s chan lun v).fab = s.fab := rfl
@[simp] theorem setLun_tbe (s : State) (chan lun : Nat) (v : Lun) : (setLun s chan lun v).tbe = s.tbe := rfl
@[simp] theorem setLun_smc (s : State) (chan lun : Nat) (v : Lun) : (setLun s chan lun v).smc = s.smc := rfl
@[simp] theorem setLun_flt (s : State) (chan lun : Nat) (v : Lun) : (setLun s chan lun v).flt = s.flt := rfl
@[simp] theorem setLun_prb (s : State) (chan lun : Nat) (v : Lun) : (setLun s chan lun v).prb = s.prb := rfl
@[simp] theorem setLun_freeCtr (s : State) (chan lun : Nat) (v : Lun) : (setLun s chan lun v).freeCtr = s.freeCtr := rfl
@[simp] theorem setLun_out (s : State) (chan lun : Nat) (v : Lun) : (setLun s chan lun v).out = s.out := rfl

/-! ### `setBlk`: it changes `fls` only -/

@[simp] theorem setBlk_pending (s : State) (b : Nat) (v : Blk) : (setBlk s b v).pending = s.pending := rfl
@[simp] theorem setBlk_now (s : State) (b : Nat) (v : Blk) : (setBlk s b v).now = s.now := rfl
@[simp] theorem setBlk_regs (s : State) (b : Nat) (v : Blk) : (setBlk s b v).regs = s.regs := rfl
@[simp] theorem setBlk_mem (s : State) (b : Nat) (v : Blk) : (setBlk s b v).mem = s.mem := rfl
@[simp] theorem setBlk_exec (s : State) (b : Nat) (v : Blk) : (setBlk s b v).exec = s.exec := rfl
@[simp] theorem setBlk_cmds (s : State) (b : Nat) (v : Blk) : (setBlk s b v).cmds = s.cmds := rfl
@[simp] theorem setBlk_nextCmd (s : State) (b : Nat) (v : Blk) : (setBlk s b v).nextCmd = s.nextCmd := rfl
@[simp] theorem setBlk_stk (s : State) (b : Nat) (v : Blk) : (setBlk s b v).stk = s.stk := rfl
@[simp] theorem setBlk_tir (s : State) (b : Nat) (v : Blk) : (setBlk s b v).tir = s.tir := rfl
@[simp] theorem setBlk_lanes (s : State) (b : Nat) (v : Blk) : (setBlk s b v).lanes = s.lanes := rfl
@[simp] theorem setBlk_groups (s : State) (b : Nat) (v : Blk) : (setBlk s b v).groups = s.groups := rfl
@[simp] theorem setBlk_hiu (s : State) (b : Nat) (v : Blk) : (setBlk s b v).hiu = s.hiu := rfl
@[simp] theorem setBlk_trf (s : State) (b : Nat) (v : Blk) : (setBlk s b v).trf = s.trf := rfl
@[simp] theorem setBlk_fab (s : State) (b : Nat) (v : Blk) : (setBlk s b v).fab = s.fab := rfl
@[simp] theorem setBlk_tbe (s : State) (b : Nat) (v : Blk) : (setBlk s b v).tbe = s.tbe := rfl
@[simp] theorem setBlk_smc (s : State) (b : Nat) (v : Blk) : (setBlk s b v).smc = s.smc := rfl
@[simp] theorem setBlk_flt (s : State) (b : Nat) (v : Blk) : (setBlk s b v).flt = s.flt := rfl
@[simp] theorem setBlk_prb (s : State) (b : Nat) (v : Blk) : (setBlk s b v).prb = s.prb := rfl
@[simp] theorem setBlk_freeCtr (s : State) (b : Nat) (v : Blk) : (setBlk s b v).freeCtr = s.freeCtr := rfl
@[simp] theorem setBlk_out (s : State) (b : Nat) (v : Blk) : (setBlk s b v).out = s.out := rfl

/-! ### `setPage`: it changes `tir` only -/

@[simp] theorem setPage_pending (s : State) (k : Nat) (p : Page) : (setPage s k p).pending = s.pending := rfl
@[simp] theorem setPage_now (s : State) (k : Nat) (p : Page) : (setPage s k p).now = s.now := rfl
@[simp] theorem setPage_regs (s : State) (k : Nat) (p : Page) : (setPage s k p).regs = s.regs := rfl
@[simp] theorem setPage_mem (s : State) (k : Nat) (p : Page) : (setPage s k p).mem = s.mem := rfl
@[simp] theorem setPage_exec (s : State) (k : Nat) (p : Page) : (setPage s k p).exec = s.exec := rfl
@[simp] theorem setPage_cmds (s : State) (k : Nat) (p : Page) : (setPage s k p).cmds = s.cmds := rfl
@[simp] theorem setPage_nextCmd (s : State) (k : Nat) (p : Page) : (setPage s k p).nextCmd = s.nextCmd := rfl
@[simp] theorem setPage_stk (s : State) (k : Nat) (p : Page) : (setPage s k p).stk = s.stk := rfl
@[simp] theorem setPage_lanes (s : State) (k : Nat) (p : Page) : (setPage s k p).lanes = s.lanes := rfl
@[simp] theorem setPage_groups (s : State) (k : Nat) (p : Page) : (setPage s k p).groups = s.groups := rfl
@[simp] theorem setPage_hiu (s : State) (k : Nat) (p : Page) : (setPage s k p).hiu = s.hiu := rfl
@[simp] theorem setPage_trf (s : State) (k : Nat) (p : Page) : (setPage s k p).trf = s.trf := rfl
@[simp] theorem setPage_fls (s : State) (k : Nat) (p : Page) : (setPage s k p).fls = s.fls := rfl
@[simp] theorem setPage_fab (s : State) (k : Nat) (p : Page) : (setPage s k p).fab = s.fab := rfl
@[simp] theorem setPage_tbe (s : State) (k : Nat) (p : Page) : (setPage s k p).tbe = s.tbe := rfl
@[simp] theorem setPage_smc (s : State) (k : Nat) (p : Page) : (setPage s k p).smc = s.smc := rfl
@[simp] theorem setPage_flt (s : State) (k : Nat) (p : Page) : (setPage s k p).flt = s.flt := rfl
@[simp] theorem setPage_prb (s : State) (k : Nat) (p : Page) : (setPage s k p).prb = s.prb := rfl
@[simp] theorem setPage_freeCtr (s : State) (k : Nat) (p : Page) : (setPage s k p).freeCtr = s.freeCtr := rfl
@[simp] theorem setPage_out (s : State) (k : Nat) (p : Page) : (setPage s k p).out = s.out := rfl

/-! ### `flashPut`: it changes `mem` only -/

@[simp] theorem flashPut_pending (s : State) (dom a : Nat) (bs : List Byte) : (flashPut s dom a bs).pending = s.pending := rfl
@[simp] theorem flashPut_now (s : State) (dom a : Nat) (bs : List Byte) : (flashPut s dom a bs).now = s.now := rfl
@[simp] theorem flashPut_regs (s : State) (dom a : Nat) (bs : List Byte) : (flashPut s dom a bs).regs = s.regs := rfl
@[simp] theorem flashPut_exec (s : State) (dom a : Nat) (bs : List Byte) : (flashPut s dom a bs).exec = s.exec := rfl
@[simp] theorem flashPut_cmds (s : State) (dom a : Nat) (bs : List Byte) : (flashPut s dom a bs).cmds = s.cmds := rfl
@[simp] theorem flashPut_nextCmd (s : State) (dom a : Nat) (bs : List Byte) : (flashPut s dom a bs).nextCmd = s.nextCmd := rfl
@[simp] theorem flashPut_stk (s : State) (dom a : Nat) (bs : List Byte) : (flashPut s dom a bs).stk = s.stk := rfl
@[simp] theorem flashPut_tir (s : State) (dom a : Nat) (bs : List Byte) : (flashPut s dom a bs).tir = s.tir := rfl
@[simp] theorem flashPut_lanes (s : State) (dom a : Nat) (bs : List Byte) : (flashPut s dom a bs).lanes = s.lanes := rfl
@[simp] theorem flashPut_groups (s : State) (dom a : Nat) (bs : List Byte) : (flashPut s dom a bs).groups = s.groups := rfl
@[simp] theorem flashPut_hiu (s : State) (dom a : Nat) (bs : List Byte) : (flashPut s dom a bs).hiu = s.hiu := rfl
@[simp] theorem flashPut_trf (s : State) (dom a : Nat) (bs : List Byte) : (flashPut s dom a bs).trf = s.trf := rfl
@[simp] theorem flashPut_fls (s : State) (dom a : Nat) (bs : List Byte) : (flashPut s dom a bs).fls = s.fls := rfl
@[simp] theorem flashPut_fab (s : State) (dom a : Nat) (bs : List Byte) : (flashPut s dom a bs).fab = s.fab := rfl
@[simp] theorem flashPut_tbe (s : State) (dom a : Nat) (bs : List Byte) : (flashPut s dom a bs).tbe = s.tbe := rfl
@[simp] theorem flashPut_smc (s : State) (dom a : Nat) (bs : List Byte) : (flashPut s dom a bs).smc = s.smc := rfl
@[simp] theorem flashPut_flt (s : State) (dom a : Nat) (bs : List Byte) : (flashPut s dom a bs).flt = s.flt := rfl
@[simp] theorem flashPut_prb (s : State) (dom a : Nat) (bs : List Byte) : (flashPut s dom a bs).prb = s.prb := rfl
@[simp] theorem flashPut_freeCtr (s : State) (dom a : Nat) (bs : List Byte) : (flashPut s dom a bs).freeCtr = s.freeCtr := rfl
@[simp] theorem flashPut_out (s : State) (dom a : Nat) (bs : List Byte) : (flashPut s dom a bs).out = s.out := rfl

/-! ### `setMerge`: it changes `tir` only -/

@[simp] theorem setMerge_pending (s : State) (k : Nat) (m : MergeRec) : (setMerge s k m).pending = s.pending := rfl
@[simp] theorem setMerge_now (s : State) (k : Nat) (m : MergeRec) : (setMerge s k m).now = s.now := rfl
@[simp] theorem setMerge_regs (s : State) (k : Nat) (m : MergeRec) : (setMerge s k m).regs = s.regs := rfl
@[simp] theorem setMerge_mem (s : State) (k : Nat) (m : MergeRec) : (setMerge s k m).mem = s.mem := rfl
@[simp] theorem setMerge_exec (s : State) (k : Nat) (m : MergeRec) : (setMerge s k m).exec = s.exec := rfl
@[simp] theorem setMerge_cmds (s : State) (k : Nat) (m : MergeRec) : (setMerge s k m).cmds = s.cmds := rfl
@[simp] theorem setMerge_nextCmd (s : State) (k : Nat) (m : MergeRec) : (setMerge s k m).nextCmd = s.nextCmd := rfl
@[simp] theorem setMerge_stk (s : State) (k : Nat) (m : MergeRec) : (setMerge s k m).stk = s.stk := rfl
@[simp] theorem setMerge_lanes (s : State) (k : Nat) (m : MergeRec) : (setMerge s k m).lanes = s.lanes := rfl
@[simp] theorem setMerge_groups (s : State) (k : Nat) (m : MergeRec) : (setMerge s k m).groups = s.groups := rfl
@[simp] theorem setMerge_hiu (s : State) (k : Nat) (m : MergeRec) : (setMerge s k m).hiu = s.hiu := rfl
@[simp] theorem setMerge_trf (s : State) (k : Nat) (m : MergeRec) : (setMerge s k m).trf = s.trf := rfl
@[simp] theorem setMerge_fls (s : State) (k : Nat) (m : MergeRec) : (setMerge s k m).fls = s.fls := rfl
@[simp] theorem setMerge_fab (s : State) (k : Nat) (m : MergeRec) : (setMerge s k m).fab = s.fab := rfl
@[simp] theorem setMerge_tbe (s : State) (k : Nat) (m : MergeRec) : (setMerge s k m).tbe = s.tbe := rfl
@[simp] theorem setMerge_smc (s : State) (k : Nat) (m : MergeRec) : (setMerge s k m).smc = s.smc := rfl
@[simp] theorem setMerge_flt (s : State) (k : Nat) (m : MergeRec) : (setMerge s k m).flt = s.flt := rfl
@[simp] theorem setMerge_prb (s : State) (k : Nat) (m : MergeRec) : (setMerge s k m).prb = s.prb := rfl
@[simp] theorem setMerge_freeCtr (s : State) (k : Nat) (m : MergeRec) : (setMerge s k m).freeCtr = s.freeCtr := rfl
@[simp] theorem setMerge_out (s : State) (k : Nat) (m : MergeRec) : (setMerge s k m).out = s.out := rfl

/-! ### `setRank`: it changes `stk` only -/

@[simp] theorem setRank_pending (s : State) (i : Nat) (r : RankCmd) : (setRank s i r).pending = s.pending := rfl
@[simp] theorem setRank_now (s : State) (i : Nat) (r : RankCmd) : (setRank s i r).now = s.now := rfl
@[simp] theorem setRank_regs (s : State) (i : Nat) (r : RankCmd) : (setRank s i r).regs = s.regs := rfl
@[simp] theorem setRank_mem (s : State) (i : Nat) (r : RankCmd) : (setRank s i r).mem = s.mem := rfl
@[simp] theorem setRank_exec (s : State) (i : Nat) (r : RankCmd) : (setRank s i r).exec = s.exec := rfl
@[simp] theorem setRank_cmds (s : State) (i : Nat) (r : RankCmd) : (setRank s i r).cmds = s.cmds := rfl
@[simp] theorem setRank_nextCmd (s : State) (i : Nat) (r : RankCmd) : (setRank s i r).nextCmd = s.nextCmd := rfl
@[simp] theorem setRank_tir (s : State) (i : Nat) (r : RankCmd) : (setRank s i r).tir = s.tir := rfl
@[simp] theorem setRank_lanes (s : State) (i : Nat) (r : RankCmd) : (setRank s i r).lanes = s.lanes := rfl
@[simp] theorem setRank_groups (s : State) (i : Nat) (r : RankCmd) : (setRank s i r).groups = s.groups := rfl
@[simp] theorem setRank_hiu (s : State) (i : Nat) (r : RankCmd) : (setRank s i r).hiu = s.hiu := rfl
@[simp] theorem setRank_trf (s : State) (i : Nat) (r : RankCmd) : (setRank s i r).trf = s.trf := rfl
@[simp] theorem setRank_fls (s : State) (i : Nat) (r : RankCmd) : (setRank s i r).fls = s.fls := rfl
@[simp] theorem setRank_fab (s : State) (i : Nat) (r : RankCmd) : (setRank s i r).fab = s.fab := rfl
@[simp] theorem setRank_tbe (s : State) (i : Nat) (r : RankCmd) : (setRank s i r).tbe = s.tbe := rfl
@[simp] theorem setRank_smc (s : State) (i : Nat) (r : RankCmd) : (setRank s i r).smc = s.smc := rfl
@[simp] theorem setRank_flt (s : State) (i : Nat) (r : RankCmd) : (setRank s i r).flt = s.flt := rfl
@[simp] theorem setRank_prb (s : State) (i : Nat) (r : RankCmd) : (setRank s i r).prb = s.prb := rfl
@[simp] theorem setRank_freeCtr (s : State) (i : Nat) (r : RankCmd) : (setRank s i r).freeCtr = s.freeCtr := rfl
@[simp] theorem setRank_out (s : State) (i : Nat) (r : RankCmd) : (setRank s i r).out = s.out := rfl

/-! ### `setLane`: it changes `lanes` only -/

@[simp] theorem setLane_pending (s : State) (l : Nat) (v : Lane) : (setLane s l v).pending = s.pending := rfl
@[simp] theorem setLane_now (s : State) (l : Nat) (v : Lane) : (setLane s l v).now = s.now := rfl
@[simp] theorem setLane_regs (s : State) (l : Nat) (v : Lane) : (setLane s l v).regs = s.regs := rfl
@[simp] theorem setLane_mem (s : State) (l : Nat) (v : Lane) : (setLane s l v).mem = s.mem := rfl
@[simp] theorem setLane_exec (s : State) (l : Nat) (v : Lane) : (setLane s l v).exec = s.exec := rfl
@[simp] theorem setLane_cmds (s : State) (l : Nat) (v : Lane) : (setLane s l v).cmds = s.cmds := rfl
@[simp] theorem setLane_nextCmd (s : State) (l : Nat) (v : Lane) : (setLane s l v).nextCmd = s.nextCmd := rfl
@[simp] theorem setLane_stk (s : State) (l : Nat) (v : Lane) : (setLane s l v).stk = s.stk := rfl
@[simp] theorem setLane_tir (s : State) (l : Nat) (v : Lane) : (setLane s l v).tir = s.tir := rfl
@[simp] theorem setLane_groups (s : State) (l : Nat) (v : Lane) : (setLane s l v).groups = s.groups := rfl
@[simp] theorem setLane_hiu (s : State) (l : Nat) (v : Lane) : (setLane s l v).hiu = s.hiu := rfl
@[simp] theorem setLane_trf (s : State) (l : Nat) (v : Lane) : (setLane s l v).trf = s.trf := rfl
@[simp] theorem setLane_fls (s : State) (l : Nat) (v : Lane) : (setLane s l v).fls = s.fls := rfl
@[simp] theorem setLane_fab (s : State) (l : Nat) (v : Lane) : (setLane s l v).fab = s.fab := rfl
@[simp] theorem setLane_tbe (s : State) (l : Nat) (v : Lane) : (setLane s l v).tbe = s.tbe := rfl
@[simp] theorem setLane_smc (s : State) (l : Nat) (v : Lane) : (setLane s l v).smc = s.smc := rfl
@[simp] theorem setLane_flt (s : State) (l : Nat) (v : Lane) : (setLane s l v).flt = s.flt := rfl
@[simp] theorem setLane_prb (s : State) (l : Nat) (v : Lane) : (setLane s l v).prb = s.prb := rfl
@[simp] theorem setLane_freeCtr (s : State) (l : Nat) (v : Lane) : (setLane s l v).freeCtr = s.freeCtr := rfl
@[simp] theorem setLane_out (s : State) (l : Nat) (v : Lane) : (setLane s l v).out = s.out := rfl

/-! ### `setCap`: it changes `prb` only -/

@[simp] theorem setCap_pending (s : State) (g : Nat) : (setCap s g).pending = s.pending := rfl
@[simp] theorem setCap_now (s : State) (g : Nat) : (setCap s g).now = s.now := rfl
@[simp] theorem setCap_regs (s : State) (g : Nat) : (setCap s g).regs = s.regs := rfl
@[simp] theorem setCap_mem (s : State) (g : Nat) : (setCap s g).mem = s.mem := rfl
@[simp] theorem setCap_exec (s : State) (g : Nat) : (setCap s g).exec = s.exec := rfl
@[simp] theorem setCap_cmds (s : State) (g : Nat) : (setCap s g).cmds = s.cmds := rfl
@[simp] theorem setCap_nextCmd (s : State) (g : Nat) : (setCap s g).nextCmd = s.nextCmd := rfl
@[simp] theorem setCap_stk (s : State) (g : Nat) : (setCap s g).stk = s.stk := rfl
@[simp] theorem setCap_tir (s : State) (g : Nat) : (setCap s g).tir = s.tir := rfl
@[simp] theorem setCap_lanes (s : State) (g : Nat) : (setCap s g).lanes = s.lanes := rfl
@[simp] theorem setCap_groups (s : State) (g : Nat) : (setCap s g).groups = s.groups := rfl
@[simp] theorem setCap_hiu (s : State) (g : Nat) : (setCap s g).hiu = s.hiu := rfl
@[simp] theorem setCap_trf (s : State) (g : Nat) : (setCap s g).trf = s.trf := rfl
@[simp] theorem setCap_fls (s : State) (g : Nat) : (setCap s g).fls = s.fls := rfl
@[simp] theorem setCap_fab (s : State) (g : Nat) : (setCap s g).fab = s.fab := rfl
@[simp] theorem setCap_tbe (s : State) (g : Nat) : (setCap s g).tbe = s.tbe := rfl
@[simp] theorem setCap_smc (s : State) (g : Nat) : (setCap s g).smc = s.smc := rfl
@[simp] theorem setCap_flt (s : State) (g : Nat) : (setCap s g).flt = s.flt := rfl
@[simp] theorem setCap_freeCtr (s : State) (g : Nat) : (setCap s g).freeCtr = s.freeCtr := rfl
@[simp] theorem setCap_out (s : State) (g : Nat) : (setCap s g).out = s.out := rfl

/-! ### `rset`: it changes `regs` only -/

@[simp] theorem rset_pending (s : State) (r : Reg) (b : Nat) (v : W32) : (rset s r b v).pending = s.pending := rfl
@[simp] theorem rset_now (s : State) (r : Reg) (b : Nat) (v : W32) : (rset s r b v).now = s.now := rfl
@[simp] theorem rset_mem (s : State) (r : Reg) (b : Nat) (v : W32) : (rset s r b v).mem = s.mem := rfl
@[simp] theorem rset_exec (s : State) (r : Reg) (b : Nat) (v : W32) : (rset s r b v).exec = s.exec := rfl
@[simp] theorem rset_cmds (s : State) (r : Reg) (b : Nat) (v : W32) : (rset s r b v).cmds = s.cmds := rfl
@[simp] theorem rset_nextCmd (s : State) (r : Reg) (b : Nat) (v : W32) : (rset s r b v).nextCmd = s.nextCmd := rfl
@[simp] theorem rset_stk (s : State) (r : Reg) (b : Nat) (v : W32) : (rset s r b v).stk = s.stk := rfl
@[simp] theorem rset_tir (s : State) (r : Reg) (b : Nat) (v : W32) : (rset s r b v).tir = s.tir := rfl
@[simp] theorem rset_lanes (s : State) (r : Reg) (b : Nat) (v : W32) : (rset s r b v).lanes = s.lanes := rfl
@[simp] theorem rset_groups (s : State) (r : Reg) (b : Nat) (v : W32) : (rset s r b v).groups = s.groups := rfl
@[simp] theorem rset_hiu (s : State) (r : Reg) (b : Nat) (v : W32) : (rset s r b v).hiu = s.hiu := rfl
@[simp] theorem rset_trf (s : State) (r : Reg) (b : Nat) (v : W32) : (rset s r b v).trf = s.trf := rfl
@[simp] theorem rset_fls (s : State) (r : Reg) (b : Nat) (v : W32) : (rset s r b v).fls = s.fls := rfl
@[simp] theorem rset_fab (s : State) (r : Reg) (b : Nat) (v : W32) : (rset s r b v).fab = s.fab := rfl
@[simp] theorem rset_tbe (s : State) (r : Reg) (b : Nat) (v : W32) : (rset s r b v).tbe = s.tbe := rfl
@[simp] theorem rset_smc (s : State) (r : Reg) (b : Nat) (v : W32) : (rset s r b v).smc = s.smc := rfl
@[simp] theorem rset_flt (s : State) (r : Reg) (b : Nat) (v : W32) : (rset s r b v).flt = s.flt := rfl
@[simp] theorem rset_prb (s : State) (r : Reg) (b : Nat) (v : W32) : (rset s r b v).prb = s.prb := rfl
@[simp] theorem rset_freeCtr (s : State) (r : Reg) (b : Nat) (v : W32) : (rset s r b v).freeCtr = s.freeCtr := rfl
@[simp] theorem rset_out (s : State) (r : Reg) (b : Nat) (v : W32) : (rset s r b v).out = s.out := rfl

/-! ### `setIndex`: it changes `tir` only -/

@[simp] theorem setIndex_pending (s : State) (i : Nat) (x : Index) : (setIndex s i x).pending = s.pending := rfl
@[simp] theorem setIndex_now (s : State) (i : Nat) (x : Index) : (setIndex s i x).now = s.now := rfl
@[simp] theorem setIndex_regs (s : State) (i : Nat) (x : Index) : (setIndex s i x).regs = s.regs := rfl
@[simp] theorem setIndex_mem (s : State) (i : Nat) (x : Index) : (setIndex s i x).mem = s.mem := rfl
@[simp] theorem setIndex_exec (s : State) (i : Nat) (x : Index) : (setIndex s i x).exec = s.exec := rfl
@[simp] theorem setIndex_cmds (s : State) (i : Nat) (x : Index) : (setIndex s i x).cmds = s.cmds := rfl
@[simp] theorem setIndex_nextCmd (s : State) (i : Nat) (x : Index) : (setIndex s i x).nextCmd = s.nextCmd := rfl
@[simp] theorem setIndex_stk (s : State) (i : Nat) (x : Index) : (setIndex s i x).stk = s.stk := rfl
@[simp] theorem setIndex_lanes (s : State) (i : Nat) (x : Index) : (setIndex s i x).lanes = s.lanes := rfl
@[simp] theorem setIndex_groups (s : State) (i : Nat) (x : Index) : (setIndex s i x).groups = s.groups := rfl
@[simp] theorem setIndex_hiu (s : State) (i : Nat) (x : Index) : (setIndex s i x).hiu = s.hiu := rfl
@[simp] theorem setIndex_trf (s : State) (i : Nat) (x : Index) : (setIndex s i x).trf = s.trf := rfl
@[simp] theorem setIndex_fls (s : State) (i : Nat) (x : Index) : (setIndex s i x).fls = s.fls := rfl
@[simp] theorem setIndex_fab (s : State) (i : Nat) (x : Index) : (setIndex s i x).fab = s.fab := rfl
@[simp] theorem setIndex_tbe (s : State) (i : Nat) (x : Index) : (setIndex s i x).tbe = s.tbe := rfl
@[simp] theorem setIndex_smc (s : State) (i : Nat) (x : Index) : (setIndex s i x).smc = s.smc := rfl
@[simp] theorem setIndex_flt (s : State) (i : Nat) (x : Index) : (setIndex s i x).flt = s.flt := rfl
@[simp] theorem setIndex_prb (s : State) (i : Nat) (x : Index) : (setIndex s i x).prb = s.prb := rfl
@[simp] theorem setIndex_freeCtr (s : State) (i : Nat) (x : Index) : (setIndex s i x).freeCtr = s.freeCtr := rfl
@[simp] theorem setIndex_out (s : State) (i : Nat) (x : Index) : (setIndex s i x).out = s.out := rfl

/-! ### `setBatch`: it changes `tir` only -/

@[simp] theorem setBatch_pending (s : State) (b : Nat) (v : Batch) : (setBatch s b v).pending = s.pending := rfl
@[simp] theorem setBatch_now (s : State) (b : Nat) (v : Batch) : (setBatch s b v).now = s.now := rfl
@[simp] theorem setBatch_regs (s : State) (b : Nat) (v : Batch) : (setBatch s b v).regs = s.regs := rfl
@[simp] theorem setBatch_mem (s : State) (b : Nat) (v : Batch) : (setBatch s b v).mem = s.mem := rfl
@[simp] theorem setBatch_exec (s : State) (b : Nat) (v : Batch) : (setBatch s b v).exec = s.exec := rfl
@[simp] theorem setBatch_cmds (s : State) (b : Nat) (v : Batch) : (setBatch s b v).cmds = s.cmds := rfl
@[simp] theorem setBatch_nextCmd (s : State) (b : Nat) (v : Batch) : (setBatch s b v).nextCmd = s.nextCmd := rfl
@[simp] theorem setBatch_stk (s : State) (b : Nat) (v : Batch) : (setBatch s b v).stk = s.stk := rfl
@[simp] theorem setBatch_lanes (s : State) (b : Nat) (v : Batch) : (setBatch s b v).lanes = s.lanes := rfl
@[simp] theorem setBatch_groups (s : State) (b : Nat) (v : Batch) : (setBatch s b v).groups = s.groups := rfl
@[simp] theorem setBatch_hiu (s : State) (b : Nat) (v : Batch) : (setBatch s b v).hiu = s.hiu := rfl
@[simp] theorem setBatch_trf (s : State) (b : Nat) (v : Batch) : (setBatch s b v).trf = s.trf := rfl
@[simp] theorem setBatch_fls (s : State) (b : Nat) (v : Batch) : (setBatch s b v).fls = s.fls := rfl
@[simp] theorem setBatch_fab (s : State) (b : Nat) (v : Batch) : (setBatch s b v).fab = s.fab := rfl
@[simp] theorem setBatch_tbe (s : State) (b : Nat) (v : Batch) : (setBatch s b v).tbe = s.tbe := rfl
@[simp] theorem setBatch_smc (s : State) (b : Nat) (v : Batch) : (setBatch s b v).smc = s.smc := rfl
@[simp] theorem setBatch_flt (s : State) (b : Nat) (v : Batch) : (setBatch s b v).flt = s.flt := rfl
@[simp] theorem setBatch_prb (s : State) (b : Nat) (v : Batch) : (setBatch s b v).prb = s.prb := rfl
@[simp] theorem setBatch_freeCtr (s : State) (b : Nat) (v : Batch) : (setBatch s b v).freeCtr = s.freeCtr := rfl
@[simp] theorem setBatch_out (s : State) (b : Nat) (v : Batch) : (setBatch s b v).out = s.out := rfl

/-! ### `setRowCmd`: it changes `tbe` only -/

@[simp] theorem setRowCmd_pending (s : State) (id : Nat) (r : RowCmd) : (setRowCmd s id r).pending = s.pending := rfl
@[simp] theorem setRowCmd_now (s : State) (id : Nat) (r : RowCmd) : (setRowCmd s id r).now = s.now := rfl
@[simp] theorem setRowCmd_regs (s : State) (id : Nat) (r : RowCmd) : (setRowCmd s id r).regs = s.regs := rfl
@[simp] theorem setRowCmd_mem (s : State) (id : Nat) (r : RowCmd) : (setRowCmd s id r).mem = s.mem := rfl
@[simp] theorem setRowCmd_exec (s : State) (id : Nat) (r : RowCmd) : (setRowCmd s id r).exec = s.exec := rfl
@[simp] theorem setRowCmd_cmds (s : State) (id : Nat) (r : RowCmd) : (setRowCmd s id r).cmds = s.cmds := rfl
@[simp] theorem setRowCmd_nextCmd (s : State) (id : Nat) (r : RowCmd) : (setRowCmd s id r).nextCmd = s.nextCmd := rfl
@[simp] theorem setRowCmd_stk (s : State) (id : Nat) (r : RowCmd) : (setRowCmd s id r).stk = s.stk := rfl
@[simp] theorem setRowCmd_tir (s : State) (id : Nat) (r : RowCmd) : (setRowCmd s id r).tir = s.tir := rfl
@[simp] theorem setRowCmd_lanes (s : State) (id : Nat) (r : RowCmd) : (setRowCmd s id r).lanes = s.lanes := rfl
@[simp] theorem setRowCmd_groups (s : State) (id : Nat) (r : RowCmd) : (setRowCmd s id r).groups = s.groups := rfl
@[simp] theorem setRowCmd_hiu (s : State) (id : Nat) (r : RowCmd) : (setRowCmd s id r).hiu = s.hiu := rfl
@[simp] theorem setRowCmd_trf (s : State) (id : Nat) (r : RowCmd) : (setRowCmd s id r).trf = s.trf := rfl
@[simp] theorem setRowCmd_fls (s : State) (id : Nat) (r : RowCmd) : (setRowCmd s id r).fls = s.fls := rfl
@[simp] theorem setRowCmd_fab (s : State) (id : Nat) (r : RowCmd) : (setRowCmd s id r).fab = s.fab := rfl
@[simp] theorem setRowCmd_smc (s : State) (id : Nat) (r : RowCmd) : (setRowCmd s id r).smc = s.smc := rfl
@[simp] theorem setRowCmd_flt (s : State) (id : Nat) (r : RowCmd) : (setRowCmd s id r).flt = s.flt := rfl
@[simp] theorem setRowCmd_prb (s : State) (id : Nat) (r : RowCmd) : (setRowCmd s id r).prb = s.prb := rfl
@[simp] theorem setRowCmd_freeCtr (s : State) (id : Nat) (r : RowCmd) : (setRowCmd s id r).freeCtr = s.freeCtr := rfl
@[simp] theorem setRowCmd_out (s : State) (id : Nat) (r : RowCmd) : (setRowCmd s id r).out = s.out := rfl

/-! ### `dropRowCmd`: it changes `tbe` only -/

@[simp] theorem dropRowCmd_pending (s : State) (id : Nat) : (dropRowCmd s id).pending = s.pending := rfl
@[simp] theorem dropRowCmd_now (s : State) (id : Nat) : (dropRowCmd s id).now = s.now := rfl
@[simp] theorem dropRowCmd_regs (s : State) (id : Nat) : (dropRowCmd s id).regs = s.regs := rfl
@[simp] theorem dropRowCmd_mem (s : State) (id : Nat) : (dropRowCmd s id).mem = s.mem := rfl
@[simp] theorem dropRowCmd_exec (s : State) (id : Nat) : (dropRowCmd s id).exec = s.exec := rfl
@[simp] theorem dropRowCmd_cmds (s : State) (id : Nat) : (dropRowCmd s id).cmds = s.cmds := rfl
@[simp] theorem dropRowCmd_nextCmd (s : State) (id : Nat) : (dropRowCmd s id).nextCmd = s.nextCmd := rfl
@[simp] theorem dropRowCmd_stk (s : State) (id : Nat) : (dropRowCmd s id).stk = s.stk := rfl
@[simp] theorem dropRowCmd_tir (s : State) (id : Nat) : (dropRowCmd s id).tir = s.tir := rfl
@[simp] theorem dropRowCmd_lanes (s : State) (id : Nat) : (dropRowCmd s id).lanes = s.lanes := rfl
@[simp] theorem dropRowCmd_groups (s : State) (id : Nat) : (dropRowCmd s id).groups = s.groups := rfl
@[simp] theorem dropRowCmd_hiu (s : State) (id : Nat) : (dropRowCmd s id).hiu = s.hiu := rfl
@[simp] theorem dropRowCmd_trf (s : State) (id : Nat) : (dropRowCmd s id).trf = s.trf := rfl
@[simp] theorem dropRowCmd_fls (s : State) (id : Nat) : (dropRowCmd s id).fls = s.fls := rfl
@[simp] theorem dropRowCmd_fab (s : State) (id : Nat) : (dropRowCmd s id).fab = s.fab := rfl
@[simp] theorem dropRowCmd_smc (s : State) (id : Nat) : (dropRowCmd s id).smc = s.smc := rfl
@[simp] theorem dropRowCmd_flt (s : State) (id : Nat) : (dropRowCmd s id).flt = s.flt := rfl
@[simp] theorem dropRowCmd_prb (s : State) (id : Nat) : (dropRowCmd s id).prb = s.prb := rfl
@[simp] theorem dropRowCmd_freeCtr (s : State) (id : Nat) : (dropRowCmd s id).freeCtr = s.freeCtr := rfl
@[simp] theorem dropRowCmd_out (s : State) (id : Nat) : (dropRowCmd s id).out = s.out := rfl

/-! ### `setRowQueue`: it changes `tbe` only -/

@[simp] theorem setRowQueue_pending (s : State) (e : Nat) (l : List RowReq) : (setRowQueue s e l).pending = s.pending := rfl
@[simp] theorem setRowQueue_now (s : State) (e : Nat) (l : List RowReq) : (setRowQueue s e l).now = s.now := rfl
@[simp] theorem setRowQueue_regs (s : State) (e : Nat) (l : List RowReq) : (setRowQueue s e l).regs = s.regs := rfl
@[simp] theorem setRowQueue_mem (s : State) (e : Nat) (l : List RowReq) : (setRowQueue s e l).mem = s.mem := rfl
@[simp] theorem setRowQueue_exec (s : State) (e : Nat) (l : List RowReq) : (setRowQueue s e l).exec = s.exec := rfl
@[simp] theorem setRowQueue_cmds (s : State) (e : Nat) (l : List RowReq) : (setRowQueue s e l).cmds = s.cmds := rfl
@[simp] theorem setRowQueue_nextCmd (s : State) (e : Nat) (l : List RowReq) : (setRowQueue s e l).nextCmd = s.nextCmd := rfl
@[simp] theorem setRowQueue_stk (s : State) (e : Nat) (l : List RowReq) : (setRowQueue s e l).stk = s.stk := rfl
@[simp] theorem setRowQueue_tir (s : State) (e : Nat) (l : List RowReq) : (setRowQueue s e l).tir = s.tir := rfl
@[simp] theorem setRowQueue_lanes (s : State) (e : Nat) (l : List RowReq) : (setRowQueue s e l).lanes = s.lanes := rfl
@[simp] theorem setRowQueue_groups (s : State) (e : Nat) (l : List RowReq) : (setRowQueue s e l).groups = s.groups := rfl
@[simp] theorem setRowQueue_hiu (s : State) (e : Nat) (l : List RowReq) : (setRowQueue s e l).hiu = s.hiu := rfl
@[simp] theorem setRowQueue_trf (s : State) (e : Nat) (l : List RowReq) : (setRowQueue s e l).trf = s.trf := rfl
@[simp] theorem setRowQueue_fls (s : State) (e : Nat) (l : List RowReq) : (setRowQueue s e l).fls = s.fls := rfl
@[simp] theorem setRowQueue_fab (s : State) (e : Nat) (l : List RowReq) : (setRowQueue s e l).fab = s.fab := rfl
@[simp] theorem setRowQueue_smc (s : State) (e : Nat) (l : List RowReq) : (setRowQueue s e l).smc = s.smc := rfl
@[simp] theorem setRowQueue_flt (s : State) (e : Nat) (l : List RowReq) : (setRowQueue s e l).flt = s.flt := rfl
@[simp] theorem setRowQueue_prb (s : State) (e : Nat) (l : List RowReq) : (setRowQueue s e l).prb = s.prb := rfl
@[simp] theorem setRowQueue_freeCtr (s : State) (e : Nat) (l : List RowReq) : (setRowQueue s e l).freeCtr = s.freeCtr := rfl
@[simp] theorem setRowQueue_out (s : State) (e : Nat) (l : List RowReq) : (setRowQueue s e l).out = s.out := rfl

/-! ### `setDom`: it changes `smc` only -/

@[simp] theorem setDom_pending (s : State) (d : Nat) (v : Dom) : (setDom s d v).pending = s.pending := rfl
@[simp] theorem setDom_now (s : State) (d : Nat) (v : Dom) : (setDom s d v).now = s.now := rfl
@[simp] theorem setDom_regs (s : State) (d : Nat) (v : Dom) : (setDom s d v).regs = s.regs := rfl
@[simp] theorem setDom_mem (s : State) (d : Nat) (v : Dom) : (setDom s d v).mem = s.mem := rfl
@[simp] theorem setDom_exec (s : State) (d : Nat) (v : Dom) : (setDom s d v).exec = s.exec := rfl
@[simp] theorem setDom_cmds (s : State) (d : Nat) (v : Dom) : (setDom s d v).cmds = s.cmds := rfl
@[simp] theorem setDom_nextCmd (s : State) (d : Nat) (v : Dom) : (setDom s d v).nextCmd = s.nextCmd := rfl
@[simp] theorem setDom_stk (s : State) (d : Nat) (v : Dom) : (setDom s d v).stk = s.stk := rfl
@[simp] theorem setDom_tir (s : State) (d : Nat) (v : Dom) : (setDom s d v).tir = s.tir := rfl
@[simp] theorem setDom_lanes (s : State) (d : Nat) (v : Dom) : (setDom s d v).lanes = s.lanes := rfl
@[simp] theorem setDom_groups (s : State) (d : Nat) (v : Dom) : (setDom s d v).groups = s.groups := rfl
@[simp] theorem setDom_hiu (s : State) (d : Nat) (v : Dom) : (setDom s d v).hiu = s.hiu := rfl
@[simp] theorem setDom_trf (s : State) (d : Nat) (v : Dom) : (setDom s d v).trf = s.trf := rfl
@[simp] theorem setDom_fls (s : State) (d : Nat) (v : Dom) : (setDom s d v).fls = s.fls := rfl
@[simp] theorem setDom_fab (s : State) (d : Nat) (v : Dom) : (setDom s d v).fab = s.fab := rfl
@[simp] theorem setDom_tbe (s : State) (d : Nat) (v : Dom) : (setDom s d v).tbe = s.tbe := rfl
@[simp] theorem setDom_flt (s : State) (d : Nat) (v : Dom) : (setDom s d v).flt = s.flt := rfl
@[simp] theorem setDom_prb (s : State) (d : Nat) (v : Dom) : (setDom s d v).prb = s.prb := rfl
@[simp] theorem setDom_freeCtr (s : State) (d : Nat) (v : Dom) : (setDom s d v).freeCtr = s.freeCtr := rfl
@[simp] theorem setDom_out (s : State) (d : Nat) (v : Dom) : (setDom s d v).out = s.out := rfl

/-! ### Fields of registers -/

@[simp] theorem fset_now (s : State) (f : Fld) (v b : Nat) : (fset s f v b).now = s.now := rfl
@[simp] theorem fset_mem (s : State) (f : Fld) (v b : Nat) : (fset s f v b).mem = s.mem := rfl
@[simp] theorem fset_pending (s : State) (f : Fld) (v b : Nat) : (fset s f v b).pending = s.pending := rfl
@[simp] theorem fset_exec (s : State) (f : Fld) (v b : Nat) : (fset s f v b).exec = s.exec := rfl
@[simp] theorem fset_tir (s : State) (f : Fld) (v b : Nat) : (fset s f v b).tir = s.tir := rfl
@[simp] theorem fset_fab (s : State) (f : Fld) (v b : Nat) : (fset s f v b).fab = s.fab := rfl
@[simp] theorem fset_stk (s : State) (f : Fld) (v b : Nat) : (fset s f v b).stk = s.stk := rfl
@[simp] theorem fset_cmds (s : State) (f : Fld) (v b : Nat) : (fset s f v b).cmds = s.cmds := rfl
@[simp] theorem fset_flt (s : State) (f : Fld) (v b : Nat) : (fset s f v b).flt = s.flt := rfl
@[simp] theorem fset_prb (s : State) (f : Fld) (v b : Nat) : (fset s f v b).prb = s.prb := rfl
@[simp] theorem fset_hiu (s : State) (f : Fld) (v b : Nat) : (fset s f v b).hiu = s.hiu := rfl
@[simp] theorem fset_out (s : State) (f : Fld) (v b : Nat) : (fset s f v b).out = s.out := rfl

end Sys2Proof.Laws
end

