-- ==== Sys2Proof/Tests/Slice0.lean ====
section
/-!
SUPPORT. Tests of the model on small states: ill-formed commands are refused by `Instr.wf`, one step of a command has the effect the manual
gives (expected values from the manual's rules and tables, by hand), and for the hypotheses of the statements a state that meets them.
-/

namespace Sys2Proof.Tests

set_option Elab.async false

open Sys2Proof Sys2Proof.Machine Sys2Proof.Claims

/-! ### Well-formed commands -/

/-- A packet whose payload is not as long as its header says. -/
def badPkt : Pkt := { noPkt with len := 3 }
/-- An empty part. -/
def flashPart : FlashPart := { targets := 4, luns := 16, planes := 4, mpRead := true, mpProg := true, suspend := true, vccqLow := false, rate := 1200
                               blocksPerLun := 8, pagesPerBlock := 4, unusable := [] }
/-- A cell row that a cluster does not have. -/
def badTile : TileFault := { block := 0, agrees := false, row := 130 }

theorem wf_refuses_instances : [Instr.registerWrite .PRB_PACE_CTL 20 0, .bar0BadAccess false (2 ^ 28) 4, .bar0BadAccess true 0 3, .rankCommand 20,
    .nbuNop 20480 ⟨0, 0, 0, 0, false⟩, .lunReadIssue 0 64 [], .selDrain 16, .mergePass 17, .uniqValues 17, .stackPatrol 20, .quarantine 4 0,
    .quarantine 0 1088, .engineCommandComplete 9 0, .engineCommandComplete 3 16, .stkDeferMaxClr 20 0, .takenRequestLate 0 64,
    .migrationFlip (2 ^ 52), .copyTrackerTimeout (2 ^ 44), .readDisturbLimit (2 ^ 46)].all (fun i => !i.wf) = true := by decide

theorem wf_refuses_values : [Instr.limiterRamp 0 4096 0, .paceMonWindow 4096 0 0 0 0, .ptpMessage false 0 (2 ^ 32), .brownoutStart 512,
    .brownoutEnd 65536, .railResetLevel 9, .governorWindow 4096, .thermalTrip 23 0, .thermalThrottle 0 4096].all (fun i => !i.wf) = true := by decide

theorem wf_refuses_contents : [Instr.load badPkt, .fabricReply badPkt, .encLayer 0 (some badTile),
    .scanStackList 0 [68] none, .replicaBatch 0 0 0 (List.replicate 4097 ⟨true, 0, [], 0, []⟩)].all (fun i => !i.wf) = true := by decide +kernel

theorem wf_takes_commands : [Instr.registerWrite .PRB_PACE_CTL 0 0, .bar0BadAccess true 0 4, .load noPkt, .selDrain 15, .mergePass 16,
    .engineCommandComplete 3 15].all Instr.wf = true := by decide

/-! ### Spenex -/

/-- What a command leaves. -/
def after (c : Instr) (s : State) : State := match exec c s with | .next t => t | _ => s

/-- The fields of an instruction word. -/
def sf (a b c : BitVec 5) (fn : BitVec 8) (imm : BitVec 32) : Spx := ⟨a, b, c, false, fn, imm, 0, 0, false⟩
/-- A plan of 64 words of text, one phase, and masks that its tests choose. -/
def planA : Plan := { id := 9, dom := 1, text := List.replicate 64 0, phases := [{}] }
/-- A job of the plan with register contents. -/
def jobA (c : Ctx) : Job := { q := 3, dom := 1, ctx := c, cookie := 77 }
/-- The job, tag 5, on sequencer 3. -/
def onSeq (j : Job) : State := { exec := { jobs := [(5, j)], seqs := [(3, 5)], plans := [(0, planA)] } }
/-- g1 and g2 hold values. -/
def regs2 (x y : W64) : Ctx := { g := [(1, x), (2, y)] }
/-- The job after a command. -/
def jobAfter (c : Instr) (s : State) : Job := (jobOf (after c s) 5).getD {}

theorem begins_of {opc : Nat} {f : Spx} {j : Job} (hd : defined opc (planOf (onSeq j) j.plan).phases.length f = true) (hu : f.ue = false) (hm : mayRun (onSeq j) j = true)
    (ht : inText (onSeq j) j f = true) : Begins opc 3#7 f (onSeq j) 5 j := ⟨rfl, rfl, hm, hu, ht, hd⟩

/-- For every Spenex row a state and fields that begin it. -/
theorem wit_begins : ∀ p ∈ [(0x00, sf 1 2 3 0 0), (0x01, sf 1 2 0 1 7), (0x02, sf 1 2 3 0 0), (0x03, sf 1 2 3 0 0), (0x04, sf 1 2 3 0 0),
      (0x05, sf 1 2 3 0 0), (0x06, sf 1 2 3 0 0), (0x07, sf 1 2 3 0 0), (0x08, sf 1 2 3 0 0), (0x09, sf 1 2 3 0 0), (0x0A, sf 1 2 3 0 0),
      (0x0B, sf 1 2 3 0 0), (0x0C, sf 1 2 3 0 0), (0x0D, sf 1 2 3 0 0), (0x0E, sf 1 2 3 0 0), (0x0F, sf 1 2 3 0 0), (0x10, sf 1 2 3 0 0),
      (0x11, sf 1 2 3 0 0), (0x12, sf 0 2 3 0 0), (0x13, sf 1 2 0 0 0), (0x14, sf 1 2 0 0 0), (0x15, sf 1 2 0 0 0),
      (0x16, { sf 1 0 0 0 0 with x := true }), (0x20, sf 1 2 0 0 0), (0x21, sf 1 2 0 0 0), (0x22, sf 1 2 0 0 0), (0x23, sf 1 2 0 0 0),
      (0x24, sf 1 2 0 3 0), (0x25, sf 1 2 0 3 0), (0x26, sf 1 2 0 0 0), (0x27, sf 1 2 0 0 0), (0x28, sf 1 2 3 1 0), (0x29, sf 1 2 3 1 0),
      (0x2A, sf 1 2 0 0 0), (0x2B, sf 1 2 0 0 0), (0x2C, sf 1 0 0 0 0), (0x40, sf 0 0 0 0 4), (0x41, sf 0 0 0 7 4), (0x42, sf 1 0 0 0 4),
      (0x43, sf 1 0 0 0 0), (0x44, sf 0 0 0 0 0), (0x45, sf 0 0 0 0 0), (0x60, sf 0 0 0 0 0), (0x61, sf 1 2 3 1 0), (0x62, sf 0 0 0 0 0),
      (0x63, sf 1 2 0 0 0)],
    Begins p.1 3#7 p.2 (onSeq (jobA {})) 5 (jobA {}) := by
  intro p hp
  have h : defined p.1 (planOf (onSeq (jobA {})) (jobA {}).plan).phases.length p.2 = true ∧ p.2.ue = false ∧ inText (onSeq (jobA {})) (jobA {}) p.2 = true := by revert p; decide +kernel
  exact begins_of h.1 h.2.1 rfl h.2.2

/-- R114: 2^64 - 1 and 1 sum to 0, with carry and zero. -/
theorem test_add_wraps : (jobAfter (.add 3 (sf 0 1 2 0 0)) (onSeq (jobA (regs2 (BitVec.allOnes 64) 1)))).ctx
    = { regs2 (BitVec.allOnes 64) 1 with flags := 3, pc := 8 } := by decide +kernel
/-- R114: 3 - 5 borrows and is negative. -/
theorem test_sub_borrows : (jobAfter (.sub 3 (sf 0 1 2 0 0)) (onSeq (jobA (regs2 3 5)))).ctx
    = { g := [(0, 0xFFFFFFFFFFFFFFFE#64), (1, 3), (2, 5)], flags := 5, pc := 8 } := by decide +kernel
/-- R115: a zero divisor gives all ones. -/
theorem test_div_by_zero : (jobAfter (.div 3 (sf 0 1 2 0 0)) (onSeq (jobA (regs2 3 0)))).ctx.g = [(0, BitVec.allOnes 64), (1, 3)] ∨
    gReg (jobAfter (.div 3 (sf 0 1 2 0 0)) (onSeq (jobA (regs2 3 0)))).ctx 0 = BitVec.allOnes 64 := by decide +kernel
/-- R114: a shift takes the count modulo 64. -/
theorem test_shl_modulo : gReg (jobAfter (.shl 3 (sf 0 1 2 0 0)) (onSeq (jobA (regs2 3 65)))).ctx 0 = 6 := by decide +kernel
theorem test_sar_sign : gReg (jobAfter (.sar 3 (sf 0 1 2 0 0)) (onSeq (jobA (regs2 (BitVec.allOnes 64) 7)))).ctx 0 = BitVec.allOnes 64 := by
  decide +kernel
theorem test_clz_zero : gReg (jobAfter (.clz 3 (sf 0 4 0 0 0)) (onSeq (jobA {}))).ctx 0 = 64 := by decide +kernel
/-- R109: an encoding with a reserved bit ends the job. -/
theorem test_undefined_ends_job : (after (.add 3 (sf 0 1 2 4 0)) (onSeq (jobA {}))).exec.jobs = [] := by decide +kernel
theorem wit_undefined : inText (onSeq (jobA {})) (jobA {}) (sf 0 1 2 4 0) = true ∧ defined 0 1 (sf 0 1 2 4 0) = false := by decide
/-- R121: a taken branch costs 2 steps and goes to the instruction's address plus 8 x IMM. -/
theorem test_br : (jobAfter (.br 3 (sf 0 0 0 0 4)) (onSeq (jobA {}))).ctx.pc = 32 ∧
    (jobAfter (.br 3 (sf 0 0 0 0 4)) (onSeq (jobA {}))).steps = 2 := by decide +kernel
theorem test_jr_aligns : (jobAfter (.jr 3 (sf 1 0 0 0 0)) (onSeq (jobA (regs2 43 0)))).ctx.pc = 40 := by decide +kernel


/-- The job holds a grant, handle 1, in token 1, and owns its instances. -/
def holding (j : Job) (g : Grant) (hold : Nat) : State :=
  { exec := { jobs := [(5, { j with ctx := { j.ctx with t := [(1, tokWord hold 0 0 1)] } })], seqs := [(3, 5)]
              plans := [(0, { planA with masks := [1 + 16 * 0 + 2 ^ 8 * 12 + 2 ^ 24 * 2 + 2 ^ 40 * 2 + 2 ^ 56 * 2], phases := [{ count := 1 }] })]
              grants := [(1, { g with tag := 5 })], owner := g.insts.map fun i => (okey g.cls i, .job 5), nextHandle := 2 } }
/-- The job of `holding`. -/
def heldJob (j : Job) (hold : Nat) : Job := { j with ctx := { j.ctx with t := [(1, tokWord hold 0 0 1)] } }
/-- A tile address: token 1, its first instance, byte 16. -/
def tileCtx : Ctx := { g := [(1, 0xAB), (2, 2 ^ 24 + 16)] }
/-- Region 12 of tile SRAM. -/
def region12 : Grant := { cls := 1, insts := [12] }

theorem wit_ld : Begins 0x20 3#7 (sf 1 2 0 0 0) (holding (jobA tileCtx) region12 0) 5 (heldJob (jobA tileCtx) 0) ∧
    tileAddr (holding (jobA tileCtx) region12 0) 5 (paid (sf 1 2 0 0 0) 8 (heldJob (jobA tileCtx) 0)) (sf 1 2 0 0 0) 8 8 = some (12 * 65536 + 16) ∧
    tileBad (holding (jobA tileCtx) region12 0) (12 * 65536 + 16) 8 = false := by unfold Begins; decide +kernel
theorem wit_vst : Begins 0x27 3#7 (sf 1 2 0 0 0) (holding (jobA tileCtx) region12 0) 5 (heldJob (jobA tileCtx) 0) ∧
    tileAddr (holding (jobA tileCtx) region12 0) 5 (paid (sf 1 2 0 0 0) 258 (heldJob (jobA tileCtx) 0)) (sf 1 2 0 0 0) 64 16448 = some (12 * 65536) := by
  unfold Begins; decide +kernel
theorem wit_std : Begins 0x23 3#7 (sf 1 2 0 0 0) (holding (jobA tileCtx) region12 0) 5 (heldJob (jobA tileCtx) 0) ∧
    tileAddr (holding (jobA tileCtx) region12 0) 5 (paid (sf 1 2 0 0 0) 2 (heldJob (jobA tileCtx) 0)) (sf 1 2 0 0 0) 32 32 = some (12 * 65536) := by
  unfold Begins; decide +kernel
/-- A job without tokens has no tile address. -/
theorem wit_ld_refused : Begins 0x20 3#7 (sf 1 2 0 0 0) (onSeq (jobA tileCtx)) 5 (jobA tileCtx) ∧
    tileAddr (onSeq (jobA tileCtx)) 5 (paid (sf 1 2 0 0 0) 8 (jobA tileCtx)) (sf 1 2 0 0 0) 8 8 = none := by unfold Begins; decide +kernel
/-- R116: a store is read back, little-endian. -/
theorem test_st : tileBytes (after (.st 3 (sf 1 2 0 0 0)) (holding (jobA tileCtx) region12 0)) (12 * 65536 + 16) 2 = [0xAB, 0] := by decide +kernel
theorem test_ld : gReg (jobAfter (.ld 3 (sf 4 2 0 0 0)) (tileWrite (holding (jobA tileCtx) region12 0) (12 * 65536 + 16) [7])).ctx 4 = 7 := by decide +kernel
theorem test_ld_refused : (after (.ld 3 (sf 1 2 0 0 0)) (onSeq (jobA tileCtx))).exec.jobs = [] := by decide +kernel
theorem test_end_ok : (after (.endJob 3 (sf 0 0 0 0 0)) (onSeq (jobA {}))).exec.jobs = [] ∧
    (after (.endJob 3 (sf 0 0 0 0 0)) (onSeq (jobA {}))).exec.seqs = [] := by decide +kernel
theorem test_vget_past_end : gReg (jobAfter (.vget 3 (sf 4 0 1 0 0)) (onSeq (jobA (regs2 1024 0)))).ctx 4 = BitVec.allOnes 64 := by decide +kernel
theorem test_vput : tfind (jobAfter (.vput 3 (sf 0 4 1 1 0)) (onSeq (jobA (regs2 9 0)))).ctx.v 0 = some (9#64 ++ 0#32) := by decide +kernel
theorem test_dset : dReg (jobAfter (.dset 3 (sf 2 1 0 3 0)) (onSeq (jobA (regs2 9 0)))).ctx 2 = 9#64 ++ 0#192 := by decide +kernel

/-! ### Tokens and engine issue -/

/-- Phase 0 of the plan of `holding` asks for tile regions 12 and 13 in token 2. -/
theorem wit_claim : Begins 0x60 3#7 (sf 0 0 0 0 0) (holding (jobA {}) {} 0) 5 (heldJob (jobA {}) 0) ∧
    (∀ e ∈ phaseEntries (planOf (holding (jobA {}) {} 0) 0) 0, tokValid (tokOf (heldJob (jobA {}) 0)
      (maskEnt ((planOf (holding (jobA {}) {} 0) 0).masks.getD e 0)).tok) = false) ∧
    (claimPhase (setJob (holding (jobA {}) {} 0) 5 (paid (sf 0 0 0 0 0) 320 (heldJob (jobA {}) 0))) 5 (paid (sf 0 0 0 0 0) 320 (heldJob (jobA {}) 0)) 0).isSome
      = true := by unfold Begins; decide +kernel
/-- One of the regions belongs to another job: nothing is granted, CF is set. -/
def taken13 : State := putOwner (holding (jobA {}) {} 0) 1 13 (.job 6)
theorem wit_claim_fails : Begins 0x60 3#7 (sf 0 0 0 0 0) taken13 5 (heldJob (jobA {}) 0) ∧
    claimPhase (setJob taken13 5 (paid (sf 0 0 0 0 0) 320 (heldJob (jobA {}) 0))) 5 (paid (sf 0 0 0 0 0) 320 (heldJob (jobA {}) 0)) 0 = none ∧
    Begins 0x60 3#7 (sf 0 0 0 64 0) { taken13 with exec := { taken13.exec with grants := [] } } 5 (heldJob (jobA {}) 0) ∧
    holdsClaimed { taken13 with exec := { taken13.exec with grants := [] } } 5 = false := by unfold Begins; decide +kernel
theorem test_claim : ((jobOf (after (.claim 3 (sf 0 0 0 0 0)) (holding (jobA {}) {} 0)) 5).map fun j => tokValid (tokOf j 2)) = some true ∧
    ownerOf (after (.claim 3 (sf 0 0 0 0 0)) (holding (jobA {}) {} 0)) 1 13 = .job 5 := by decide +kernel
theorem test_claim_all_or_none : (jobAfter (.claim 3 (sf 0 0 0 0 0)) taken13).ctx.flags = 8 ∧
    ownerOf (after (.claim 3 (sf 0 0 0 0 0)) taken13) 1 12 = .free := by decide +kernel
/-- A token of its phase is valid already. -/
theorem wit_claim_violates : tokValid (tokOf { jobA {} with ctx := { t := [(2, tokWord 0 0 0 1)] } }
    (maskEnt ((planOf (holding (jobA {}) {} 0) 0).masks.getD 0 0)).tok) = true := by decide +kernel

theorem wit_hand : ∀ k ∈ [0, 1, 3], Begins 0x61 3#7 (sf 1 (if k = 1 then 2 else 0) (if k = 1 then 3 else 0) (BitVec.ofNat 8 k) 0) (holding (jobA {}) region12 (if k = 3 then 2 else 0)) 5
      (heldJob (jobA {}) (if k = 3 then 2 else 0)) ∧
    tokGrantOf (holding (jobA {}) region12 (if k = 3 then 2 else 0)) (heldJob (jobA {}) (if k = 3 then 2 else 0)) 1 = some { region12 with tag := 5 } ∧
    tokHold (tokOf (heldJob (jobA {}) (if k = 3 then 2 else 0)) 1) = (if k = 3 then 2 else 0) := by unfold Begins; decide +kernel
theorem wit_hand_engine : Begins 0x61 3#7 (sf 1 0 0 2 0) (holding (jobA {}) { cls := 0, insts := [7] } 0) 5 (heldJob (jobA {}) 0) ∧
    tokGrantOf (holding (jobA {}) { cls := 0, insts := [7] } 0) (heldJob (jobA {}) 0) 1 = some { cls := 0, insts := [7], tag := 5 } := by
  unfold Begins; decide +kernel
theorem wit_hand_refused : tokGrantOf (onSeq (jobA {})) (jobA {}) 1 = none ∧
    tokGrantOf (holding (jobA {}) region12 2) (heldJob (jobA {}) 2) 1 = some { region12 with tag := 5 } ∧
    tokHold (tokOf (heldJob (jobA {}) 2) 1) ≠ 0 := by decide +kernel
theorem test_hand_shows_transit : tokHold (tokOf (jobAfter (.handFree 3 (sf 1 0 0 0 0)) (holding (jobA {}) region12 0)) 1) = 1 := by decide +kernel
theorem test_hand_empty_token : (after (.handFree 3 (sf 1 0 0 0 0)) (onSeq (jobA {}))).exec.jobs = [] := by decide +kernel
theorem test_tinst_none : gReg (jobAfter (.tinst 3 (sf 4 1 0 0 0)) (onSeq (jobA {}))).ctx 4 = BitVec.allOnes 64 := by decide +kernel
/-- Region 12 is the 12th of slice 0. -/
theorem test_tinst : gReg (jobAfter (.tinst 3 (sf 4 1 0 0 0)) (holding (jobA {}) region12 0)).ctx 4 = 12 ∧
    gReg (jobAfter (.tinst 3 (sf 4 1 0 1 0)) (holding (jobA {}) region12 0)).ctx 4 = 1 := by decide +kernel
theorem wit_tinst : Begins 0x63 3#7 (sf 4 1 0 0 0) (holding (jobA {}) region12 0) 5 (heldJob (jobA {}) 0) ∧
    (sliceOf (holding (jobA {}) region12 0) 0).isSome = true := by unfold Begins; decide +kernel
theorem test_yield_resets_steps : (jobAfter (.yieldPoint 3 (sf 0 0 0 0 0)) (onSeq { jobA {} with steps := 40 })).steps = 0 := by decide +kernel

/-- For every class of issue, a token fit for it. -/
theorem wit_issue : ∀ k ∈ [EngKind.scan, .rank, .lrank, .sel, .merge, .uniq, .gath, .scat, .move, .enc, .maxsim],
    Begins (issueTable k).1 3#7 (sf 1 1 0 0 0) (holding (jobA {}) { cls := (issueTable k).2, insts := [1] } (if k = .rank then 2 else 0)) 5
      (heldJob (jobA {}) (if k = .rank then 2 else 0)) ∧
    tokGrantOf (holding (jobA {}) { cls := (issueTable k).2, insts := [1] } (if k = .rank then 2 else 0)) (heldJob (jobA {}) (if k = .rank then 2 else 0)) 1
      = some { cls := (issueTable k).2, insts := [1], tag := 5 } ∧
    (tokHold (tokOf (heldJob (jobA {}) (if k = .rank then 2 else 0)) 1) = 2 ↔ k = .rank) ∧
    named (sf 1 1 0 0 0) { cls := (issueTable k).2, insts := [1], tag := 5 } = [1] ∧
    issueFull (holding (jobA {}) { cls := (issueTable k).2, insts := [1] } (if k = .rank then 2 else 0)) k 0 5 [1] = false := by
  unfold Begins; decide +kernel
/-- A queue of 16 tokens of the job is full. -/
theorem wit_issue_full : issueFull { holding (jobA {}) { cls := 3, insts := [1] } 0 with
    cmds := [(ekey 3 1, List.replicate 16 { tok := { job := 5 } })] } .scan 0 5 [1] = true := by decide +kernel
theorem wit_issue_violates : tokGrantOf (onSeq (jobA {})) (jobA {}) 1 = none ∧
    (tokGrantOf (holding (jobA {}) region12 0) (heldJob (jobA {}) 0) 1).map (·.cls) ≠ some (issueTable .scan).2 := by decide +kernel
theorem test_issue_queues_token : (cmdsOf (after (.scan 3 (sf 1 1 0 2 0)) (holding (jobA {}) { cls := 3, insts := [1] } 0)) 3 1).map
    (fun c => (c.tok.op, c.tok.job)) = [(2, 5)] := by decide +kernel
theorem test_issue_foreign_class : (after (.enc 3 (sf 1 1 0 0 0)) (holding (jobA {}) { cls := 3, insts := [1] } 0)).exec.jobs = [] := by decide +kernel

/-- A job with a fabric share in token 1 on node 7. -/
def onFabric : State := let s := holding (jobA {}) { cls := 12, insts := [0], credits := 4 } 0
  fset (fset s F.FAB_NODE_VALID 1) F.FAB_NODE_NODE 7
theorem wit_fabric : ∀ k ∈ [FabKind.fld, .fst, .fatom, .push, .pull], ∀ op, op = (match k with | .fld => 0xA0 | .fst => 0xA1 | .fatom => 0xA2 | _ => 0xA3) →
    ∀ f : Spx, f = { sf 1 2 3 (if k = .pull then 16 else if k = .push then 0 else 3) 0x10000 with x := k != .fld && k != .fst, ext := 64 } →
    defined op 1 f = true ∧ tokGrantOf onFabric (heldJob (jobA {}) 0) (f.imm.extractLsb' 16 3).toNat = some { cls := 12, insts := [0], credits := 4, tag := 5 } ∧
    fget onFabric F.FAB_NODE_VALID = 1 ∧ onFabric.fab.ops.length < 16384 := by
  intro k hk op ho f hf; subst ho hf; revert k; decide +kernel

/-! ### Waiting, views, queues -/

/-- View a1 bound to counter 40, generation 2, base 10; the counter's value is `v`. -/
def viewCtx : Ctx := { a := [(1, 1#1 ++ (0#3 ++ (10#32 ++ (2#16 ++ 40#12))))], g := [(1, 40)] }
/-- The job with the view, owning counter 40. -/
def withCtr (j : Job) (v : W32) : State :=
  let s := onSeq j
  { s with exec := { s.exec with ctrs := [(40, { val := v, gen := 2 })], owner := [(okey 13 40, .job 5)] } }

theorem wit_await_view : Begins 0xC0 3#7 (sf 1 0 0 0 3) (withCtr (jobA viewCtx) 14) 5 (jobA viewCtx) ∧ (aReg viewCtx 1).getLsbD 63 = true ∧
    viewAhead (withCtr (jobA viewCtx) 14) (aReg viewCtx 1) = 4 ∧ viewAhead (withCtr (jobA viewCtx) 11) (aReg viewCtx 1) = 1 ∧
    viewAhead (withCtr (jobA viewCtx) 9) (aReg viewCtx 1) = BitVec.allOnes 32 ∧ (aReg viewCtx 2).getLsbD 63 = false := by
  unfold Begins; decide +kernel
/-- R139: ahead by 4 satisfies a count of 3; ahead by 1 does not, and the job waits. -/
theorem test_await_passes : (jobAfter (.await 3 (sf 1 0 0 1 3)) (withCtr (jobA viewCtx) 14)).ctx.pc = 8 ∧
    viewAhead (withCtr (jobA viewCtx) 14) (aReg (jobAfter (.await 3 (sf 1 0 0 1 3)) (withCtr (jobA viewCtx) 14)).ctx 1) = 1 := by decide +kernel
theorem test_await_waits : (jobAfter (.await 3 (sf 1 0 0 0 3)) (withCtr (jobA viewCtx) 11)).phase = .waiting := by decide +kernel
theorem test_await_overrun : (after (.await 3 (sf 1 0 0 0 3)) (withCtr (jobA viewCtx) 9)).exec.jobs = [] := by decide +kernel
theorem wit_await_token : Begins 0xC0 3#7 (sf 1 0 0 4 0) (holding (jobA {}) region12 0) 5 (heldJob (jobA {}) 0) ∧
    (tokOf (heldJob (jobA {}) 0) 1).getLsbD 0 = true ∧ (tokOf (heldJob (jobA {}) 0) 1).extractLsb' 1 2 = 0#2 ∧
    (tokOf (heldJob (jobA {}) 1) 1).extractLsb' 1 2 ≠ 0#2 ∧ (tokOf (jobA {}) 1).getLsbD 0 = false ∧
    handoverPending (setJob (onSeq (jobA {})) 5 (paid (sf 1 0 0 4 0) 2 (jobA {}))) 5 1 = false := by unfold Begins; decide +kernel

/-- The job waits for something. -/
def waiting (j : Job) (w : Wait) : Job := { j with phase := .waiting, wait := some w, timeout := some 0 }
theorem wit_waits : ∀ w ∈ [Wait.view 1 3 true, .token 1, .fence 1 none, .take (sf 0 1 2 0 0), .issue .scan (sf 1 1 0 0 0), .post (sf 0 0 0 0 0)],
    Waits 3#7 (withCtr (waiting (jobA viewCtx) w) 14) 5 (waiting (jobA viewCtx) w) := by unfold Waits; decide +kernel
theorem wit_fence_done : fenceDone (onSeq (waiting (jobA {}) (.fence 1 none))) 5 none = true := by decide +kernel
/-- A timeout that has come, while nothing else is ready. -/
theorem wit_ext_timeout : (waiting (jobA viewCtx) (.view 1 3 false)).timeout = some 0 ∧
    awaitDone (withCtr (waiting (jobA viewCtx) (.view 1 3 false)) 11) 5 (waiting (jobA viewCtx) (.view 1 3 false)) = none ∧
    fenceEnd (withCtr (waiting (jobA viewCtx) (.view 1 3 false)) 11) 5 (waiting (jobA viewCtx) (.view 1 3 false)) = none := by decide +kernel
theorem test_ext_timeout_sets_cf : (jobAfter (.extTimeout 3) (withCtr (waiting (jobA viewCtx) (.view 1 3 false)) 11)).ctx.flags = 8 := by decide +kernel
theorem test_await_satisfied : (jobAfter (.awaitSatisfied 3) (withCtr (waiting (jobA viewCtx) (.view 1 3 false)) 14)).phase = .running := by decide +kernel

/-- The job with one operation in flight to node 9. -/
def opToNine (s : State) : State := { s with fab := { s.fab with ops := [(1, { job := 5, pkt := { noPkt with dst := 9 } })] } }
theorem wit_fence : Begins 0xC1 3#7 (sf 0 0 0 0 0) (onSeq (jobA {})) 5 (jobA {}) ∧
    (∃ p ∈ (opToNine (onSeq (jobA {}))).fab.ops, p.2.kind = 0 ∧ p.2.job = 5) := by unfold Begins; decide +kernel
theorem test_fence_waits : (jobAfter (.fence 3 (sf 0 0 0 0 0)) (opToNine (onSeq (jobA {})))).phase = .waiting ∧
    (jobAfter (.fence 3 (sf 0 0 0 0 0)) (onSeq (jobA {}))).phase = .running ∧
    (jobAfter (.fence 3 (sf 0 1 0 1 0)) (opToNine (onSeq (jobA (regs2 4 0))))).phase = .running := by decide +kernel

theorem wit_ard_unbound : Begins 0xC3 3#7 (sf 1 1 0 0 0) (onSeq (jobA {})) 5 (jobA {}) ∧ (aReg (jobA {}).ctx 1).getLsbD 63 = false := by
  unfold Begins; decide
theorem wit_view_bind : Begins 0xC2 3#7 (sf 1 1 0 0 0) (withCtr (jobA viewCtx) 14) 5 (jobA viewCtx) ∧
    Begins 0xC2 3#7 (sf 1 0 0 1 0) (withCtr (jobA viewCtx) 14) 5 (jobA viewCtx) ∧
    Begins 0xC3 3#7 (sf 2 1 0 0 0) (withCtr (jobA viewCtx) 14) 5 (jobA viewCtx) ∧ holdsCtr (onSeq (jobA {})) 5 0 = false := by
  unfold Begins; decide +kernel
theorem test_ard : gReg (jobAfter (.ard 3 (sf 2 1 0 0 0)) (withCtr (jobA viewCtx) 14)).ctx 2 = 4 := by decide +kernel
theorem test_view_unbind : aReg (jobAfter (.viewUnbind 3 (sf 1 0 0 1 0)) (withCtr (jobA viewCtx) 14)).ctx 1 = 0 := by decide +kernel
theorem test_pulse : (ctrOf (after (.pulse 40 2 5) (withCtr (jobA {}) 14)) 40).val = 19 := by decide +kernel
theorem test_pulse_stale : fget (after (.pulse 40 3 5) (withCtr (jobA {}) 14)) F.SEQ_STALE_PULSE_V = 1 ∧
    (ctrOf (after (.pulse 40 3 5) (withCtr (jobA {}) 14)) 40).val = 14 := by decide +kernel
theorem wit_pulse : ownerOf (withCtr (jobA {}) 14) 13 40 ≠ .free ∧ (ctrOf (withCtr (jobA {}) 14) 40).gen = 2 ∧
    ownerOf (onSeq (jobA {})) 13 40 = .free := by decide +kernel

/-- All take slots in use. -/
def fullTake : Job := { jobA {} with take := (List.range 64).map fun k => (k, {}) }
theorem wit_take_full : Begins 0xC8 3#7 (sf 0 1 2 0 0) (onSeq fullTake) 5 fullTake ∧ (∀ k < 64, (tfind fullTake.take k).isSome = true) := by
  unfold Begins; decide +kernel
theorem test_take_full_sets_cf : (jobAfter (.take 3 (sf 0 1 2 0 0)) (onSeq fullTake)).ctx.flags = 8 := by decide +kernel
/-- Queue 4, a pull queue of the job's domain, enabled, with one entry in host memory at 0, cookie 6. -/
def pullQueue (j : Job) (mode : Nat) : State :=
  let s := onSeq j
  let s1 := fset (fset (fset s F.HIU_SQ_CTL_ENABLE 1 4) F.HIU_SQ_CTL_MODE mode 4) F.HIU_SQ_CTL_SIZE 6 4
  let s2 := fset (fset (fset s1 F.HIU_SQ_STAT_TAIL 1 4) F.HIU_PAGE_DOM_VALID 1 0) F.HIU_PAGE_DOM_DOM 1 0
  { s2 with mem := { s2.mem with host := [(16, 6)] } }
theorem wit_take : Begins 0xC8 3#7 (sf 0 1 2 0 4) (pullQueue (jobA {}) 1) 5 (jobA {}) ∧
    (tryTake (sf 0 1 2 0 4) (setJob (pullQueue (jobA {}) 1) 5 (paid (sf 0 1 2 0 4) 12 (jobA {}))) 5 (paid (sf 0 1 2 0 4) 12 (jobA {}))).1.isSome = true ∧
    (tryTake (sf 0 1 2 0 4) (pullQueue (waiting (jobA {}) (.take (sf 0 1 2 0 4))) 1) 5 (waiting (jobA {}) (.take (sf 0 1 2 0 4)))).1.isSome = true := by
  unfold Begins; decide +kernel
theorem test_take : ((jobAfter (.take 3 (sf 0 1 2 0 4)) (pullQueue (jobA {}) 1)).take.map fun p => (p.1, p.2.cookie)) = [(0, 6)] ∧
    fget (after (.take 3 (sf 0 1 2 0 4)) (pullQueue (jobA {}) 1)) F.HIU_SQ_STAT_HEAD 4 = 1 := by decide +kernel
theorem wit_post_child : Begins 0xC9 3#7 (sf 0 0 0 0 4) (pullQueue (jobA {}) 0) 5 (jobA {}) ∧
    intakeFree (setJob (pullQueue (jobA {}) 0) 5 (paid (sf 0 0 0 0 4) 4 (jobA {}))) 1 = true ∧
    queueOf (setJob (pullQueue (jobA {}) 0) 5 (paid (sf 0 0 0 0 4) 4 (jobA {}))) 4 1 0 = true := by unfold Begins; decide +kernel
/-- A handle that names a taken request, and one that does not. -/
theorem wit_post_completion : Begins 0xC9 3#7 (sf 1 0 0 1 0) (onSeq { jobA (regs2 (3 + 2 * 65536) 0) with take := [(3, { tag := 2 })] }) 5
      { jobA (regs2 (3 + 2 * 65536) 0) with take := [(3, { tag := 2 })] } ∧
    (gReg (regs2 (3 + 2 * 65536) 0) 1).toNat = 3 + 2 * 65536 := by unfold Begins; decide +kernel
theorem test_post_completion_once : (jobAfter (.postCompletion 3 (sf 1 0 0 1 0))
    (onSeq { jobA (regs2 (3 + 2 * 65536) 0) with take := [(3, { tag := 2 })] })).take = [] := by decide +kernel
theorem wit_stalled : tryIssue .scan (sf 1 1 0 0 0) (holding (waiting (jobA {}) (.issue .scan (sf 1 1 0 0 0))) { cls := 3, insts := [1] } 0) 5
      (heldJob (waiting (jobA {}) (.issue .scan (sf 1 1 0 0 0))) 0) ≠ .stalls := by
  intro h; revert h; decide +kernel


/-! ### Placement, plans, deadlines, watchdogs -/

/-- The node is ready, in P0; domain 1 is active. -/
def awake (s : State) : State :=
  let s1 : State := { s with smc := { s.smc with doms := [(1, { state := 1 })] } }
  fset (fset s1 F.PRB_STEP_READY 1) F.PRB_STEP_LAST 15
theorem wit_awake : Awake (awake {}) := by unfold Awake; decide +kernel

/-- A submission of the plan that waits for a sequencer, in P0. -/
def pendA : Pend := { tag := 8, dom := 1, sq := 4, deadline := 100 }
def pendState : State := awake { exec := { plans := [(0, { planA with entries := [(8, 0)] })], pend := [pendA] } }
theorem wit_placement : fget pendState F.PRB_PWR_STAT_STATE = 0 ∧ nextPlaced pendState = some pendA ∧
    tfind pendState.exec.plans 0 = some { planA with entries := [(8, 0)] } ∧ (freeSeq pendState false 1).isSome = true := by decide +kernel
theorem test_placement : ((jobOf (after .jobPlacement pendState) 8).map fun j => (j.ctx.pc, gReg j.ctx 3, j.phase)) = some (8, 100, .running) := by
  decide +kernel

/-- The part of a unified range that tests use: one page of a single-home region of domain 1, at addresses 0 to 65,535, in frame 0. -/
def ranged (s : State) (bs : List Byte) : State :=
  { s with
    mem := { s.mem with stk := cellsWrite [] 0 bs }
    tir := { s.tir with regions := [(1, { dom := 1, cls := 1, home := 1, base := 0, len := 65536 })]
                        pages := [(pageKey 1 0, { frame := some 0, present := BitVec.allOnes 16, home := 1 })] } }
/-- A plan image of one entry, one phase, one mask (tile region 12 in token 1) and one instruction, END. -/
def imageA : List Byte :=
  let pad := fun (bs : List Byte) => bs ++ List.replicate (64 - bs.length) (0 : Byte)
  pad (bytesOf 4 1 ++ bytesOf 2 9 ++ [1, 1] ++ bytesOf 4 8 ++ bytesOf 4 0 ++ bytesOf 2 1 ++ bytesOf 2 0 ++ bytesOf 4 320)
    ++ pad (bytesOf 8 0) ++ pad (bytesOf 2 0 ++ bytesOf 2 1) ++ pad (bytesOf 8 (1 + 2 ^ 8 * 12 + 2 ^ 24 + 2 ^ 40 + 2 ^ 56)) ++ pad (bytesOf 8 0x45)
def sysA (op : Nat) : Pend := { tag := 8, dom := 1, op := op, plan := 3, entry := List.replicate 128 0 }
def loadState : State := ranged (awake { exec := { sysops := [sysA 0xFF01] } }) imageA
theorem wit_plan_load : fget loadState F.PRB_PWR_STAT_STATE = 0 ∧ loadState.exec.sysops.find? (fun x => x.tag == 8 && x.op == 0xFF01) = some (sysA 0xFF01) ∧
    (tget {} loadState.smc.doms 1).state = 1 ∧ tfind loadState.exec.plans 3 = none ∧ (loadSlice loadState (sysA 0xFF01)).isSome = true ∧
    loadImage loadState (sysA 0xFF01) = some imageA ∧ (parseImage imageA).micro = [] ∧
    ((loadSlice loadState (sysA 0xFF01)).map fun p => imageOk loadState 1 p.2 (parseImage imageA)) = some true := by decide +kernel
theorem test_plan_load : ((tfind (after (.planLoad 8) loadState).exec.plans 3).map fun p => (p.id, p.text, p.masks.length)) = some (9, [0x45], 1) := by
  decide +kernel
theorem wit_plan_load_refused : (tget {} ({ loadState with smc := {} } : State).smc.doms 1).state ≠ 1 := by decide
def unloadState : State := awake { exec := { sysops := [sysA 0xFF02], plans := [(3, planA)] } }
theorem wit_plan_unload : unloadState.exec.sysops.find? (fun x => x.tag == 8 && x.op == 0xFF02) = some (sysA 0xFF02) ∧
    tfind unloadState.exec.plans 3 = some planA ∧ planA.unloading = false ∧ planA.dom = 1 := by decide +kernel
theorem test_plan_unload : (after (.planUnload 8) unloadState).exec.plans = [] := by decide +kernel

/-- Deadlines that have come, at time 50. -/
def lateState : State := { onSeq { jobA {} with deadline := 50, take := [(3, { tag := 2, deadline := 40 })] } with now := 50 }
theorem wit_late : ((jobOf lateState 5).map fun j => (j.deadline, (tfind j.take 3).map (·.deadline))) = some (50, some 40) ∧
    ({ pendState with now := 100 } : State).exec.pend.find? (fun x => x.tag == 8 && deadlineMet { pendState with now := 100 } x.deadline) = some pendA := by
  decide +kernel
theorem test_deadline_reached : (after (.deadlineReached 5) lateState).exec.jobs = [] := by decide +kernel
theorem test_deadline_not_reached : (after (.deadlineReached 5) { lateState with now := 49 }).exec.jobs = lateState.exec.jobs := by decide +kernel
theorem test_taken_late : ((jobOf (after (.takenRequestLate 5 3) lateState) 5).map (·.take)) = some [] := by decide +kernel
theorem test_pending_late : (after (.pendingJobLate 8) { pendState with now := 100 }).exec.pend = [] := by decide +kernel

/-- A held claim that can be granted: tile regions 12 and 13 are free. -/
def heldState : State :=
  let s := holding (waiting (jobA {}) (.claim 0)) {} 0
  { s with exec := { s.exec with held := [⟨5, 0, false, false⟩] } }
theorem wit_held : (grantHeld heldState ⟨5, 0, false, false⟩).isSome = true ∧
    (grantHeld (putOwner heldState 1 13 (.job 6)) ⟨5, 0, false, false⟩) = none := by decide +kernel
theorem test_held_claim_granted : (after .heldClaimGrant heldState).exec.held = [] ∧ (jobAfter .heldClaimGrant heldState).phase = .running := by decide +kernel

theorem wit_watchdog : seqTag (onSeq { jobA {} with steps := 25600 }) 3 = some 5 ∧ (jobOf (onSeq { jobA {} with steps := 25600 }) 5).isSome = true := by
  decide +kernel
theorem test_watchdog : (after (.seqWatchdogAbort 3) (onSeq { jobA {} with steps := 25600 })).exec.jobs = [] ∧
    (after (.seqWatchdogAbort 3) (onSeq { jobA {} with steps := 25599 })).exec.jobs ≠ [] := by decide +kernel
theorem test_overrun_counts_once : (let s := after (.seqOverrun 3) (onSeq { jobA {} with steps := 6401 })
    fget (after (.seqOverrun 3) s) F.SEQ_OVERRIDE_CNT_SEQ_OVR) = 1 := by decide +kernel

/-- A latency-critical submission waits and every sequencer of its set is taken by a best-effort job that runs. -/
def stuckState : State :=
  let s := onSeq { jobA {} with be := true }
  let s1 := fset (fset (fset (fset s F.DSP_LC_SET0_MEMBERS 8) F.DSP_LC_SET1_MEMBERS 0) F.DSP_LC_SET2_MEMBERS 0) F.DSP_LC_SET3_MEMBERS 0
  { s1 with exec := { s1.exec with pend := [pendA] } }
theorem wit_make_way : (askedJobs stuckState).length < (lcStuck stuckState).length ∧
    ((lcStuck stuckState).findSome? fun w => leastBy (fun (p : Nat × Job) => (2 ^ 64 - p.2.order) * 128 + p.2.q) (mayAsk stuckState w)).isSome = true := by
  decide +kernel
theorem test_make_way_asks : (jobAfter .makeWayRequest stuckState).asked = true := by decide +kernel
/-- A parked job and a free sequencer of the best-effort set. -/
def parkedState : State := fset { exec := { jobs := [(5, { jobA {} with be := true, phase := .parked, slot := some 2 })]
                                            plans := [(0, planA)], slots := [(2, 5)] } } F.DSP_BE_SET0_MEMBERS 8
theorem wit_resume : fget parkedState F.PRB_PWR_STAT_STATE = 0 ∧ (leastBy (fun p => p.2.order) (resumable parkedState)).isSome = true ∧
    (freeSeq parkedState true 1).isSome = true := by decide +kernel
theorem test_resume : (jobAfter (.jobResume false) parkedState).phase = .running ∧ (after (.jobResume false) parkedState).exec.slots = [] := by decide +kernel

/-! ### Near-bank units -/

/-- Bank 2 runs RANK command 9; lane n1 and parameter p1 hold something. -/
def nbuA : Nbu := { cmd := some 9, hi := 0xA0, pc := 4, n := [(1, 3)], p := [(1, 7)], int16 := true }
/-- A micro-op word. -/
def mop (a d : BitVec 4) (p : BitVec 3) (imm : BitVec 16) : Mop := ⟨d, a, p, imm, false⟩
/-- The node with the unit in bank 2. -/
def nbuIn (n : Nbu) : State := { stk := { nbus := [(2, n)], ranks := [(9, { tok := { job := 5 }, left := [2], banks := [2], started := true })] } }

theorem wit_micro : ∀ p ∈ [(0x00, mop 0 0 0 0), (0x01, mop 0 0 0 0), (0x02, mop 0 0 0 0), (0x03, mop 0 2 1 1), (0x04, mop 0 2 1 1), (0x05, mop 1 0 1 1),
      (0x06, mop 0 0 1 1), (0x07, mop 0 0 1 1), (0x08, mop 1 0 1 1), (0x09, mop 1 2 0 0), (0x0A, mop 1 0 1 1), (0x0A, mop 1 0 0 0x400), (0x0B, mop 0 0 0 0),
      (0x0C, mop 1 2 0 0), (0x0D, mop 0 0 0 1), (0x0E, mop 0 0 1 5), (0x0F, mop 0 0 1 1), (0x10, mop 1 0 2 1), (0x11, mop 0 0 0 1), (0x12, mop 0 0 1 1),
      (0x13, mop 0 0 1 1), (0x14, mop 1 0 0 0)],
    MicroRuns (nbuIn nbuA) 2 nbuA 9 p.1 p.2 := by unfold MicroRuns; decide +kernel
/-- A column that can be read, one with an uncorrectable word; a full write buffer; branches inside and outside the region. -/
theorem wit_micro_edges : (readCol (nbuIn nbuA) 2 nbuA 8).isSome = true ∧
    readCol { nbuIn nbuA with mem := { badStk := [(2 * 2 ^ 27 + 256) / 4] } } 2 nbuA 8 = none ∧ ({ nbuA with wbuf := List.replicate 8 (0, 0) } : Nbu).wbuf.length = 8 ∧
    mopTarget nbuA (mop 0 0 0 1) = 5 ∧ mopTarget nbuA (mop 0 0 0 0x3F0) = -12 ∧ mopTarget nbuA (mop 0 0 0 0x9C) = 160 ∧ nbuA.lo = 0 ∧ nbuA.hi = 160 ∧
    isNan32 (pLane nbuA 0) = false ∧ isNan32 (pLane (setPLane nbuA 0 0x7FC00000) 0) = true ∧ tsorted nbuA.acc = true := by decide +kernel
/-- R249: a store to a column waits in the write buffer, and the unit's own read sees it. -/
theorem test_nbu_stc_ldr : nReg (nbuOf (after (.nbuLdr 2 (mop 0 5 1 1)) (after (.nbuStc 2 (mop 1 0 1 1)) (nbuIn nbuA))) 2) 5 = 3 := by decide +kernel
/-- R248: int16 MAC of n1 (3 in lane 0) with itself raises accumulator lane 0 by 9. -/
theorem test_nbu_macr : accLane (nbuOf (after (.nbuMacr 2 (mop 1 1 0 0)) (nbuIn nbuA)) 2) 0 = 9 := by decide +kernel
theorem test_nbu_loop : (nbuOf (after (.nbuLoop 2 (mop 0 0 1 0x3FF)) (nbuIn nbuA)) 2).pc = 3 ∧
    pReg (nbuOf (after (.nbuLoop 2 (mop 0 0 1 0x3FF)) (nbuIn nbuA)) 2) 1 = 6 := by decide +kernel
theorem test_nbu_branch_outside : (nbuOf (after (.nbuBr 2 (mop 0 0 0 0x3F0)) (nbuIn nbuA)) 2).cmd = none := by decide +kernel
theorem test_nbu_setp : pReg (nbuOf (after (.nbuSetp 2 (mop 0 0 4 77)) (nbuIn nbuA)) 2) 4 = 77 := by decide +kernel
theorem test_nbu_emit : ((nbuOf (after (.nbuEmit 2 (mop 1 0 0 0)) (nbuIn nbuA)) 2).ebuf.length, ((rankOf (after (.nbuEmit 2 (mop 1 0 0 0)) (nbuIn nbuA)) 9).map (·.count)))
    = (1, some 1) := by decide +kernel
theorem test_refresh_owed : (nbuOf (after (.refreshDue 2) (nbuIn nbuA)) 2).owed = 1 ∧ after (.refreshDue 3) (nbuIn nbuA) = nbuIn nbuA := by decide +kernel
theorem wit_forced : (nbuOf (nbuIn { nbuA with owed := 8 }) 2).owed = 8 ∧ (nbuOf (nbuIn { nbuA with micro := 32768 }) 2).micro = 32768 ∧
    (nbuOf (nbuIn { nbuA with micro := 129 }) 2).overrun = false := by decide +kernel
theorem test_forced_suspension : (nbuOf (after (.forcedRefreshSuspension 2) (nbuIn { nbuA with owed := 8 })) 2).owed = 0 := by decide +kernel
theorem test_nbu_watchdog : (nbuOf (after (.nbuWatchdogAbort 2) (nbuIn { nbuA with micro := 32768 })) 2).cmd = none := by decide +kernel
theorem test_nbu_overrun : fget (after (.nbuOverrun 2) (nbuIn { nbuA with micro := 129 })) F.SEQ_OVERRIDE_CNT_NBU_OVR = 1 := by decide +kernel

/-- The job's grants: bank 2 (in NBU form), lane 3 with a candidate share of 4. -/
def rankState : State :=
  let s := ranged (awake (onSeq (jobA {}))) []
  { s with
    exec := { s.exec with grants := [(1, { tag := 5, cls := 9, insts := [3], credits := 4 })], nextHandle := 2
                          owner := [(okey 0 2, .nbu 5), (okey 4 3, .job 5), (okey 9 3, .job 5)] }
    stk := { nbus := [(2, { queue := [9] })]
             ranks := [(9, { tok := { kind := .rank, op := 0, job := 5, dom := 1, desc := BitVec.ofNat 256 (2 ^ 64 * (3 * 2 ^ 48 + 2 ^ 52)) }
                             banks := [2] })] } }
theorem wit_rank_command : rankState.stk.ranks.find? (fun p => p.2.stack == 0 && !p.2.started) = rankState.stk.ranks.head? ∧
    (rankEntry rankState (jobA {}) 0).isSome = true ∧ ownerOf rankState 0 2 = .nbu 5 ∧ (nbuOf rankState 2).queue.contains 9 = true ∧ quarantined rankState 1 2 = false ∧
    jobInst rankState 5 4 3 = .ok 3 ∧ laneShare rankState 5 3 = .ok 1 ∧ rankState.flt.stacksOut.contains 0 = false ∧ operandUsed rankState 0 = 0 ∧
    uRead rankState 1 0 32 = .ok (List.replicate 32 0) := by decide +kernel
theorem test_rank_command : ((nbuOf (after (.rankCommand 0) rankState) 2).cmd, (nbuOf (after (.rankCommand 0) rankState) 2).queue) = (some 9, []) := by decide +kernel

/-! ### Engines -/

/-- The lanes of a descriptor. -/
def desc (a b c d : Nat) : W256 := BitVec.ofNat 256 (a + 2 ^ 64 * b + 2 ^ 128 * c + 2 ^ 192 * d)
/-- Bytes with a length. -/
def padTo (n : Nat) (bs : List Byte) : List Byte := bs ++ List.replicate (n - bs.length) 0
/-- The command that the tests use. -/
def cmdA (kind : EngKind) (inst : Nat) (op : Byte) (d : W256) : Cmd := { id := 7, tok := { kind := kind, op := op, job := 5, dom := 1, desc := d, insts := [inst] } }
/-- The command at its engine, with the page of domain 1 holding `bs`, lane 3 with a candidate share, index 2 installed, and flash channel 1
with a read share. -/
def atEngine (cls inst : Nat) (c : Cmd) (bs : List Byte) : State :=
  let s := ranged (awake (onSeq (jobA {}))) bs
  { s with
    exec := { s.exec with grants := [(1, { tag := 5, cls := 9, insts := [3], credits := 4 }), (2, { tag := 5, cls := 11, insts := [1], credits := 4 })]
                          nextHandle := 3, owner := tput .free [(okey 4 3, .job 5)] (okey cls inst) (.job 5) }
    tir := { s.tir with indexes := [(2, { dom := 1, root := 49152, cent := 40960, dir := 57344, dirEnd := 57344 })] }
    cmds := [(ekey cls inst, [c])] }

/-- A query group of one slot that takes part in scans. -/
def groupBytes : List Byte := padTo 64 (bytesOf 4 1 ++ [0, 1, 2]) ++ padTo 64 (List.replicate 32 0 ++ [1]) ++ List.replicate 32 0xFF
theorem wit_load_group : Heads (atEngine 3 3 (cmdA .scan 3 0 (desc (2 * 2 ^ 56) 0 0 0)) []) 3 3 .scan 0 (cmdA .scan 3 0 (desc (2 * 2 ^ 56) 0 0 0)) ∧
    (writeCounters (atEngine 3 3 (cmdA .scan 3 0 (desc (2 * 2 ^ 56) 0 0 0)) []) 3).isSome = true ∧
    (loadGroup (atEngine 3 3 (cmdA .scan 3 0 (desc (2 * 2 ^ 56 + 64) 0 0 0)) (List.replicate 64 0 ++ groupBytes))
      (cmdA .scan 3 0 (desc (2 * 2 ^ 56 + 64) 0 0 0)) 64).isOk = true := by unfold Heads Serves; decide +kernel
theorem test_load_group : ((tfind (after (.scanLoadGroup 3) (atEngine 3 3 (cmdA .scan 3 0 (desc (2 * 2 ^ 56 + 64) 0 0 0))
    (List.replicate 64 0 ++ groupBytes))).groups 3).map fun g => (g.index, g.slots.length)) = some (2, 1) := by decide +kernel
/-- A scan of list 0, which is empty, for slot 0. -/
def scanState (k : CmdPhase) : State :=
  { atEngine 3 3 { cmdA .scan 3 1 (desc (2 * 2 ^ 56 + 49152) 1 0 0) with phase := k } [] with
    groups := [(3, { dom := 1, index := 2, slots := [(0, { ctrl := 1 })] })] }
theorem wit_scan : Heads (scanState .queued) 3 3 .scan 1 (cmdA .scan 3 1 (desc (2 * 2 ^ 56 + 49152) 1 0 0)) ∧
    (scanStart 3 false [] none (scanState .queued) (cmdA .scan 3 1 (desc (2 * 2 ^ 56 + 49152) 1 0 0))).isOk = true ∧
    (match scanStart 3 false [] none { scanState .queued with groups := [] } (cmdA .scan 3 1 (desc (2 * 2 ^ 56 + 49152) 1 0 0)) with
      | .error (.report _ rs _ _) => rs == 0x33 | _ => false) = true ∧
    Heads (scanState .running) 3 3 .scan 1 { cmdA .scan 3 1 (desc (2 * 2 ^ 56 + 49152) 1 0 0) with phase := .running } := by
  unfold Heads Serves; decide +kernel
theorem test_scan_empty_list : (cmdsOf (after (.scanStackList 3 [] none) (scanState .queued)) 3 3).map (fun c => (c.phase, c.status, c.count))
    = [(.finishing, 0, 0)] := by decide +kernel

/-- A table of 32 elements, all zero, for scorer 1, and a page set of no entries that is refused. -/
theorem wit_flash_table : Serves (atEngine 6 1 (cmdA .lrank 1 0 (desc (2 * 2 ^ 56) 3 0 0)) []) (scHead (atEngine 6 1 (cmdA .lrank 1 0 (desc (2 * 2 ^ 56) 3 0 0)) []) 1)
      6 1 .lrank 0 (cmdA .lrank 1 0 (desc (2 * 2 ^ 56) 3 0 0)) ∧
    overcast (atEngine 6 1 (cmdA .lrank 1 0 (desc (2 * 2 ^ 56) 3 0 0)) []) = false ∧
    (buildTable (atEngine 6 1 (cmdA .lrank 1 0 (desc (2 * 2 ^ 56) 3 0 0)) []) (cmdA .lrank 1 0 (desc (2 * 2 ^ 56) 3 0 0))).isOk = true ∧
    (scoreStart 1 (atEngine 6 1 (cmdA .lrank 1 1 (desc (2 * 2 ^ 56) (1 + 3 * 2 ^ 16) 0 0)) []) (cmdA .lrank 1 1 (desc (2 * 2 ^ 56) (1 + 3 * 2 ^ 16) 0 0))).isOk = true ∧
    overcast (fset {} F.PRB_OVC_STAT_CAUSE 1) = true := by
  unfold Serves; decide +kernel
theorem test_flash_table : ((tfind (after (.lrankLoadTable 1) (atEngine 6 1 (cmdA .lrank 1 0 (desc (2 * 2 ^ 56) 3 0 0)) [])).fls.tables 19).map
    fun t => (t.index, t.query.length)) = some (2, 32) := by decide +kernel
/-- R282: an entry whose page is not at home in flash is not scored. -/
theorem test_flash_not_home : (cmdsOf (after (.lrankScorePages 1) (atEngine 6 1 (cmdA .lrank 1 1 (desc (2 * 2 ^ 56) (1 + 3 * 2 ^ 16) 0 0)) [])) 6 1).map
    (fun c => (c.phase, c.status, c.reason)) = [(.finishing, 1, 0x52)] := by decide +kernel
theorem wit_score_entry : ({ fls := { work := [{ chan := 1, haveRec := true, haveScale := true }] } } : State).fls.work.find?
    (fun w => w.chan == 1 && entReady w) = some { chan := 1, haveRec := true, haveScale := true } := by decide

/-- Lane 3 with an arrived entry for slot 2. -/
def laneState (sets : Table CSet) : State :=
  { atEngine 4 3 (cmdA .sel 3 0 (desc 4 (10 + 2 ^ 32) 0 0)) [] with lanes := [(3, { sets := sets, inq := [{ e := BitVec.ofNat 192 (2 * 2 ^ 16 + 5), tag := 5, share := 1 }] })] }
theorem wit_intake : (laneOf (laneState []) 3).inq ≠ [] ∧ tfind (laneOf (laneState []) 3).sets 2 = none ∧
    (placeEntry (laneState [(2, { k := 4, allot := 1 })]) 1 { k := 4, allot := 1 } (candKey (laneState []) (2 * 2 ^ 16 + 5)) (BitVec.ofNat 192 (2 * 2 ^ 16 + 5))).isSome
      = true := by decide +kernel
theorem test_intake_orphan : fget (after (.candidateIntake 3) (laneState [])) F.SEL_STAT_ORPHAN = 1 ∧
    (laneOf (after (.candidateIntake 3) (laneState [])) 3).inq = [] := by decide +kernel
theorem test_intake_places : ((tfind (laneOf (after (.candidateIntake 3) (laneState [(2, { k := 4, allot := 1 })])) 3).sets 2).map fun c => c.entries.map (·.1))
    = some [2 ^ 31 + 5] := by decide +kernel
/-- A set of 10 entries of one allotment block; a set of 8,193 with a spill area is too large for this page. -/
theorem wit_arm : Heads (laneState []) 4 3 .sel 0 (cmdA .sel 3 0 (desc 4 (10 + 2 ^ 32) 0 0)) ∧ maskList (lane64 (desc 4 (10 + 2 ^ 32) 0 0) 0) 64 = [2] ∧
    laneBits (desc 4 (10 + 2 ^ 32) 0 0) 1 0 24 = 10 ∧ laneBits (desc 4 (10 + 2 ^ 32) 0 0) 1 32 9 = 1 ∧ 2 * 10 ≤ 1 * 64 ∧
    Heads (atEngine 4 3 (cmdA .sel 3 2 (desc 4 64 0 0)) []) 4 3 .sel 2 (cmdA .sel 3 2 (desc 4 64 0 0)) ∧
    (drainSlots (atEngine 4 3 (cmdA .sel 3 2 (desc 4 64 0 0)) []) 1 { sets := [(2, { k := 4, allot := 1 })] } false [2]).isSome = true := by
  unfold Heads Serves; decide +kernel
theorem test_arm : ((tfind (laneOf (after (.selArmExact 3) (laneState [])) 3).sets 2).map fun c => (c.k, c.allot, c.approx)) = some (10, 1, false) := by decide +kernel
/-- R303: at most half of a set's allotment may be asked for. -/
theorem test_arm_too_small : (cmdsOf (after (.selArmExact 3) (atEngine 4 3 (cmdA .sel 3 0 (desc 4 (33 + 2 ^ 32) 0 0)) [])) 4 3).map (fun c => c.status)
    = [0x0B] := by decide +kernel
theorem wit_selection : selectBest false 2 [] (dedup [(7, 1), (3, 2), (3, 9), (7, 1)]) = ([(3, 2), (3, 9)], 0) := by
  simp [selectBest, sortKI, dedup, exactLe, List.mergeSort, List.MergeSort.Internal.splitInTwo]
theorem test_selection_ties : selectBest false 1 [] [(3, 9), (3, 2), (4, 1)] = ([(3, 2)], 1) := by
  simp [selectBest, sortKI, exactLe, List.mergeSort, List.MergeSort.Internal.splitInTwo]

/-- A command at lane `inst`, with a page of zeros at 0 (no frame yet) and a page at 65,536 that holds `bs`. -/
def zeroState (inst : Nat) (c : Cmd) (bs : List Byte) : State :=
  let s := awake (onSeq (jobA {}))
  { s with
    exec := { s.exec with owner := [(okey 4 inst, .job 5)] }
    cmds := [(ekey 4 inst, [c])]
    mem := { s.mem with stk := cellsWrite [] 0 bs }
    tir := { regions := [(1, { dom := 1, cls := 1, home := 1, base := 0, len := 131072 })]
             pages := [(pageKey 1 65536, { frame := some 0, present := BitVec.allOnes 16, home := 1 })] } }

theorem zero_locate (i : Nat) (c : Cmd) (bs : List Byte) (a : Nat) (h : a < 65536) : locate (zeroState i c bs) 1 a = .zero := by
  have h1 : a / 65536 = 0 := by omega
  have h2 : a < 2 ^ 55 := by omega
  have h3 : areaAt (zeroState i c bs) 1 a = none := by unfold areaAt; rw [if_pos h2]
  have h4 : regionAt (zeroState i c bs) 1 a = some (1, { dom := 1, cls := 1, home := 1, base := 0, len := 131072 }) := by
    have : a < 131072 := by omega
    simp [regionAt, zeroState, this]
  have h5 : pageOf (zeroState i c bs) (pageKey 1 a) = {} := by
    have : pageKey 1 a = 2 ^ 40 := by simp [pageKey, h1]
    rw [this]; rfl
  simp [locate, h3, h4, h5]

theorem zero_read (i : Nat) (c : Cmd) (bs : List Byte) (a n : Nat) (h : a + n ≤ 65536) :
    operand (zeroState i c bs) 1 a n = .ok (List.replicate n 0) := by
  have hb : ∀ k ∈ List.range n, uByte (zeroState i c bs) 1 (a + k) = some (some 0) := by
    intro k hk
    have : a + k < 65536 := by have := List.mem_range.mp hk; omega
    have h5 : pageOf (zeroState i c bs) (pageKey 1 (a + k)) = {} := by
      have h1 : (a + k) / 65536 = 0 := by omega
      have : pageKey 1 (a + k) = 2 ^ 40 := by simp [pageKey, h1]
      rw [this]; rfl
    simp [uByte, homeByte, waitingByte, h5, zero_locate i c bs _ this]
  have hm : (List.range n).map (fun k => uByte (zeroState i c bs) 1 (a + k)) = List.replicate n (some (some 0)) := by
    rw [List.map_congr_left hb]; simp
  have : uRead (zeroState i c bs) 1 a n = .ok (List.replicate n 0) := by
    unfold uRead; rw [hm]; simp
  simp [operand, this]

theorem zero_writable (i : Nat) (c : Cmd) (bs : List Byte) (a n cls inst : Nat) (h : a + n ≤ 65536) :
    writable (zeroState i c bs) 1 a n cls inst = .ok () := by
  have h1 : ∀ k ∈ List.range n, (locate (zeroState i c bs) 1 (a + k) == .outside || readOnly (zeroState i c bs) 1 (a + k)) = false := by
    intro k hk
    have hl : a + k < 65536 := by have := List.mem_range.mp hk; omega
    have : a + k < 131072 := by omega
    rw [zero_locate i c bs _ hl]
    simp [readOnly, regionAt, zeroState, this]
  have h2 : ∀ k ∈ List.range n, tirOnly (zeroState i c bs) 1 (a + k) = false := by
    intro k hk
    have : a + k < 2 ^ 55 := by have := List.mem_range.mp hk; omega
    have ha : areaAt (zeroState i c bs) 1 (a + k) = none := by unfold areaAt; rw [if_pos this]
    have hx : (zeroState i c bs).tir.indexes = [] := rfl
    simp [tirOnly, ha, hx]
  have e1 : ((List.range n).any fun k => locate (zeroState i c bs) 1 (a + k) == .outside || readOnly (zeroState i c bs) 1 (a + k)) = false := by
    simpa using h1
  have e2 : ((List.range n).any fun k => tirOnly (zeroState i c bs) 1 (a + k)) = false := by simpa using h2
  simp [writable, e1, e2, need]

theorem zero_parse (n : Nat) (h : 2 ≤ n) : parseBlock (List.replicate n 0) = [] := by
  have h1 : (List.replicate n (0 : Byte)).take 2 = [0, 0] := by rw [List.take_replicate, Nat.min_eq_left h]; rfl
  unfold parseBlock fieldOf; rw [List.drop_zero, h1]; rfl
theorem zero_block (i : Nat) (c : Cmd) (bs : List Byte) (a : Nat) (h : a + blockSize ≤ 65536) :
    ∃ b, operand (zeroState i c bs) 1 a blockSize = .ok b ∧ parseBlock b = [] :=
  ⟨_, zero_read i c bs a blockSize h, zero_parse _ (by decide)⟩
theorem inputs_one (s : State) (dom a : Nat) (b x : List Byte) (h1 : operand s dom a (8 * 1) = .ok b)
    (h2 : operand s dom (fieldOf b (8 * 0) 7) blockSize = .ok x) : inputBlocks s dom a 1 = .ok (parseBlock x) := by
  have hr1 : List.range 1 = [0] := rfl
  simp only [inputBlocks, bind, Except.bind, h1, hr1, List.foldlM_cons, List.foldlM_nil, h2, pure, Except.pure, List.nil_append]
theorem area_one (s : State) (dom a : Nat) (x : List Byte) (h : operand s dom a blockSize = .ok x) : areaBlocks s dom a 1 = .ok (parseBlock x) := by
  have hr1 : List.range 1 = [0] := rfl
  simp only [areaBlocks, bind, Except.bind, h, hr1, List.foldlM_cons, List.foldlM_nil, Nat.mul_zero, Nat.add_zero, pure, Except.pure, List.nil_append]
theorem runs_one (s : State) (dom a : Nat) (b x : List Byte) (h1 : operand s dom a (16 * 1) = .ok b) (h7 : fieldOf b 7 1 = 1) (h12 : fieldOf b 12 4 = 0)
    (h2 : operand s dom (fieldOf b 0 7) blockSize = .ok x) : passRuns s dom a 1 = .ok [{ ents := parseBlock x, cur := fieldOf b 8 4 }] := by
  have hr1 : List.range 1 = [0] := rfl
  simp [passRuns, bind, Except.bind, h1, hr1, h7, h12, h2, List.foldlM_cons, List.foldlM_nil, pure, Except.pure, need]
theorem zero_inputs (i : Nat) (c : Cmd) (bs : List Byte) : inputBlocks (zeroState i c bs) 1 0 1 = .ok [] := by
  obtain ⟨b, hb, hp⟩ := zero_block i c bs 0 (by decide)
  rw [inputs_one _ _ _ _ _ (zero_read i c bs 0 (8 * 1) (by decide)) hb, hp]

/-- MERGE of one empty block into the page, and of one run named at 65,536; a spill sort of one block; and UNIQ. -/
theorem wit_merge_partial : Heads (zeroState 3 (cmdA .merge 3 0 (desc (2 ^ 56) 0 4 0)) []) 4 3 .merge 0 (cmdA .merge 3 0 (desc (2 ^ 56) 0 4 0)) ∧
    inputBlocks (zeroState 3 (cmdA .merge 3 0 (desc (2 ^ 56) 0 4 0)) []) 1 0 1 = .ok [] ∧
    writable (zeroState 3 (cmdA .merge 3 0 (desc (2 ^ 56) 0 4 0)) []) 1 0 blockSize 4 3 = .ok () ∧ selectBest false 4 [] (dedup []) = ([], 0) :=
  ⟨by unfold Heads Serves; decide +kernel, zero_inputs .., zero_writable _ _ _ _ _ _ _ (by decide), by simp [selectBest, sortKI, dedup]⟩
theorem wit_merge_pass : Heads (zeroState 3 (cmdA .merge 3 1 (desc (2 ^ 56 + 65536) 0 2000 0)) (bytesOf 7 0 ++ [1])) 4 3 .merge 1
      (cmdA .merge 3 1 (desc (2 ^ 56 + 65536) 0 2000 0)) ∧
    passRuns (zeroState 3 (cmdA .merge 3 1 (desc (2 ^ 56 + 65536) 0 2000 0)) (bytesOf 7 0 ++ [1])) 1 65536 1 = .ok [{ ents := [], cur := 0 }] ∧
    writable (zeroState 3 (cmdA .merge 3 1 (desc (2 ^ 56 + 65536) 0 2000 0)) (bytesOf 7 0 ++ [1])) 1 65536 16 4 3 = .ok () ∧
    writable (zeroState 3 (cmdA .merge 3 1 (desc (2 ^ 56 + 65536) 0 2000 0)) (bytesOf 7 0 ++ [1])) 1 0 blockSize 4 3 = .ok () ∧
    mergeTake false 1 1024 [{ ents := [], cur := 0 }] [] [] = ([{ ents := [], cur := 0 }], []) := by
  refine ⟨by unfold Heads Serves; decide +kernel, ?_, by decide +kernel, zero_writable _ _ _ _ _ _ _ (by decide), by decide +kernel⟩
  have h : operand (zeroState 3 (cmdA .merge 3 1 (desc (2 ^ 56 + 65536) 0 2000 0)) (bytesOf 7 0 ++ [1])) 1 65536 16
      = .ok (bytesOf 7 0 ++ [1] ++ List.replicate 8 0) := by decide +kernel
  obtain ⟨b, hb, hp⟩ := zero_block 3 (cmdA .merge 3 1 (desc (2 ^ 56 + 65536) 0 2000 0)) (bytesOf 7 0 ++ [1]) 0 (by decide)
  rw [runs_one _ _ _ _ b h (by decide) (by decide) hb, hp]
  rfl
theorem wit_spill_sort : Heads (zeroState 3 (cmdA .merge 3 2 (desc 0 1 32768 0)) []) 4 3 .merge 2 (cmdA .merge 3 2 (desc 0 1 32768 0)) ∧
    areaBlocks (zeroState 3 (cmdA .merge 3 2 (desc 0 1 32768 0)) []) 1 0 1 = .ok [] ∧
    writable (zeroState 3 (cmdA .merge 3 2 (desc 0 1 32768 0)) []) 1 0 (blockSize * 1) 4 3 = .ok () ∧
    writable (zeroState 3 (cmdA .merge 3 2 (desc 0 1 32768 0)) []) 1 32768 (blockSize * 1) 4 3 = .ok () :=
  ⟨by unfold Heads Serves; decide +kernel, (by
      obtain ⟨b, hb, hp⟩ := zero_block 3 (cmdA .merge 3 2 (desc 0 1 32768 0)) [] 0 (by decide)
      rw [area_one _ _ _ _ hb, hp]), zero_writable _ _ _ _ _ _ _ (by decide),
    zero_writable _ _ _ _ _ _ _ (by decide)⟩
theorem wit_uniq (op : Byte) (h : op = 0 ∨ op = 1) : Heads (zeroState 3 (cmdA .uniq 3 op (desc (2 ^ 56) 0 0 0)) []) 4 3 .uniq op.toNat (cmdA .uniq 3 op (desc (2 ^ 56) 0 0 0)) ∧
    inputBlocks (zeroState 3 (cmdA .uniq 3 op (desc (2 ^ 56) 0 0 0)) []) 1 0 1 = .ok [] ∧
    writable (zeroState 3 (cmdA .uniq 3 op (desc (2 ^ 56) 0 0 0)) []) 1 0 blockSize 4 3 = .ok () :=
  ⟨by unfold Heads Serves; obtain rfl | rfl := h <;> decide +kernel, zero_inputs .., zero_writable _ _ _ _ _ _ _ (by decide)⟩
/-- A collective of one node: no children, one epoch entry. -/
def collBlock : List Byte := padTo 64 (bytesOf 2 4 ++ [0, 0] ++ bytesOf 2 1)
theorem wit_collective : Heads (zeroState 16 (cmdA .merge 16 3 (desc 65536 0 0 0)) collBlock) 4 16 .merge 3 (cmdA .merge 16 3 (desc 65536 0 0 0)) ∧
    operand (zeroState 16 (cmdA .merge 16 3 (desc 65536 0 0 0)) collBlock) 1 65536 64 = .ok collBlock ∧
    fieldOf collBlock 0 2 = 4 ∧ fieldOf collBlock 3 1 = 0 ∧ fieldOf collBlock 4 2 = 1 ∧
    operand (zeroState 16 (cmdA .merge 16 3 (desc 65536 0 0 0)) collBlock) 1 0 blockSize = .ok (List.replicate blockSize 0) ∧
    collectKids (zeroState 16 (cmdA .merge 16 3 (desc 65536 0 0 0)) collBlock) 1 0 (contribStride 1) 0 0 = .ok [] ∧
    writable (zeroState 16 (cmdA .merge 16 3 (desc 65536 0 0 0)) collBlock) 1 0 16520 4 16 = .ok () :=
  ⟨by unfold Heads Serves; decide +kernel, by decide +kernel, by decide, by decide, by decide, zero_read _ _ _ _ _ (by decide), rfl, zero_writable _ _ _ _ _ _ _ (by decide)⟩

/-- Cluster 2 of the scoring array with a command whose block stands at 0, and its working regions held by the job. -/
def scaState (kind : EngKind) (op : Byte) (bs : List Byte) : State :=
  let s := atEngine 5 2 (cmdA kind 2 op 0) bs
  { s with exec := { s.exec with owner := (List.range 128).map (fun i => (okey 1 (6400 + i), .job 5)) ++ s.exec.owner } }
/-- A layer of one row and one column over 32 elements, bf16 in, fp32 out at 32,768; a projection to a sketch of 256 bits. -/
def layerBlock (n : Nat) : List Byte :=
  padTo 128 (bytesOf 4 1 ++ [0, 0, 0, 9] ++ bytesOf 4 1 ++ bytesOf 4 n ++ bytesOf 4 32 ++ bytesOf 12 0 ++ bytesOf 8 128 ++ bytesOf 8 128 ++ bytesOf 8 32768)
theorem wit_layer : Heads (scaState .enc 0 (layerBlock 1)) 5 2 .enc 0 (cmdA .enc 2 0 0) ∧ overcast (scaState .enc 0 (layerBlock 1)) = false ∧
    (productStart 2 false none (scaState .enc 0 (layerBlock 1)) (cmdA .enc 2 0 0)).isOk = true ∧
    (match uWrite (scaState .enc 0 (layerBlock 1)) 1 32768 (bytesOf 4 0) with | .ok _ => true | _ => false) = true := by unfold Heads Serves; decide +kernel
theorem wit_layer_refused : (productStart 2 true none (scaState .enc 2 (layerBlock 1)) (cmdA .enc 2 2 0)).isOk = false := by decide +kernel
/-- A ranking of one query over the one list of index 2. -/
def centroidBlock : List Byte := padTo 64 (bytesOf 4 1 ++ [2, 1, 0, 0] ++ bytesOf 4 1 ++ bytesOf 4 0 ++ bytesOf 8 128 ++ bytesOf 8 32768)
theorem wit_centroid : Heads (scaState .enc 1 centroidBlock) 5 2 .enc 1 (cmdA .enc 2 1 0) ∧ workRegions (scaState .enc 1 centroidBlock) 5 2 = .ok () ∧
    (centroidStart 2 (scaState .enc 1 centroidBlock) (cmdA .enc 2 1 0)).isOk = true ∧ (cmdA .enc 2 1 0).tok.insts.idxOf 2 = 0 ∧
    ({ cmdA .enc 2 1 0 with tok := { (cmdA .enc 2 1 0).tok with insts := [1, 2] } } : Cmd).tok.insts.idxOf 2 = 1 := by
  unfold Heads Serves; decide +kernel
/-- One item with a head of 32 elements; one candidate whose token count is not valid. -/
def crossBlock : List Byte := padTo 64 (bytesOf 4 1 ++ [2, 3, 0, 0] ++ bytesOf 4 1 ++ bytesOf 4 32 ++ bytesOf 8 128 ++ bytesOf 8 128 ++ bytesOf 8 0 ++ bytesOf 8 256)
def maxsimBlock : List Byte := padTo 64 (bytesOf 4 1 ++ [2, 3, 0, 1] ++ bytesOf 4 1 ++ bytesOf 4 0 ++ bytesOf 8 512 ++ bytesOf 8 256)
theorem wit_model : Heads (scaState .enc 3 crossBlock) 5 2 .enc 3 (cmdA .enc 2 3 0) ∧ (crossStart 2 (scaState .enc 3 crossBlock) (cmdA .enc 2 3 0)).isOk = true ∧
    Heads (scaState .maxsim 0 maxsimBlock) 5 2 .maxsim 0 (cmdA .maxsim 2 0 0) ∧ (maxsimStart 2 (scaState .maxsim 0 maxsimBlock) (cmdA .maxsim 2 0 0)).isOk = true := by
  unfold Heads Serves; decide +kernel
theorem wit_model_waits : Heads (atEngine 5 2 { cmdA .enc 2 3 0 with phase := .running } []) 5 2 .enc 3 { cmdA .enc 2 3 0 with phase := .running } := by
  unfold Heads Serves; decide +kernel
theorem test_maxsim_empty_drain : (cmdsOf (after (.maxsimScore 2 none) (atEngine 5 2 { cmdA .maxsim 2 0 0 with phase := .running } [])) 5 2).map (·.phase)
    = [.finishing] := by decide +kernel

/-- A table of 4 rows of 2 fp32 elements at 1,024, its descriptor at 64, an index list at 128 (row 1), an update row at 192. -/
def tablePage (b : List Byte) : List Byte :=
  padTo 64 b ++ padTo 64 (bytesOf 4 1 ++ [0, 0, 9, 0] ++ bytesOf 8 4 ++ bytesOf 2 2 ++ bytesOf 2 1 ++ bytesOf 4 0 ++ bytesOf 8 1024 ++ bytesOf 8 2048)
    ++ padTo 64 (bytesOf 8 1) ++ padTo 64 (bytesOf 4 0x3F800000 ++ bytesOf 4 0x40000000)
def gatherBlock (op : Nat) : List Byte :=
  bytesOf 4 1 ++ [if op = 0 then 0 else 1, 9, 0, 0] ++ bytesOf 4 1 ++ bytesOf 4 op ++ bytesOf 8 64 ++ bytesOf 8 128 ++ bytesOf 8 256 ++ bytesOf 8 0 ++ bytesOf 8 4096
def scatterBlock (op : Nat) : List Byte :=
  bytesOf 4 1 ++ [9, 0, 0, 0] ++ bytesOf 4 1 ++ bytesOf 4 0 ++ bytesOf 8 64 ++ bytesOf 8 128 ++ bytesOf 8 192 ++ bytesOf 8 (if op = 2 then 512 else 0)
/-- Offsets of one bag of one row. -/
def gatherPage (op : Nat) : List Byte := tablePage (gatherBlock op) ++ padTo 64 (bytesOf 4 0 ++ bytesOf 4 1)
def gathState (op : Nat) : State := atEngine 7 1 (cmdA .gath 1 (BitVec.ofNat 8 op) 0) (gatherPage op)
def scatState (op : Nat) : State := atEngine 7 1 (cmdA .scat 1 (BitVec.ofNat 8 op) 0) (tablePage (scatterBlock op))
theorem wit_gather : ∀ op ∈ [0, 1], Heads (gathState op) 7 1 .gath op (cmdA .gath 1 (BitVec.ofNat 8 op) 0) ∧
    (gatherStart op 1 (gathState op) (cmdA .gath 1 (BitVec.ofNat 8 op) 0)).isOk = true := by unfold Heads Serves; decide +kernel
theorem wit_scatter : ∀ op ∈ [0, 1, 2], Heads (scatState op) 7 1 .scat op (cmdA .scat 1 (BitVec.ofNat 8 op) 0) ∧
    (scatterStart op 1 (scatState op) (cmdA .scat 1 (BitVec.ofNat 8 op) 0)).isOk = true := by unfold Heads Serves; decide +kernel
/-- R355, R361: an overwrite of row 1 is served and the command ends. -/
def scatDone : State := after (.rowRequest 1) (after (.scatOverwrite 1) (scatState 0))
theorem test_scat_overwrite : (cmdsOf scatDone 7 1).map (fun c => (c.phase, c.status, c.count)) = [(.finishing, 0, 1)] ∧
    (rowQueue (after (.scatOverwrite 1) (scatState 0)) 1).length = 1 ∧
    uBytes scatDone 1 (1024 + 64) 16 = some (bytesOf 4 1 ++ bytesOf 4 1 ++ bytesOf 4 0x3F800000 ++ bytesOf 4 0x40000000) := by decide +kernel
theorem wit_row : rowQueue (after (.scatOverwrite 1) (scatState 0)) 1 ≠ [] ∧
    (match serveRow (setRowQueue (after (.scatOverwrite 1) (scatState 0)) 1 []) ((rowQueue (after (.scatOverwrite 1) (scatState 0)) 1).headD {}) with
      | (.row v _ _, _) => v == 1 | _ => false) = true ∧
    uRead (scatState 0) 1 1088 8 = .ok (List.replicate 8 0) := by decide +kernel
/-- R359: a gather of a row that is not there gives the default row. -/
theorem test_gather_default : (cmdsOf (after (.rowRequest 1) (after (.gathGather 1) (gathState 0))) 7 1).map (fun c => (c.phase, c.count, c.spec))
    = [(.finishing, 1, 1)] := by decide +kernel
theorem wit_copy_retry : ({ tbe := { copies := [(6, { pkt := noPkt, sent := 5 })] }, now := 1000005 } : State).now = 5 + 1000000 := by decide
theorem test_copy_retry : fget (after (.replicaCopyRetry 6) { tbe := { copies := [(6, { pkt := noPkt, sent := 5 })] }, now := 1000005 }) F.TBE_STAT_COPY_RETRY = 1 ∧
    (after (.replicaCopyRetry 6) { tbe := { copies := [(6, { pkt := noPkt, sent := 5 })] }, now := 1000005 }).tbe.copies.map (fun p => p.2.sent) = [1000005] := by
  decide +kernel

/-- A copy of 4 bytes from 0 to 64, and one from a list of one piece to a list of one. -/
def moveState (op : Byte) (d : W256) (bs : List Byte) : State := atEngine 8 9 (cmdA .move 9 op d) bs
def listPage : List Byte := padTo 64 (bytesOf 8 256 ++ bytesOf 4 4) ++ padTo 64 (bytesOf 8 512 ++ bytesOf 4 4)
theorem wit_copy : Heads (moveState 0 (desc 0 64 4 0) [1, 2, 3, 4]) 8 9 .move 0 (cmdA .move 9 0 (desc 0 64 4 0)) ∧ fget (moveState 0 (desc 0 64 4 0) []) F.DMA_ERR_VALID ≠ 1 ∧
    (copyPlan (moveState 0 (desc 0 64 4 0) [1, 2, 3, 4]) 9 (cmdA .move 9 0 (desc 0 64 4 0))).isOk = true ∧
    Heads (moveState 1 (desc 0 64 (1 + 2 ^ 17) 0) listPage) 8 9 .move 1 (cmdA .move 9 1 (desc 0 64 (1 + 2 ^ 17) 0)) ∧
    (copyPlan (moveState 1 (desc 0 64 (1 + 2 ^ 17) 0) listPage) 9 (cmdA .move 9 1 (desc 0 64 (1 + 2 ^ 17) 0))).isOk = true := by
  unfold Heads Serves; decide +kernel
theorem test_copy : uBytes (after (.moveCopy 9) (moveState 0 (desc 0 64 4 0) [1, 2, 3, 4])) 1 64 4 = some [1, 2, 3, 4] := by decide +kernel
theorem test_copy_list : (cmdsOf (after (.moveCopyList 9) (moveState 1 (desc 0 64 (1 + 2 ^ 17) 0) listPage)) 8 9).map (fun c => (c.phase, c.count)) = [(.finishing, 4)] := by
  decide +kernel
theorem wit_bus_error : engHead (moveState 0 (desc 0 64 4 0) [1, 2, 3, 4]) 8 9 = some (cmdA .move 9 0 (desc 0 64 4 0)) := by decide +kernel
/-- R511: a bus error stops the engine and ends the job. -/
theorem test_bus_error : fget (after (.dmaBusError 9 0 0 []) (moveState 0 (desc 0 64 4 0) [1, 2, 3, 4])) F.DMA_ERR_CHANNEL = 9 ∧
    fget (after (.dmaBusError 9 0 0 []) (moveState 0 (desc 0 64 4 0) [1, 2, 3, 4])) F.DMA_ERR_VALID = 1 := by decide +kernel
theorem wit_restart : 7 ≤ fget (awake {}) F.PRB_STEP_LAST ∧ fget (awake {}) F.PRB_PWR_STAT_STATE = 0 ∧ Prompt (awake {}) ∧
    BitVec.getLsbD (0x80000000 : W32) 31 = true := by decide +kernel
theorem test_restart : fget (after (.dmaRestart 0x80000000) (fset (awake {}) F.DMA_ERR_VALID 1)) F.DMA_ERR_VALID = 0 := by decide +kernel

theorem wit_foreign : (∀ p ∈ [(3, EngKind.scan), (4, .sel), (4, .merge), (4, .uniq), (5, .enc), (7, .gath), (7, .scat)],
    engHead (putOwner (atEngine p.1 1 (cmdA p.2 1 0 0) []) p.1 1 (.job 6)) p.1 1 = some (cmdA p.2 1 0 0) ∧
    ownerOf (putOwner (atEngine p.1 1 (cmdA p.2 1 0 0) []) p.1 1 (.job 6)) p.1 1 ≠ .job 5) := by decide +kernel
theorem test_foreign : (after (.selDrain 3) (putOwner (atEngine 4 3 (cmdA .sel 3 2 (desc 4 64 0 0)) []) 4 3 (.job 6))).exec.jobs = [] := by decide +kernel

/-! ### Registers -/

theorem wit_register_write : Awake (awake {}) ∧ tsorted (awake {}).regs = true ∧ Reg.TRF_DOMQ ∉ ruled ∧ 0 < dirInsts .TRF_DOMQ ∧
    Reg.PRB_FDOM ∉ ruled ∧ Reg.SKC_STAT ∉ ruled ∧ fget (fset (awake {}) F.SMC_LIFECYCLE_LOCKED 1) F.SMC_LIFECYCLE_LOCKED = 1 := by
  unfold Awake; decide +kernel
theorem test_register_write : fget (after (.registerWrite .TRF_DOMQ 0 0x53) (awake {})) F.TRF_DOMQ_BE_Q = 5 ∧
    fget (after (.registerWrite .TRF_DOMQ 0 0x53) (awake {})) F.TRF_DOMQ_LC_Q = 3 := by decide +kernel
/-- R13, R662: a locked field keeps its value, and the write counts; an RW1C field is cleared whole. -/
theorem test_register_locked : fget (after (.registerWrite .PRB_FDOM 0 0) (fset (awake {}) F.SMC_LIFECYCLE_LOCKED 1)) F.PRB_FDOM_TRAY = 0xFF ∧
    fget (after (.registerWrite .PRB_FDOM 0 0) (fset (awake {}) F.SMC_LIFECYCLE_LOCKED 1)) F.SMC_LIFECYCLE_REFUSED = 1 := by decide +kernel
theorem test_register_rw1c : fget (after (.registerWrite .SKC_STAT 0 4) (fset (awake {}) F.SKC_STAT_TILE_ERR 7)) F.SKC_STAT_TILE_ERR = 0 ∧
    fget (after (.registerWrite .SKC_STAT 0 0x100) (fset (awake {}) F.SKC_STAT_TILE_ERR 7)) F.SKC_STAT_TILE_ERR = 7 := by decide +kernel
theorem wit_register_refused : regBlock .TRF_DOMQ ∉ [1, 15, 16] ∧ dirInsts .TRF_DOMQ ≤ 1 ∧ fget ({} : State) F.PRB_STEP_LAST < 7 ∧ Prompt ({} : State) := by
  decide +kernel
/-- A node in P2 to which the host has written a register. -/
def asleep : State := after (.registerWrite .TRF_DOMQ 0 0x53) (fset (awake {}) F.PRB_PWR_STAT_STATE 2)
theorem wit_order : regBlock .TRF_DOMQ ∉ [1, 15, 16] ∧ 0 < dirInsts .TRF_DOMQ ∧ 7 ≤ fget (fset (awake {}) F.PRB_PWR_STAT_STATE 2) F.PRB_STEP_LAST ∧
    fget (fset (awake {}) F.PRB_PWR_STAT_STATE 2) F.PRB_PWR_STAT_STATE ≠ 0 ∧ ¬ Prompt asleep ∧ asleep.hiu.waiting = [.reg .TRF_DOMQ 0 0x53] ∧
    (hostAccess (.reg .TRF_DOMQ 0 0x53) { fset asleep F.PRB_PWR_STAT_STATE 0 with hiu := {} }).hiu.waiting = [] ∧
    (hostAccess (.reg .TRF_DOMQ 0 0x53) { asleep with hiu := {} }).hiu.waiting ≠ [] := by decide +kernel
/-- R607, R656: what the host wrote has its effect once the node is in P0; a write to PRB that came later waits behind it. -/
theorem test_order : fget asleep F.TRF_DOMQ_BE_Q = 1 ∧ fget (after .wakeComplete asleep) F.TRF_DOMQ_BE_Q = 5 ∧
    fget (after (.registerWrite .PRB_FDOM 0 0) asleep) F.PRB_FDOM_TRAY = 0xFF ∧ fget (after .wakeComplete (after (.registerWrite .PRB_FDOM 0 0) asleep)) F.PRB_FDOM_TRAY = 0 ∧
    (after .wakeComplete (after (.registerWrite .PRB_FDOM 0 0) asleep)).hiu.waiting = [] := by decide +kernel
theorem test_badacc : fget (after (.registerWrite .TRF_DOMQ 0 0x53) {}) F.HIU_STAT_BADACC = 1 ∧ fget (after (.bar0BadAccess true 4 3) {}) F.HIU_STAT_BADACC = 1 ∧
    fget (after (.dmaRestart 0x80000000) {}) F.HIU_STAT_BADACC = 1 := by decide +kernel
theorem test_bad_read_ones : (after (.bar0BadAccess false 0x2000000 4) {}).out = [.readReply (some [0xFF, 0xFF, 0xFF, 0xFF])] := by decide +kernel
/-- R12: a count that any write clears. -/
theorem test_clear : fget (after (.seqViolCntClear 0) (fset (awake {}) F.SEQ_VIOL_CNT_V 9)) F.SEQ_VIOL_CNT_V = 0 := by decide +kernel
theorem test_lock : fget (after (.lock 0x20000) (awake {})) F.SMC_LIFECYCLE_LOCKED = 1 := by decide +kernel
/-- R661: PRODUCTION needs CONFIRM 0xA5, before ready. -/
theorem test_go_prod : (after (.goProd 0x1A500) (fset (awake {}) F.PRB_STEP_READY 0)).prb.prodFuse = true ∧ (after (.goProd 0x15A00) (fset (awake {}) F.PRB_STEP_READY 0)).prb.prodFuse = false := by
  decide +kernel
theorem wit_time_latch : Prompt ({ now := 2 ^ 32 + 5 } : State) := by decide +kernel
theorem test_time_latch : rget (after .smcTimeLoRead { now := 2 ^ 32 + 5 }) .SMC_TIME_HI 0 = 1 := by decide +kernel
theorem test_hold_latch : (after .holdLoRead { onSeq { jobA {} with epoch := 3 * 2 ^ 32 } with regs := (awake {}).regs }).tir.holdHi = 3 := by decide +kernel

/-! ### Pace, time, power -/

/-- The limiter's microsecond has passed. -/
def paceState (target : Nat) : State := { fset (awake {}) F.PRB_PACE_CTL_TARGET target with now := 10000 }
theorem wit_pace : (paceState 800).prb.pace.limAt + 1000 ≤ (paceState 800).now ∧ (paceState 800).prb.pace.capAt + 1000 ≤ (paceState 800).now ∧
    (paceState 800).now % 10000 = 0 ∧ (paceState 800).now ≠ (paceState 800).prb.pace.window ∧ tsorted (paceState 800).regs = true ∧
    ({} : State).now < ({} : State).prb.pace.limAt + 1000 := by decide +kernel
/-- R34: a setting within 100 of the achieved pace is reached at once, one further away by at most 100. -/
theorem test_cap_ramp : (after (.limiterRamp true 950 100) { paceState 0 with prb := { pace := { capGoal := 1000 } } }).prb.pace.cap = 1000 ∧
    (after (.limiterRamp true 1500 100) { paceState 0 with prb := { pace := { capGoal := 1000 } } }).prb.pace.cap = 1800 := by decide +kernel
theorem test_pace_window_between : after (.paceMonWindow 900 700 1200 true false) { paceState 800 with now := 10001 } = { paceState 800 with now := 10001 } := by
  decide +kernel

theorem wit_ptp : tsorted (awake {}).regs = true ∧ ptpOn (awake {}) false = true ∧ fget (awake {}) F.SMC_PTP_STAT_ACTIVE = 0 ∧ timeSets (awake {}) = false ∧
    ptpOn (fset (awake {}) F.SMC_PTP_CTL_PORTS 0) true = false ∧
    timeSets { (awake {}) with prb := { (awake {}).prb with run := some (.time false 5) } } = true ∧
    fget (fset (awake {}) F.SMC_PTP_STAT_ACTIVE 1) F.SMC_PTP_STAT_ACTIVE ≠ ptpPort true := by decide +kernel
/-- R43: device time never steps; R44: within 1,000 ns it is in sync. -/
theorem test_ptp : (after (.ptpMessage false 500 40) (awake {})).now = 0 ∧ fget (after (.ptpMessage false 500 40) (awake {})) F.SMC_PTP_STAT_SYNC = 1 ∧
    fget (after (.ptpMessage false 1001 40) (awake {})) F.SMC_PTP_STAT_SYNC = 0 ∧ fget (after (.ptpMessage false 500 40) (awake {})) F.SMC_PTP_STAT_ACTIVE = 1 := by
  decide +kernel
/-- R45: the standby's offset is tracked, and it takes over. -/
def standby : State := { fset (awake {}) F.SMC_PTP_STAT_ACTIVE 1 with prb := { (awake {}).prb with ptp := { heard := 2, offB := 7 } } }
theorem wit_switchover : ptpOn standby true = true ∧ standby.prb.ptp.heard &&& ptpPort true ≠ 0 := by decide +kernel
theorem test_switchover : fget (after (.ptpSwitchover true 3) standby) F.SMC_PTP_STAT_ACTIVE = 2 ∧
    fget (after (.ptpSwitchover true 3) standby) F.SMC_PTP_STAT_SWITCHOVER_SEEN = 1 := by decide +kernel
theorem test_holdover : fget (after .holdoverEntry standby) F.SMC_PTP_STAT_ACTIVE = 0 ∧ fget (after .holdoverEntry standby) F.SMC_PTP_STAT_HOLDOVER_SEEN = 1 := by
  decide +kernel
theorem test_grandmaster_far : fget (after (.grandmasterReturn false 1000001 3) (awake {})) F.SMC_PTP_STAT_ACTIVE = 1 := by decide +kernel

/-- What a meaning leaves. -/
def got (o : Out) : State := match o with | .next t => t | _ => {}
/-- A brownout since 0 on rail 1. -/
def brownState (t : Nat) : State := let s := got (execBrownoutStart 2 (awake {})); { s with now := t }
theorem wit_brown : (awake {}).prb.brown = none ∧ (brownState 5).prb.brown = some (0, 2) ∧ (brownState 5).prb.warmWait = false := by decide +kernel
theorem test_brownout : fget (brownState 5) F.PRB_PWR_STAT_BROWNOUT = 1 ∧ fget (brownState 5) F.PRB_PWR_STAT_RAILS = 2 ∧
    fget (after (.brownoutStart 4) (brownState 5)) F.PRB_PWR_STAT_RAILS = 6 ∧
    fget (after (.brownoutEnd 700) (brownState 49999)) F.PRB_PWR_STAT_BROWNOUT = 1 ∧ fget (after (.brownoutEnd 700) (brownState 50000)) F.PRB_PWR_STAT_BROWNOUT = 0 := by
  decide +kernel
theorem test_rail_reset : fget (after (.railResetLevel 3) (brownState 5)) F.PRB_RESET_CAUSE = 1 := by decide +kernel

/-- R600: the highest power seen is kept. -/
def govState : State := fset (paceState 0) F.PRB_GOV_CEIL_W 850
theorem wit_governor : tsorted govState.regs = true ∧ govState.now ≠ govState.prb.govAt ∧ powerTarget govState = 850 ∧
    heatHolds govState = false ∧ 100 * 10 < 95 * powerTarget govState ∧ govState.prb.pace.capGoal ≤ 1900 := by decide +kernel
theorem test_governor : fget (after (.governorWindow 300) govState) F.PRB_POWER_MAX_W = 300 ∧
    fget (after (.governorWindow 5000) govState) F.PRB_POWER_NOW_W = 4095 := by decide +kernel
/-- R601: thresholds of the logic dies and of the others, in eighths of a degree. -/
theorem test_throttle : fget (after (.thermalThrottle 0 840) (awake {})) F.PRB_THERM_LEVEL 0 = 1 ∧ fget (after (.thermalThrottle 5 680) (awake {})) F.PRB_THERM_LEVEL 5 = 1 := by
  decide +kernel
def hotState : State := got (execThermalEmergency 4 760 (awake {}))
theorem test_emergency : fget hotState F.PRB_PWR_STAT_EMERGENCY = 1 ∧ overcast hotState = true ∧ fget hotState F.PRB_THERM_LEVEL 4 = 2 ∧ hotState.prb.pace.capGoal = 500 := by
  decide +kernel
def coolState : State := { got (execThermalLevelNormal 4 600 hotState) with now := 1000000000 }
theorem wit_emergency_end : coolState.prb.cool = some 0 ∧ fget coolState F.PRB_PWR_STAT_EMERGENCY ≠ 0 ∧ 0 + 1000000000 ≤ coolState.now := by decide +kernel
theorem test_emergency_end : overcast (after .emergencyEnd coolState) = false := by decide +kernel
theorem test_trip : (after (.thermalTrip 0 960) (awake {})).out.contains (.pin 0 true) = true ∧ fget (after (.thermalTrip 0 960) (awake {})) F.PRB_RESET_CAUSE = 3 := by
  decide +kernel

/-- An idle node whose tolerance is `tol` microseconds. -/
def idleState (tol : Nat) : State := let s := fset (fset (fset {} F.PRB_STEP_READY 1) F.PRB_STEP_LAST 15) F.PRB_WAKETOL_TOL tol; { s with now := 1000000000 }
theorem wit_idle : ∀ p ∈ [(1, 1), (25, 2), (1000, 3), (10000000, 4)], nodeIdle (idleState p.1) = true ∧ (idleState p.1).prb.waking = none ∧
    (idleState p.1).prb.lastActive + max 1 (fget (idleState p.1) F.PRB_WAKETOL_HYST) * 10000 ≤ (idleState p.1).now ∧
    tolState (fget (idleState p.1) F.PRB_WAKETOL_TOL) = p.2 ∧ fget (idleState p.1) F.PRB_PWR_STAT_STATE < p.2 := by decide +kernel
theorem wit_p4 : p4Barred { idleState 10000000 with tir := { regions := [(1, {})] } } = true ∧ nodeIdle (onSeq (jobA {})) = false := by decide +kernel
theorem test_power_states : fget (after .powerStateEntry (idleState 25)) F.PRB_PWR_STAT_STATE = 2 ∧ fget (after .powerStateEntry (idleState 0)) F.PRB_PWR_STAT_STATE = 0 := by
  decide +kernel
theorem test_wake : fget (after .wakeComplete { fset (idleState 25) F.PRB_PWR_STAT_STATE 2 with prb := { waking := some 5 } }) F.PRB_PWR_STAT_STATE = 0 ∧
    fget (after .wakeComplete { fset (idleState 25) F.PRB_PWR_STAT_STATE 2 with prb := { waking := some 5 } }) F.PRB_PWR_STAT_WAKES = 1 := by decide +kernel

/-! ### Bring-up and resets -/

/-- Bring-up after step `n` has passed. -/
def atStep (n : Nat) : State := fset (fset {} F.PRB_STEP_LAST n) F.PRB_STEP_CURRENT n
theorem wit_steps : (∀ n ∈ List.range 15, StepTaken (atStep n) (n + 1)) ∧ StepTaken (atStep 13) 13 ∧ StepTaken (fset (atStep 15) F.PRB_STEP_READY 1) 9 ∧
    ¬ StepTaken (atStep 3) 5 ∧ myNode (atStep 9) = none ∧ (atStep 12).prb.timeOpen = true ∧
    (∀ n ∈ List.range 16, Prompt (atStep n)) := by unfold StepTaken; decide +kernel
theorem test_step_starts : (after (.fuseLoad true) (atStep 1)).prb.run = some (.fuses true) ∧ fget (after (.fuseLoad true) (atStep 1)) F.PRB_STEP_BUSY = 1 ∧
    fget (after (.fuseLoad true) (atStep 2)) F.PRB_STEP_STAT_REFUSED = 1 := by decide +kernel
/-- Step 13 from HOSTSET sets device time. -/
theorem test_time_hostset : (after .timeSync (rset (rset (atStep 12) .PRB_STEP_ARG0 0 77) .PRB_STEP_ARG2 0 1)).now = 77 := by decide +kernel

/-- A step in progress. -/
def inStep (n : Nat) (r : StepRun) : State := runs (stepShown (atStep (n - 1)) n) r
theorem wit_step_ends : (inStep 6 (.image 4096 0 true none)).prb.run = some (.image 4096 0 true none) ∧ imageCheck (inStep 6 (.image 4096 0 true none)) [] true ≠ 0 ∧
    myNode (fset (fset (inStep 10 (.ports 0)) F.FAB_NODE_VALID 1) F.FAB_NODE_NODE 7) = some 7 ∧ fget (inStep 10 (.ports 0)) F.FAB_PORT_STAT_STATE 3 ≠ 1 ∧
    fget (fset (inStep 10 (.ports 0)) F.FAB_PORT_STAT_STATE 1 3) F.FAB_PORT_STAT_STATE 3 = 1 ∧
    fget (fset (inStep 13 (.time false 5)) F.SMC_PTP_STAT_SYNC 1) F.SMC_PTP_STAT_SYNC = 1 ∧ fget (inStep 13 (.time false 5)) F.SMC_PTP_STAT_SYNC ≠ 1 := by decide +kernel
/-- Whether the counts hold depends on the part's fuses, but where a unit without a spare has failed they do not. -/
theorem wit_ready : countsHold { inStep 15 .ready with prb := { (inStep 15 .ready).prb with badTest := [(6, 0)] } } = false ∧
    fget (countPorts (inStep 15 .ready)) F.FAB_MINPORTS_BELOW = 1 ∧
    fget (countPorts (fset (fset (fset (inStep 15 .ready) F.FAB_PORT_STAT_STATE 3 0) F.FAB_PORT_STAT_WIDTH 2 0) F.FAB_MINPORTS_MIN 1)) F.FAB_MINPORTS_BELOW ≠ 1 :=
  ⟨by simp [countsHold, countsMet], by decide +kernel, by decide +kernel⟩
theorem test_rails_order : fget (after .stepComplete (inStep 1 (.rails false false false))) F.PRB_STEP_STAT_REASON = 0xF1 ∧
    fget (after .stepComplete (inStep 1 (.rails true true false))) F.PRB_STEP_STAT_REASON = 0xF5 ∧
    fget (after .stepComplete (inStep 1 (.rails true true true))) F.PRB_STEP_LAST = 1 := by decide +kernel
theorem test_first_stage_fails : (after .stepComplete (inStep 3 (.firstStage false))).prb.dead = true := by decide +kernel
theorem test_time_short : fget (after .stepComplete { inStep 13 (.time false 5) with now := 5 }) F.PRB_STEP_STAT_STATUS = 1 ∧
    fget (after .stepComplete { inStep 13 (.time false 5) with now := 5 }) F.PRB_STEP_LAST = 13 := by decide +kernel

theorem wit_resets : BitVec.extractLsb' 8 8 (0x5A01 : W32) = 0x5A#8 ∧ BitVec.extractLsb' 0 4 (0x5A01 : W32) = 1#4 ∧ fget (awake {}) F.PRB_RESET_BUSY = 0 ∧
    BitVec.extractLsb' 0 4 (0x5A02 : W32) = 2#4 ∧ BitVec.extractLsb' 8 8 (0x5B01 : W32) ≠ 0x5A#8 ∧ (brownState 5).prb.brown ≠ none ∧
    Prompt (awake {}) ∧ Prompt (brownState 5) := by decide +kernel
theorem test_cold_reset : (after (.coldResetCommand 0x5A03) { onSeq (jobA {}) with now := 9 }).now = 0 ∧
    fget (after (.coldResetCommand 0x5A03) { onSeq (jobA {}) with now := 9 }) F.PRB_RESET_CAUSE = 4 ∧ (after .perst { onSeq (jobA {}) with now := 9 }).exec.jobs = [] := by
  decide +kernel
theorem test_warm_reset : (after (.warmReset 0x5A01) { onSeq (jobA {}) with now := 9 }).now = 9 ∧ (after (.warmReset 0x5A01) { onSeq (jobA {}) with now := 9 }).exec.jobs = [] ∧
    fget (after (.warmReset 0x5A01) (brownState 5)) F.PRB_RESET_BUSY = 1 := by decide +kernel
theorem test_flr : (after .flr (onSeq (jobA {}))).exec.jobs.length = 1 ∧ fget (after .flr (onSeq (jobA {}))) F.PRB_RESET_CAUSE = 7 := by decide +kernel

/-! ### Queues, admission, the host link -/

/-- Page 0 belongs to domain 1; event queue 2 of that domain is enabled with 8 entries; submission queue 4 reports there and has 64. -/
def queueState (e : List Byte) : State :=
  let s := awake (onSeq (jobA {}))
  let s1 := fset (fset s F.HIU_PAGE_DOM_VALID 1 0) F.HIU_PAGE_DOM_DOM 1 0
  let s2 := fset (fset (fset s1 F.HIU_EQ_CTL_ENABLE 1 2) F.HIU_EQ_CTL_SIZE 3 2) F.HIU_EQ_CTL_DOMAIN 1 2
  let s3 := fset (fset (fset s2 F.HIU_EVQ_SYS_V 9) F.HIU_SQ_SEL_V 4) F.HIU_EQ_SEL_V 2
  { s3 with mem := { s3.mem with host := cellsWrite [] 0 e }, exec := { s3.exec with plans := [(3, { planA with entries := [(0, 0)] })] } }
/-- The queue is enabled, with one entry to fetch. -/
def fetchState (e : List Byte) : State :=
  let s := fset (fset (fset (queueState e) F.HIU_SQ_CTL_ENABLE 1 4) F.HIU_SQ_CTL_SIZE 6 4) F.HIU_SQ_CTL_EVQ 2 4
  fset s F.HIU_SQ_STAT_TAIL 1 4
/-- Operator 0 of plan 3 in domain 1, cookie 99. -/
def entryA : List Byte := padTo 128 (bytesOf 2 0 ++ bytesOf 2 3 ++ bytesOf 2 1 ++ bytesOf 10 0 ++ bytesOf 8 99)
/-- A write of `HIU_SQ_CTL`: SIZE 6, event queue 2. -/
def sqWord : W32 := rget (fset (fset {} F.HIU_SQ_CTL_SIZE 6 0) F.HIU_SQ_CTL_EVQ 2 0) .HIU_SQ_CTL 0
theorem wit_sq : fget (queueState []) F.HIU_SQ_CTL_ENABLE 4 ≠ 1 ∧ (let s1 := regWritePlain (queueState []) .HIU_SQ_CTL 4 (sqWord &&& 0xFFFEFFFF)
    fget s1 F.HIU_SQ_CTL_SIZE 4 = 6 ∧ fget s1 F.HIU_SQ_CTL_EVQ 4 = 2) ∧ fget (queueState []) F.HIU_PAGE_DOM_VALID 0 = 1 ∧ fget (queueState []) F.HIU_EQ_CTL_ENABLE 2 = 1 ∧
    fget (queueState []) F.HIU_EQ_CTL_DOMAIN 2 = 1 ∧ (2 : Nat) ≠ fget (queueState []) F.HIU_EVQ_SYS_V ∧ (tget {} (queueState []).smc.doms 1).state = 1 ∧
    fget (fetchState entryA) F.HIU_SQ_CTL_ENABLE 4 = 1 ∧ tsorted (queueState []).regs = true ∧
    Prompt (queueState []) ∧ Prompt (fetchState entryA) := by decide +kernel
theorem test_sq_enable : fget (after (.sqEnable sqWord) (queueState [])) F.HIU_SQ_CTL_ENABLE 4 = 1 ∧
    fget (after (.sqEnable 0) (queueState [])) F.HIU_SQ_CTL_REFUSED 4 = 1 ∧ fget (after (.sqDisable sqWord) (fetchState entryA)) F.HIU_SQ_CTL_ENABLE 4 = 0 := by decide +kernel
theorem wit_eq : fget (fset (queueState []) F.HIU_EQ_CTL_ENABLE 0 2) F.HIU_EQ_CTL_ENABLE 2 ≠ 1 ∧ fget (queueState []) F.HIU_EQ_SEL_V = 2 ∧
    Prompt (fset (queueState []) F.HIU_EQ_CTL_ENABLE 0 2) := by decide +kernel
theorem test_eq_disable : fget (after (.eqDisable 0) (queueState [])) F.HIU_EQ_CTL_ENABLE 2 = 0 ∧
    (after (.eqDisable 0) { queueState [] with hiu := { hold := [(2, {}), (3, {})] } }).hiu.hold.map (·.1) = [3] := by decide +kernel
theorem wit_doorbell : doorbellOpen (fetchState entryA) 4 = true ∧ fget (fetchState entryA) F.PRB_PWR_STAT_STATE = 0 ∧ fget (fetchState entryA) F.HIU_SQ_CTL_EVQ 4 = 2 ∧
    doorbellOpen (queueState []) 4 = false ∧ fget (fset (fetchState entryA) F.HIU_SQ_CTL_EVQ 9 4) F.HIU_SQ_CTL_EVQ 4 = fget (fetchState entryA) F.HIU_EVQ_SYS_V ∧
    fget (fset (fset (queueState []) F.HIU_EQ_CTL_ENABLE 1 9) F.HIU_EQ_CTL_SIZE 3 9) F.HIU_EQ_CTL_ENABLE 9 = 1 ∧
    Prompt (fset (fetchState entryA) F.HIU_SQ_CTL_EVQ 9 4) ∧ Prompt (fset (fset (queueState []) F.HIU_EQ_CTL_ENABLE 1 9) F.HIU_EQ_CTL_SIZE 3 9) := by decide +kernel
theorem test_doorbell : fget (after (.sqTailDoorbell 4 5) (fetchState entryA)) F.HIU_SQ_STAT_TAIL 4 = 5 ∧
    fget (after (.sqTailDoorbell 4 64) (fetchState entryA)) F.HIU_STAT_BADDB = 1 ∧ fget (after (.eqHeadDoorbell 4 3) (fetchState entryA)) F.HIU_EQ_STAT_HEAD 2 = 3 ∧
    fget (after (.eqHeadDoorbell 5 3) (fetchState entryA)) F.HIU_STAT_BADDB = 1 := by decide +kernel

theorem fetches_of (s : State) (q d : Nat) (e : List Byte) (h1 : fget s F.PRB_STEP_READY = 1) (h2 : nextQueue s = some q)
    (h3 : d = fget s F.HIU_PAGE_DOM_DOM (q / 16)) (h4 : (sqFetch { s with hiu := { s.hiu with rr := q } } q d).1 = e) :
    Fetches s q d e (intakeDraw (sqFetch { s with hiu := { s.hiu with rr := q } } q d).2 d) := ⟨h1, h2, h3, _, Prod.ext h4 rfl, rfl⟩
theorem wit_fetches : Fetches (fetchState entryA) 4 1 entryA (intakeDraw (sqFetch { fetchState entryA with hiu := { (fetchState entryA).hiu with rr := 4 } } 4 1).2 1) :=
  fetches_of _ _ _ _ (by decide +kernel) (by decide +kernel) (by decide +kernel) (by decide +kernel)
theorem wit_admission : let s2 := intakeDraw (sqFetch { fetchState entryA with hiu := { (fetchState entryA).hiu with rr := 4 } } 4 1).2 1
    fget (fetchState entryA) F.SMC_FENCE_STAT_FENCED = 0 ∧ entryBad s2 4 1 false entryA = none ∧ (police s2 1).1 = true ∧ entOp entryA < 0xFF00 ∧ entPeriod entryA = 0 ∧
    (heldTags (police s2 1).2).length < 2 ^ 32 - 2 ∧ entryBad s2 4 1 false (padTo 128 [1]) = some 0xC1 ∧ (police (fset s2 F.DSP_POL_RATE 1 1) 1).1 = false ∧
    nextQueue (queueState []) = none := by decide +kernel
theorem test_admission : ((after (.submissionFetch false) (fetchState entryA)).exec.pend.map fun p => (p.dom, p.sq, p.plan, p.cookie)) = [(1, 4, 3, 99)] ∧
    fget (after (.submissionFetch false) (fetchState entryA)) F.HIU_SQ_STAT_HEAD 4 = 1 ∧ fget (after (.submissionFetch true) (fetchState entryA)) F.HIU_SQ_CTL_FETCH_ERR 4 = 1 := by
  decide +kernel
/-- R494: an entry of another domain is refused with 0xC1. -/
theorem test_admission_refused : (after (.submissionFetch false) (fetchState (padTo 128 (bytesOf 2 0 ++ bytesOf 2 3 ++ bytesOf 2 2)))).exec.pend = [] ∧
    hostRead (after (.submissionFetch false) (fetchState (padTo 128 (bytesOf 2 0 ++ bytesOf 2 3 ++ bytesOf 2 2)))) 0 3 = [1, 0x0B, 0xC1] := by decide +kernel
/-- A series whose second release is due. -/
def seriesState (t : Nat) : State :=
  let s := fetchState entryA
  { s with now := t, exec := { s.exec with series := [(1, { sq := 4, dom := 1, entry := entryA, period := 10, t0 := 0, next := 1, deadline := 5000 })] } }
theorem wit_series : 0 + 1 * 10 * 1000 ≤ (seriesState 10000).now ∧ intakeFree (seriesState 10000) 1 = true ∧ (seriesState 9999).now < 0 + 1 * 10 * 1000 := by decide +kernel
theorem test_series : ((after (.periodicRelease 1) (seriesState 10000)).exec.pend.map fun p => (p.deadline, p.cookie)) = [(15000, 99)] ∧
    (after (.periodicRelease 1) (seriesState 9999)).exec.pend = [] := by decide +kernel

theorem wit_link : 32 ∈ linkSpeeds ∧ 16 ∈ linkWidths := by decide +kernel
theorem test_link : fget (after (.hostLinkChange 32 16 false) (awake {})) F.HIU_LINK_STAT_USABLE = 1 ∧ fget (after (.hostLinkChange 32 4 false) (awake {})) F.HIU_LINK_STAT_USABLE = 0 := by
  decide +kernel
/-- Aperture slice 2 shows domain 1 from 0 on. -/
def apertureState (bs : List Byte) : State := fset (fset (ranged (awake {}) bs) F.HIU_APT_DOM_VALID 1 2) F.HIU_APT_DOM_DOM 1 2
theorem wit_aperture : aperture (apertureState []) (2 * 2 ^ 24 + 5) = some (1, 5) ∧ aperture (apertureState []) 5 = none ∧ Prompt (apertureState []) ∧
    fget (apertureState []) F.PRB_PWR_STAT_STATE = 0 ∧ (bankOfAccess (apertureState []) 1 5).all (fun b => !hostDefers (apertureState []) b) = true ∧
    locate (apertureState []) 1 5 ≠ .outside ∧ parkedAt (apertureState []) 1 5 = false ∧ readOnly (apertureState []) 1 5 = false ∧ tirOnly (apertureState []) 1 5 = false := by
  decide +kernel
theorem test_bar2 : (after (.bar2Read (2 * 2 ^ 24 + 1) 2) (apertureState [4, 5, 6])).out.head? = some (.readReply (some [5, 6])) ∧
    uBytes (after (.bar2Write (2 * 2 ^ 24 + 1) [9]) (apertureState [4, 5, 6])) 1 0 3 = some [4, 9, 6] ∧
    fget (after (.bar2Write 1 [9]) (apertureState [4, 5, 6])) F.HIU_STAT_BAR2_WR = 1 := by decide +kernel
/-- Event queue 2 with MSI-X has written a record at 0 that is not signalled yet. -/
def msixState (m : Bool) : State :=
  let s := fset (fset (queueState []) F.HIU_EQ_CTL_MSIX 1 2) F.HIU_EQ_CTL_IRQ_US 1 2
  { s with now := 1000, hiu := { s.hiu with evq := [(2, { unsignalled := 1 })], msix := [(2, { addr := 8, data := 3, mask := m, pba := m })] } }
theorem wit_msix : fget (msixState false) F.HIU_EQ_CTL_MSIX 2 = 1 ∧ fget (msixState false) F.HIU_EQ_CTL_IRQ_US 2 = 1 ∧ (evqOf (msixState false) 2).unsignalled ≠ 0 ∧
    (evqOf (msixState false) 2).first + 1 * 1000 ≤ (msixState false).now ∧ (tget {} (msixState true).hiu.msix 2).pba = true ∧
    Prompt (msixState false) ∧ Prompt (msixState true) := by decide +kernel
theorem test_msix : (match (after (.msixTimer 2) (msixState false)).out.head? with | some (.msix e a d _) => (e, a, d) | _ => (0, 0, 0)) = (2, 8, 3) ∧
    (after (.msixTimer 2) (msixState true)).out = (msixState true).out ∧
    (match (after (.msixUnmask 2 16 4) (msixState true)).out.head? with | some (.msix e a d _) => (e, a, d) | _ => (0, 0, 0)) = (2, 16, 4) := by decide +kernel

/-! ### Traffic -/

/-- Port 2 is selected, with `n` words loaded and a horizon. -/
def glState (n hzn : Nat) (w : W64) : State :=
  let s := fset (rset (fset (awake {}) F.TRF_GL_SEL_PORT 2) .TRF_GL_HZN_LO 0 (BitVec.ofNat 32 hzn)) F.TRF_GL_CTL_LEN n 2
  setPort s 2 { words := (List.range n).map fun i => (i, w) }
/-- A window of 100 ns in which queues 0 and 1 are open. -/
def gateWord : W64 := 100 + 3 * 2 ^ 32
theorem wit_gate_arm : Awake (glState 2 10000 gateWord) ∧ fget (glState 2 10000 gateWord) F.TRF_GL_SEL_PORT = 2 ∧ gateHorizon (glState 2 10000 gateWord) = 10000 ∧
    fget (regWritePlain (glState 2 10000 gateWord) .TRF_GL_CTL 2 (0x202 ||| 0x200)) F.TRF_GL_CTL_LEN 2 = 2 ∧ 100 ≤ (BitVec.extractLsb' 0 32 gateWord).toNat ∧
    BitVec.extractLsb' 47 17 gateWord = 0#17 ∧ (BitVec.extractLsb' 0 32 (99 : W64)).toNat < 100 := by unfold Awake; decide +kernel
theorem test_gate_arm : (portOf (after (.gateListArm 2) (glState 2 10000 gateWord)) 2).staged = some ([gateWord, gateWord], 10000) ∧
    fget (after (.gateListArm 2) (glState 2 9999 gateWord)) F.TRF_GL_CTL_ERR 2 = 1 ∧ fget (after (.gateListArm 2) (glState 2 10000 99)) F.TRF_GL_CTL_ERR 2 = 1 := by
  decide +kernel
/-- A list that is staged, and one that is active. -/
def stagedState (t : Nat) : State := { setPort (glState 2 10000 gateWord) 2 { staged := some ([gateWord, 200], 10000), vt := 7 } with now := t }
def activeState (t : Nat) : State := { setPort (awake {}) 2 { active := some { entries := [gateWord, 200], pos := 0, start := 50 }, vt := 7 } with now := t }
theorem wit_gate_lists : (portOf (stagedState 5) 2).staged = some ([gateWord, 200], 10000) ∧ (portOf (activeState 5) 2).active.isSome = true ∧
    50 + gateDur (([gateWord, 200] : List W64).getD 0 0) = 150 ∧ tsorted (portOf (activeState 5) 2).tags = true ∧ Awake (stagedState 5) := by unfold Awake; decide +kernel
theorem test_gate_cancel : (portOf (after (.gateListCancel 0) (stagedState 5)) 2).staged = none := by decide +kernel
theorem test_gate_horizon : ((portOf (after (.gateListHorizon 2) (stagedState 10000)) 2).active.map (·.start), tget 0 (portOf (after (.gateListHorizon 2) (stagedState 10000)) 2).tags 1,
    tget 0 (portOf (after (.gateListHorizon 2) (stagedState 10000)) 2).tags 2) = (some 10000, 7, 0) ∧ after (.gateListHorizon 2) (stagedState 9999) = stagedState 9999 := by decide +kernel
theorem test_window_edge : ((portOf (after (.gateWindowEdge 2) (activeState 150)) 2).active.map fun g => (g.pos, g.start)) = some (1, 150) ∧
    after (.gateWindowEdge 2) (activeState 149) = activeState 149 := by decide +kernel

/-- Port 2 is in service; queues 0 and 1 hold a packet each, 1 with the smaller start tag. -/
def portState2 (sys : List Egress) : State :=
  setPort (fset (fset (awake {}) F.FAB_PORT_STAT_STATE 3 2) F.FAB_PORT_STAT_WIDTH 2 2) 2
    { queues := [(0, [{ bytes := 64 }]), (1, [{ bytes := 128 }])] ++ (if sys = [] then [] else [(15, sys)]), tags := [(0, 9), (1, 4)] }
theorem wit_egress : portUp (portState2 []) 2 = true ∧ (portOf (portState2 []) 2).busyUntil ≤ (portState2 []).now ∧
    tget [] (portOf (portState2 []) 2).queues 1 = [{ bytes := 128 }] ∧ tget [] (portOf (portState2 []) 2).queues 15 = [] ∧ bitAt (openMask (portOf (portState2 []) 2)) 1 = true ∧
    windowEnd (portOf (portState2 []) 2) = none ∧ tsorted (portOf (portState2 []) 2).queues = true ∧
    (∀ x ∈ (portOf (portState2 []) 2).queues, tget 0 (portOf (portState2 []) 2).tags 1 < tget 0 (portOf (portState2 []) 2).tags x.1 ∨ x.1 = 1) ∧
    tget [] (portOf (portState2 [{}]) 2).queues 15 = [{}] ∧ portUp {} 2 = false := by decide +kernel
theorem test_egress : tget [] (portOf (after (.egressServe 2) (portState2 [])) 2).queues 1 = [] ∧ (portOf (after (.egressServe 2) (portState2 [])) 2).vt = 4 ∧
    (tget [] (portOf (after (.egressServe 2) (portState2 [{}])) 2).queues 15, (portOf (after (.egressServe 2) (portState2 [{}])) 2).vt) = ([], 0) := by decide +kernel

/-- Sampling is on, of port 2, with a ring of 4 records. -/
def smpState (head : W32) : State :=
  { rset (fset (fset (fset (awake {}) F.TRF_SMP_CTL_ENABLE 1) F.TRF_SMP_CTL_PORTS 4) F.TRF_SMP_CTL_SIZE 2) .TRF_SMP_HEAD 0 head with now := 10000, trf := { smpNext := 10000 } }
theorem wit_sampling : Awake (smpState 0) ∧ fget (smpState 0) F.TRF_SMP_CTL_ENABLE = 1 ∧ fget (awake {}) F.TRF_SMP_CTL_ENABLE ≠ 1 ∧ (smpState 0).trf.smpNext ≤ (smpState 0).now ∧
    tsorted (smpState 0).regs = true ∧ fget (smpState 0) F.TRF_SMP_CTL_SIZE ≤ 16 ∧ (0 + 1) % 2 ^ 2 = fget (smpState 1) F.TRF_SMP_HEAD_V ∧
    (0 + 1) % 2 ^ 2 ≠ fget (smpState 0) F.TRF_SMP_HEAD_V := by unfold Awake; decide +kernel
theorem test_sampling : fget (after .sampleTick (smpState 0)) F.TRF_SMP_STAT_TAIL = 1 ∧ fget (after .sampleTick (smpState 1)) F.TRF_SMP_STAT_LOST = 1 ∧
    fget (after (.samplingDisable 0) (smpState 0)) F.TRF_SMP_CTL_ENABLE = 0 ∧ fget (after (.samplingDisable 0) (smpState 0)) F.TRF_SMP_CTL_PORTS = 4 := by decide +kernel

/-! ### Domains, management, configuration -/

theorem wit_domains : Prompt (awake {}) ∧ fget (awake {}) F.SMC_DOM_STAT_BUSY = 0 ∧ BitVec.extractLsb' 12 4 (0x1005 : W32) = 1#4 ∧
    fget (regWritePlain (awake {}) .SMC_DOM_CMD 0 0x1005) F.SMC_DOM_CMD_DOMAIN = 5 ∧ (tget {} (awake {}).smc.doms 5).state = 0 ∧ (tget {} (awake {}).smc.doms 1).state = 1 ∧
    fget (awake {}) F.SMC_TENANCY_MODE = 0 ∧ fget (fset (awake {}) F.SMC_TENANCY_MODE 1) F.SMC_TENANCY_MODE = 1 ∧ tfind (awake {}).fab.slices 0 = none ∧
    BitVec.extractLsb' 12 4 (0x2001 : W32) = 2#4 ∧ domHolds (awake {}) 1 = false ∧ domHolds (onSeq (jobA {})) 1 = true ∧ domTiles (awake {}) 1 = [] := by decide +kernel
theorem test_domain_create : (tget {} (after (.domainCreate 0x1005) (awake {})).smc.doms 5).state = 1 ∧ fget (after (.domainCreate 0x1001) (awake {})) F.SMC_DOM_STAT_REASON = 0xE1 := by
  decide +kernel
theorem test_domain_release : (tget {} (after .domainReleaseDone (after (.domainRelease 0x2001) (awake {}))).smc.doms 1).state = 0 ∧
    fget (after (.domainRelease 0x2005) (awake {})) F.SMC_DOM_STAT_REASON = 0xE4 ∧ (after (.domainRelease 0x2001) (awake {})).smc.releasing = some 1 := by decide +kernel

/-- Manager 0 is provisioned with a key of digest 5 x 2^224, and a message carries its signature. -/
def mgmtState : State := rset (fset (awake {}) F.SMC_MGMT_CTL_Q 1) .SMC_MGR_DIG0 0 5
/-- A message of a manager at time 7. -/
def mgmtA (ok : Bool) : Mgmt := ⟨1, 9, 7, deviceId, true, false, [⟨0, managerDig mgmtState 0, ok⟩]⟩
theorem wit_mgmt (cmd : Nat) : mgmtOk mgmtState cmd (mgmtA true) = true ∧ mgmtOk mgmtState cmd (mgmtA false) = false := by
  have h : decide (max 1 (fget mgmtState F.SMC_MGMT_CTL_Q) ≤ provisioned mgmtState) = true := by decide +kernel
  have h0 : mgmtState.smc.issued = [] := rfl
  constructor <;> simp [mgmtOk, h0, tfind, mgmtA, quorum, show mgmtState.now = 0 from rfl] <;> decide +kernel
theorem wit_self_fence : fget mgmtState F.SMC_FENCE_STAT_FENCED = 0 ∧ fget mgmtState F.PRB_STEP_READY = 1 ∧ myNode mgmtState = none ∧ tsorted mgmtState.regs = true ∧
    myNode (fset (fset mgmtState F.FAB_NODE_VALID 1) F.FAB_NODE_NODE 9) = some 9 := by decide +kernel
theorem test_expel : (expel 9 (fset (fset (awake {}) F.FAB_NODE_VALID 1) F.FAB_NODE_NODE 9)).smc.expelled = [9] ∧
    fget (expel 9 (fset (fset (awake {}) F.FAB_NODE_VALID 1) F.FAB_NODE_NODE 9)) F.SMC_FENCE_STAT_CAUSE = 3 := by decide +kernel
/-- A lease of 100 ms (LEASE_MS below its least value) from time 0. -/
def leaseState (t : Nat) : State := { fset (fset (awake {}) F.SMC_FENCE_STAT_ARMED 1) F.SMC_MGMT_CTL_LEASE_MS 1 with now := t }
theorem wit_lease : fget (leaseState 100000000) F.SMC_FENCE_STAT_ARMED ≠ 0 ∧ (leaseState 100000000).smc.leaseDone = false ∧
    (leaseState 100000000).smc.lease + max 100 (min 5000 (fget (leaseState 100000000) F.SMC_MGMT_CTL_LEASE_MS)) * 1000000 ≤ (leaseState 100000000).now := by decide +kernel
theorem test_lease : fget (after .leaseExpiry (leaseState 100000000)) F.SMC_FENCE_STAT_CAUSE = 1 ∧ after .leaseExpiry (leaseState 99999999) = leaseState 99999999 := by decide +kernel

/-- A configuration epoch with its horizon 10 ms ahead. -/
def cfgState : State := rset (awake {}) .SMC_CFG_HZN_LO 0 10000000
theorem wit_cfg : Prompt cfgState ∧ cfgState.smc.cfg = none ∧ cfgState.now + 10000000 ≤ rpair cfgState .SMC_CFG_HZN_LO .SMC_CFG_HZN_HI ∧
    rpair (awake {}) .SMC_CFG_HZN_LO .SMC_CFG_HZN_HI < (awake {}).now + 10000000 ∧ (after (.cfgArm 1) cfgState).smc.cfg = some (0, 0, 10000000) ∧
    cfgDigest { ({} : State) with smc := { cfgDue := some (3, 1, 5) } } = 0 ∧ cfgDigest { ({} : State) with smc := { cfgDue := some (3, 1, 5) } } ≠ 1 := by decide +kernel
theorem test_cfg : fget (after (.cfgArm 1) cfgState) F.SMC_CFG_CTL_STAGED = 1 ∧ fget (after (.cfgArm 1) (awake {})) F.SMC_CFG_CTL_ERR = 1 ∧
    (after (.cfgCancel 2) (after (.cfgArm 1) cfgState)).smc.cfg = none ∧
    rget (after .cfgHorizon { ({} : State) with smc := { cfg := some (3, 0, 5) }, now := 5 }) .SMC_CFG_EPOCH_LO 0 = 3 ∧
    fget (after .cfgGraceExpiry { ({} : State) with smc := { cfgDue := some (3, 1, 5) }, now := 5 }) F.SMC_CFG_CTL_MISMATCH = 1 := by decide +kernel

/-! ### Fabric -/

/-- Node 7, ready, with window 2 over the page of domain 1, open to nodes 3 to 9 of domain 1 for everything. -/
def fabState (s : State) (bs : List Byte) : State :=
  let s1 := fset (fset (ranged (awake s) bs) F.FAB_NODE_VALID 1) F.FAB_NODE_NODE 7
  { s1 with fab := { s1.fab with windows := [(2, { dom := 1, foff := 0, base := 0, len := 65536, sdom := 1, nodeLo := 3, nodeHi := 9, access := 15, owner := 7, gen := 4 })] } }
/-- A request of a TYPE from node 4 at offset 64. -/
def reqA (ty : BitVec 8) : Pkt := { noPkt with ty := ty, dst := 7, src := 4, sdom := 1, tag := 6, off := 64, total := 8 }
theorem wit_request : ∀ ty ∈ [1, 2, 3, 4, 5, 9, 10], Comes (fabState {} []) (reqA (BitVec.ofNat 8 ty)) ty ∧
    (match verdict (fabState {} []) (reqA (BitVec.ofNat 8 ty)) with | .pass w => w.base == 0 | _ => false) = true ∧
    (liveWin (fabState {} []) (pktRange (reqA (BitVec.ofNat 8 ty))).1 (pktRange (reqA (BitVec.ofNat 8 ty))).2).isSome = true ∧
    (bankOfAccess (fabState {} []) 1 64).all (fun b => !nbuRunning (nbuOf (fabState {} []) b) && ownerOf (fabState {} []) 0 b == .free) = true ∧
    pktOk (fabState {} []) { reqA (BitVec.ofNat 8 ty) with dst := 6 } = false ∧
    liveWin ({ fabState {} [] with fab := {} }) (pktRange (reqA (BitVec.ofNat 8 ty))).1 (pktRange (reqA (BitVec.ofNat 8 ty))).2 = none ∧
    (policePkt (fset (fabState {} []) F.TRF_ING_RATE 1 4) (reqA (BitVec.ofNat 8 ty)) false).1 = false := by unfold Comes; decide +kernel
/-- Windows that refuse, an expelled source, a node that sleeps. -/
theorem wit_request_refused : ∀ ty ∈ [1, 2, 3, 4, 5, 9, 10], admits { dom := 1, sdom := 2, nodeLo := 3, nodeHi := 9 } (reqA (BitVec.ofNat 8 ty)) = false ∧
    accessOk (reqA (BitVec.ofNat 8 ty)) 0 = false ∧ (4 : Nat) ∈ ({ smc := { expelled := [4] } } : State).smc.expelled ∧
    fget (fset (fabState {} []) F.PRB_PWR_STAT_STATE 1) F.PRB_PWR_STAT_STATE ≠ 0 ∧ (fabState {} []).prb.waking = none := by decide +kernel
/-- A composition whose map of epoch 5 gives offsets 0 to 65,535 to node 8. -/
def compState : State := { fabState {} [] with fab := { (fabState {} []).fab with comps := [(3, { current := some { epoch := 5, ents := [(0, 65536, 8)] } })] } }
theorem wit_map_epoch : (compAt compState 64).isSome = true ∧ some (4 : Nat) ≠ mapEpoch (some { epoch := 5, ents := [(0, 65536, 8)] }) ∧
    mapNode (some { epoch := 5, ents := [(0, 65536, 8)] }) 64 = some 8 ∧ compState.fab.hold.length < 1024 := by decide +kernel
/-- R464: a load leaves no replay record. -/
theorem test_load : (after (.load { reqA 1 with src := 7, dst := 7 }) (fabState {} (List.replicate 64 0 ++ [7, 8]))).fab.records = [] := by decide +kernel
/-- R441: a store of 8 bytes is written at its offset, and its record kept. -/
theorem test_store : uBytes (after (.store { reqA 2 with payload := [1, 2, 3, 4, 5, 6, 7, 8], len := 8 }) (fabState {} [])) 1 64 8 = some [1, 2, 3, 4, 5, 6, 7, 8] ∧
    (after (.store { reqA 2 with payload := [1, 2, 3, 4, 5, 6, 7, 8], len := 8 }) (fabState {} [])).fab.records.length = 1 := by decide +kernel
/-- R135: an atomic add. -/
theorem test_atomic : uBytes (after (.atomic { reqA 3 with operand := 5 }) (fabState {} (List.replicate 64 0 ++ [7]))) 1 64 2 = some [12, 0] := by decide +kernel
theorem test_push_pulse : uBytes (after (.copyPush { reqA 4 with payload := [9, 9, 9, 9, 9, 9, 9, 9], len := 8 }) (fabState {} [])) 1 64 2 = some [9, 9] := by decide +kernel
theorem test_bad_header : fget (after (.load { reqA 1 with dst := 6 }) (fabState {} [])) F.FAB_XACT_STAT_BADHDR = 1 := by decide +kernel
theorem test_policed : fget (after (.load (reqA 1)) (fset (fabState {} []) F.TRF_ING_RATE 1 4)) F.TRF_ING_DROP_V = 1 := by decide +kernel
theorem wit_applies : ∃ w, Applies (fabState {} []) (reqA 1) 1 w ∧ w.base = 0 := by
  refine ⟨_, ⟨by unfold Comes; decide +kernel, show verdict (fabState {} []) (reqA 1) = .pass ((fabState {} []).fab.windows.headD (0, {})).2 by decide +kernel,
    by decide +kernel, ?_⟩, by decide +kernel⟩
  intro b hb
  have h : bankOfAccess (fabState {} []) ((fabState {} []).fab.windows.headD (0, {})).2.dom (lands ((fabState {} []).fab.windows.headD (0, {})).2 (reqA 1)) = some 0 := by
    decide +kernel
  rw [h] at hb
  obtain rfl : 0 = b := by simpa using hb
  have ho : ownerOf (fabState {} []) 0 0 = .free := by decide +kernel
  exact ⟨by decide +kernel, fun t ht => by rw [ho] at ht; cases ht⟩

/-- The job has a load in flight to node 4, whose reply goes to g2 and g3 (status). -/
def opA : FabOp := { job := 5, pkt := { reqA 1 with dst := 4, src := 7 }, statusReg := 3, destReg := 2, share := 1, issued := 0 }
def opState (o : FabOp) : State := { fabState (onSeq (jobA {})) [] with fab := { (fabState {} []).fab with ops := [(6, o)] } }
def replyA : Pkt := { reqA 1 with flags := 1, payload := [5, 0, 0, 0, 0, 0, 0, 0], len := 8 }
theorem wit_reply : knownType replyA.ty.toNat = true ∧ pktOk (opState opA) replyA = true ∧ tfind (opState opA).fab.ops 6 = some opA ∧ opA.kind = 0 ∧ replyA.ty = opA.pkt.ty ∧
    replyA.src = opA.pkt.dst ∧ fabStatus replyA.status.toNat = true ∧ (jobOf (giveShare (dropOp (opState opA) 6) 1) 5).isSome = true ∧
    tfind (opState opA).fab.orphans 9 = none := by decide +kernel
theorem test_reply : gReg (jobAfter (.fabricReply replyA) (opState opA)).ctx 2 = 5 ∧ (after (.fabricReply replyA) (opState opA)).fab.ops = [] ∧
    gReg (jobAfter (.fabricReply { replyA with status := 4, newNode := 3 }) (opState opA)).ctx 3 = 0x304 := by decide +kernel
/-- A pull of 8 bytes to address 0 that waits for its one segment. -/
def pullOp : FabOp := { job := 5, pkt := { reqA 5 with dst := 4, src := 7 }, statusReg := 3, share := 1, dom := 1, src := 0, segs := [0] }
theorem wit_pull : tfind (opState pullOp).fab.ops 6 = some pullOp ∧ pktOk (opState pullOp) { reqA 6 with payload := [3, 4] } = true ∧
    (match uWrite (opState pullOp) 1 0 [3, 4] with | .ok _ => true | _ => false) = true := by decide +kernel
theorem test_pull_segment : uBytes (after (.copyData { reqA 6 with payload := [3, 4], len := 2 }) (opState pullOp)) 1 0 2 = some [3, 4] ∧
    (after (.copyData { reqA 6 with payload := [3, 4], len := 2 }) (opState pullOp)).fab.ops = [] := by decide +kernel
/-- An incoming pull that waits for its acknowledgement, and what times out. -/
def copyState (t : Nat) : State :=
  { fabState {} [] with now := t, fab := { (fabState {} []).fab with
      copies := [(copyKey (reqA 7), { pkt := reqA 5 })], records := [(3, { reply := none, until_ := 50 })], ops := [(6, opA)] } }
theorem wit_timers : tfind (copyState 10000000).fab.copies (copyKey (reqA 7)) = some { pkt := reqA 5 } ∧ 0 + 10000000 ≤ (copyState 10000000).now ∧
    (tfind (copyState 50).fab.records 3).isSome = true ∧ (copyState 49).now < 50 := by decide +kernel
theorem test_copy_done : (after (.copyDone (reqA 7)) (copyState 0)).fab.copies = [] ∧ (after (.copyCancel (reqA 8)) (copyState 0)).fab.copies = [] := by decide +kernel
theorem test_timers : (after (.fabricOperationTimeout 6) (copyState 10000000)).fab.ops = [] ∧ (after (.fabricOperationTimeout 6) (copyState 9999999)).fab.ops.length = 1 ∧
    (after (.copyTrackerTimeout (copyKey (reqA 7))) (copyState 10000000)).fab.copies = [] ∧ (after (.replayRecordExpiry 3) (copyState 50)).fab.records = [] ∧
    (after (.replayRecordExpiry 3) (copyState 49)).fab.records.length = 1 := by decide +kernel

/-- Port 2 in a state, with lanes. -/
def linkState (st : Nat) (l : Link) : State := setLink (fset (fset (fabState {} []) F.FAB_PORT_STAT_STATE st 2) F.FAB_PORT_STAT_WIDTH 3 2) 2 l
theorem wit_ports : fget (linkState 1 {}) F.FAB_PORT_STAT_STATE 2 = 1 ∧ trainedWidth 255 = 8 ∧ trainedWidth 1 = 0 ∧ fget (linkState 2 {}) F.FAB_PORT_STAT_STATE 2 = 2 ∧
    (linkOf (linkState 2 {}) 2).spoiled = false ∧ portUp (linkState 3 {}) 2 = true ∧ (linkOf (linkState 3 { replays := 7 }) 2).replays = 7 ∧
    2 ^ 40 ≤ (linkOf (linkState 3 { rx := 2 ^ 40 }) 2).rx := by decide +kernel
theorem test_port_training : fget (after (.portTrainingDone 2 255 true 9 true true) (linkState 1 {})) F.FAB_PORT_STAT_PEER 2 = 9 ∧
    fget (after (.portTrainingDone 2 1 true 9 true true) (linkState 1 {})) F.FAB_PORT_STAT_STATE 2 = 5 := by decide +kernel
theorem test_link_loss : fget (after (.linkLoss 2) (linkState 3 {})) F.FAB_PORT_STAT_RETRAINS 2 = 1 ∧ fget (after (.linkLoss 2) (linkState 3 {})) F.FAB_PORT_STAT_STATE 2 = 1 ∧
    fget (after (.linkLoss 2) (linkState 3 { losses := [0, 0, 0] })) F.FAB_PORT_STAT_STATE 2 = 5 := by decide +kernel
theorem test_frames : (linkOf (after (.frameReceive 2 true true) (linkState 3 { replays := 3 })) 2).replays = 0 ∧
    (linkOf (after (.frameReceive 2 false true) (linkState 3 { replays := 3 })) 2).replays = 4 ∧
    fget (after (.frameReceive 2 false true) (linkState 3 { replays := 7 })) F.FAB_PORT_STAT_STATE 2 = 1 ∧
    (linkOf (after (.rekey 2 true) (linkState 3 { rx := 2 ^ 40 })) 2).rx = 0 := by decide +kernel
theorem test_qualification : fget (after (.qualificationComplete 2 255) (linkState 2 { lanes := 255 })) F.FAB_PORT_STAT_STATE 2 = 3 := by decide +kernel
theorem test_paths : (after (.pathNotice 2 9) (linkState 3 {})).fab.cut = [2 * 4096 + 9] ∧ (after (.pathRestored 2 9) (after (.pathNotice 2 9) (linkState 3 {}))).fab.cut = [] := by
  decide +kernel
theorem wit_replay : replayDue { opState opA with now := 2 ^ 60 } opA = true ∧ replayDue (opState { opA with sent := 2 ^ 60, port := 8 }) { opA with sent := 2 ^ 60, port := 8 } = false := by
  decide +kernel
theorem test_replay : ((after (.endToEndReplay 6) { opState opA with now := 2 ^ 60 }).fab.ops.map fun p => p.2.sent) = [2 ^ 60] := by decide +kernel
theorem test_port_hold : fget (after (.portHold 0x204) (linkState 3 {})) F.FAB_PORT_STAT_STATE 2 = 5 ∧ (linkOf (after (.portHold 0x204) (linkState 3 {})) 2).held = true ∧
    fget (after (.portRetry 0x104) (linkState 5 {})) F.FAB_PORT_STAT_STATE 2 = 1 := by decide +kernel

/-! ### Windows, slices, maps, handoffs -/

/-- The page of domain `d`, in frame 0, with `bs` at its start. -/
def pageFor (d : Nat) (bs : List Byte) : State :=
  { mem := { stk := cellsWrite [] 0 bs }
    tir := { regions := [(1, { dom := d, cls := 1, home := 1, base := 0, len := 65536 })]
             pages := [(pageKey d 0, { frame := some 0, present := BitVec.allOnes 16, home := 1 })] } }
theorem page_byte (d : Nat) (bs : List Byte) (s : State) (hm : s.mem = (pageFor d bs).mem) (ht : s.tir = (pageFor d bs).tir) (hf : s.flt.stacksOut = [])
    (a : Nat) (h : a < 65536) : uByte s d a = some (some (tget 0 (cellsWrite [] 0 bs) a)) := by
  have h1 : a / 65536 = 0 := by omega
  have h2 : a < 2 ^ 55 := by omega
  have h3 : areaAt s d a = none := by unfold areaAt; rw [if_pos h2]
  have h4 : regionAt s d a = some (1, { dom := d, cls := 1, home := 1, base := 0, len := 65536 }) := by
    unfold regionAt; rw [ht]; simp [pageFor, h]
  have h5 : pageOf s (pageKey d a) = { frame := some 0, present := BitVec.allOnes 16, home := 1 } := by
    have : pageKey d a = pageKey d 0 := by simp [pageKey, h1]
    unfold pageOf; rw [this, ht]; simp [pageFor, tget, tfind]
  have h6 : locate s d a = .stack a := by simp [locate, h3, h4, h5, Nat.mod_eq_of_lt h]
  have h7 : stkBad s a 1 = false := by unfold stkBad; rw [hm, hf]; simp [pageFor]
  have h8 : homeByte s d a = some (some (tget 0 (cellsWrite [] 0 bs) a)) := by
    unfold homeByte; rw [h6]; simp only [h7]; rw [hm]; rfl
  have h9 : waitingByte s d a = none := by unfold waitingByte; rw [h5]
  unfold uByte; rw [h8, h9]
theorem page_read (d : Nat) (bs : List Byte) (s : State) (hm : s.mem = (pageFor d bs).mem) (ht : s.tir = (pageFor d bs).tir) (hf : s.flt.stacksOut = [])
    (a n : Nat) (h : a + n ≤ 65536) : uBytes s d a n = some ((List.range n).map fun k => tget 0 (cellsWrite [] 0 bs) (a + k)) := by
  have hb : ∀ k ∈ List.range n, uByte s d (a + k) = some (some (tget 0 (cellsWrite [] 0 bs) (a + k))) := by
    intro k hk
    exact page_byte d bs s hm ht hf _ (by have := List.mem_range.mp hk; omega)
  unfold uBytes uRead
  rw [List.map_congr_left hb]
  simp

/-- Slice 3: clusters 0 and 1; another slice has cluster 2. -/
def sliceBytes : List Byte := padTo 32 (bytesOf 4 1 ++ [3, 255] ++ bytesOf 2 3)
/-- The map domain's page, with its descriptor at 0. -/
def mapState (bs : List Byte) : State :=
  let p := pageFor (Config.mapDomain % 4096) bs
  { awake {} with mem := p.mem, tir := p.tir, fab := { slices := [(4, { clusters := 4 })] } }
theorem map_bytes (bs : List Byte) (a n : Nat) (v : W32) (h : a + n ≤ 65536) :
    uBytes (regWritePlain (mapState bs) .FAB_MAP_CMD 0 v) (Config.mapDomain % 4096) a n = some ((List.range n).map fun k => tget 0 (cellsWrite [] 0 bs) (a + k)) :=
  page_read (Config.mapDomain % 4096) bs (regWritePlain (mapState bs) .FAB_MAP_CMD 0 v) (by unfold regWritePlain; split <;> rfl)
    (by unfold regWritePlain; split <;> rfl) (by unfold regWritePlain; split <;> rfl) a n h
theorem map_desc (bs : List Byte) (n : Nat) (v : W32) (h0 : rpair (regWritePlain (mapState bs) .FAB_MAP_CMD 0 v) .FAB_MAP_DESC_LO .FAB_MAP_DESC_HI = 0) (h : n ≤ 65536) :
    mapDesc (regWritePlain (mapState bs) .FAB_MAP_CMD 0 v) n = some ((List.range n).map fun k => tget 0 (cellsWrite [] 0 bs) (0 + k)) := by
  unfold mapDesc; rw [h0]
  exact map_bytes bs 0 n v (by omega)
theorem wit_slice : BitVec.extractLsb' 8 4 (0x103 : W32) = 1#4 ∧ Awake (mapState sliceBytes) ∧
    (mapDesc (regWritePlain (mapState sliceBytes) .FAB_MAP_CMD 0 0x103) 32 = some sliceBytes) ∧ (parseSlice sliceBytes).isSome = true ∧
    (∀ p ∈ (mapState sliceBytes).fab.slices, slicesMeet p.2 { clusters := 3 } = false) := by
  have h0 : rpair (regWritePlain (mapState sliceBytes) .FAB_MAP_CMD 0 0x103) .FAB_MAP_DESC_LO .FAB_MAP_DESC_HI = 0 := by decide +kernel
  have h1 : ((List.range 32).map fun k => tget 0 (cellsWrite [] 0 sliceBytes) (0 + k)) = sliceBytes := by decide +kernel
  refine ⟨by decide, by unfold Awake; decide +kernel, ?_, by decide, by decide +kernel⟩
  rw [map_desc sliceBytes 32 0x103 h0 (by decide), h1]
/-- A map of composition 3, epoch 1, one range for node 8, members 7 and 8 at 96. -/
def mapBytes : List Byte :=
  padTo 64 (bytesOf 4 1 ++ [3, 0] ++ bytesOf 2 1 ++ bytesOf 4 1 ++ bytesOf 2 2 ++ bytesOf 2 0 ++ bytesOf 8 9000 ++ bytesOf 8 96)
    ++ padTo 32 (bytesOf 6 0 ++ bytesOf 2 8 ++ bytesOf 4 1) ++ bytesOf 2 7 ++ bytesOf 2 8
/-- The map staged, current or draining. -/
def mapA : RMap := { epoch := 1, ents := [(0, 65536, 8)], members := [7, 8], horizon := 9000 }
def compsState (c : Comp) (t : Nat) : State := { fabState {} [] with now := t, fab := { (fabState {} []).fab with comps := [(3, c)] }, tir := {} }
theorem wit_map_horizon : tget {} (compsState { staged := some mapA } 9000).fab.comps 3 = { staged := some mapA } ∧ mapA.horizon ≤ (compsState { staged := some mapA } 9000).now ∧
    (compsState { staged := some mapA } 9000).tir.pages = [] := by decide +kernel
theorem test_map_horizon : (tget {} (after (.mapHorizon 3) (compsState { staged := some mapA } 9000)).fab.comps 3).current = some mapA ∧
    (tget {} (after (.mapHorizon 3) (compsState { staged := some mapA } 8999)).fab.comps 3).current = none := by decide +kernel
/-- Epoch 1 drains; node 8 has not reported. -/
def drainA : Comp := { current := some { mapA with epoch := 2 }, draining := some mapA, sentDone := true }
def drainPkt : Pkt := { reqA 0x16 with src := 8, operand := 1 + 3 * 65536 }
theorem wit_drain : Arrives (compsState drainA 0) drainPkt 0x16 ∧ (BitVec.extractLsb' 16 8 drainPkt.operand).toNat = 3 ∧ tget {} (compsState drainA 0).fab.comps 3 = drainA ∧
    drainA ≠ {} ∧ tsorted (compsState drainA 0).fab.comps = true ∧ drainCount (compsState drainA 0) mapA = 0 ∧
    (∀ n ∈ drainMembers { drainA with done := [4096 + 8] }, some n = myNode (compsState drainA 0) ∨ 1 * 4096 + n ∈ [4096 + 8]) := by unfold Arrives; decide +kernel
theorem test_drain : (tget {} (after (.drainDone drainPkt) (compsState drainA 0)).fab.comps 3).draining = none := by decide +kernel
theorem wit_map_stage : BitVec.extractLsb' 8 4 (0x203 : W32) = 2#4 ∧ BitVec.extractLsb' 8 4 (0x303 : W32) = 3#4 ∧
    fget (regWritePlain (mapState mapBytes) .FAB_MAP_CMD 0 0x203) F.FAB_MAP_CMD_COMP = 3 ∧ (mapState mapBytes).fab.hold = [] ∧
    ∃ m, readMap (regWritePlain (mapState mapBytes) .FAB_MAP_CMD 0 0x203) 3 = some m ∧ m.epoch = nextEpoch ((mapEpoch ({} : Comp).current).getD 0) := by
  have h0 : rpair (regWritePlain (mapState mapBytes) .FAB_MAP_CMD 0 0x203) .FAB_MAP_DESC_LO .FAB_MAP_DESC_HI = 0 := by decide +kernel
  have e1 : ((List.range 64).map fun k => tget 0 (cellsWrite [] 0 mapBytes) (0 + k)) = mapBytes.take 64 := by decide +kernel
  have e2 : ((List.range (64 + 16 * 1)).map fun k => tget 0 (cellsWrite [] 0 mapBytes) (0 + k)) = mapBytes.take 80 := by decide +kernel
  have e3 : ((List.range (2 * 2)).map fun k => tget 0 (cellsWrite [] 0 mapBytes) (96 + k)) = mapBytes.drop 96 := by decide +kernel
  have h1 := map_desc mapBytes 64 0x203 h0 (by decide)
  have h2 := map_desc mapBytes (64 + 16 * 1) 0x203 h0 (by decide)
  have h3 := map_bytes mapBytes 96 (2 * 2) 0x203 (by decide)
  rw [e1] at h1; rw [e2] at h2; rw [e3] at h3
  refine ⟨by decide, by decide, by decide +kernel, rfl, { mapA with raw := mapBytes.take 80 ++ mapBytes.drop 96 }, ?_, by decide⟩
  have f1 : fieldOf (mapBytes.take 64) 8 4 = 1 := by decide
  have f2 : fieldOf (mapBytes.take 64) 0xC 2 = 2 := by decide
  have f3 : fieldOf (mapBytes.take 64) 0x18 8 = 96 := by decide
  simp only [readMap, bind, Option.bind, h1, f1, f2, f3, h2, h3]
  decide +kernel
theorem test_map_cancel : (tget {} (after (.mapCancel 0x303) (compsState { staged := some mapA } 0)).fab.comps 3).staged = none := by decide +kernel

theorem wit_window_command : Awake (fabState {} []) ∧ fget (fabState {} []) F.FAB_WIN_STAT_BUSY = 0 ∧ BitVec.toNat (BitVec.extractLsb' 12 4 (0x1005 : W32)) = 1 ∧
    BitVec.toNat (BitVec.extractLsb' 12 4 (0x2005 : W32)) = 2 := by unfold Awake; decide +kernel
/-- A window of one page from offset 65,536 on. -/
def winBytes : List Byte := padTo 64 (bytesOf 4 1 ++ bytesOf 4 0 ++ bytesOf 8 65536 ++ bytesOf 8 0 ++ bytesOf 8 65536)
def winState (op win go : Nat) (r : Bool) (bs : List Byte) : State :=
  let s := fabState {} bs
  { s with fab := { s.fab with winCmd := some { op := op, arg := win, args := [1, 0, go] }, windows := s.fab.windows.map fun p => (p.1, { p.2 with removing := r }) } }
theorem wit_window_complete : (winState 1 0 0 false winBytes).fab.winCmd = some { op := 1, arg := 0, args := [1, 0, 0] } ∧ (tget {} (winState 1 0 0 false winBytes).smc.doms 1).state = 1 ∧
    readDesc (winState 1 0 0 false winBytes) 1 0 64 false false = some winBytes ∧ (parseWindow 1 0 winBytes).isSome = true ∧ tfind (winState 1 0 0 false winBytes).fab.windows 0 = none ∧
    (∀ x ∈ (winState 1 0 0 false winBytes).fab.windows, crosses x.2.foff x.2.len 65536 65536 = false) ∧ pagesIn (winState 1 0 0 false winBytes) 1 0 65536 = true ∧
    ((tfind (winState 2 2 1 true []).fab.windows 2).map fun w => (w.removing, windowBusy (winState 2 2 1 true []) w)) = some (true, false) := by decide +kernel
theorem test_window_create : ((tfind (after .windowCommandComplete (winState 1 0 0 false winBytes)).fab.windows 0).map fun w => (w.foff, w.dom)) = some (65536, 1) ∧
    fget (after .windowCommandComplete (winState 1 2 0 false (winBytes.take 4 ++ [2] ++ winBytes.drop 5))) F.FAB_WIN_STAT_REASON = 0xB1 ∧
    (after .windowCommandComplete (winState 2 2 1 true [])).fab.windows = [] := by decide +kernel

/-- The page's window has a ledger: node 4 of domain 1 may read it and compare and swap. -/
def ledState (acc : Nat) : State := let s := fabState {} []; { s with fab := { s.fab with windows := s.fab.windows.map fun p => (p.1, { p.2 with access := acc }) } }
def casPkt (gen : Nat) : Pkt := { reqA 0x11 with off := 0, compare := BitVec.ofNat 64 (7 + gen * 2 ^ 32), operand := BitVec.ofNat 64 (4 + 5 * 2 ^ 32) }
theorem wit_ledger : Arrives (ledState 31) { reqA 0x10 with off := 0 } 0x10 ∧ (ledWin (ledState 31) { reqA 0x10 with off := 0 }).isSome = true ∧
    ledWin (ledState 15) { reqA 0x10 with off := 0 } = none ∧ Arrives (ledState 31) (casPkt 4) 0x11 ∧ (ledWin (ledState 31) (casPkt 4)).isSome = true ∧
    ((ledWin (ledState 31) (casPkt 4)).map fun x => windowBusy (ledState 31) x.2) = some false := by unfold Arrives; decide +kernel
theorem test_ledger_cas : ((tfind (after (.ledgerCas (casPkt 4)) (ledState 31)).fab.windows 2).map fun w => (w.owner, w.gen)) = some (4, 5) ∧
    ((tfind (after (.ledgerCas (casPkt 3)) (ledState 31)).fab.windows 2).map fun w => (w.owner, w.gen)) = some (7, 4) := by decide +kernel
def offerPkt : Pkt := { reqA 0x12 with newNode := 9, operand := BitVec.ofNat 64 (4 + 4 * 2 ^ 32) }
theorem wit_offer : Arrives (fabState {} []) offerPkt 0x12 ∧ fenced (fabState {} []) = false ∧ overcast (fabState {} []) = false ∧ fget (fabState {} []) F.FAB_HO_CMD_ACCEPT = 0 ∧
    fenced (fset (fabState {} []) F.SMC_FENCE_STAT_FENCED 1) = true ∧ fget (fset (fabState {} []) F.FAB_HO_CMD_ACCEPT 1) F.FAB_HO_CMD_ACCEPT ≠ 0 := by unfold Arrives; decide +kernel
theorem test_offer : (after (.offer offerPkt) (fset (fabState {} []) F.FAB_HO_CMD_ACCEPT 1)).fab.receives.map (fun h => (h.peer, h.home, h.gen)) = [(4, 9, 4)] ∧
    (after (.offer offerPkt) (fabState {} [])).fab.receives = [] := by decide +kernel
/-- An offer to node 4 that has left. -/
def hoA (sent : Bool) : Handoff := { role := 0, home := 9, foff := 64, peer := 4, gen := 4, dom := 1, desc := 128, start := 0, sent := sent }
def hoState (sent : Bool) (ops : Table FabOp) : State := let s := fabState {} []; { s with now := 5000, fab := { s.fab with handoff := some (hoA sent), ops := ops } }
theorem wit_accept : Arrives (hoState true []) (reqA 0x13) 0x13 ∧ (hoState true []).fab.handoff = some (hoA true) ∧ (hoA true).resolving = false ∧ (hoA true).peer = (reqA 0x13).src.toNat ∧
    (hoA true).foff = (reqA 0x13).off.toNat ∧ myNode (hoState false []) ≠ none ∧ (hoA true).start + hoTmo (fset (hoState true []) F.FAB_HO_CMD_TMO 4) < (hoState true []).now ∧
    (launchLed (hoState true []) (hoA true) 0x11 0 (ledWord 7 5) (ledWord 7 4)).2.fab.receives = [] := by unfold Arrives; decide +kernel
theorem test_accept : (after (.accept (reqA 0x13)) (hoState true [])).fab.handoff = none ∧ fget (after (.accept { reqA 0x13 with status := 0xD }) (hoState true [])) F.FAB_HO_STAT_REASON = 0xB8 := by
  decide +kernel
theorem test_offer_waits : (pumpOffer (hoState false [(6, { job := 5, pkt := { reqA 2 with dst := 9 } })])).fab.handoff = some (hoA false) ∧
    (pumpOffer (hoState false [])).fab.handoff = some { hoA true with start := 5000 } := by decide +kernel
theorem test_handoff_timeout : ((after .handoffTimeout (fset (hoState true []) F.FAB_HO_CMD_TMO 4)).fab.handoff.map (·.resolving)) = some true ∧
    ((after .handoffTimeout (fset (hoState true []) F.FAB_HO_CMD_TMO 5)).fab.handoff.map (·.resolving)) = some false := by decide +kernel
/-- A handoff descriptor at 64: home 9, window offset 64, peer 4, generation 4. -/
def hoDesc : List Byte := List.replicate 64 0 ++ bytesOf 8 (9 * 2 ^ 48 + 64) ++ bytesOf 2 4 ++ bytesOf 2 0 ++ bytesOf 4 4
theorem wit_handoff_command : Awake (fabState {} hoDesc) ∧ fget (regWritePlain (rset (fabState {} hoDesc) .FAB_HO_DESC_LO 0 64) .FAB_HO_CMD 0 0x1001) F.FAB_HO_CMD_BUSY = 0 ∧
    fget (regWritePlain (rset (fabState {} hoDesc) .FAB_HO_DESC_LO 0 64) .FAB_HO_CMD 0 0x1001) F.FAB_HO_CMD_DOMAIN = 1 ∧
    (uBytes (rset (fabState {} hoDesc) .FAB_HO_DESC_LO 0 64) 1 64 32).isSome = true ∧ BitVec.extractLsb' 12 4 (0x1001 : W32) = 1#4 ∧ BitVec.extractLsb' 12 4 (0x2001 : W32) = 2#4 := by
  unfold Awake; decide +kernel
theorem test_handoff_offer : ((after (.handoffOffer 0x1001) (rset (fabState {} hoDesc) .FAB_HO_DESC_LO 0 64)).fab.handoff.map fun h => (h.home, h.foff, h.peer, h.gen, h.sent))
    = some (9, 64, 4, 4, true) := by decide +kernel

/-! ### Flash media, units -/

/-- Block 5 of LUN 2 of channel 1. -/
def blkA : Nat := 2 ^ 40 + 2 * 2 ^ 32 + 5
/-- All channels in service; LUN 2 of channel 1 as given; block 5 there holds logical page 3 of domain 1. -/
def lunState (lu : Lun) (b : Blk) : State :=
  { awake {} with fls := { inService := List.range 64, blocksPerLun := 8, pagesPerBlock := 4, luns := [(258, lu)], blks := [(blkA, b)], capacity := 10000
                           map := [(2 ^ 42 + 3, { chan := 1, lun := 2, blk := blkA, seq := 4 })] } }
def readA : FRead := { src := 1, dom := 1, lpage := 3 }
theorem wit_lun_free : LunFree (lunState { reads := [readA] } {}) 1 2 ∧ fget (lunState { reads := [readA] } {}) F.FLS_GEOM_MP_READ = 0 ∧ readA.src ≠ 0 ∧
    LunFree (lunState { reads := [{ readA with src := 0 }, readA] } {}) 1 2 ∧ shareFree (lunState {} {}) 0 = false := by
  refine ⟨⟨?_, by decide +kernel, by decide +kernel, by decide +kernel⟩, by decide +kernel, by decide, ⟨?_, by decide +kernel, by decide +kernel, by decide +kernel⟩, by decide +kernel⟩
  all_goals exact .inr ⟨by decide +kernel, by decide +kernel⟩
theorem test_read_issue : ((lunOf (after (.lunReadIssue 1 2 []) (lunState { reads := [readA] } {})) 1 2).reads.map fun r => (r.issued, r.blk)) = [(true, blkA)] ∧
    (blkOf (after (.lunReadIssue 1 2 []) (lunState { reads := [readA] } {})) blkA).reads = 1 := by decide +kernel
theorem test_read_complete : (lunOf (after (.pageReadComplete 1 2 [0, 0, 0, 0] false) (lunState { reads := [{ readA with issued := true }] } {})) 1 2).reads = [] := by decide +kernel
/-- R411: a codeword that fails soft decode loses the page. -/
theorem test_page_lost : ((tfind (after (.pageReadComplete 1 2 [65537] false) (lunState { reads := [{ readA with issued := true, blk := blkA }] } {})).fls.map (2 ^ 42 + 3)).map
    fun p => p.lost) = some true := by decide +kernel

/-- A program of page 3 with sequence number `n`. -/
def progA (n : Nat) : Prog := { dom := 1, lpage := 3, blk := blkA + 1, page := 2, seq := n }
theorem wit_lun_ends : LunEnds (lunState { progs := [progA 5] } {}) 1 2 ∧ (lunOf (lunState { progs := [progA 5] } {}) 1 2).progs = [progA 5] ∧
    ((tfind (lunState {} {}).fls.map (2 ^ 42 + 3)).map (·.seq)) = some 4 ∧ openBlock (schedule (lunState {} {}) (blkA + 1) 4) 1 2 0 ≠ some 0 ∧
    openBlock { lunState {} {} with fls := {} } 1 2 0 = none ∧ LunEnds (lunState { erase := some blkA } {}) 1 2 ∧ bitAt ({ stream := 1 } : Blk).stream 0 = true ∧
    bitAt ({ stream := 2 } : Blk).stream 0 = false := by
  refine ⟨⟨by decide +kernel, by decide +kernel, .inl (by decide +kernel)⟩, by decide +kernel, by decide +kernel, by decide +kernel, by decide +kernel,
    ⟨by decide +kernel, by decide +kernel, .inl (by decide +kernel)⟩, by decide, by decide⟩
theorem test_program : ((tfind (after (.flashProgramComplete 1 2 true) (lunState { progs := [progA 5] } {})).fls.map (2 ^ 42 + 3)).map fun p => (p.blk, p.page)) = some (blkA + 1, 2) ∧
    ((tfind (after (.flashProgramComplete 1 2 true) (lunState { progs := [progA 3] } {})).fls.map (2 ^ 42 + 3)).map fun p => p.blk) = some blkA := by decide +kernel
theorem test_erase : (lunOf (after (.flashEraseComplete 1 2 true) (lunState { erase := some blkA } { used := 4 })) 1 2).erase = none ∧
    (blkOf (after (.flashEraseComplete 1 2 true) (lunState { erase := some blkA } { used := 4 })) blkA).erases = 1 ∧
    (lunOf (after (.flashEraseComplete 1 2 false) (lunState { erase := some blkA } { stream := 2 })) 1 2).eraseTries = 1 ∧
    (blkOf (after (.flashEraseComplete 1 2 false) (lunState { erase := some blkA } { stream := 1 })) blkA).retired = true := by decide +kernel
theorem wit_read_limit : max 1 (fget (fset (lunState {} {}) F.FLS_MEDIA_CTL_RD_LIMIT 1) F.FLS_MEDIA_CTL_RD_LIMIT) * 1024 ≤ (blkOf (lunState {} { reads := 1024 }) blkA).reads := by decide +kernel
theorem test_read_limit : (blkOf (after (.readDisturbLimit blkA) (fset (lunState {} { reads := 1024 }) F.FLS_MEDIA_CTL_RD_LIMIT 1)) blkA).rewrite = 2 ∧
    (blkOf (after (.readDisturbLimit blkA) (fset (lunState {} { reads := 1023 }) F.FLS_MEDIA_CTL_RD_LIMIT 1)) blkA).rewrite = 0 := by decide +kernel
theorem wit_patrol : (blkOf (lunState {} { used := 1 }) blkA).isOpen = false ∧ (blkOf (lunState {} { used := 1 }) blkA).used ≠ 0 ∧ flsKeeps (lunState {} {}) = true ∧
    validPages (lunState {} {}) blkA = [2 ^ 42 + 3] ∧ blkChan blkA = 1 ∧ blkLun blkA = 2 := by decide +kernel
theorem test_patrol : ((lunOf (after (.patrolRead blkA) (lunState {} { used := 1 })) 1 2).reads.map fun r => (r.src, r.dom, r.lpage)) = [(1, 1, 3)] := by decide +kernel
/-- Collection: a scheduled block; a pool that is low, with a victim; a pool that is full. -/
theorem wit_collection : ((lunState {} { rewrite := 1 }).fls.blks.find? fun p => blkChan p.1 == 1 && blkLun p.1 == 2 && p.2.rewrite != 0 && p.2.rewrite != 3).map (·.1) = some blkA ∧
    100 * erasedCount { lunState {} { used := 4 } with fls := { (lunState {} { used := 4 }).fls with blocksPerLun := 1 } } 1 2
      < 2 * goodCount { lunState {} { used := 4 } with fls := { (lunState {} { used := 4 }).fls with blocksPerLun := 1 } } 1 2 ∧
    victim (lunState {} { used := 4 }) 1 2 = some blkA ∧ 3 * goodCount (lunState {} {}) 1 2 ≤ 100 * erasedCount (lunState {} {}) 1 2 := by decide +kernel
theorem test_collection_stops : (lunOf (after (.garbageCollection 1 2) (lunState { collecting := true } {})) 1 2).collecting = false := by decide +kernel
def slowState : State := { fset (lunState { erase := some blkA, reads := [readA] } {}) F.FLS_GEOM_SUSPEND 1 with now := 100000 }
theorem wit_suspend : (lunOf slowState 1 2).erase ≠ none ∧ (∃ r ∈ (lunOf slowState 1 2).reads, r.issued = false ∧ r.since + 100000 ≤ slowState.now) ∧
    (lunOf slowState 1 2).suspends < 4 := by decide +kernel
theorem test_suspend : (lunOf (after (.readSuspend 1 2) slowState) 1 2).suspended = true := by decide +kernel
theorem wit_channel : 3 ∈ (lunState {} {}).fls.inService ∧ (lunState {} {}).fls.work = [] ∧ (∀ p ∈ (lunState {} {}).fls.luns, p.1 / 256 ≠ 3) ∧ 3 ∉ ({} : State).fls.inService := by
  decide +kernel
theorem test_channel : 3 ∉ (after (.channelHeldOut 3) (lunState {} {})).fls.inService ∧ overcast (after (.channelHeldOut 3) (lunState {} {})) = false := by decide +kernel
/-- A write-back region with flash backing at 65,536, and a discard of its one page. -/
def discardState : State := rset { fabState {} [] with tir := { regions := [(1, { dom := 1, cls := 0, backing := 1, base := 65536, len := 65536 })] } } .FLS_DSC_ADDR_LO 0 65536
theorem wit_discard : Awake discardState ∧ BitVec.getLsbD (0x10000000 ||| 0x1001 : W32) 28 = true ∧ fget discardState F.FLS_DSC_CMD_BUSY = 0 ∧
    mayDiscard discardState 1 65536 = true ∧ mayDiscard discardState 1 0 = false := by unfold Awake; decide +kernel
theorem test_discard_complete : (after .discardComplete { lunState {} {} with fls := { (lunState {} {}).fls with dsc := some [1, 0, 65536] } }).fls.dsc = none := by decide +kernel

theorem wit_units : (3 : Nat) ∉ (awake {}).flt.stacksOut ∧ 8 ≤ fget (awake {}) F.PRB_STEP_LAST ∧ tget 0 (awake {}).stk.patrol 3 + 86400000000000 ≤ ({ awake {} with now := 86400000000000 } : State).now ∧
    quarantined (awake {}) 1 4 = false ∧ overThresh { fset (awake {}) F.PRB_SHD_CTL_QUAR_THRESH 2 with flt := { charge := [(shdKey 1 4, 2)] } } 1 4 = true ∧
    overThresh (awake {}) 1 4 = false := by decide +kernel
theorem test_stack_out : (after (.stackHeldOut 3) (awake {})).flt.stacksOut = [3] ∧ overcast (after (.stackHeldOut 3) (awake {})) = false ∧
    overcast (after (.stackHeldOut 3) { awake {} with flt := { stacksOut := [4, 5, 6, 7] } }) = true := by decide +kernel
theorem test_stack_patrol : fget (after (.stackPatrol 0) { awake {} with now := 86400000000000, mem := { badStk := [5] } }) F.STK_ECC_STAT_UE 0 = 1 := by decide +kernel
theorem test_quarantine : quarantined (after (.quarantine 1 4) { fset (awake {}) F.PRB_SHD_CTL_QUAR_THRESH 2 with flt := { charge := [(shdKey 1 4, 2)] } }) 1 4 = true := by decide +kernel

/-! ### Appends, commits, pins -/

/-- A TIR command of job 5. -/
def tirC (op : Byte) (d : W256) : Cmd := cmdA .move 9 op d
/-- The page of a list: the root entry of list 0 at 0, its haze at 64, with blocks at 192 and 384, one directory slot at 128, a source block
at 512. -/
def hazePage (dir src : List Byte) : List Byte :=
  padTo 64 (bytesOf 8 0 ++ bytesOf 8 64) ++ padTo 64 (List.replicate 24 0 ++ bytesOf 8 192 ++ bytesOf 8 192 ++ bytesOf 8 384 ++ bytesOf 8 384)
    ++ padTo (if src = [] then 0 else 384) dir ++ src
def indexA : Index := { dom := 1, root := 0, dir := 128, dirEnd := 160, replicas := [7] }
/-- The command at the head of job 5's TIR queue on node 7, with index 2 of one list installed. -/
def tirState (x : Index) (c : Cmd) (dir src : List Byte) : State :=
  let s := fset (fset (atEngine 8 9 c (hazePage dir src)) F.FAB_NODE_VALID 1) F.FAB_NODE_NODE 7
  { s with cmds := [(ekey 14 5, [c])], tir := { s.tir with indexes := [(2, x)] }, fls := { s.fls with capacity := 10 } }

def hazeDel : Cmd := tirC 0x10 (desc (2 * 2 ^ 56) 5 1 0)
def hazeIns : Cmd := tirC 0x10 (desc (2 * 2 ^ 56 + 512) 5 0 0)
def liveDir : List Byte := dirBytes 5 [0] 1 false
def insSrc : List Byte := bytesOf 4 (2 ^ 31)
theorem wit_append_delete : TirNext 0x10 (tirState indexA hazeDel liveDir []) 5 hazeDel ∧ overcast (tirState indexA hazeDel liveDir []) = false ∧
    indexOf (tirState indexA hazeDel liveDir []) 1 2 = some indexA ∧ isPrimary (tirState indexA hazeDel liveDir []) indexA = true ∧
    isPrimary (tirState indexA hazeDel liveDir []) { indexA with replicas := [9] } = false ∧
    dirState (tirState indexA hazeDel [] []) 2 5 5 = .absent ∧
    dirState (tirState indexA hazeDel (dirBytes 5 [0] 1 true) []) 2 5 5 = .tombed ∧
    dirState (tirState indexA hazeDel liveDir []) 2 5 5 = .live 0 [0] ∧
    (rootAt (tirState indexA hazeDel liveDir []) 1 0).hazeN = 0 := by unfold TirNext; decide +kernel
theorem wit_append_delete_goes : (let s := tirState indexA hazeDel liveDir []; let o := openBatch s 5 2
    ((appendOp o.2.2 o.1 2 o.2.1 true 5 [0] (tombEntry 5) 0 true).isSome = true ∧
     appendOp { o.2.2 with fls := {} } o.1 2 o.2.1 true 5 [0] (tombEntry 5) 0 true = none)) := by decide +kernel
theorem wit_append_insert : (let s := tirState indexA hazeIns [] insSrc
    TirNext 0x10 s 5 hazeIns ∧ overcast s = false ∧ (operand s 1 512 64 = .ok (padTo 64 insSrc)) ∧ indexOf s 1 2 = some indexA ∧ isPrimary s indexA = true ∧
    (operand s 1 576 (bodyBytes indexA) = .ok (List.replicate 96 0)) ∧ dirState s 2 5 5 = .absent ∧ listSlots (padTo 64 insSrc) = [0]) := by
  unfold TirNext; decide +kernel
theorem wit_append_room : dirRoom (tirState indexA hazeIns [] insSrc) indexA = some 0 := by
  have h : max 1 (dirSlots indexA) = 1 := by decide
  unfold dirRoom; rw [h]; simp only [Nat.mod_one]; decide +kernel
theorem wit_append_insert_goes : (let s := tirState indexA hazeIns [] insSrc; let o := openBatch s 5 2
    (appendOp (freeNext o.2.2) o.1 2 o.2.1 false 5 [0] (insertBytes indexA 5 0 (List.replicate 96 0)) 0 false).isSome = true) := by decide +kernel
theorem test_append : (let t := after (.hazeAppend 5) (tirState indexA hazeDel liveDir [])
    ((cmdsOf t 14 5).map (fun c => (c.phase, c.status, c.count)), (rootAt t 1 0).hazeN, dirEpoch (dirSlot t indexA 0), dirState t 2 5 5))
    = ([(.finishing, 0, 1)], 1, noEpoch, .reserved 0 true 1) := by decide +kernel
theorem test_append_full : (cmdsOf (after (.hazeAppend 5) (let s := tirState indexA hazeDel liveDir []
    stkWrite s 28 (bytesOf 4 262144))) 14 5).map (fun c => (c.status, c.reason)) = [(0x0B, 0x24)] := by decide +kernel

/-- A batch of job 5 for index 2, and a commit request for it. -/
def batchA (p : CommitPhase) : Batch := { tag := 5, index := 2, primary := 7, phase := p }
def commitC : Cmd := tirC 0x11 (desc 2 0 0 0)
def commitState (x : Index) (l : Table Batch) : State :=
  let s := tirState x commitC [] []
  { s with tir := { s.tir with batches := l } }
def indexR : Index := { indexA with repl := 2, replicas := [7, 9] }
theorem wit_commit : TirNext 0x11 (commitState indexA []) 5 commitC ∧ collecting (commitState indexA []) 5 2 = none ∧
    indexOf (commitState indexA []) 1 2 = some indexA ∧ TirNext 0x11 (commitState indexR [(4, batchA .collecting)]) 5 commitC ∧
    collecting (commitState indexR [(4, batchA .collecting)]) 5 2 = some (4, batchA .collecting) ∧
    indexOf (commitState indexR [(4, batchA .collecting)]) 1 2 = some indexR ∧ fenced (commitState indexR []) = false ∧
    overcast (commitState indexR []) = false ∧ myNode (commitState indexR []) = some 7 ∧ myNode {} = none ∧
    fenced (fset {} F.SMC_FENCE_STAT_FENCED 1) = true := by unfold TirNext; decide +kernel
theorem test_commit_empty : (cmdsOf (after (.commitRequest 5) (commitState indexA [])) 14 5).map (fun c => (c.phase, c.status)) = [(.finishing, 0)] := by
  decide +kernel
theorem test_commit_sends : (let t := after (.commitRequest 5) (commitState indexR [(4, batchA .collecting)])
    ((tfind t.tir.batches 4).map (fun v => (v.phase, v.cmd)), (cmdsOf t 14 5).map (·.phase))) = (some (.waitAcks, some 7), [.running]) := by decide +kernel

/-- Messages between the nodes of a replica set, at a node whose batch 4 stands in a phase. -/
def setState (v : Batch) : State := { commitState indexR [(4, v)] with cmds := [] }
def replicaB (p : CommitPhase) : Batch := { index := 2, primary := 9, replica := true, remoteId := 30, phase := p }
theorem wit_replica_batch : tfind (setState {}).tir.indexes 3 = none ∧ tfind (setState {}).tir.indexes 2 = some indexR ∧ 9 ∈ indexR.replicas ∧
    (repBatch (setState (replicaB .inDoubt)) 9 30).isSome = true ∧ repBatch (setState {}) 9 30 = none ∧
    (repAppend 0 2 [] (setState {})).isSome = true ∧
    repAppend 0 2 [] (setBatch { setState {} with tir := { (setState {}).tir with nextBatch := 1 } } 0 (replicaB .inDoubt)) ≠ none ∧
    repAppend 8 2 [⟨true, 5, [], 0, []⟩] (setState {}) = none := by decide +kernel
theorem wit_replica_ack : replicasOf (idx (setState {}) 2) = [9] ∧ tfind (setState (batchA .waitAcks)).tir.batches 4 = some (batchA .waitAcks) ∧
    (∃ p ∈ (setState {}).tir.indexes, 9 ∈ p.2.replicas) ∧ tfind (setState (batchA .waitNotices)).tir.batches 4 = some (batchA .waitNotices) ∧
    repBatch (setState (replicaB .noticed)) 9 30 = some (4, replicaB .noticed) ∧ tfind (setState {}).tir.batches 5 = none ∧
    tget false ({ tir := { outcomes := [(5, true)] } } : State).tir.outcomes 5 = true := by decide +kernel
theorem wit_commit_timeout : (batchA .waitAcks).sentAt + (idx { setState (batchA .waitAcks) with now := 1000000 } 2).commitTmo * 1000 ≤ 1000000 ∧
    (∃ n ∈ replicasOf (idx (setState {}) 2), ∀ a ∈ (batchA .waitAcks).acks, a.1 ≠ n) ∧
    (∀ n ∈ replicasOf (idx (setState {}) 2), ∃ a ∈ ({ batchA .waitAcks with acks := [(9, 0)] } : Batch).acks, a.1 = n) ∧
    tfind (setState (replicaB .inDoubt)).tir.batches 4 = some (replicaB .inDoubt) ∧ 9 ∈ ({ smc := { expelled := [9] } } : State).smc.expelled := by
  decide +kernel
def phases (t : State) : List CommitPhase := t.tir.batches.map fun p => p.2.phase
theorem test_replica_messages : (phases (after (.commitNotice 9 30) (setState (replicaB .inDoubt))),
    phases (after (.discardNotice 9 30) (setState (replicaB .inDoubt))), phases (after (.replicaAck 9 4 0 2) (setState (batchA .waitAcks))),
    phases (after (.commitTimeout 4) { setState (batchA .waitAcks) with now := 1000000 }))
    = ([.noticed], [.dead], [.dead], [.dead]) := by decide +kernel
theorem test_notice_ack : (after (.noticeAck 9 4) (setState (batchA .waitNotices))).tir.batches.map (fun p => p.2.noticed) = [[9]] := by decide +kernel

/-- A node whose group commit is due. -/
def dueState (l : Table Batch) : State := { commitState indexA l with now := 100000 }
def decidedB : Batch := { batchA .decided with cmd := some 7 }
theorem wit_group_commit : (let s := dueState [(4, decidedB)]
    s.tir.nextCommit ≤ s.now ∧ fget s F.PRB_PWR_STAT_STATE = 0 ∧ fget s F.PRB_STEP_READY = 1 ∧ flashGone s = false ∧
    s.tir.merges = [] ∧ s.tir.retired = [] ∧ s.tir.cuts = [] ∧ (∀ p ∈ s.tir.indexes, p.2.ovrNext = none) ∧ (∀ e ∈ decidedB.ents, e.jnl ≤ s.tir.jdone) ∧
    findTir s 7 = some (5, commitC) ∧ lane64 commitC.tok.desc 1 = 0 ∧ commitWork (fset s F.PRB_PWR_STAT_STATE 1) = true ∧
    1 ≤ fget (fset s F.PRB_PWR_STAT_STATE 1) F.PRB_PWR_STAT_STATE ∧ fget (fset s F.PRB_STEP_READY 0) F.PRB_STEP_READY = 0 ∧
    ({ s with tir := { s.tir with reserve := 2 ^ 20 } } : State).tir.epoch + 2 ^ 19 ≤ 2 ^ 20) := by decide +kernel
theorem test_group_commit : (let s := dueState [(4, decidedB)]
    let t := after (.groupCommit 0) { s with tir := { s.tir with reserve := 2 ^ 20 } }
    (t.tir.epoch, t.tir.batches.length, (cmdsOf t 14 5).map (fun c => (c.phase, c.status)), t.tir.nextCommit)) =
    ((dueState []).tir.epoch + 1, 0, [(.finishing, 0)], 200000) := by decide +kernel
theorem wit_decide : replicasOf (idx (setState {}) 2) ≠ [] ∧ replicasOf (idx (commitState indexA [(4, batchA .waitAcks)]) 2) = [] ∧
    fenced (commitState indexA []) = false ∧ overcast (commitState indexA []) = false := by decide +kernel

def pinC : Cmd := tirC 0x12 (desc 2 0 0 0)
def pinEpochC : Cmd := tirC 0x12 (desc (2 + 2 ^ 8) 0 0 0)
def unpinC : Cmd := tirC 0x13 (desc 2 3 0 0)
def unpinState (i : Nat) : State := let s := tirState indexA unpinC [] []; { s with tir := { s.tir with pins := [(3, { dom := 1, index := i })] } }
theorem wit_pin : TirNext 0x12 (tirState indexA pinC [] []) 5 pinC ∧ TirNext 0x12 (tirState indexA pinEpochC [] []) 5 pinEpochC ∧
    (∃ j, jobOf (tirState indexA pinC [] []) 5 = some j ∧ 0 = j.epoch) ∧ epochOk (tirState indexA pinEpochC [] []) 5 2 0 = true ∧
    tfind (tirState indexA pinC [] []).tir.pins 0 = none ∧ TirNext 0x13 (unpinState 2) 5 unpinC ∧ TirNext 0x13 (unpinState 4) 5 unpinC := by
  unfold TirNext; refine ⟨by decide +kernel, by decide +kernel, ⟨_, rfl, rfl⟩, ?_⟩; decide +kernel
theorem pins_held (l : List Nat) (k : Nat) (h : k ∈ l) : tfind (l.map fun h => (h, ({} : Pin))) k ≠ none := by
  induction l with
  | nil => simp at h
  | cons a l ih => by_cases e : a = k <;> simp_all [tfind, eq_comm]
theorem wit_pin_limit (k : Nat) (h : k < 1024) : tfind ((List.range 1024).map fun h => (h, ({} : Pin))) k ≠ none :=
  pins_held _ k (List.mem_range.2 h)
theorem test_pin : ((after (.pin 5) (tirState indexA pinC [] [])).tir.pins.map (fun p => (p.1, p.2.index)), (after (.unpin 5) (unpinState 2)).tir.pins.length,
    (after (.unpin 5) (unpinState 4)).tir.pins.length) = ([(0, 2)], 0, 1) := by decide +kernel

/-! ### Merges -/

/-- A merge command of a step for list 0 of index 2. -/
def mergeC (step : Nat) : Cmd := tirC 0x17 (desc (2 + step * 2 ^ 8) 0 0 0)
def chooseC : Cmd := tirC 0x17 (desc (2 + 2 ^ 41) 0 0 0)
def mergeState (c : Cmd) (l : Table MergeRec) : State := let s := tirState indexA c [] []; { s with tir := { s.tir with merges := l } }
def recA (m : MergeRec) : Table MergeRec := [(listKey 2 0, { m with job := some 5 })]
theorem wit_merge_step : ∀ k < 4, StepNext k (mergeState (mergeC k) []) 5 (mergeC k) := by
  intro k hk
  match k, hk with
  | 0, _ => exact ⟨by unfold TirNext; decide +kernel, by decide +kernel, by decide +kernel, by decide +kernel, by decide +kernel, by decide +kernel,
      by decide +kernel, indexA, by decide +kernel, by decide +kernel⟩
  | 1, _ => exact ⟨by unfold TirNext; decide +kernel, by decide +kernel, by decide +kernel, by decide +kernel, by decide +kernel, by decide +kernel,
      by decide +kernel, indexA, by decide +kernel, by decide +kernel⟩
  | 2, _ => exact ⟨by unfold TirNext; decide +kernel, by decide +kernel, by decide +kernel, by decide +kernel, by decide +kernel, by decide +kernel,
      by decide +kernel, indexA, by decide +kernel, by decide +kernel⟩
  | 3, _ => exact ⟨by unfold TirNext; decide +kernel, by decide +kernel, by decide +kernel, by decide +kernel, by decide +kernel, by decide +kernel,
      by decide +kernel, indexA, by decide +kernel, by decide +kernel⟩
theorem wit_merge_expects : ∀ k, 1 ≤ k → k < 4 → Expects k (mergeState (mergeC k) (recA { next := k })) (mergeC k) { next := k, job := some 5 } := by
  unfold Expects
  intro k h1 hk
  match k, h1, hk with
  | 1, _, _ => decide +kernel
  | 2, _, _ => decide +kernel
  | 3, _, _ => decide +kernel
theorem wit_merge_choose : TirNext 0x17 (mergeState chooseC []) 5 chooseC ∧ mChoose chooseC = true ∧
    ((mergeState chooseC [(listKey 2 0, {})]).tir.merges.filter fun p => p.1 / 2 ^ 24 == 2 && p.2.job.isNone && !p.2.hotset).head? = some (listKey 2 0, {}) ∧
    listDue indexA (listRoot (mergeState chooseC []) 2 0) = false ∧
    mergeOf (mergeState chooseC []) (listKey 2 0) = none := by unfold TirNext; decide +kernel
theorem wit_merge_fold : (let s := mergeState (mergeC 1) (recA {}); let f := foldPlan s (idx s 2) (listRoot s 2 0) 0
    f.total = 0 ∧ allSome (f.inserts.map (hazeMEnt s (idx s 2))) = some [] ∧
    allSome (f.rewrite.map fun p => allSome (p.2.map (segEnt s (idx s 2) p.1 (hotOrds s 1 p.1)))) = some [] ∧
    (buildChain 2 0 (([] : List (List MEnt)).zipIdx.map fun p => (p.2, p.1)) 0 s).isSome = true) := by decide +kernel
theorem wit_merge_fold_more (h : HEnt) : (⟨[], List.replicate 65537 h, []⟩ : FoldPlan).total = 65537 := by
  simp only [FoldPlan.total, List.length_replicate, List.map_nil, List.foldl_nil]
theorem test_merge_open : (after (.mergeOpen 5) (mergeState (mergeC 0) [])).tir.merges.map (fun p => (p.1, p.2.next, p.2.job)) = [(2 * 2 ^ 24, 1, some 5)] := by
  decide +kernel
theorem test_merge_fold : (after (.mergeFold 5) (mergeState (mergeC 1) (recA {}))).tir.merges.map (fun p => (p.2.foldDone, p.2.next)) = [(true, 2)] := by
  decide +kernel
theorem test_merge_swap : (after (.mergeSwap 5) (mergeState (mergeC 2) (recA { next := 2 }))).tir.merges.map (fun p => (p.2.scheduled, p.2.next, p.2.cmds))
    = [(true, 3, [7])] := by decide +kernel
theorem test_merge_close : (after (.mergeClose 5) (mergeState (mergeC 3) (recA { next := 3, swapped := true }))).tir.merges.length = 0 := by decide +kernel
theorem test_merge_order : ∀ i ∈ [(Instr.mergeFold 5, 1), (Instr.mergeSwap 5, 2), (Instr.mergeClose 5, 3)],
    (cmdsOf (after i.1 (mergeState (mergeC i.2) [])) 14 5).map (fun c => (c.status, c.reason)) = [(0x0B, 0x2A)] := by decide +kernel

/-- A merge whose swap is scheduled, with room for the old root entry at the start of the index area, which has a frame. -/
def indexF : Index := { indexA with used := [(64, areaFlash - 64)] }
def swapState : State :=
  let s := tirState indexF (mergeC 2) [] []
  { s with
    mem := { s.mem with stk := [] }
    tir := { s.tir with pages := tins s.tir.pages (pageKey 1 (areaBase 2)) { frame := some 3, present := BitVec.allOnes 16, home := 1 } } }
theorem one_place (c : Nat) : findSpace indexF false 64 64 c = some 0 := by
  simp only [findSpace, Bool.false_eq_true, if_false]
  split
  · rename_i h
    simp only [Bool.and_eq_true, Bool.not_eq_true', decide_eq_true_eq, meets, indexF, List.any_cons, List.any_nil,
      Bool.or_false, areaFlash, Bool.and_eq_false_imp, decide_eq_false_iff_not, beq_iff_eq] at h ⊢
    obtain ⟨⟨⟨h1, h2⟩, h3⟩, h4⟩ := h
    congr 1
    by_cases e : c % 2 ^ 47 = 0
    · exact e
    · have h5 := of_decide_eq_true h2
      exact absurd (h4 (by omega)) (by omega)
  · decide +kernel
theorem wit_swap : (performSwap swapState (listKey 2 0) { cut := 4 } 9).isSome = true := by
  have h : swapHaze swapState 2 0 4 (listRoot swapState 2 0) = some (0, 0, swapState) := by decide +kernel
  have a : (areaAlloc swapState 2 false 64 64).isSome = true := by
    have e : idx swapState 2 = indexF := by decide +kernel
    unfold areaAlloc; rw [e]; simp only [one_place]; decide +kernel
  have k : listKey 2 0 / 2 ^ 24 = 2 ∧ listKey 2 0 % 2 ^ 24 = 0 := by decide
  simp only [performSwap, k.1, k.2, h, Bool.false_eq_true, if_false, Option.isSome_map, a]

/-! ### Updraft, park, migration -/

def updC : Cmd := tirC 0x16 (desc 0 (1 + 1 * 2 ^ 32) 0 0)
def updBadC : Cmd := tirC 0x16 (desc 0 (1 + 4 * 2 ^ 32) 0 0)
theorem wit_updraft_page : TirNext 0x16 (tirState indexA updC [] []) 5 updC ∧ pagesIn (tirState indexA updC [] []) 1 0 65536 = true ∧
    TirNext 0x16 (tirState indexA updBadC [] []) 5 updBadC ∧ laneBits updBadC.tok.desc 1 32 4 = 4 ∧ laneBits updC.tok.desc 1 32 4 = 1 := by
  unfold TirNext; decide +kernel
/-- R389: the page is in stack already: nothing moves, and the command ends with a count of zero. -/
theorem test_updraft_page : (cmdsOf (after (.updraftPage 5) (tirState indexA updC [] [])) 14 5).map (fun c => (c.phase, c.status, c.count, c.spec))
    = [(.finishing, 0, 0, 0)] ∧ (cmdsOf (after (.updraftPage 5) (tirState indexA updBadC [] [])) 14 5).map (·.status) = [0x0B] := by decide +kernel

/-- A move of the page of domain 1 to a tier, in regions of each class. -/
def moveTo (t : Nat) : PageMove := { cmd := 7, page := pageKey 1 0, target := t }
def regionState (r : Region) (p : Page) : State :=
  let s := tirState indexA updC [] []
  { s with tir := { s.tir with regions := [(1, { r with dom := 1, base := 0, len := 65536 })], pages := [(pageKey 1 0, p)] } }
theorem wit_move_page : (∀ r : Region, pageRegion (regionState r {}) (pageKey 1 0) = some (1, { r with dom := 1, base := 0, len := 65536 })) ∧
    tsorted (regionState {} {}).tir.pages = true ∧ (pageOf (regionState {} {}) (pageKey 1 0)).mig = none ∧
    flashGone (regionState {} {}) = false ∧ flashGone (fset {} F.PRB_OVC_STAT_CAUSE 1) = true ∧ (0 : BitVec 16) ≠ BitVec.allOnes 16 :=
  ⟨fun _ => rfl, by decide +kernel⟩
/-- R386: a single-home page begins to migrate. -/
theorem test_move_page : (pageOf (movePage (regionState { cls := 1, home := 1 } { home := 1, frame := some 0 }) (moveTo 2)) (pageKey 1 0)).mig.map
    (fun m => (m.target, m.cmd, m.passes)) = some (2, 7, 0) := by decide +kernel

def hotC : Cmd := tirC 0x16 (desc (2 ^ 56) (2 * 2 ^ 24) 0 0)
def indexH : Index := { indexA with flags := 2 }
theorem wit_updraft_hotset : TirNext 0x16 (tirState indexH hotC [] []) 5 hotC ∧ indexOf (tirState indexH hotC [] []) 1 2 = some indexH ∧
    bitAt indexH.flags 1 = true ∧ bitAt indexA.flags 1 = false ∧ operand (tirState indexH hotC [] []) 1 0 0 = .ok [] ∧
    chainFrom (tirState indexH hotC [] []) 1 65536 (listRoot (tirState indexH hotC [] []) 2 0).head = [] ∧
    (hotChain 2 [] [] (tirState indexH hotC [] [])).isSome = true ∧ mergeOf (mergeState (mergeC 1) (recA {})) (listKey 2 0) ≠ none := by
  unfold TirNext; decide +kernel
theorem test_updraft_hotset : (after (.updraftHotset 5) (tirState indexH hotC [] [])).tir.merges.map (fun p => (p.1, p.2.hotset, p.2.scheduled, p.2.cmds))
    = [(listKey 2 0, true, true, [7])] := by decide +kernel

/-- A session block at 512 that names the region at 0, which stands in a park state. -/
def parkC (op : Byte) : Cmd := tirC op (desc 512 0 0 0)
def sessBlock : List Byte := padTo 64 (bytesOf 4 1 ++ [1]) ++ bytesOf 8 0
def parkState (op : Byte) (p : ParkState) : State :=
  let s := tirState indexA (parkC op) [] sessBlock
  { s with tir := { s.tir with
    regions := [(1, { dom := 1, cls := 1, home := 1, base := 0, len := 65536 }), (2, { dom := 1, cls := 1, home := 2, base := 131072, len := 65536, park := p })] } }
theorem wit_park : (let s := parkState 0x14 .active
    TirNext 0x14 s 5 (parkC 0x14) ∧ operand s 1 512 64 = .ok (sessBlock.take 64) ∧ operand s 1 576 8 = .ok (bytesOf 8 0) ∧
    (sessionRegions s 1 (sessBlock.take 64) (bytesOf 8 131072)).map (fun l => l.map fun p => (p.1, p.2.park)) = some [(2, .active)] ∧
    sessionRegions s 1 (sessBlock.take 64) (bytesOf 8 65536) = none ∧ flashGone s = false) ∧
    TirNext 0x15 (parkState 0x15 .parked) 5 (parkC 0x15) ∧
    (sessionRegions (parkState 0x15 .parked) 1 (sessBlock.take 64) (bytesOf 8 131072)).map (fun l => l.map fun p => (p.1, p.2.park)) = some [(2, .parked)] := by
  unfold TirNext; decide +kernel
theorem test_park : ((after (.park 5) (parkState 0x14 .active)).tir.regions.map fun p => (p.1, p.2.park)) = [(1, .parking), (2, .active)] := by decide +kernel

/-- A page that migrates. -/
def migState (m : Mig) (home : Nat) : State := regionState { cls := 1, home := 1 } { home := home, frame := some 0, mig := some m }
def migA : Mig := { target := 3, hostAddr := 65536, cmd := 9 }
theorem wit_migration : (∀ i < 64, homeBad (migState migA 3) (pageKey 1 0) i = false) ∧
    (∃ i < 64, homeBad { migState migA 1 with mem := { (migState migA 1).mem with badStk := [256] } } (pageKey 1 0) i = true) ∧
    (pageOf (migState migA 3) (pageKey 1 0)).mig = some migA ∧ (0 : BitVec 64).getLsbD 3 = false ∧
    popcount (BitVec.allOnes 64).toNat 64 = 64 ∧ popcount (0 : BitVec 64).toNat 64 = 0 := by decide +kernel
theorem wit_flip : (writeHome (migState { migA with final := true } 1) (pageKey 1 0) { migA with final := true } (homeBytes (migState { migA with final := true } 1)
    (pageKey 1 0))).isSome = true ∧ writeHome {} 0 { target := 1 } [] = none := by decide +kernel
def migOf (s : State) : Option (Nat × Bool × Bool) := (pageOf s (pageKey 1 0)).mig.map fun m => (m.passes, m.final, m.flipped)
theorem test_migration_pass : migOf (after (.migrationPassEnd (pageKey 1 0)) (migState migA 3)) = some (1, false, false) ∧
    migOf (after (.migrationPassEnd (pageKey 1 0)) (migState { migA with passes := 1 } 3)) = some (2, true, false) ∧
    migOf (after (.migrationPassEnd (pageKey 1 0)) { migState migA 1 with mem := { (migState migA 1).mem with badStk := [256] } }) = none := by decide +kernel
theorem test_migration_flip : (let t := after (.migrationFlip (pageKey 1 0)) (migState { migA with final := true } 1)
    ((pageOf t (pageKey 1 0)).home, (pageOf t (pageKey 1 0)).frame, migOf t)) = (3, none, some (0, true, true)) := by decide +kernel
theorem test_migration_drain : migOf (after (.migrationDrain (pageKey 1 0)) (migState { migA with flipped := true, old := some 0 } 3)) = none := by decide +kernel

/-! ### Index and region commands -/

theorem wit_index_write : ∀ op, 1 ≤ op → op ≤ 4 → (BitVec.extractLsb' 20 4 (BitVec.ofNat 32 (op * 2 ^ 20))).toNat = op := by
  intro op h1 h2; match op, h1, h2 with | 1, _, _ => rfl | 2, _, _ => rfl | 3, _, _ => rfl | 4, _, _ => rfl
theorem wit_index_busy : Awake (tirState indexA updC [] []) ∧ fget (tirState indexA updC [] []) F.TIR_IDX_STAT_BUSY = 0 ∧
    ownIndex (tirState indexA updC [] []) 1 2 = true ∧ indexBusy (tirState indexA updC [] []) 2 = false ∧
    ownIndex (tirState indexA updC [] []) 1 3 = false := by unfold Awake; decide +kernel
def idxCmdState (op : Nat) (args : List Nat) : State :=
  let s := tirState indexA updC [] []
  { s with tir := { s.tir with idxCmd := some { op := op, arg := 2, args := args } } }
theorem wit_index_effect : indexEffect { op := 2, arg := 3, args := [1, 0, 0] } (tirState indexA updC [] []) = none ∧
    (indexEffect { op := 2, arg := 2, args := [1, 0, 1] } (tirState indexA updC [] [])).isSome = true ∧
    domActive (tirState indexA updC [] []) 1 = true ∧ domActive (tirState indexA updC [] []) 2 = false ∧
    tsorted (tirState indexA updC [] []).tir.indexes = true := by decide +kernel
/-- A well-formed descriptor of index 3 at address 0: one list, dimension 32, replica slot 0 node 7, directory in the last 4 KiB of the page. -/
def indexDesc : List Byte :=
  padTo 80 (bytesOf 4 1 ++ [3, 0, 0, 0] ++ bytesOf 2 32 ++ [0, 1, 1, 0] ++ bytesOf 2 0 ++ bytesOf 4 1 ++ bytesOf 4 0 ++ bytesOf 8 4096 ++ bytesOf 8 8192
    ++ bytesOf 8 61440) ++ padTo 48 (bytesOf 2 (2 ^ 15 + 7))
theorem wit_index_install : (installIndex (fset (fset (ranged (awake {}) indexDesc) F.FAB_NODE_VALID 1) F.FAB_NODE_NODE 7) 1 3 0).isSome = true := by
  decide +kernel
theorem test_index_remove : (let t := after .indexCommandComplete (idxCmdState 2 [1, 0, 1]); (t.tir.indexes.length, fget t F.TIR_IDX_STAT_STATUS)) = (0, 0) ∧
    (let t := after .indexCommandComplete (idxCmdState 1 [1, 0, 0]); (t.tir.indexes.length, fget t F.TIR_IDX_STAT_STATUS)) = (1, 0x0B) := by decide +kernel
theorem test_override : (after .indexCommandComplete (idxCmdState 3 [1, 0, 0])).tir.indexes.map (fun p => (p.2.ovrCmd, p.2.ovrNext)) = [(true, some true)] := by
  decide +kernel

theorem wit_region_write : ∀ op, 1 ≤ op → op ≤ 5 → (BitVec.extractLsb' 12 4 (BitVec.ofNat 32 (op * 2 ^ 12))).toNat = op := by
  intro op h1 h2; match op, h1, h2 with | 1, _, _ => rfl | 2, _, _ => rfl | 3, _, _ => rfl | 4, _, _ => rfl | 5, _, _ => rfl
/-- A descriptor of a write-back region without backing, of one page at 131,072; and one of the page at 0. -/
def regDesc (cls bk home : Byte) (base : Nat) : List Byte := padTo 64 (bytesOf 4 1 ++ [cls, bk, home, 0] ++ bytesOf 8 base ++ bytesOf 8 65536)
def rgnState (op id : Nat) (d : List Byte) : State :=
  let s := ranged (awake {}) d
  { s with tir := { s.tir with rgnCmd := some { op := op, arg := 1, args := [0, 0, id] }, nextRegion := 2 } }
theorem wit_region_checks : regionChecks (rgnState 2 1 (regDesc 1 0 1 0)) 2 1 (some (regDesc 1 0 1 0)) = (0, 0, 1) ∧
    regionChecks (rgnState 1 0 (regDesc 1 0 2 131072)) 1 1 (some (regDesc 1 0 2 131072)) = (0, 0, 0) ∧
    (∀ op, 3 ≤ op → op ≤ 5 → regionChecks (rgnState 3 0 (regDesc 1 0 1 0)) op 1 (some (regDesc 1 0 1 0)) = (0, 0, 0)) ∧
    regionChecks (rgnState 3 0 (regDesc 1 0 1 131072)) 3 1 (some (regDesc 1 0 1 131072)) = (0x0B, 0x90, 0) ∧
    readDesc (rgnState 3 0 (regDesc 1 0 1 0)) 1 0 64 false false = some (regDesc 1 0 1 0) := by
  refine ⟨by decide +kernel, by decide +kernel, ?_, by decide +kernel, by decide +kernel⟩
  intro op h1 h2; match op, h1, h2 with | 3, _, _ => decide +kernel | 4, _, _ => decide +kernel | 5, _, _ => decide +kernel
theorem wit_region_create : (let s := rgnState 1 0 (regDesc 1 0 2 131072)
    (parseRegion 1 (regDesc 1 0 2 131072)).map (fun r => (needsFrames r, (homePages r (regionPages r) s).isSome)) = some (false, true) ∧
    (parseRegion 1 (bytesOf 4 1 ++ List.replicate 4 0 ++ bytesOf 8 131072 ++ bytesOf 8 (2 ^ 43) ++ List.replicate 40 0)).map (fun r => (needsFrames r, decide (poolFrames s 1 < r.len / 65536))) = some (true, true) ∧
    parseRegion 1 (regDesc 3 0 0 131072) = none ∧ (∃ p ∈ s.tir.regions, p.2.dom = 1 ∧ crosses p.2.base p.2.len 0 65536 = true)) := by decide +kernel
theorem test_region_create : (let t := after (.regionCommandComplete false) (rgnState 1 0 (regDesc 1 0 2 131072))
    (t.tir.regions.map (fun p => (p.1, p.2.base, p.2.home)), fget t F.TIR_RGN_STAT_STATUS, (pageOf t (pageKey 1 131072)).home))
    = ([(1, 0, 1), (2, 131072, 2)], 0, 2) := by decide +kernel
theorem test_region_overlap : (let t := after (.regionCommandComplete false) (rgnState 1 0 (regDesc 1 0 2 0))
    (t.tir.regions.length, fget t F.TIR_RGN_STAT_STATUS, fget t F.TIR_RGN_STAT_REASON)) = (1, 0x0B, 0x90) := by decide +kernel
theorem test_region_remove : (after (.regionCommandComplete false) (rgnState 2 1 (regDesc 1 0 1 0))).tir.regions.length = 0 := by decide +kernel

/-! ### The end of an engine command -/

def endedC : Cmd := { cmdA .sel 3 0 (desc 0 0 0 0) with phase := .finishing }
def resultC : Cmd := { cmdA .sel 3 0 (desc 0 0 0 512) with phase := .finishing, count := 6 }
theorem wit_complete : (cmdsOf (atEngine 4 3 endedC []) 4 3).find? (fun c => c.phase == .finishing && !candsWait (atEngine 4 3 endedC []) c.id) = some endedC ∧
    hasResult endedC.tok.desc = false ∧ hasResult resultC.tok.desc = true ∧
    (match uWrite (atEngine 4 3 resultC []) 1 512 (resWord 0 0 6 0) with | .ok _ => true | _ => false) = true := by decide +kernel
theorem test_complete : (let t := after (.engineCommandComplete 4 3) (atEngine 4 3 resultC [])
    ((cmdsOf t 4 3).length, stkBytes t 512 8)) = (0, resWord 0 0 6 0) := by decide +kernel
def rankEnd : State :=
  { ranged (awake (onSeq (jobA {}))) [] with stk := { ranks := [(9, { tok := { job := 5, dom := 1, desc := desc 0 0 0 512 }, started := true })] } }
theorem wit_complete_rank : (rankEnd.stk.ranks.find? (fun p => p.2.stack == 0 && p.2.started && p.2.left == [] && !candsWait rankEnd p.1)).isSome = true ∧
    (∃ j, jobOf rankEnd 5 = some j) ∧ hasResult (desc 0 0 0 512) = true ∧ resAddr (desc 0 0 0 512) = 512 ∧
    (match uWrite rankEnd 1 512 (resWord 0 0 0 0) with | .ok _ => true | _ => false) = true :=
  ⟨by decide +kernel, ⟨_, rfl⟩, by decide +kernel⟩

/-! ### The machine -/

/-- The state after power-on is sound, and a step from it leads on. -/
theorem wit_sound : Sound State.reset := by
  refine ⟨?_, ?_, ?_, ?_, ?_, ?_, ?_⟩ <;> first | decide | (simp [State.reset, Mem.Wf, RegsWf, Memory.wf, tsorted, tcanon])
theorem wit_waiting : State.reset.hiu.waiting = [] := rfl
theorem wit_step : step State.reset = .next (tick State.reset) := rfl
theorem test_front : step { awake {} with pending := [.groupCommit 0, .jobPlacement] } = exec (.groupCommit 0) { awake {} with pending := [.jobPlacement] } := by simp only [step]
theorem test_idle : (tick State.reset).now = 1 := rfl
theorem wit_memory : Memory.wf [(2, 7#8), (3, 1#8)] ∧ cellsRead (cellsWrite [(2, 7#8), (3, 1#8)] 3 [0, 5]) 2 3 = [7, 0, 5] ∧
    cellsWrite [(2, 7#8), (3, 1#8)] 3 [0, 5] = [(2, 7#8), (4, 5#8)] := by decide
theorem wit_stacks : stackOf 65536 ∉ State.reset.flt.stacksOut ∧ stackOf 65536 ∈ ({ flt := { stacksOut := [0] } } : State).flt.stacksOut := by decide
theorem test_no_bits : decodeTableWord 32 5 = none := rfl

end Sys2Proof.Tests
end

/-! # Fences, views of arrival counters, and pulses (R88 to R90, R140, R141, R465) -/

namespace Sys2Proof.Sync

open Sys2Proof Sys2Proof.Machine Sys2Proof.Claims Sys2Proof.Laws

/-! ### What storing a job leaves as it is -/

@[simp] theorem fenceDone_setJob (s : State) (tag u : Nat) (j : Job) (node : Option Nat) :
    fenceDone (setJob s tag j) u node = fenceDone s u node := rfl
@[simp] theorem timeoutAt_setJob (s : State) (tag : Nat) (j : Job) (f : Spx) :
    timeoutAt (setJob s tag j) f = if f.x then some (s.now + f.ext.toNat) else none := rfl

/-! ### Paying the steps, and retiring -/

@[simp] theorem paid_ctx (f : Spx) (n : Nat) (j : Job) : (paid f n j).ctx = j.ctx := rfl
@[simp] theorem paid_fence (f : Spx) (n : Nat) (j : Job) : (paid f n j).fence = j.fence := rfl

theorem ofNat_ilen (f : Spx) : BitVec.ofNat 64 (ilen f) = if f.x then 16 else 8 := by
  unfold ilen; split <;> rfl

/-- An instruction that retires leaves the context of `g`, its pc past the words of the instruction. -/
theorem retire_setJob (f : Spx) (s : State) (tag : Nat) (j0 j : Job) (g : Ctx → Ctx) :
    retire f (setJob s tag j0) tag j g
      = setJob s tag { j with ctx := { g j.ctx with pc := (g j.ctx).pc + (if f.x then 16 else 8) } } := by
  simp only [retire, setJob_setJob, stepPc, ofNat_ilen]

/-- An instruction of `n` steps whose body retires it with the context of `g`. -/
theorem retire_paid (f : Spx) (n : Nat) (s : State) (tag : Nat) (j : Job) (g : Ctx → Ctx) :
    retire f (setJob s tag (paid f n j)) tag (paid f n j) g = setJob s tag (retired f n (g j.ctx) j) :=
  retire_setJob f s tag _ _ g

/-- Retiring with CF given changes CF and the pc, and no other part of the context (R112). -/
theorem retireCF_setJob (f : Spx) (s : State) (tag : Nat) (j0 j : Job) (cf : Bool) :
    retireCF f (setJob s tag j0) tag j cf = setJob s tag
      { j with ctx := { j.ctx with pc := j.ctx.pc + (if f.x then 16 else 8), flags := flagCF j.ctx.flags cf } } := by
  rw [retireCF, retire_setJob]
  simp only [setCF_eq]

/-! ### FENCE -/

/-- A fence is not done while some operation of the job goes to a node in its scope (R140). -/
theorem fenceDone_eq_false_iff (s : State) (tag : Nat) (node : Option Nat) :
    fenceDone s tag node = false ↔
      ∃ p ∈ s.fab.ops, p.2.kind = 0 ∧ p.2.job = tag ∧ ∀ n, node = some n → p.2.pkt.dst.toNat = n := by
  cases node <;> simp [fenceDone, and_assoc]

/-- A fence is done once every operation of the job that is left goes to a node outside its scope (R140). -/
theorem fenceDone_eq_true_iff (s : State) (tag : Nat) (node : Option Nat) :
    fenceDone s tag node = true ↔
      ∀ p ∈ s.fab.ops, p.2.kind = 0 → p.2.job = tag → ∃ n, node = some n ∧ p.2.pkt.dst.toNat ≠ n := by
  rw [← Bool.not_eq_false, fenceDone_eq_false_iff]
  simp only [not_exists, not_and, not_forall, exists_prop, ne_eq]

/-- The scope of a FENCE as the words of the instruction give it (R140). -/
theorem fenceScope_eq (f : Spx) (c : Ctx) :
    (if fnN f = 1 then some ((gReg c f.b).toNat % 4096) else none)
      = if f.fn = 1 then some ((gReg c f.b).extractLsb' 0 12).toNat else none := by
  have hfn : fnN f = 1 ↔ f.fn = 1 := BitVec.toNat_inj (y := 1#8)
  simp [hfn]

/-- The clause of FENCE: the body runs on the job of the next epoch, and its two branches are the two halves. -/
theorem fenceWaitsForItsOperations : FenceWaitsForItsOperations := by
  intro q f s tag j node j1 hb hnode hj1
  have hrun : exec (.fence q f) s = .next (if fenceDone s tag node then retireCF f (setJob s tag j1) tag j1 false
      else waitJob (setJob s tag j1) tag (.fence j1.fence node)
        (if f.x then some (s.now + f.ext.toNat) else none) (if f.x then 16 else 8)) := by
    subst hnode hj1
    simp only [exec, execFence, spx_begins hb, fenceBody, fenceScope_eq, setJob_setJob, fenceDone_setJob,
      timeoutAt_setJob, paid_ctx, paid_fence, ilen]
  constructor
  · intro hacked
    rw [hrun, if_pos ((fenceDone_eq_true_iff s tag node).2 hacked), retireCF_setJob]
    subst hj1; rfl
  · intro hopen
    rw [hrun, (fenceDone_eq_false_iff s tag node).2 hopen, if_neg Bool.false_ne_true]

/-! ### Views (R76, R88, R90) -/

theorem viewIdx_eq (w : W64) : viewIdx w = (w.extractLsb' 0 12).toNat := by simp [viewIdx, bitsOf]

theorem viewBase_eq (w : W64) : viewBase w = (w.extractLsb' 28 32).toNat := by
  simp [viewBase, bitsOf, Nat.shiftRight_eq_div_pow]

/-- A concatenation as a number: its high part stands above its low part. -/
theorem toNat_append_eq_add {v w : Nat} (x : BitVec v) (y : BitVec w) : (x ++ y).toNat = x.toNat * 2 ^ w + y.toNat := by
  rw [BitVec.toNat_append, ← Nat.shiftLeft_add_eq_or_of_lt y.isLt, Nat.shiftLeft_eq]

/-- The word of a bound view is the concatenation of its fields. -/
theorem viewWord_eq_append (i : BitVec 12) (gen : BitVec 16) (base : W32) :
    viewWord i.toNat gen.toNat base.toNat = 1#1 ++ (0#3 ++ (base ++ (gen ++ i))) := by
  apply BitVec.eq_of_toNat_eq
  simp only [viewWord, BitVec.toNat_ofNat, toNat_append_eq_add]
  omega

/-- The model's distance of a view is that of R90. -/
theorem viewDiff_eq (s : State) (w : W64) : viewDiff s w = (viewAhead s w).toNat := by
  simp only [viewDiff, viewAhead, viewBase_eq, BitVec.toNat_sub]
  have := (w.extractLsb' 28 32).isLt
  congr 1
  omega

theorem seeView_unbound {w : W64} (h : w.getLsbD 63 = false) (s : State) (n : Nat) : seeView s w n = .unbound := by
  simp only [seeView, viewBound, h, Bool.not_false, if_true]

/-- A bound view is tested for overrun first (R90). -/
theorem seeView_overrun {s : State} {w : W64} (hb : w.getLsbD 63 = true) (h : 2 ^ 31 ≤ (viewAhead s w).toNat) (n : Nat) :
    seeView s w n = .overrun := by
  simp only [seeView, viewBound, hb, Bool.not_true, Bool.false_eq_true, if_false, viewDiff_eq, ge_iff_le, h, if_true]

/-- A bound view that has not overrun satisfies a count that its counter has reached (R90). -/
theorem seeView_yes {s : State} {w : W64} {n : Nat} (hb : w.getLsbD 63 = true) (h : (viewAhead s w).toNat < 2 ^ 31)
    (hn : n ≤ (viewAhead s w).toNat) : seeView s w n = .yes := by
  simp only [seeView, viewBound, hb, Bool.not_true, Bool.false_eq_true, if_false, viewDiff_eq, ge_iff_le, Nat.not_le.2 h, hn,
    if_true]

/-! ### VIEW and ARD -/

/-- The binding form runs `viewBind` with the steps counted (R141). -/
theorem exec_viewBind {q : BitVec 7} {f : Spx} {s : State} {tag : Nat} {j : Job} (hb : Begins 0xC2 q f s tag j)
    (hfn : f.fn.getLsbD 0 = false) :
    exec (.viewBind q f) s = .next (viewBind f (setJob s tag (paid f 4 j)) tag (paid f 4 j)) := by
  simp only [exec, execViewBind, hfn, Bool.false_eq_true, if_false, spx_begins hb]

/-- The unbinding form writes zero to the view (R141). -/
theorem exec_viewUnbind {q : BitVec 7} {f : Spx} {s : State} {tag : Nat} {j : Job} (hb : Begins 0xC2 q f s tag j)
    (hfn : f.fn.getLsbD 0 = true) : exec (.viewUnbind q f) s =
      .next (setJob s tag (retired f 4 { j.ctx with a := tput 0 j.ctx.a f.a.toNat 0 } j)) := by
  simp only [exec, execViewUnbind, hfn, if_true, spx_begins hb, retire_paid, setA]

/-- ARD runs `ardBody` with the steps counted (R141). -/
theorem exec_ard {q : BitVec 7} {f : Spx} {s : State} {tag : Nat} {j : Job} (hb : Begins 0xC3 q f s tag j) :
    exec (.ard q f) s = .next (ardBody f (setJob s tag (paid f 2 j)) tag (paid f 2 j)) := by
  simp only [exec, execArd, spx_begins hb]

section bodies
variable {f : Spx} {s : State} {tag : Nat} {j : Job} {i : BitVec 12}

/-- A counter the job holds is bound, with its generation, and its value as base (R88). -/
theorem viewBind_held (hi : i = (gReg j.ctx f.b).extractLsb' 0 12) (h : holdsCtr s tag i.toNat = true) :
    viewBind f s tag j = retire f s tag j fun c =>
      setA c f.a.toNat (1#1 ++ (0#3 ++ ((ctrOf s i.toNat).val ++ ((ctrOf s i.toNat).gen ++ i)))) := by
  have hidx : (gReg j.ctx f.b).toNat % 4096 = i.toNat := by simp [hi]
  simp only [viewBind, hidx, h, if_true, viewWord_eq_append]

/-- Binding a counter that the job does not hold is refused (R65, R88). -/
theorem viewBind_refused (hi : i = (gReg j.ctx f.b).extractLsb' 0 12) (h : holdsCtr s tag i.toNat = false) :
    viewBind f s tag j = violation s tag 13 i.toNat := by
  have hidx : (gReg j.ctx f.b).toNat % 4096 = i.toNat := by simp [hi]
  simp only [viewBind, hidx, h, Bool.false_eq_true, if_false]

theorem ardBody_unbound (h : (aReg j.ctx f.b.toNat).getLsbD 63 = false) :
    ardBody f s tag j = violation s tag 13 (viewIdx (aReg j.ctx f.b.toNat)) := by
  simp only [ardBody, seeView_unbound h]

theorem ardBody_overrun (hb : (aReg j.ctx f.b.toNat).getLsbD 63 = true)
    (h : 2 ^ 31 ≤ (viewAhead s (aReg j.ctx f.b.toNat)).toNat) : ardBody f s tag j = abortJob s tag := by
  simp only [ardBody, seeView_overrun hb h]

theorem ardBody_reads (hb : (aReg j.ctx f.b.toNat).getLsbD 63 = true)
    (h : (viewAhead s (aReg j.ctx f.b.toNat)).toNat < 2 ^ 31) :
    ardBody f s tag j = retire f s tag j fun c => setG c f.a ((viewAhead s (aReg j.ctx f.b.toNat)).setWidth 64) := by
  simp only [ardBody, seeView_yes hb h (Nat.zero_le _), viewDiff_eq, BitVec.ofNat_toNat]

end bodies

/-- The clause of VIEW and ARD. Counters, their owners and the grants are not among what storing a job writes, so what is known of
them in `s` holds as it stands in `setJob s tag (paid f n j)`. -/
theorem viewAndCounterRead : ViewAndCounterRead := by
  refine ⟨fun q f s tag j i hb hfn hi => ⟨fun hheld => ?_, fun hnot => ?_⟩, fun q f s tag j hb hfn => exec_viewUnbind hb hfn, ?_, ?_⟩
  · rw [exec_viewBind hb hfn, viewBind_held (s := setJob s tag (paid f 4 j)) (j := paid f 4 j) hi hheld, retire_paid]
    rfl
  · rw [exec_viewBind hb hfn, viewBind_refused (s := setJob s tag (paid f 4 j)) (j := paid f 4 j) hi hnot]
  · rintro q f s tag j w hb rfl hun
    rw [exec_ard hb, ardBody_unbound (j := paid f 2 j) hun, viewIdx_eq, paid_ctx]
  · rintro q f s tag j w hb rfl hbound
    refine ⟨fun hlt => ?_, fun hover => ?_⟩
    · rw [exec_ard hb, ardBody_reads (s := setJob s tag (paid f 2 j)) (j := paid f 2 j) hbound hlt, retire_paid]
      rfl
    · rw [exec_ard hb, ardBody_overrun (s := setJob s tag (paid f 2 j)) (j := paid f 2 j) hbound hover]

/-! ### Pulses (R89) -/

/-- A pulse of the counter's generation, to an owned counter, adds its increment (R89). -/
theorem pulseCtr_owned {s : State} {i : Nat} {gen : BitVec 16} (ho : ownerOf s 13 i ≠ .free) (hg : (ctrOf s i).gen = gen) (inc : Nat) :
    pulseCtr s i gen inc = setCtr s i { ctrOf s i with val := (ctrOf s i).val + BitVec.ofNat 32 inc } := by
  simp [pulseCtr, ho, hg]

/-- A pulse to a free counter, or of another generation, counts in `SEQ_STALE_PULSE` alone (R89, R105). -/
theorem pulseCtr_stale {s : State} {i : Nat} {gen : BitVec 16} (h : ownerOf s 13 i = .free ∨ (ctrOf s i).gen ≠ gen) (inc : Nat) :
    pulseCtr s i gen inc = fbump s F.SEQ_STALE_PULSE_V := by
  rcases h with h | h <;> simp [pulseCtr, h]

/-- The clause of PULSE: owned with its generation, or stale. -/
theorem pulseCountsOrIsStale : PulseCountsOrIsStale := by
  intro s idx gen inc
  constructor
  · intro howned hgen
    simp only [exec, execPulse, pulseCtr_owned howned hgen, BitVec.ofNat_toNat]
  · intro hstale
    simp only [exec, execPulse, pulseCtr_stale hstale]
    rfl

/-- Settles O36: each of its three clauses holds by the rule of the operation it speaks of. -/
theorem fencesViewsAndPulses : Obligations.FencesViewsAndPulses :=
  ⟨fenceWaitsForItsOperations, viewAndCounterRead, pulseCountsOrIsStale⟩

end Sys2Proof.Sync

/-! # Scalar instructions (R112, R114, R115) -/

namespace Sys2Proof.Scalar

open Sys2Proof Sys2Proof.Machine Sys2Proof.Claims Sys2Proof.Laws

/-! ### What the operations compute, as numbers

The model computes with words; the rows of R114 speak of the numbers, unsigned or signed, that the words stand for. -/

theorem add_eq_ofNat (a b : W64) : a + b = BitVec.ofNat 64 (a.toNat + b.toNat) :=
  BitVec.eq_of_toNat_eq (by rw [BitVec.toNat_add, BitVec.toNat_ofNat])

theorem sub_eq_ofInt (a b : W64) : a - b = BitVec.ofInt 64 (a.toInt - b.toInt) :=
  BitVec.eq_of_toInt_eq (by rw [BitVec.toInt_sub, BitVec.toInt_ofInt])

theorem opMul_eq (a b : W64) : opMul a b = BitVec.ofNat 64 (a.toNat * b.toNat) :=
  BitVec.eq_of_toNat_eq (by rw [opMul, BitVec.toNat_mul, BitVec.toNat_ofNat])

theorem opDivu_eq (a b : W64) :
    opDivu a b = if b = 0 then BitVec.allOnes 64 else BitVec.ofNat 64 (a.toNat / b.toNat) := by
  rw [opDivu, BitVec.udiv_def]

theorem opRemu_eq (a b : W64) :
    opRemu a b = if b = 0 then BitVec.allOnes 64 else BitVec.ofNat 64 (a.toNat % b.toNat) := by
  rw [opRemu, BitVec.umod_def]

/-- The one quotient out of range, of the least number by -1, wraps as `BitVec.ofInt` does. -/
theorem opDiv_eq (a b : W64) :
    opDiv a b = if b = 0 then BitVec.allOnes 64 else BitVec.ofInt 64 (a.toInt.tdiv b.toInt) := by
  have hquot : a.sdiv b = BitVec.ofInt 64 (a.toInt.tdiv b.toInt) :=
    BitVec.eq_of_toInt_eq (by rw [BitVec.toInt_sdiv, BitVec.toInt_ofInt])
  rw [opDiv, hquot]

theorem opRem_eq (a b : W64) :
    opRem a b = if b = 0 then BitVec.allOnes 64 else BitVec.ofInt 64 (a.toInt.tmod b.toInt) := by
  have hrem : a.srem b = BitVec.ofInt 64 (a.toInt.tmod b.toInt) := by
    rw [← BitVec.toInt_srem, BitVec.ofInt_toInt]
  rw [opRem, hrem]

theorem opShl_eq (a b : W64) : opShl a b = BitVec.ofNat 64 (a.toNat * 2 ^ (b.toNat % 64)) :=
  BitVec.eq_of_toNat_eq (by rw [opShl, BitVec.toNat_shiftLeft, Nat.shiftLeft_eq, BitVec.toNat_ofNat])

theorem opShr_eq (a b : W64) : opShr a b = BitVec.ofNat 64 (a.toNat / 2 ^ (b.toNat % 64)) := by
  rw [opShr, ← Nat.shiftRight_eq_div_pow, ← BitVec.toNat_ushiftRight, BitVec.ofNat_toNat, BitVec.setWidth_eq]

theorem opSar_eq (a b : W64) : opSar a b = BitVec.ofInt 64 (a.toInt / 2 ^ (b.toNat % 64)) := by
  rw [opSar, BitVec.sshiftRight_eq, Int.shiftRight_eq_div_pow, Nat.cast_pow, Nat.cast_ofNat]

/-- Of two equal operands a minimum or maximum is either one, so that the strict and the weak comparison choose alike. -/
theorem ite_lt_eq_ite_le {α : Type*} [LinearOrder α] {m n : α} {x y : W64} (h : m = n → x = y) :
    (if m < n then x else y) = if m ≤ n then x else y := by
  rcases lt_trichotomy m n with hlt | heq | hgt
  · rw [if_pos hlt, if_pos hlt.le]
  · rw [h heq, ite_self, ite_self]
  · rw [if_neg hgt.not_gt, if_neg hgt.not_ge]

theorem opMinu_eq (a b : W64) : opMinu a b = if a.toNat ≤ b.toNat then a else b := by
  simp only [opMinu, BitVec.ult_eq_decide, decide_eq_true_eq]
  exact ite_lt_eq_ite_le BitVec.eq_of_toNat_eq

theorem opMaxu_eq (a b : W64) : opMaxu a b = if a.toNat ≤ b.toNat then b else a := by
  simp only [opMaxu, BitVec.ult_eq_decide, decide_eq_true_eq]
  exact ite_lt_eq_ite_le fun h => (BitVec.eq_of_toNat_eq h).symm

theorem opMin_eq (a b : W64) : opMin a b = if a.toInt ≤ b.toInt then a else b := by
  simp only [opMin, BitVec.slt_eq_decide, decide_eq_true_eq]
  exact ite_lt_eq_ite_le BitVec.eq_of_toInt_eq

theorem opMax_eq (a b : W64) : opMax a b = if a.toInt ≤ b.toInt then b else a := by
  simp only [opMax, BitVec.slt_eq_decide, decide_eq_true_eq]
  exact ite_lt_eq_ite_le fun h => (BitVec.eq_of_toInt_eq h).symm

/-! ### Bit counts -/

theorem popCount_eq (a : W64) : popCount a = BitVec.ofNat 64 ((List.range 64).countP fun i => a.getLsbD i) := by
  rw [popCount, List.countP_eq_length_filter]

/-- The bits of a number below `2 ^ n`, looked at from bit `n - 1` down: the zeros ahead of the first one bit, which is bit `log2`. -/
theorem length_takeWhile_zeros (x n : Nat) (hx : x < 2 ^ n) :
    ((List.range n).reverse.takeWhile fun i => !x.testBit i).length = if x = 0 then n else n - 1 - x.log2 := by
  induction n with
  | zero => simp
  | succ n ih =>
    have hdown : (List.range (n + 1)).reverse = n :: (List.range n).reverse := by simp [List.range_succ]
    rw [hdown]
    by_cases hlow : x < 2 ^ n
    · have hlog : x ≠ 0 → x.log2 < n := fun h0 => (Nat.log2_lt h0).2 hlow
      rw [List.takeWhile_cons_of_pos (by simp [Nat.testBit_lt_two_pow hlow]), List.length_cons, ih hlow]
      split <;> omega
    · have htop : x.testBit n = true := Nat.testBit_of_two_pow_le_and_two_pow_add_one_gt (Nat.le_of_not_lt hlow) hx
      have h0 : x ≠ 0 := by rintro rfl; simp at htop
      have hlog : x.log2 = n := (Nat.log2_eq_iff h0).2 ⟨Nat.le_of_not_lt hlow, hx⟩
      rw [List.takeWhile_cons_of_neg (by simp [htop]), if_neg h0, hlog]
      simp

theorem leadZeros_eq (a : W64) :
    leadZeros a = BitVec.ofNat 64 (if a = 0 then 64 else 63 - a.toNat.log2) := by
  have hdown : (List.range 64).map (fun i => 63 - i) = (List.range 64).reverse := by decide
  have hzero : a.toNat = 0 ↔ a = 0 := BitVec.toNat_inj (y := 0#64)
  have hcount := length_takeWhile_zeros a.toNat 64 a.isLt
  simp only [hzero] at hcount
  rw [leadZeros, hdown, ← hcount]
  rfl

/-- A count of bits is not negative, so that its instruction clears N. -/
theorem msb_ofNat_of_le {n : Nat} (h : n ≤ 64) : (BitVec.ofNat 64 n).msb = false := by
  rw [BitVec.msb_eq_decide, BitVec.toNat_ofNat, decide_eq_false_iff_not]
  omega

theorem msb_popCount (a : W64) : (popCount a).msb = false :=
  msb_ofNat_of_le ((List.length_filter_le _ _).trans List.length_range.le)

theorem msb_leadZeros (a : W64) : (leadZeros a).msb = false := by
  rw [leadZeros_eq]
  exact msb_ofNat_of_le (by split <;> omega)

/-! ### The flags (R112) -/

theorem logicFlags_eq (old : Byte) (r : W64) : logicFlags old r = flagWord old false (r == 0) r.msb := packFlags_eq ..

/-- A sum carries out of 64 bits exactly when its word is below either operand. -/
theorem addFlags_eq (old : Byte) (a b : W64) :
    addFlags old a b = flagWord old (decide (2 ^ 64 ≤ a.toNat + b.toNat)) (a + b == 0) (a + b).msb := by
  have hcarry : (a + b).ult a = decide (2 ^ 64 ≤ a.toNat + b.toNat) := by
    rw [BitVec.ult_eq_decide, decide_eq_decide, BitVec.toNat_add]
    have := a.isLt
    have := b.isLt
    omega
  rw [addFlags, packFlags_eq, hcarry]

theorem subFlags_eq (old : Byte) (a b : W64) :
    subFlags old a b = flagWord old (decide (a.toNat < b.toNat)) (a - b == 0) (decide (a.toInt < b.toInt)) := by
  rw [subFlags, packFlags_eq, BitVec.ult_eq_decide, BitVec.slt_eq_decide]

theorem sub_beq_zero (a b : W64) : (a - b == 0) = (a == b) := by
  rw [Bool.eq_iff_iff, beq_iff_eq, beq_iff_eq]
  exact sub_eq_zero

/-! ### The three shapes of a row -/

/-- An instruction run by `pureOp` is a row whose whole effect is on the context of its job. -/
theorem pureRow_of_exec {i : BitVec 7 → Spx → Instr} {opc n : Nat} {g g' : Spx → Ctx → Ctx}
    (hexec : ∀ q f s, exec (i q f) s = .next (pureOp q f opc n (g f) s)) (hg : ∀ f c, g f c = g' f c) :
    PureRow i opc n g' := by
  intro q f s tag j hb
  rw [hexec, pureOp_begins hb, hg]

/-- An instruction run by `alu` is a row of R114, of the result and the flags that its operation computes. -/
theorem aluRow_of_exec {i : BitVec 7 → Spx → Instr} {opc n : Nat} {op r : W64 → W64 → W64} {fl : Byte → W64 → W64 → Byte}
    {c ng : W64 → W64 → Bool} (hexec : ∀ q f s, exec (i q f) s = .next (alu q f opc n op fl s)) (hop : ∀ a b, op a b = r a b)
    (hfl : ∀ old a b, fl old a b = flagWord old (c a b) (op a b == 0) (ng a b)) : AluRow i opc n r c ng := by
  rintro q f s tag j a b hb rfl rfl
  rw [hexec, alu, pureOp_begins hb]
  simp only [hfl, hop]
  rfl

/-- A row of R114 whose flags are those of its result alone. -/
theorem plainRow_of_exec {i : BitVec 7 → Spx → Instr} {opc n : Nat} {op r : W64 → W64 → W64}
    (hexec : ∀ q f s, exec (i q f) s = .next (alu q f opc n op (opFlags op) s)) (hop : ∀ a b, op a b = r a b) :
    PlainRow i opc n r :=
  aluRow_of_exec hexec hop fun old a b => by rw [opFlags, logicFlags_eq, hop]

/-! ### The rows -/

theorem spenexArithmetic : SpenexArithmetic := by
  refine ⟨aluRow_of_exec (fun _ _ _ => rfl) add_eq_ofNat addFlags_eq, aluRow_of_exec (fun _ _ _ => rfl) sub_eq_ofInt subFlags_eq,
    plainRow_of_exec (fun _ _ _ => rfl) opMul_eq, plainRow_of_exec (fun _ _ _ => rfl) fun _ _ => rfl, ?cmp⟩
  case cmp =>
    rintro q f s tag j hb a b rfl rfl
    simp only [exec, execCmp, pureOp_begins hb, subFlags_eq, sub_beq_zero, srcB, simm]

theorem spenexDivision : SpenexDivision :=
  ⟨plainRow_of_exec (fun _ _ _ => rfl) opDivu_eq, plainRow_of_exec (fun _ _ _ => rfl) opRemu_eq,
    plainRow_of_exec (fun _ _ _ => rfl) opDiv_eq, plainRow_of_exec (fun _ _ _ => rfl) opRem_eq⟩

theorem spenexLogicAndMoves : SpenexLogicAndMoves := by
  refine ⟨?and, ?or, ?xor, plainRow_of_exec (fun _ _ _ => rfl) opShl_eq, plainRow_of_exec (fun _ _ _ => rfl) opShr_eq,
    plainRow_of_exec (fun _ _ _ => rfl) opSar_eq, plainRow_of_exec (fun _ _ _ => rfl) opMinu_eq,
    plainRow_of_exec (fun _ _ _ => rfl) opMaxu_eq, plainRow_of_exec (fun _ _ _ => rfl) opMin_eq,
    plainRow_of_exec (fun _ _ _ => rfl) opMax_eq, ?mov, ?popc, ?clz, ?li⟩
  case and | or | xor => exact plainRow_of_exec (fun _ _ _ => rfl) fun _ _ => rfl
  case mov | li => exact pureRow_of_exec (fun _ _ _ => rfl) fun _ _ => rfl
  case popc =>
    refine pureRow_of_exec (fun _ _ _ => rfl) fun f c => ?_
    rw [logicFlags_eq, msb_popCount, popCount_eq]
    rfl
  case clz =>
    refine pureRow_of_exec (fun _ _ _ => rfl) fun f c => ?_
    rw [logicFlags_eq, msb_leadZeros, leadZeros_eq]
    rfl

/-- Settles O30: the arithmetic rows, the divisions, and the logic, shift, move and count rows. -/
theorem spenexScalarInstructions : Obligations.SpenexScalarInstructions :=
  ⟨spenexArithmetic, spenexDivision, spenexLogicAndMoves⟩

end Sys2Proof.Scalar

/-! # Branches, jumps, NOP and END (R113, R121) -/

namespace Sys2Proof.Control

open Sys2Proof Sys2Proof.Machine Sys2Proof.Claims Sys2Proof.Laws Sys2Proof.Sync Sys2Proof.Scalar

/-! ### Targets (R121) -/

/-- A branch adds 8 times the signed IMM to the pc. -/
theorem branchTo_eq (f : Spx) (c : Ctx) : branchTo f c = { c with pc := c.pc + BitVec.ofInt 64 (8 * f.imm.toInt) } := by
  have hoff : simm f * 8 = BitVec.ofInt 64 (8 * f.imm.toInt) := by
    rw [simm, BitVec.signExtend, BitVec.ofInt_mul, mul_comm]
    rfl
  rw [branchTo, hoff]

/-- A mask that clears the low `n` bits shifts them out and zeros in. -/
theorem and_allOnes_shiftLeft {w : Nat} (x : BitVec w) (n : Nat) : x &&& BitVec.allOnes w <<< n = (x >>> n) <<< n := by
  ext i hi
  by_cases hlow : i < n
  · simp [hlow]
  · simp [hlow, hi, Nat.add_sub_cancel' (Nat.le_of_not_lt hlow)]

/-- The target of JR is the multiple of 8 at or below its register. -/
theorem and_not_seven (x : W64) : x &&& ~~~7#64 = BitVec.ofNat 64 (x.toNat / 8 * 8) := by
  have hmask : ~~~7#64 = BitVec.allOnes 64 <<< 3 := by decide
  apply BitVec.eq_of_toNat_eq
  rw [hmask, and_allOnes_shiftLeft, BitVec.toNat_shiftLeft, BitVec.toNat_ushiftRight, BitVec.toNat_ofNat,
    Nat.shiftRight_eq_div_pow, Nat.shiftLeft_eq]

/-! ### Jumping, and falling through -/

section rules
variable {q : BitVec 7} {f : Spx} {s : State} {tag : Nat} {j : Job}

/-- An instruction whose body jumps leaves the context of `g`, its pc included. -/
theorem spx_jump {opc : Nat} (hb : Begins opc q f s tag j) (n : Nat) (g : Ctx → Ctx) :
    spx q f opc n (fun s tag j => jump s tag j g) s = setJob s tag { paid f n j with ctx := g j.ctx } := by
  rw [spx_begins hb, jump, setJob_setJob, paid_ctx]

/-- An instruction without an EXT word retires 8 bytes on. -/
theorem retired_of_short (hx : f.x = false) (n : Nat) (c : Ctx) :
    retired f n c j = { paid f n j with ctx := { c with pc := c.pc + 8 } } := by
  rw [retired, hx, if_neg Bool.false_ne_true]

/-- A taken branch counts its second step when it jumps (R113). -/
theorem paid_succ (n : Nat) : { paid f n j with steps := (paid f n j).steps + 1 } = paid f (n + 1) j := by
  simp only [paid, Job.mk.injEq, and_true, true_and]
  omega

/-- BC has no EXT word (R109, R121). -/
theorem begins_bc_x (hb : Begins 0x41 q f s tag j) : f.x = false := by
  obtain ⟨-, -, -, -, -, hdef⟩ := hb
  simp only [defined, noRegs, Bool.and_eq_true, Bool.not_eq_true'] at hdef
  obtain ⟨⟨⟨⟨hx, -⟩, -⟩, -⟩, -⟩ := hdef
  exact hx

/-- BC jumps for two steps where its condition holds (R113). -/
theorem exec_bc_taken (hb : Begins 0x41 q f s tag j) (hc : condHolds (fnN f) j.ctx.flags = true) :
    exec (.bc q f) s = .next (setJob s tag { paid f 2 j with ctx := branchTo f j.ctx }) := by
  simp only [exec, execBc, spx_begins hb, paid_ctx, hc, if_true, jump, setJob_setJob]
  rw [← paid_succ 1]

/-- BC falls through for one step where its condition does not hold (R113). -/
theorem exec_bc_not_taken (hb : Begins 0x41 q f s tag j) (hc : condHolds (fnN f) j.ctx.flags = false) :
    exec (.bc q f) s = .next (setJob s tag { paid f 1 j with ctx := { j.ctx with pc := j.ctx.pc + 8 } }) := by
  simp only [exec, execBc, spx_begins hb, paid_ctx, hc, Bool.false_eq_true, if_false, retire_paid, id_eq,
    retired_of_short (begins_bc_x hb)]

theorem exec_endJob (hb : Begins 0x45 q f s tag j) : exec (.endJob q f) s =
    .next (finishJob (setJob s tag (paid f 2 j)) tag (if f.fn = 0 then 0 else 1) 0 0) := by
  have hfn : fnN f = 0 ↔ f.fn = 0 := BitVec.toNat_inj (y := 0#8)
  simp only [exec, execEndJob, spx_begins hb, hfn, stOK, stSHORT]

end rules

/-- Settles O2: each row by its rule, with the target that `branchTo_eq` or `and_not_seven` names. -/
theorem spenexControl : Obligations.SpenexControl := by
  refine ⟨fun q f s tag j hb => ?br, fun q f s tag j hb taken htaken => ?bc, fun q f s tag j hb => ?jal,
    fun q f s tag j hb => ?jr, pureRow_of_exec (fun _ _ _ => rfl) fun _ _ => rfl, fun q f s tag j hb => exec_endJob hb⟩
  case br => simp only [exec, execBr, spx_jump hb, branchTo_eq]
  case bc =>
    have hcond : condHolds (fnN f) j.ctx.flags = taken := htaken.symm
    cases taken with
    | true => rw [exec_bc_taken hb hcond, branchTo_eq, if_pos rfl]
    | false => rw [exec_bc_not_taken hb hcond, if_neg Bool.false_ne_true]
  case jal =>
    simp only [exec, execJal, spx_jump hb, branchTo_eq]
    rfl
  case jr => simp only [exec, execJr, spx_jump hb, and_not_seven]

end Sys2Proof.Control

/-! # What every command keeps (R497, R619) -/

namespace Sys2Proof.Keeping

open Sys2Proof Sys2Proof.Machine Sys2Proof.Claims Sys2Proof.Laws

-- one after the other: elaborated at once, the six hundred lemmas below need more threads than the memory limit allows
set_option Elab.async false

variable {a s : State}

/-- The node went from `a` to `s`: the queue of waiting commands stands, and a sound state is still sound. -/
def Keeps (a s : State) : Prop := s.pending = a.pending ∧ (Sound a → Sound s)

theorem Keeps.refl (a : State) : Keeps a a := ⟨rfl, id⟩

theorem Keeps.trans {a b c : State} (h : Keeps a b) (k : Keeps b c) : Keeps a c := ⟨k.1.trans h.1, k.2 ∘ h.2⟩

/-- An update that leaves alone the queue, the memories, the registers, the hold, the fault log and the journal. -/
theorem Keeps.update {a s : State} (h : Keeps a s) {now : Nat} {ex : Exec} {cmds : Table (List Cmd)} {nextCmd : Nat} {stk : Stk} {tir : Tir}
    {lanes : Table Lane} {groups : Table Group} {hiu : Hiu} {trf : Trf} {fls : Fls} {fab : Fab} {tbe : Tbe} {smc : Smc} {flt : Flt} {prb : Prb}
    {freeCtr : Nat} {out : List Output} (hhold : hiu.hold = s.hiu.hold := by rfl) (hlog : flt.log = s.flt.log := by rfl)
    (hseq : flt.nextSeq = s.flt.nextSeq := by rfl) (hjournal : prb.journal = s.prb.journal := by rfl) :
    Keeps a ⟨s.pending, now, s.regs, s.mem, ex, cmds, nextCmd, stk, tir, lanes, groups, hiu, trf, fls, fab, tbe, smc, flt, prb, freeCtr, out⟩ := by
  refine ⟨h.1, fun hs => ?_⟩
  obtain ⟨hmem, hregs, hj, hh, hl, hs1, hs2⟩ := h.2 hs
  exact ⟨hmem, hregs, hjournal ▸ hj, hhold ▸ hh, hlog ▸ hl, hseq ▸ hs1, hseq ▸ hs2⟩

/-- Work that ends in `p` after another piece of work: that one went well. -/
theorem work_bind {α β : Type} {x : Work α} {f : α → Work β} {p : β} (e : (x >>= f) = .ok p) : ∃ v, x = .ok v ∧ f v = .ok p := by
  cases x with
  | error => cases e
  | ok v => exact ⟨v, rfl, e⟩

/-- A loop keeps what each of its rounds keeps. -/
theorem Keeps.foldl {α : Type} {a s : State} (h : Keeps a s) {f : State → α → State} (hf : ∀ t x, Keeps a t → Keeps a (f t x)) {l : List α} :
    Keeps a (l.foldl f s) := by
  induction l generalizing s with
  | nil => exact h
  | cons x l ih => exact ih (hf s x h)

theorem Keeps.ite {a s t : State} {c : Prop} [Decidable c] (hs : Keeps a s) (ht : Keeps a t) : Keeps a (if c then s else t) := by
  split <;> assumption

theorem Keeps.of_snd {α : Type} {a s : State} {x : α} {o : α × State} (e : o = (x, s)) (h : Keeps a o.2) : Keeps a s := by
  subst e; exact h

theorem Keeps.of_snd₂ {α β : Type} {a s : State} {x : α} {y : β} {o : α × β × State} (e : o = (x, y, s)) (h : Keeps a o.2.2) : Keeps a s := by
  subst e; exact h

theorem Keeps.rset {a s : State} (h : Keeps a s) {r : Reg} {b : Nat} {v : W32} : Keeps a (rset s r b v) := by
  refine ⟨h.1, fun hs => ?_⟩
  obtain ⟨hmem, hregs, hrest⟩ := h.2 hs
  exact ⟨hmem, regsWf_rset hregs r b v, hrest⟩

theorem Keeps.fset {a s : State} (h : Keeps a s) {f : Fld} {v b : Nat} : Keeps a (fset s f v b) := h.rset

theorem Keeps.fadd (h : Keeps a s) {f : Fld} {n b : ℕ} : Keeps a (fadd s f n b) := h.fset

theorem Keeps.fbump (h : Keeps a s) {f : Fld} {b : ℕ} : Keeps a (fbump s f b) := h.fadd

theorem Keeps.regWritePlain (h : Keeps a s) {r : Reg} {b : ℕ} {v : W32} : Keeps a (regWritePlain s r b v) := Keeps.ite h.rset.fbump h.rset

theorem Keeps.wakeNode (h : Keeps a s) : Keeps a (wakeNode s) := Keeps.ite h h.update

theorem Keeps.hostTurn (h : Keeps a s) {x : HostAcc} {ready : Bool} {f : State → State} (hf : ∀ t, Keeps a t → Keeps a (f t)) :
    Keeps a (hostTurn s x ready f) := Keeps.ite (hf _ h) h.update

theorem Keeps.hostReg (h : Keeps a s) {r : Reg} {x : HostAcc} {f : State → State} (hf : ∀ t, Keeps a t → Keeps a (f t)) :
    Keeps a (hostReg s r x f) :=
  (Keeps.ite h h.wakeNode).hostTurn fun _ ht => Keeps.ite (hf _ ht) ht.fbump

theorem Keeps.emit (h : Keeps a s) {o : Output} : Keeps a (emit s o) := h.update

/-- Memories that stay in canonical form may change. -/
theorem Keeps.putMem (h : Keeps a s) {m : Mem} (hm : s.mem.Wf → m.Wf) : Keeps a { s with mem := m } := by
  refine ⟨h.1, fun hs => ?_⟩
  obtain ⟨hmem, hrest⟩ := h.2 hs
  exact ⟨hm hmem, hrest⟩

/-- The hold of event records may change within its 4,096 (R497). -/
theorem Keeps.putHold (h : Keeps a s) {x : Hiu} (hx : s.hiu.hold.length ≤ 4096 → x.hold.length ≤ 4096) : Keeps a { s with hiu := x } := by
  refine ⟨h.1, fun hs => ?_⟩
  obtain ⟨hmem, hregs, hj, hhold, hrest⟩ := h.2 hs
  exact ⟨hmem, hregs, hj, hx hhold, hrest⟩

theorem Keeps.hostWrite (h : Keeps a s) {pasid : Option Nat} {x : Nat} {bs : List Byte} : Keeps a (hostWrite s pasid x bs) :=
  (h.putMem fun hm => hostWrite_wf hm pasid x bs).emit

theorem Keeps.setEvq (h : Keeps a s) {i : ℕ} {v : Evq} : Keeps a (setEvq s i v) := h.update

theorem Keeps.msixSend (h : Keeps a s) {v : ℕ} : Keeps a (msixSend s v) := Keeps.ite h.update h.emit

theorem Keeps.msixCount (h : Keeps a s) {i : ℕ} : Keeps a (msixCount s i) := Keeps.ite h (Keeps.ite h.setEvq.setEvq.msixSend h.setEvq)

theorem Keeps.eqPut (h : Keeps a s) {i : ℕ} {r : Rec} : Keeps a (eqPut s i r) := h.hostWrite.fset.setEvq.msixCount

/-- A record is held only while fewer than 4,096 are (R497). -/
theorem Keeps.eqRecord (h : Keeps a s) {e : Nat} {r : Rec} : Keeps a (eqRecord s e r) := by
  unfold Machine.eqRecord
  split
  · exact h.fbump
  · split
    · split
      · exact h.putHold fun _ => by simpa using ‹s.hiu.hold.length < 4096›
      · exact h.setEvq.fbump
    · exact h.eqPut

theorem Keeps.eqDrain (h : Keeps a s) {e n : Nat} : Keeps a (eqDrain e n s) := by
  induction n generalizing s with
  | zero => exact h
  | succ n ih =>
    unfold Machine.eqDrain
    split
    · exact h
    · split
      · exact h
      · exact ih (h.putHold fun hs => List.length_erase_le.trans hs).eqPut

theorem Keeps.jobRecord (h : Keeps a s) {sq : ℕ} {r : Rec} : Keeps a (jobRecord s sq r) := h.eqRecord

theorem Keeps.devEvent (h : Keeps a s) {ty status reason : ℕ} {detail : List Byte} : Keeps a (devEvent s ty status reason detail) :=
  h.eqRecord

/-- The log holds 1,024 records, and their numbers wrap to 1 (R619). -/
theorem Keeps.faultRec (h : Keeps a s) {r : FaultRec} : Keeps a (faultRec s r) := by
  have hlog : ∀ s1 : State, s1.pending = s.pending → s1.mem = s.mem → s1.regs = s.regs → s1.prb = s.prb → s1.hiu = s.hiu →
      (s.flt.log.length ≤ 1024 → s1.flt.log.length ≤ 1024) →
      s1.flt.nextSeq = (if s.flt.nextSeq ≥ 2 ^ 32 - 1 then 1 else s.flt.nextSeq + 1) → Keeps a s1 := by
    intro s1 hp hm hr hj hh hl hn
    refine ⟨hp.trans h.1, fun hs => ?_⟩
    obtain ⟨hmem, hregs, hjournal, hhold, hlen, hlo, hhi⟩ := h.2 hs
    refine ⟨hm ▸ hmem, hr ▸ hregs, hj ▸ hjournal, hh ▸ hhold, hl hlen, ?_, ?_⟩ <;> rw [hn] <;> split <;> omega
  unfold Machine.faultRec
  extract_lets log _ s1
  have h1 : Keeps a s1 := by
    refine hlog _ rfl rfl rfl rfl rfl (fun hlen => ?_) rfl
    have hn : log.length = s.flt.log.length + 1 := by simp [log]
    show (if log.length > 1024 then log.drop 1 else log).length ≤ 1024
    split
    · rw [List.length_drop]; omega
    · omega
  exact Keeps.ite h1.fbump h1

theorem Keeps.unitFault (h : Keeps a s) {block kind : ℕ} {status reason : ℕ} {inst addr info : ℕ} :
    Keeps a (unitFault s block kind status reason inst addr info) :=
  h.faultRec.devEvent

theorem Keeps.ovcSet (h : Keeps a s) {bit : ℕ} : Keeps a (ovcSet s bit) :=
  Keeps.ite h (Keeps.ite h.fset.fset.update.fbump.devEvent h.fset.fset.update)

theorem Keeps.ovcClear (h : Keeps a s) {bit : ℕ} : Keeps a (ovcClear s bit) := Keeps.ite h (Keeps.ite h.fset h.fset.fset.devEvent)

theorem Keeps.freeNext (h : Keeps a s) : Keeps a (freeNext s) := h.update

theorem Keeps.stkWrite (h : Keeps a s) {x : Nat} {bs : List Byte} : Keeps a (stkWrite s x bs) := by
  have hwf := fun hm : s.mem.Wf => stkWrite_wf hm x bs
  unfold Machine.stkWrite at hwf ⊢
  split
  · exact h
  · rename_i hin
    rw [if_neg hin] at hwf
    exact h.putMem hwf

theorem Keeps.scrubFrame (h : Keeps a s) {f : Nat} : Keeps a (scrubFrame s f) := h.putMem fun hm => scrubFrame_wf hm f

theorem Keeps.scrubTile (h : Keeps a s) {r : Nat} : Keeps a (scrubTile s r) := h.putMem fun hm => scrubTile_wf hm r

theorem Keeps.tileWrite (h : Keeps a s) {x : Nat} {bs : List Byte} : Keeps a (tileWrite s x bs) := h.putMem fun hm => tileWrite_wf hm x bs

theorem Keeps.setPage (h : Keeps a s) {k : ℕ} {q : Page} : Keeps a (setPage s k q) := h.update

theorem Keeps.countUE (h : Keeps a s) {w : ℕ} : Keeps a (countUE s w) := Keeps.ite h.fbump (Keeps.ite h.fbump h)

theorem Keeps.flashPut (h : Keeps a s) {dom x : Nat} {bs : List Byte} : Keeps a (flashPut s dom x bs) :=
  h.putMem fun hm => flashPut_wf hm dom x bs

theorem Keeps.flashProgram (h : Keeps a s) {dom lpage : ℕ} {bs : List Byte} : ∀ p, flashProgram s dom lpage bs = some p → Keeps a p := by
  intro p e
  unfold Machine.flashProgram at e
  dsimp only at e
  split at e
  · cases e
  · split at e
    · cases e
    · cases e
      exact h.flashPut.update

theorem Keeps.flashWrite (h : Keeps a s) {dom lpage : Nat} {bs : List Byte} : ∀ p, flashWrite s dom lpage bs = some p → Keeps a p := by
  intro p e
  unfold Machine.flashWrite at e
  split at e
  · cases e
  · split at e
    · cases e
    · rename_i t ht
      have hk : Keeps a t := h.flashProgram _ ht
      split at e
      · cases e; exact hk
      · dsimp only at e
        split at e
        · cases e; exact hk
        · split at e
          · cases e; exact hk
          · cases e; exact hk.update

theorem Keeps.flashDrop (h : Keeps a s) {dom x n : Nat} : Keeps a (flashDrop s dom x n) :=
  (h.putMem fun hm => flashDrop_wf hm dom x n).update

/-- What holds of every outcome of each round of a loop that may stop holds of the loop's outcome. -/
theorem foldl_some_of {α β : Type} {P : β → Prop} {f : Option β → α → Option β} (hf : ∀ o x, (∀ p, o = some p → P p) → ∀ p, f o x = some p
    → P p)
    {l : List α} {o : Option β} (h : ∀ p, o = some p → P p) : ∀ p, l.foldl f o = some p → P p := by
  induction l generalizing o with
  | nil => exact h
  | cons x l ih => exact ih (hf o x h)

theorem Keeps.writeBack (h : Keeps a s) {k : Nat} : Keeps a (writeBack s k) := by
  unfold Machine.writeBack
  dsimp only
  split
  · refine Keeps.ite h (Keeps.ite (Keeps.setPage (h.foldl fun _ _ ht => Keeps.ite ht.hostWrite ht)) (Keeps.ite ?_ h))
    split
    · rename_i hres
      refine Keeps.setPage (foldl_some_of (P := Keeps a) (fun o i ho p hp => ?_) (fun p hp => by cases hp; exact h) _ hres)
      split at hp
      · cases hp
      · have hk := ho _ rfl
        split at hp
        · exact hk.flashWrite _ hp
        · cases hp; exact hk
    · exact h.unitFault
  · exact h

theorem Keeps.dropCopy (h : Keeps a s) {k : ℕ} : Keeps a (dropCopy s k) := by
  unfold Machine.dropCopy
  dsimp only
  split
  · exact h
  · exact h.scrubFrame.setPage

theorem Keeps.allocFrame (h : Keeps a s) {dom : Nat} {okBank : Nat → Bool} : ∀ p, allocFrame s dom okBank = some p → Keeps a p.2 := by
  intro p e
  unfold Machine.allocFrame at e
  split at e
  · cases e; exact h.scrubFrame.freeNext
  · dsimp only at e
    split at e
    · cases e
    · split at e
      · cases e
      · split at e <;> cases e
        exact h.writeBack.dropCopy

theorem Keeps.touch (h : Keeps a s) {k : ℕ} : Keeps a (touch s k) := Keeps.ite h h.update.setPage

theorem Keeps.fillSub (h : Keeps a s) {dom pa x : Nat} {dirty : BitVec 64} : Keeps a (fillSub s dom pa x dirty) := by
  unfold Machine.fillSub
  split
  · exact h
  · split
    · exact h.stkWrite
    · exact h.putMem fun hm => hm

theorem Keeps.fillTile (h : Keeps a s) {dom x : Nat} : Keeps a (fillTile s dom x) := by
  unfold Machine.fillTile
  dsimp only
  split
  · exact h
  · refine Keeps.ite h ?_
    split
    · exact h
    · rename_i f t hframe
      have ht : Keeps a t := by
        split at hframe
        · cases hframe; exact h
        · obtain ⟨_, halloc, heq⟩ := Option.map_eq_some_iff.1 hframe
          cases heq; exact (h.allocFrame _ halloc).setPage
      exact Keeps.ite ht (Keeps.setPage (ht.foldl fun _ _ hk => hk.fillSub))

theorem Keeps.uLoad (h : Keeps a s) {dom x n : ℕ} : Keeps a (uLoad s dom x n).2 :=
  (Keeps.ite h.countUE h).foldl (fun _ _ h9 => h9.fillTile.touch)

theorem Keeps.startMig (h : Keeps a s) {k target : ℕ} {cmd hostAddr : ℕ} : Keeps a (startMig s k target cmd hostAddr) := by
  unfold Machine.startMig
  dsimp only
  refine Keeps.ite h ?_
  split
  · exact h.fbump
  · refine Keeps.setPage ?_
    rename_i hq3
    split at hq3
    · exact h.allocFrame _ ‹_›
    · cases hq3
      exact h

theorem Keeps.uPut (h : Keeps a s) {dom x : ℕ} {b : Byte} : Keeps a (uPut s dom x b) := by
  unfold Machine.uPut
  dsimp only
  split
  · refine Keeps.ite h.flashPut ?_
    split
    · exact h.stkWrite
    · split
      · exact ((h.allocFrame _ ‹_›).setPage).stkWrite
      · exact h
  · split
    · exact h
    · refine Keeps.ite ?_ (Keeps.ite ?_ h)
      · split
        · refine Keeps.ite h.setPage ?_
          split
          · exact h.setPage.hostWrite
          · split
            · exact h.setPage.stkWrite
            · exact h.setPage
        · split
          · split
            · exact h.startMig.setPage
            · exact h.startMig.flashPut
          · exact h.hostWrite
          · split
            · exact h.stkWrite
            · exact h
      · split
        · exact ((Keeps.ite h h.fillTile).stkWrite).setPage
        · exact Keeps.ite h h.fillTile

theorem Keeps.coverSub (h : Keeps a s) {dom x : Nat} : Keeps a (coverSub s dom x) := by
  unfold Machine.coverSub
  dsimp only
  split
  · exact h
  · refine Keeps.ite h ?_
    split
    · exact h
    · rename_i t hframe
      have ht : Keeps a t := by
        split at hframe
        · cases hframe; exact h
        · obtain ⟨_, halloc, rfl⟩ := Option.map_eq_some_iff.1 hframe
          exact (h.allocFrame _ halloc).setPage
      exact ht.setPage

theorem Keeps.pokeBytes (h : Keeps a s) {dom x : Nat} {bs : List Byte} : Keeps a (pokeBytes s dom x bs) := by
  induction bs generalizing s x with
  | nil => exact h
  | cons b bs ih => exact ih h.uPut

theorem Keeps.uPoke (h : Keeps a s) {dom x : Nat} {bs : List Byte} : Keeps a (uPoke s dom x bs) :=
  (h.foldl fun _ _ ht => ht.coverSub).pokeBytes

theorem Keeps.uWrite (h : Keeps a s) {dom x : Nat} {bs : List Byte} : ∀ p, uWrite s dom x bs = .ok p → Keeps a p := by
  intro p e
  unfold Machine.uWrite at e
  dsimp only at e
  split at e
  · cases e
  · split at e <;> cases e
    exact h.uPoke

theorem Keeps.putOwner (h : Keeps a s) {cls inst : ℕ} {o : Owner} : Keeps a (putOwner s cls inst o) := h.update

theorem Keeps.setJob (h : Keeps a s) {tag : ℕ} {j : Job} : Keeps a (setJob s tag j) := h.update

theorem Keeps.modJob (h : Keeps a s) {tag : ℕ} {f : Job → Job} : Keeps a (modJob s tag f) := by
  unfold Machine.modJob
  split
  · exact h.setJob
  · exact h

theorem Keeps.setGrant (h : Keeps a s) {h1 : ℕ} {g : Grant} : Keeps a (setGrant s h1 g) := h.update

theorem Keeps.drawShare (h : Keeps a s) {h1 : ℕ} : Keeps a (drawShare s h1) := by
  unfold Machine.drawShare
  split
  · exact h.setGrant
  · exact h

theorem Keeps.giveShare (h : Keeps a s) {h1 : ℕ} : Keeps a (giveShare s h1) := by
  unfold Machine.giveShare
  split
  · exact h.setGrant
  · exact h

theorem Keeps.setNbu (h : Keeps a s) {bank : ℕ} {n : Nbu} : Keeps a (setNbu s bank n) := h.update

theorem Keeps.setCtr (h : Keeps a s) {i : ℕ} {c : Ctr} : Keeps a (setCtr s i c) := h.update

theorem Keeps.pulseCtr (h : Keeps a s) {i : ℕ} {gen : BitVec 16} {inc : ℕ} : Keeps a (pulseCtr s i gen inc) := Keeps.ite h.setCtr h.fbump

theorem Keeps.setCmds (h : Keeps a s) {cls inst : ℕ} {l : List Cmd} : Keeps a (setCmds s cls inst l) := h.update

theorem Keeps.setPort (h : Keeps a s) {q : ℕ} {v : Port} : Keeps a (setPort s q v) := h.update

theorem Keeps.enqueue (h : Keeps a s) {port queue : ℕ} {q : Pkt} {src : Option (ℕ × ℕ)} : Keeps a (enqueue s port queue q src) := h.setPort

theorem Keeps.sendPkt (h : Keeps a s) {queue : ℕ} {q : Pkt} {src : Option (ℕ × ℕ)} : Keeps a (sendPkt s queue q src).2 := by
  unfold Machine.sendPkt
  split
  · exact h
  · split
    · exact h.emit
    · split
      · exact h.enqueue
      · exact h

theorem Keeps.dropEgress (h : Keeps a s) {ty : BitVec 8} {tag : BitVec 32} : Keeps a (dropEgress s ty tag) := h.update

theorem Keeps.sendSys (h : Keeps a s) {q : Pkt} : Keeps a (sendSys s q) := h.sendPkt

theorem Keeps.keepRecord (h : Keeps a s) {q : Pkt} {r : Option Pkt} : Keeps a (keepRecord s q r) := Keeps.ite h.update.fbump h.update

theorem Keeps.holdPkt (h : Keeps a s) {d : Defer} : Keeps a (holdPkt s d) := Keeps.ite h.update.fbump h.update

theorem Keeps.remotePulse (h : Keeps a s) {q : Pkt} : Keeps a (remotePulse s q) := Keeps.ite h.pulseCtr h.fbump

theorem Keeps.fabApply (h : Keeps a s) {q : Pkt} : Keeps a (fabApply s q) := by
  unfold Machine.fabApply
  dsimp only
  split
  · exact h.sendSys
  · split
    · split
      · refine Keeps.sendSys ?_
        rename_i hq4
        exact Keeps.of_snd hq4 h.uLoad
      · refine Keeps.sendSys ?_
        rename_i hq4
        exact Keeps.of_snd hq4 h.uLoad
      · refine Keeps.sendSys ?_
        rename_i hq4
        exact Keeps.of_snd hq4 h.uLoad
    · split
      · exact ((h.uWrite _ ‹_›).keepRecord).sendSys
      · exact h.sendSys
    · refine Keeps.ite h.fbump.sendSys (Keeps.ite h.startMig.holdPkt ?_)
      split
      · exact h.sendSys
      · split
        · exact ((h.uWrite _ ‹_›).keepRecord).sendSys
        · exact h.sendSys
    · split
      · exact Keeps.ite (((Keeps.ite (((h.uWrite _ ‹_›).update).remotePulse) ((h.uWrite _ ‹_›).update)).keepRecord).sendSys) (((h.uWrite _
            ‹_›).update).keepRecord)
      · exact h.sendSys
    · split
      · refine (Keeps.ite (Keeps.update ?_) ?_).foldl (fun _ _ h23 => h23.sendSys)
        · rename_i hq4
          exact Keeps.of_snd hq4 h.uLoad
        · rename_i hq4
          exact Keeps.of_snd hq4 h.uLoad
      · refine Keeps.sendSys ?_
        rename_i hq4
        exact Keeps.of_snd hq4 h.uLoad
      · refine Keeps.sendSys ?_
        rename_i hq4
        exact Keeps.of_snd hq4 h.uLoad
    · exact h

theorem Keeps.answerAgain (h : Keeps a s) {q : Pkt} : Keeps a (answerAgain s q) := by
  unfold Machine.answerAgain
  split
  · exact h.sendSys
  · exact h

theorem Keeps.setDefer (h : Keeps a s) {st : ℕ} {l : List Defer} : Keeps a (setDefer s st l) := h.update

theorem Keeps.hostLoad (h : Keeps a s) {dom x n : ℕ} : Keeps a (hostLoad s dom x n) := by
  unfold Machine.hostLoad
  dsimp only
  split
  · refine Keeps.emit ?_
    rename_i hq2
    exact Keeps.of_snd hq2 h.uLoad
  · refine (Keeps.faultRec ?_).emit
    rename_i hq2
    exact Keeps.of_snd hq2 h.uLoad
  · refine Keeps.emit ?_
    rename_i hq2
    exact Keeps.of_snd hq2 h.uLoad

theorem Keeps.hostStore (h : Keeps a s) {dom x : ℕ} {bs : List Byte} : Keeps a (hostStore s dom x bs) :=
  Keeps.ite h.fbump (Keeps.ite h.fbump (Keeps.ite h.fbump h.uPoke))

theorem Keeps.deferPut (h : Keeps a s) {d : Defer} : ∀ p, deferPut s d = some p → Keeps a p := by
  intro p e
  unfold Machine.deferPut at e
  dsimp only at e
  split at e
  · cases e
  · cases e
    exact Keeps.ite h.setDefer.fbump h.setDefer

theorem Keeps.bar2Try (h : Keeps a s) {off n : ℕ} {data : Option (List Byte)} : ∀ p, bar2Try s off n data = some p → Keeps a p := by
  intro p e
  unfold Machine.bar2Try at e
  dsimp only at e
  split at e
  · cases e
  · split at e
    · cases e
      split
      · exact h.fbump
      · exact h.emit
    · split at e
      · cases e
        split
        · exact h.hostStore
        · exact h.hostLoad
      · split at e
        · exact h.deferPut _ e
        · cases e
          split
          · exact h.hostStore
          · exact h.hostLoad

theorem Keeps.bar2Pump (h : Keeps a s) {n : Nat} : Keeps a (bar2Pump n s) := by
  induction n generalizing s with
  | zero => exact h
  | succ n ih =>
    unfold Machine.bar2Pump
    split
    · split
      · rename_i ht
        exact ih (Keeps.bar2Try h.update _ ht)
      · exact h
    · exact h

theorem Keeps.serveOne (h : Keeps a s) {d : Defer} : Keeps a (serveOne s d) := by
  unfold Machine.serveOne
  split
  · exact Keeps.ite h.answerAgain h.fabApply
  · split
    · exact h.hostStore
    · exact h.hostLoad

theorem Keeps.serveDeferred (h : Keeps a s) {d : Defer} : Keeps a (serveDeferred s d) := h.serveOne.fset

theorem Keeps.serveBank (h : Keeps a s) {bank n : ℕ} : Keeps a (serveBank s bank n) :=
  (h.setDefer.foldl (fun _ _ h8 => h8.serveDeferred)).bar2Pump

theorem Keeps.serveHeld (h : Keeps a s) {bank : ℕ} : Keeps a (serveHeld s bank) := h.update.foldl (fun _ _ h7 => h7.serveOne)

theorem Keeps.setLane (h : Keeps a s) {l : ℕ} {v : Lane} : Keeps a (setLane s l v) := h.update

theorem Keeps.dropCands (h : Keeps a s) {l : ℕ} {q : Cand → Bool} : Keeps a (dropCands s l q) :=
  h.setLane.foldl (fun _ _ h8 => h8.giveShare)

theorem Keeps.ownerHook (h : Keeps a s) {cls inst : ℕ} : Keeps a (ownerHook s cls inst) := by
  unfold Machine.ownerHook
  dsimp only
  split
  · exact (Keeps.ite h h.serveBank).serveHeld
  · exact h.update
  · exact h.dropCands.update
  · exact h.update
  · exact h

theorem Keeps.setOwner (h : Keeps a s) {cls inst : ℕ} {o : Owner} : Keeps a (setOwner s cls inst o) := Keeps.ite h h.putOwner.ownerHook

theorem Keeps.freeInst (h : Keeps a s) {cls tag inst : ℕ} : Keeps a (freeInst s cls tag inst) := by
  unfold Machine.freeInst
  dsimp only
  split
  · exact Keeps.ite h.setOwner h
  · exact Keeps.ite (Keeps.ite h.setNbu h.setOwner) h
  · exact h

theorem Keeps.dropGrant (h : Keeps a s) {h1 : ℕ} : Keeps a (dropGrant s h1) := by
  unfold Machine.dropGrant
  dsimp only
  split
  · exact h
  · exact Keeps.ite (h.update.foldl (fun _ _ h12 => h12.update)) (Keeps.ite h.update (h.update.foldl (fun _ _ h12 => h12.freeInst)))

theorem Keeps.yieldGrant (h : Keeps a s) {h1 : ℕ} : Keeps a (yieldGrant s h1) := by
  unfold Machine.yieldGrant
  dsimp only
  split
  · exact h
  · exact Keeps.ite h.update h.dropGrant

theorem Keeps.sweepGrants (h : Keeps a s) : Keeps a (sweepGrants s) := by
  unfold Machine.sweepGrants
  dsimp only
  refine h.foldl (fun _ _ h6 => ?_)
  split
  · exact h6.update
  · exact Keeps.ite h6 h6.update.dropGrant

theorem Keeps.grantInst (h : Keeps a s) {dom tag : ℕ} {cls i : ℕ} : Keeps a (grantInst s dom tag cls i) := by
  unfold Machine.grantInst
  dsimp only
  split
  · exact (Keeps.ite h.putOwner.scrubTile (Keeps.ite h.putOwner.tileWrite.freeNext h.putOwner)).update
  · exact h.putOwner.setCtr
  · exact h.putOwner.ownerHook

theorem Keeps.grantTo (h : Keeps a s) {tag tok hold dom : ℕ} {g : Grant} : Keeps a (grantTo s tag tok hold dom g) := by
  unfold Machine.grantTo
  extract_lets m _ s1 s2 s3
  have h1 : Keeps a s1 := h.update
  clear_value s1
  have h2 : Keeps a s2 := Keeps.ite (h1.foldl fun _ _ ht => ht.update) (Keeps.ite h1 (h1.foldl fun _ _ ht => ht.grantInst))
  clear_value s2
  have h3 : Keeps a s3 := Keeps.ite (h2.foldl fun _ _ ht => ht.putOwner) h2
  exact h3.modJob

theorem Keeps.grantEntry (h : Keeps a s) {tag : ℕ} {j : Job} {phase entry hold : ℕ} :
    ∀ p, grantEntry s tag j phase entry hold = some p → Keeps a p := by
  intro p e
  unfold Machine.grantEntry at e
  dsimp only at e
  split at e
  · cases e
  · obtain ⟨_, -, rfl⟩ := Option.map_eq_some_iff.1 e
    exact h.grantTo

theorem Keeps.regrant (h : Keeps a s) {tag : ℕ} {j : Job} {r : Reclaim} : ∀ p, regrant s tag j r = some p → Keeps a p := by
  intro p e
  unfold Machine.regrant at e
  split at e
  · exact h.grantEntry _ e
  · extract_lets free at e
    split at e
    · cases e; exact h.grantTo
    · cases e

theorem Keeps.regrantAll (h : Keeps a s) {tag : ℕ} {l : List Reclaim} : ∀ p, regrantAll s tag l = some p → Keeps a p := by
  induction l generalizing s with
  | nil => intro p e; cases e; exact h
  | cons r l ih =>
    intro p e
    unfold Machine.regrantAll at e
    split at e
    · cases e
    · split at e
      · cases e
      · rename_i hr
        exact ih (h.regrant _ hr) _ e

theorem Keeps.grantAll (h : Keeps a s) {tag phase : ℕ} {l : List ℕ} : ∀ p, grantAll s tag phase l = some p → Keeps a p := by
  induction l generalizing s with
  | nil => intro p e; cases e; exact h
  | cons r l ih =>
    intro p e
    unfold Machine.grantAll at e
    split at e
    · cases e
    · split at e
      · cases e
      · rename_i hr
        exact ih (h.grantEntry _ hr) _ e

theorem Keeps.claimPhase (h : Keeps a s) {tag : ℕ} {j : Job} {phase : ℕ} : ∀ p, claimPhase s tag j phase = some p → Keeps a p := by
  intro p e
  unfold Machine.claimPhase at e
  obtain ⟨_, e', e⟩ := Option.map_eq_some_iff.1 e
  subst e
  exact (h.grantAll _ ‹_›).modJob

theorem Keeps.recallBank (h : Keeps a s) {tag i : ℕ} : Keeps a (recallBank s tag i) := Keeps.ite h.setNbu h.setOwner

theorem Keeps.recallDone (h : Keeps a s) {tag t : ℕ} : Keeps a (recallDone s tag t) := by
  unfold Machine.recallDone
  split
  · exact h
  · split
    · exact h
    · exact Keeps.ite h.setJob h

theorem Keeps.completeHand (h : Keeps a s) {tag t : ℕ} {h1 : Hand} : Keeps a (completeHand s tag t h1) := by
  unfold Machine.completeHand
  dsimp only
  split
  · exact h
  · split
    · exact h.setJob.dropGrant.modJob
    · split
      · exact ((Keeps.ite h.setJob.setGrant (Keeps.ite (h.setJob.setGrant.foldl (fun _ _ h27 => h27.grantInst)) (h.setJob.setGrant.foldl
            (fun _ _ h27 => h27.setOwner)))).modJob).modJob
      · exact h.setJob.dropGrant.modJob
    · split
      · exact (h.setJob.foldl (fun _ _ h23 => h23.setOwner)).modJob
      · exact h.setJob
    · split
      · exact (h.setJob.foldl (fun _ _ h25 => h25.recallBank)).recallDone
      · exact h.setJob

theorem Keeps.completeHands (h : Keeps a s) {tag : ℕ} : Keeps a (completeHands s tag) := by
  unfold Machine.completeHands
  split
  · exact h
  · exact h.foldl (fun _ _ h12 => h12.completeHand)

theorem Keeps.serveJobBanks (h : Keeps a s) {tag : ℕ} {j : Job} : Keeps a (serveJobBanks s tag j) :=
  h.foldl (fun _ _ h8 => Keeps.ite h8.serveBank.serveHeld h8.serveBank)

theorem Keeps.parkJob (h : Keeps a s) {tag slot : ℕ} : Keeps a (parkJob s tag slot) := by
  unfold Machine.parkJob
  dsimp only
  split
  · exact h
  · exact h.setJob.update.foldl (fun _ _ h13 => h13.yieldGrant)

theorem Keeps.makeWay (h : Keeps a s) {tag : ℕ} : Keeps a (makeWay s tag) := by
  unfold Machine.makeWay
  split
  · exact h
  · refine Keeps.ite h ?_
    split
    · exact h.setJob.fbump
    · exact h.parkJob

theorem Keeps.seqYield (h : Keeps a s) {tag : ℕ} : Keeps a (seqYield s tag) := by
  unfold Machine.seqYield
  dsimp only
  split
  · exact h.modJob.completeHands
  · exact h.modJob.completeHands.serveJobBanks.makeWay

theorem Keeps.waitJob (h : Keeps a s) {tag : ℕ} {w : Wait} {timeout : Option ℕ} {ilen : ℕ} : Keeps a (waitJob s tag w timeout ilen) :=
  h.modJob.seqYield

theorem Keeps.dspCount (h : Keeps a s) {f : Fld} {dom : ℕ} : Keeps a (dspCount s f dom) := h.fbump

theorem Keeps.discardWork (h : Keeps a s) {tag : ℕ} : Keeps a (discardWork s tag) := by
  unfold Machine.discardWork
  extract_lets mine cmds s1 s2 _ s3 _ _ s4 cancels s5
  have h2 : Keeps a s2 := (show Keeps a s1 from h.update).foldl fun _ _ ht => Keeps.ite ht ht.dropCands
  clear_value s2
  have h4 : Keeps a s4 := (show Keeps a s3 from h2.update).update
  clear_value s4
  have h5 : Keeps a s5 := h4.foldl fun _ _ ht => ht.dropEgress.sendSys
  clear_value s5
  exact h5.update

theorem Keeps.detachTir (h : Keeps a s) {tag : ℕ} : Keeps a (detachTir s tag) := h.update

theorem Keeps.workRecord (h : Keeps a s) {dom sq : ℕ} {tag planId : ℕ} {cookie status reason : ℕ} {ovc : Bool} {c0 c1 fault : ℕ} :
    Keeps a (workRecord s dom sq tag planId cookie status reason ovc c0 c1 fault) :=
  h.dspCount.jobRecord

theorem Keeps.planLeave (h : Keeps a s) {h1 : ℕ} : Keeps a (planLeave s h1) := by
  unfold Machine.planLeave
  dsimp only
  split
  · exact Keeps.ite h.update h
  · exact h

theorem Keeps.seriesEnd (h : Keeps a s) {id : Option ℕ} {status : ℕ} : Keeps a (seriesEnd s id status) := by
  unfold Machine.seriesEnd
  dsimp only
  split
  · exact Keeps.ite h h.update
  · exact h

theorem Keeps.withdrawLatest (h : Keeps a s) {ok : ℕ × Job → Bool} : Keeps a (withdrawLatest s ok) := by
  unfold Machine.withdrawLatest
  dsimp only
  split
  · exact h.setJob
  · exact h

theorem Keeps.withdrawAsk (h : Keeps a s) {q : ℕ} : Keeps a (withdrawAsk s q) := h.withdrawLatest

theorem Keeps.flushPosts (h : Keeps a s) : Keeps a (flushPosts s) := h.update.foldl (fun _ _ h6 => h6.workRecord)

theorem Keeps.finishJob (h : Keeps a s) {tag status : ℕ} {reason fault : ℕ} : Keeps a (finishJob s tag status reason fault) := by
  unfold Machine.finishJob
  split
  · exact h
  · extract_lets s1 hs s2 s3 _ s4 pid c0 c1 s5 s6 s7
    have h2 : Keeps a s2 := h.discardWork.flushPosts.completeHands.foldl fun _ _ ht => ht.dropGrant
    clear_value s2
    have h4 : Keeps a s4 := h2.detachTir.update
    clear_value s4
    have h7 : Keeps a s7 := (h4.foldl fun _ _ ht => ht.workRecord).workRecord.planLeave.seriesEnd
    exact Keeps.ite h7 h7.withdrawAsk

theorem Keeps.jobFaultRec (h : Keeps a s) {tag : ℕ} {j : Job} {block kind : ℕ} {status reason : ℕ} {cls inst : ℕ} {addr info : ℕ} {o :
    Owner} :
    Keeps a (jobFaultRec s tag j block kind status reason cls inst addr info o) :=
  h.faultRec

theorem Keeps.faultJob (h : Keeps a s) {tag block : ℕ} {kind status : ℕ} {reason cls : ℕ} {inst addr info : ℕ} :
    Keeps a (faultJob s tag block kind status reason cls inst addr info) := by
  unfold Machine.faultJob
  dsimp only
  split
  · exact h
  · exact h.jobFaultRec.finishJob

theorem Keeps.violation (h : Keeps a s) {tag cls inst : ℕ} : Keeps a (violation s tag cls inst) := by
  unfold Machine.violation
  dsimp only
  split
  · exact h
  · exact h.jobFaultRec.fbump.finishJob

theorem Keeps.abortJob (h : Keeps a s) {tag : ℕ} : Keeps a (abortJob s tag) := h.faultJob

theorem Keeps.badAddress (h : Keeps a s) {tag addr : ℕ} : Keeps a (badAddress s tag addr) := h.faultJob

theorem Keeps.ueJob (h : Keeps a s) {tag w : ℕ} : Keeps a (ueJob s tag w) := h.countUE.faultJob

theorem Keeps.chargeUnit (h : Keeps a s) {cls unit pid : ℕ} : Keeps a (chargeUnit s cls unit pid) := by
  unfold Machine.chargeUnit
  dsimp only
  split
  · exact h.update
  · exact h.update.fbump

theorem Keeps.useRange (h : Keeps a s) {dom x n : ℕ} : Keeps a (useRange s dom x n) := h.uLoad

theorem Keeps.putCmd (h : Keeps a s) {cls inst : ℕ} {c : Cmd} : Keeps a (putCmd s cls inst c) := h.setCmds

theorem Keeps.endCmd (h : Keeps a s) {cls inst : ℕ} {c : Cmd} {status reason : ℕ} {count spec : ℕ} :
    Keeps a (endCmd s cls inst c status reason count spec) :=
  h.putCmd

theorem Keeps.stopCmd (h : Keeps a s) {cls inst : ℕ} {c : Cmd} {x : Stop} : Keeps a (stopCmd s cls inst c x) := by
  unfold Machine.stopCmd
  split
  · exact h.badAddress
  · exact h.ueJob
  · exact h.violation
  · exact h.faultJob
  · exact h.endCmd

theorem Keeps.engineOn (h : Keeps a s) {sel : Option Cmd} {cls inst : Nat} {kind : EngKind} {op : Nat} {body : State → Cmd → Work State}
    (hb : ∀ c p, body s c = .ok p → Keeps a p) : Keeps a (engineOn sel cls inst kind op body s) := by
  unfold Machine.engineOn
  split
  · exact h
  · refine Keeps.ite h ?_
    split
    · rename_i hw
      cases hc : startChecks s cls inst _ with
      | error => rw [hc] at hw; cases hw
      | ok => rw [hc] at hw; exact hb _ _ hw
    · exact h.stopCmd

theorem Keeps.engine (h : Keeps a s) {cls inst : Nat} {kind : EngKind} {op : Nat} {body : State → Cmd → Work State}
    (hb : ∀ c p, body s c = .ok p → Keeps a p) : Keeps a (engine cls inst kind op body s) := h.engineOn hb

theorem Keeps.sendCand (h : Keeps a s) {lane share : ℕ} {tag src : ℕ} {i : BitVec 192} : Keeps a (sendCand s lane share tag src i) :=
  h.setLane.drawShare

theorem Keeps.pulseTok (h : Keeps a s) {t : Token} {inc : ℕ} : Keeps a (pulseTok s t inc) := Keeps.ite h h.pulseCtr

theorem Keeps.writeResult (h : Keeps a s) {cls inst : ℕ} {t : Token} {off : ℕ} {w : List Byte} {f : State → State} (hf : ∀ t, Keeps a t →
    Keeps a (f t)) :
    Keeps a (writeResult s cls inst t off w f) := by
  unfold Machine.writeResult
  split
  · exact hf _ h
  · split
    · rename_i hw
      exact hf _ (h.uWrite _ hw)
    · exact h.badAddress
    · exact h.violation

theorem Keeps.completeCmd (h : Keeps a s) {cls inst : ℕ} {c : Cmd} : Keeps a (completeCmd s cls inst c) := by
  unfold Machine.completeCmd
  extract_lets s1 done
  have h1 : Keeps a s1 := h.setCmds
  have hdone : ∀ t, Keeps a t → Keeps a (done t) := fun t ht => (Keeps.ite ht ht.pulseTok).sweepGrants.flushPosts
  exact Keeps.ite (hdone _ h1) (h1.writeResult hdone)

theorem Keeps.spx (h : Keeps a s) {q : BitVec 7} {f : Spx} {opc steps : Nat} {body : State → Nat → Job → State}
    (hb : ∀ t tag j, Keeps a t → Keeps a (body t tag j)) : Keeps a (spx q f opc steps body s) := by
  unfold Machine.spx
  split
  · exact h
  · split
    · exact h
    · exact Keeps.ite h (Keeps.ite h.ueJob (Keeps.ite h.abortJob (hb _ _ _ h.setJob)))

theorem Keeps.retire (h : Keeps a s) {f : Spx} {tag : ℕ} {j : Job} {g : Ctx → Ctx} : Keeps a (retire f s tag j g) := h.setJob

theorem Keeps.pureOp (h : Keeps a s) {q : BitVec 7} {f : Spx} {opc steps : ℕ} {g : Ctx → Ctx} : Keeps a (pureOp q f opc steps g s) :=
  h.spx (fun _ _ _ h12 => h12.retire)

theorem Keeps.tileLoad (h : Keeps a s) {f : Spx} {align size : ℕ} {g : Ctx → List Byte → Ctx} {tag : ℕ} {j : Job} :
    Keeps a (tileLoad f align size g s tag j) := by
  unfold Machine.tileLoad
  split
  · exact h.violation
  · exact Keeps.ite h.ueJob h.retire

theorem Keeps.tileStore (h : Keeps a s) {f : Spx} {align : ℕ} {bs : Ctx → List Byte} {size tag : ℕ} {j : Job} :
    Keeps a (tileStore f align bs size s tag j) := by
  unfold Machine.tileStore
  split
  · exact h.violation
  · exact h.tileWrite.retire

theorem Keeps.intakeDraw (h : Keeps a s) {dom : ℕ} : Keeps a (intakeDraw s dom) := h.update

theorem Keeps.intakeGive (h : Keeps a s) {dom : ℕ} : Keeps a (intakeGive s dom) := h.update

theorem Keeps.police (h : Keeps a s) {dom : ℕ} : Keeps a (police s dom).2 := by
  unfold Machine.police
  dsimp only
  split
  · exact h
  · exact h.update

theorem Keeps.newTag (h : Keeps a s) : Keeps a (newTag s).2 := h.update

theorem Keeps.refuseEntry (h : Keeps a s) {sq status reason : ℕ} {i : List Byte} : Keeps a (refuseEntry s sq status reason i) := h.jobRecord

theorem Keeps.policedEntry (h : Keeps a s) {sq dom : ℕ} {i : List Byte} : Keeps a (policedEntry s sq dom i) := h.dspCount.jobRecord

theorem Keeps.placeOn (h : Keeps a s) {q : Pend} {q1 : ℕ} : Keeps a (placeOn s q q1) := h.intakeGive.update

theorem Keeps.endSysop (h : Keeps a s) {q : Pend} {status reason : ℕ} : Keeps a (endSysop s q status reason) :=
  h.update.intakeGive.workRecord

theorem Keeps.planLoad (h : Keeps a s) {q : Pend} : Keeps a (planLoad s q) := by
  unfold Machine.planLoad
  dsimp only
  refine Keeps.ite h.endSysop (Keeps.ite h.endSysop ?_)
  split
  · refine Keeps.ite h.endSysop ?_
    split
    · exact h.endSysop
    · exact h.update.endSysop
  · exact h.endSysop

theorem Keeps.planUnload (h : Keeps a s) {q : Pend} : Keeps a (planUnload s q) := by
  unfold Machine.planUnload
  dsimp only
  split
  · exact Keeps.ite h.endSysop h.update.planLeave.endSysop
  · exact h.endSysop

theorem Keeps.lrankLoadTable (h : Keeps a s) {chan : ℕ} : Keeps a (lrankLoadTable chan s) := by
  unfold Machine.lrankLoadTable
  dsimp only
  refine h.engineOn (fun _ _ e => ?_)
  split at e
  · cases e
  · split at e
    · cases e
      exact h.useRange.update.endCmd
    · cases e
      exact h.update.endCmd
    · cases e

theorem Keeps.scSettle (h : Keeps a s) {chan id : ℕ} : Keeps a (scSettle s chan id) := by
  unfold Machine.scSettle
  dsimp only
  refine Keeps.ite h ?_
  split
  · exact h
  · exact h.putCmd

theorem Keeps.failEntry (h : Keeps a s) {w : ScoreEnt} {status reason : ℕ} : Keeps a (failEntry s w status reason) := by
  unfold Machine.failEntry
  dsimp only
  refine (Keeps.ite ((Keeps.ite (Keeps.fbump ?_) ?_).fbump) (Keeps.ite (Keeps.fbump ?_) ?_)).scSettle
  · split
    · exact h.update.putCmd
    · exact h.update
  · split
    · exact h.update.putCmd
    · exact h.update
  · split
    · exact h.update.putCmd
    · exact h.update
  · split
    · exact h.update.putCmd
    · exact h.update

theorem Keeps.scoreEntry (h : Keeps a s) {w : ScoreEnt} {mismatch : Bool} : Keeps a (scoreEntry s w mismatch) := by
  unfold Machine.scoreEntry
  dsimp only
  split
  · exact h.failEntry
  · refine Keeps.ite h.failEntry ?_
    split
    · exact h.failEntry
    · refine Keeps.ite h.chargeUnit.failEntry ?_
      split
      · exact h.update
      · split
        · exact h.stopCmd
        · exact Keeps.ite h h.update.putCmd.sendCand.scSettle

theorem Keeps.queueRead (h : Keeps a s) {dom x : ℕ} {job share : ℕ} : Keeps a (queueRead s dom x job share) := by
  unfold Machine.queueRead
  dsimp only
  split
  · exact h.writeBack
  · exact Keeps.ite h.writeBack h.writeBack.update

theorem Keeps.giveEntries (h : Keeps a s) {chan : ℕ} {c : Cmd} {x : Index} {lane share fshare : ℕ} {ents : List WorkEnt} :
    Keeps a (giveEntries s chan c x lane share fshare ents) := by
  unfold Machine.giveEntries
  dsimp only
  refine h.foldl (fun _ _ h13 => ?_)
  split
  · exact Keeps.ite (Keeps.ite h13.putCmd.fbump h13.putCmd) h13
  · refine Keeps.ite (Keeps.ite (Keeps.ite h13.putCmd.fbump h13.putCmd) h13) (Keeps.ite h13 ?_)
    split
    · exact Keeps.ite h13.putCmd.fbump h13.putCmd
    · exact Keeps.ite h13.update.queueRead h13.update.queueRead.queueRead

theorem Keeps.trimAsks (h : Keeps a s) : Keeps a (trimAsks s) := Keeps.ite h.withdrawLatest h

theorem Keeps.jobPlacement (h : Keeps a s) : Keeps a (jobPlacement s) := by
  unfold Machine.jobPlacement
  dsimp only
  refine Keeps.ite h ?_
  split
  · exact h
  · refine Keeps.ite h.update.intakeGive.trimAsks.workRecord.seriesEnd ?_
    split
    · exact h.placeOn.trimAsks
    · exact h

theorem Keeps.deadlineReached (h : Keeps a s) {tag : W32} : Keeps a (deadlineReached tag s) := by
  unfold Machine.deadlineReached
  split
  · exact Keeps.ite h.finishJob h
  · exact h

theorem Keeps.pendingJobLate (h : Keeps a s) {tag : W32} : Keeps a (pendingJobLate tag s) := by
  unfold Machine.pendingJobLate
  dsimp only
  split
  · exact h
  · exact h.update.intakeGive.trimAsks.workRecord

theorem Keeps.takenLate (h : Keeps a s) {tag : W32} {slot : ℕ} : Keeps a (takenLate tag slot s) := by
  unfold Machine.takenLate
  split
  · exact h
  · split
    · exact h
    · exact Keeps.ite h.setJob.workRecord h

theorem Keeps.resumed (h : Keeps a s) {tag : ℕ} : Keeps a (resumed s tag) := by
  unfold Machine.resumed
  dsimp only
  split
  · exact h
  · split
    · exact h.setJob.update
    · exact h.setJob

theorem Keeps.grantHeld (h : Keeps a s) {x : Held} : ∀ p, grantHeld s x = some p → Keeps a p := by
  intro p e
  unfold Machine.grantHeld at e
  dsimp only at e
  split at e
  · cases e
  · split at e
    · obtain ⟨_, hr, rfl⟩ := Option.map_eq_some_iff.1 e
      exact (h.regrantAll _ hr).update.resumed
    · obtain ⟨_, hr, rfl⟩ := Option.map_eq_some_iff.1 e
      exact (h.claimPhase _ hr).update.modJob

theorem Keeps.heldClaimGrant (h : Keeps a s) : Keeps a (heldClaimGrant s) := by
  unfold Machine.heldClaimGrant
  extract_lets order isOpen
  cases hg : isOpen.findSome? (Machine.grantHeld s) with
  | none => exact h
  | some t =>
    obtain ⟨x, -, hx⟩ := List.exists_of_findSome?_eq_some hg
    exact h.grantHeld _ hx

theorem Keeps.seqWatchdogAbort (h : Keeps a s) {q : BitVec 7} : Keeps a (seqWatchdogAbort q s) := by
  unfold Machine.seqWatchdogAbort
  split
  · exact h
  · split
    · exact h
    · exact Keeps.ite h.fbump.faultJob h

theorem Keeps.seqOverrun (h : Keeps a s) {q : BitVec 7} : Keeps a (seqOverrun q s) := by
  unfold Machine.seqOverrun
  split
  · exact h
  · split
    · exact h
    · exact Keeps.ite h.setJob.fbump h

theorem Keeps.makeWayRequest (h : Keeps a s) : Keeps a (makeWayRequest s) := by
  unfold Machine.makeWayRequest
  dsimp only
  split
  · exact h
  · exact Keeps.ite h.setJob.makeWay h.setJob

theorem Keeps.jobResume (h : Keeps a s) {ue : Bool} : Keeps a (jobResume ue s) := by
  unfold Machine.jobResume
  dsimp only
  refine Keeps.ite h ?_
  split
  · exact h
  · refine Keeps.ite h.ueJob ?_
    split
    · exact h
    · exact Keeps.ite h.setJob.update.resumed h.setJob.update

theorem Keeps.claimBody (h : Keeps a s) {f : Spx} {tag : ℕ} {j : Job} : Keeps a (claimBody f s tag j) := by
  unfold Machine.claimBody
  extract_lets pl phase ents
  split
  · exact h.violation
  · split
    · rename_i hc
      exact (h.claimPhase _ hc).modJob
    · exact Keeps.ite h.update.waitJob h.modJob

theorem Keeps.handBody (h : Keeps a s) {f : Spx} {kind tag : ℕ} {j : Job} : Keeps a (handBody f kind s tag j) := by
  unfold Machine.handBody
  dsimp only
  split
  · exact h.violation
  · exact Keeps.ite h.violation h.retire

theorem Keeps.hand (h : Keeps a s) {q : BitVec 7} {f : Spx} {kind : ℕ} : Keeps a (hand q f kind s) :=
  Keeps.ite (h.spx (fun _ _ _ h10 => h10.handBody)) h

theorem Keeps.pushCmd (h : Keeps a s) {cls inst : ℕ} {t : Token} : Keeps a (pushCmd s cls inst t) := h.setCmds.update

theorem Keeps.pushRank (h : Keeps a s) {t : Token} {stack word : ℕ} {banks : List ℕ} : Keeps a (pushRank t s stack word banks) :=
  h.update.foldl (fun _ _ h10 => h10.setNbu)

theorem Keeps.sendTokens (h : Keeps a s) {k : EngKind} {t : Token} {tag : ℕ} {insts : List ℕ} : Keeps a (sendTokens k t tag insts s) :=
  Keeps.ite (h.foldl (fun _ _ h10 => h10.pushRank)) (Keeps.ite (h.foldl (fun _ _ h10 => h10.pushCmd)) (h.foldl (fun _ _ h10 =>
    h10.pushCmd)))

/-- What an issue sends out. -/
theorem Keeps.tryIssue (h : Keeps a s) {k : EngKind} {f : Spx} {tag : ℕ} {j : Job} : ∀ n p, tryIssue k f s tag j = .sent n p → Keeps a p :=
    by
  intro n p e
  unfold Machine.tryIssue at e
  split at e
  · cases e
  · dsimp only at e
    split at e
    · cases e
    · split at e
      · cases e
      · split at e
        · cases e
        · cases e; exact h.sendTokens

theorem Keeps.issueBody (h : Keeps a s) {k : EngKind} {f : Spx} {tag : ℕ} {j : Job} : Keeps a (issueBody k f s tag j) := by
  unfold Machine.issueBody
  split
  · exact h.violation
  · exact h.waitJob
  · rename_i e
    exact (h.tryIssue _ _ e).retire

theorem Keeps.reissue (h : Keeps a s) {k : EngKind} {f : Spx} {tag : ℕ} {j : Job} : Keeps a (reissue k f s tag j) := by
  unfold Machine.reissue
  split
  · exact h.violation
  · exact h
  · rename_i e
    exact (h.tryIssue _ _ e).modJob

theorem Keeps.issue (h : Keeps a s) {k : EngKind} {q : BitVec 7} {f : Spx} : Keeps a (issue k q f s) :=
  h.spx (fun _ _ _ h10 => h10.issueBody)

theorem Keeps.dropOp (h : Keeps a s) {tag : ℕ} : Keeps a (dropOp s tag) := h.update

theorem Keeps.jobReply (h : Keeps a s) {tag : ℕ} {o : FabOp} {q : Pkt} : Keeps a (jobReply s tag o q) :=
  Keeps.ite h.dropOp.giveShare.modJob h.dropOp.giveShare.modJob.pulseCtr

theorem Keeps.pushFails (h : Keeps a s) {tag : ℕ} {o : FabOp} : Keeps a (pushFails s tag o) := h.dropEgress.sendSys.jobReply

theorem Keeps.launch (h : Keeps a s) {queue : ℕ} {op : FabOp} : Keeps a (launch s queue op) :=
  Keeps.ite (Keeps.ite (Keeps.ite ((h.update.foldl (fun _ _ h8 => h8.sendPkt)).update) (((h.update.foldl (fun _ _ h8 =>
    h8.sendPkt)).update).pushFails)) (h.update.foldl (fun _ _ h8 => h8.sendPkt))) h.sendPkt.update

/-- What a fabric instruction sends out. -/
theorem Keeps.tryFabric (h : Keeps a s) {k : FabKind} {f : Spx} {tag : ℕ} {j : Job} : ∀ p, tryFabric k f s tag j = .sent p → Keeps a p := by
  intro p e
  unfold Machine.tryFabric at e
  dsimp only at e
  split at e
  · cases e
  · split at e
    · cases e
    · split at e
      · cases e
      · split at e
        · cases e
        · split at e
          · cases e
          · cases e; exact h.drawShare.modJob.launch

theorem Keeps.fabricBody (h : Keeps a s) {k : FabKind} {f : Spx} {tag : ℕ} {j : Job} : Keeps a (fabricBody k f s tag j) := by
  unfold Machine.fabricBody
  split
  · exact h.violation
  · exact h.badAddress
  · exact h.waitJob
  · rename_i e
    exact (h.tryFabric _ e).modJob

theorem Keeps.refabric (h : Keeps a s) {k : FabKind} {f : Spx} {tag : ℕ} {j : Job} : Keeps a (refabric k f s tag j) := by
  unfold Machine.refabric
  split
  · exact h.violation
  · exact h.badAddress
  · exact h
  · rename_i e
    exact (h.tryFabric _ e).modJob

theorem Keeps.fabric (h : Keeps a s) {k : FabKind} {q : BitVec 7} {f : Spx} : Keeps a (fabric k q f s) :=
  h.spx (fun _ _ _ h10 => h10.fabricBody)

theorem Keeps.tirCmd (h : Keeps a s) {tag op : Nat} {form : Cmd → Bool} {body : State → Cmd → Work State}
    (hb : ∀ c p, body s c = .ok p → Keeps a p) : Keeps a (tirCmd tag op form body s) := by
  unfold Machine.tirCmd
  split
  · exact h
  · refine Keeps.ite h ?_
    split
    · rename_i hw
      cases hc : tirChecks s _ with
      | error => rw [hc] at hw; cases hw
      | ok => rw [hc] at hw; exact hb _ _ hw
    · exact h.stopCmd

theorem Keeps.endTir (h : Keeps a s) {tag : ℕ} {c : Cmd} {status reason : ℕ} {count spec : ℕ} :
    Keeps a (endTir s tag c status reason count spec) := by
  unfold Machine.endTir
  split
  · exact h.endCmd
  · exact h.setCmds

theorem Keeps.endTirId (h : Keeps a s) {id status : ℕ} {reason count spec : ℕ} : Keeps a (endTirId s id status reason count spec) := by
  unfold Machine.endTirId
  split
  · exact h.endTir
  · exact h

theorem Keeps.setIndex (h : Keeps a s) {i : ℕ} {x : Index} : Keeps a (setIndex s i x) := h.update

theorem Keeps.backPages (h : Keeps a s) {dom x : Nat} {okBank : Nat → Bool} {n : Nat} :
    ∀ p, backPages s dom x okBank n = some p → Keeps a p := by
  induction n with
  | zero => intro p e; cases e; exact h
  | succ n ih =>
    intro p e
    unfold Machine.backPages at e
    split at e
    · cases e
    · have hk := ih _ ‹_›
      dsimp only at e
      split at e
      · cases e; exact hk
      · obtain ⟨_, halloc, rfl⟩ := Option.map_eq_some_iff.1 e
        exact (hk.allocFrame _ halloc).setPage

theorem Keeps.areaAlloc (h : Keeps a s) {i : ℕ} {flash : Bool} {n al : ℕ} {okBank : ℕ → Bool} :
    ∀ p, areaAlloc s i flash n al okBank = some p → Keeps a p.2 := by
  intro p e
  unfold Machine.areaAlloc at e
  dsimp only at e
  split at e
  · cases e
  · split at e
    · cases e
      exact h.freeNext.setIndex
    · obtain ⟨_, e', e⟩ := Option.map_eq_some_iff.1 e
      subst e
      dsimp only
      exact h.freeNext.setIndex.backPages _ ‹_›

theorem Keeps.areaFree (h : Keeps a s) {i x : ℕ} : Keeps a (areaFree s i x) := by
  unfold Machine.areaFree
  dsimp only
  split
  · exact h
  · exact Keeps.ite h.setIndex.flashDrop (h.setIndex.foldl (fun _ _ h14 => Keeps.ite h14 h14.dropCopy))

/-- A bound loop that may stop keeps what each of its rounds keeps. -/
theorem Keeps.foldlBind {α : Type} (h : Keeps a s) {f : α → State → Option State} (hf : ∀ x t p, Keeps a t → f x t = some p → Keeps a p)
    {l : List α} : ∀ p, l.foldl (fun (o : Option State) x => o.bind (f x)) (some s) = some p → Keeps a p := by
  refine foldl_some_of (P := Keeps a) (fun o x ho p e => ?_) (fun p e => by cases e; exact h)
  obtain ⟨t, rfl, ht⟩ := Option.bind_eq_some_iff.1 e
  exact hf x t p (ho t rfl) ht

theorem Keeps.flashPages (h : Keeps a s) {dom x : ℕ} {bs : List Byte} : ∀ p, flashPages s dom x bs = some p → Keeps a p :=
  h.foldlBind fun _ _ p ht e => ht.flashWrite p e

theorem Keeps.dirPut (h : Keeps a s) {x : Index} {k : ℕ} {b : List Byte} : Keeps a (dirPut s x k b) := h.uPoke

theorem Keeps.newHaze (h : Keeps a s) {i l : ℕ} : ∀ p, newHaze s i l = some p → Keeps a p.2 := by
  intro p e
  unfold Machine.newHaze at e
  dsimp only at e
  obtain ⟨⟨_, _⟩, e', e⟩ := Option.map_eq_some_iff.1 e
  subst e
  dsimp only
  exact (h.areaAlloc _ ‹_›).uPoke

theorem Keeps.setBatch (h : Keeps a s) {b : ℕ} {v : Batch} : Keeps a (setBatch s b v) := h.update

theorem Keeps.openBatch (h : Keeps a s) {tag i : ℕ} : Keeps a (openBatch s tag i).2.2 := by
  unfold Machine.openBatch
  dsimp only
  split
  · exact h
  · exact h.update

theorem Keeps.putPages (h : Keeps a s) {i per : ℕ} {l : List (List Byte)} : ∀ p, putPages s i per l = some p → Keeps a p.2 := by
  intro p e
  unfold Machine.putPages at e
  dsimp only at e
  split at e
  · cases e
    exact h
  · split at e
    · cases e
    · obtain ⟨_, e', e⟩ := Option.map_eq_some_iff.1 e
      subst e
      dsimp only
      exact (h.areaAlloc _ ‹_›).flashPages _ ‹_›

theorem Keeps.hotPage (h : Keeps a s) {i bank : ℕ} {es : List (ℕ × List Byte)} : ∀ p, hotPage s i bank es = some p → Keeps a p.2 := by
  intro p e
  unfold Machine.hotPage at e
  dsimp only at e
  split at e
  · cases e
  · split at e
    · cases e
    · cases e
      exact (h.areaAlloc _ ‹_›).uPoke

theorem Keeps.setMerge (h : Keeps a s) {k : ℕ} {m : MergeRec} : Keeps a (setMerge s k m) := h.update

theorem Keeps.journal (h : Keeps a s) : Keeps a (journal s).2 := h.update

theorem Keeps.mergeSwap (h : Keeps a s) {tag : ℕ} : Keeps a (mergeSwap tag s) := by
  unfold Machine.mergeSwap
  dsimp only
  refine h.tirCmd (fun _ _ e => ?_)
  obtain ⟨_, -, e⟩ := work_bind e
  obtain ⟨_, -, e⟩ := work_bind e
  split at e
  · cases e
    exact h.endTir
  · cases e
    exact h.journal.setMerge.putCmd

theorem Keeps.mergeClose (h : Keeps a s) {tag : ℕ} : Keeps a (mergeClose tag s) := by
  unfold Machine.mergeClose
  dsimp only
  refine h.tirCmd (fun _ _ e => ?_)
  obtain ⟨_, -, e⟩ := work_bind e
  obtain ⟨_, -, e⟩ := work_bind e
  split at e
  · cases e
    exact h
  · cases e
    refine Keeps.endTir ?_
    split
    · exact h.update.journal.jobRecord
    · exact h.update.journal

theorem Keeps.swapFails (h : Keeps a s) {k : ℕ} {m : MergeRec} : Keeps a (swapFails s k m) :=
  (Keeps.ite h.update h.setMerge.fbump).foldl (fun _ _ h8 => h8.endTirId)

theorem Keeps.freeSeg (h : Keeps a s) {i : ℕ} {rest : List Seg} {g : Seg} : Keeps a (freeSeg s i rest g) := by
  unfold Machine.freeSeg
  extract_lets +onlyGivenNames dom free
  have hfree : ∀ x used t, Keeps a t → Keeps a (free x used t) := fun x used t ht => Keeps.ite ht ht.areaFree
  clear_value free
  extract_lets -underBinder hotPages s1
  have h1 : Keeps a s1 := h.foldl fun _ _ ht => ht.areaFree
  exact hfree _ _ _ (hfree _ _ _ (hfree _ _ _ (hfree _ _ _ (hfree _ _ _ h1))))

theorem Keeps.reclaim (h : Keeps a s) {k x : ℕ} : Keeps a (reclaim s k x) :=
  (((Keeps.ite (h.foldl (fun _ _ h8 => h8.freeSeg)) (((h.foldl (fun _ _ h8 => h8.freeSeg)).foldl (fun _ _ h8 =>
    h8.areaFree)).areaFree)).areaFree).uPoke).update

theorem Keeps.reclaimAll (h : Keeps a s) {n : ℕ} : Keeps a (reclaimAll n s) := by
  induction n generalizing s with
  | zero => exact h
  | succ n ih =>
    unfold Machine.reclaimAll
    dsimp only
    split
    · exact ih h.reclaim
    · exact h

theorem Keeps.commitMsg (h : Keeps a s) {ty node : ℕ} {id index : ℕ} {payload : List Byte} :
    Keeps a (commitMsg s ty node id index payload) :=
  h.sendSys

theorem Keeps.failCommit (h : Keeps a s) {b : ℕ} {v : Batch} {status reason : ℕ} {sent : Bool} {except : List ℕ} :
    Keeps a (failCommit s b v status reason sent except) := by
  unfold Machine.failCommit
  dsimp only
  split
  · exact (Keeps.ite (h.setBatch.update.foldl (fun _ _ h17 => h17.commitMsg)) h.setBatch.update).endTirId
  · exact Keeps.ite (h.setBatch.update.foldl (fun _ _ h16 => h16.commitMsg)) h.setBatch.update

theorem Keeps.putEpoch (h : Keeps a s) {c : Cmd} {i : ℕ} : Keeps a (putEpoch s c i) := by
  unfold Machine.putEpoch
  dsimp only
  refine Keeps.ite h ?_
  split
  · exact h.uWrite _ ‹_›
  · exact h.badAddress
  · exact h.violation

theorem Keeps.decide1 (h : Keeps a s) {b : ℕ} {v : Batch} : Keeps a (decide1 s b v) :=
  Keeps.ite h (Keeps.ite h.failCommit (Keeps.ite h.failCommit (Keeps.ite h.setBatch (Keeps.ite h.failCommit (((Keeps.ite h.rset
    h).setBatch).foldl (fun _ _ h8 => h8.commitMsg))))))

theorem Keeps.markBatch (h : Keeps a s) {v : Batch} {i : ℕ} : Keeps a (markBatch s v i) := by
  unfold Machine.markBatch
  dsimp only
  refine (h.foldl (fun _ _ h8 => h8.uPoke)).foldl (fun _ _ h8 => ?_)
  split
  · exact h8
  · exact Keeps.ite h8.dirPut (Keeps.ite h8 h8.dirPut)

theorem Keeps.leaveBatch (h : Keeps a s) {b : ℕ} {v : Batch} {i : ℕ} : Keeps a (leaveBatch s b v i) := by
  unfold Machine.leaveBatch
  dsimp only
  split
  · exact h.update
  · split
    · split
      · exact h.update.putEpoch.endTir
      · exact h.update.endTir
    · exact h.update

theorem Keeps.releaseBatch (h : Keeps a s) {b : ℕ} {v : Batch} : Keeps a (releaseBatch s b v) := by
  unfold Machine.releaseBatch
  dsimp only
  refine (h.foldl (fun _ _ h8 => ?_)).update
  split
  · exact h8
  · exact h8.dirPut

theorem Keeps.sweepDirectory (h : Keeps a s) {i : ℕ} : Keeps a (sweepDirectory s i) := h.foldl (fun _ _ h7 => Keeps.ite h7.dirPut h7)

theorem Keeps.applyOverrides (h : Keeps a s) : Keeps a (applyOverrides s) := h.update

theorem Keeps.keepReserve (h : Keeps a s) : Keeps a (keepReserve s) := Keeps.ite h.update h

theorem Keeps.replicaAck (h : Keeps a s) {src id : ℕ} {tags refusal : ℕ} : Keeps a (replicaAck src id tags refusal s) := by
  unfold Machine.replicaAck
  split
  · exact h
  · exact Keeps.ite h (Keeps.ite h.failCommit (Keeps.ite h.failCommit (Keeps.ite h.failCommit h.setBatch)))

theorem Keeps.commitNotice (h : Keeps a s) {src id : ℕ} : Keeps a (commitNotice src id s) := by
  unfold Machine.commitNotice
  split
  · exact Keeps.ite h.commitMsg h
  · exact (Keeps.ite h.setBatch h).commitMsg

theorem Keeps.noticeAck (h : Keeps a s) {src id : ℕ} : Keeps a (noticeAck src id s) := by
  unfold Machine.noticeAck
  split
  · exact Keeps.ite h.setBatch h
  · exact h

theorem Keeps.discardNotice (h : Keeps a s) {src id : ℕ} : Keeps a (discardNotice src id s) := by
  unfold Machine.discardNotice
  split
  · exact Keeps.ite h.setBatch h
  · exact h

theorem Keeps.commitTimeout (h : Keeps a s) {id : ℕ} : Keeps a (commitTimeout id s) := by
  unfold Machine.commitTimeout
  dsimp only
  split
  · exact h
  · exact Keeps.ite h h.failCommit

theorem Keeps.outcomeQueryTimer (h : Keeps a s) {id : ℕ} : Keeps a (outcomeQueryTimer id s) := by
  unfold Machine.outcomeQueryTimer
  split
  · exact h
  · exact Keeps.ite h (Keeps.ite h.setBatch (Keeps.ite h h.setBatch.commitMsg))

theorem Keeps.outcomeQuery (h : Keeps a s) {src id : ℕ} : Keeps a (outcomeQuery src id s) := by
  unfold Machine.outcomeQuery
  split
  · refine Keeps.ite h ?_
    split
    · exact h.commitMsg
    · exact h.commitMsg
    · exact h
  · exact Keeps.ite h.commitMsg h.commitMsg

theorem Keeps.pinCmd (h : Keeps a s) {tag : ℕ} : Keeps a (pinCmd tag s) := by
  unfold Machine.pinCmd
  dsimp only
  refine h.tirCmd (fun _ _ e => ?_)
  obtain ⟨_, -, e⟩ := work_bind e
  obtain ⟨_, -, e⟩ := work_bind e
  split at e
  · cases e
    exact h.fbump.endTir
  · cases e
    exact h.update.endTir

theorem Keeps.unpinCmd (h : Keeps a s) {tag : ℕ} : Keeps a (unpinCmd tag s) := by
  unfold Machine.unpinCmd
  dsimp only
  refine h.tirCmd (fun _ _ e => ?_)
  obtain ⟨_, -, e⟩ := work_bind e
  cases e
  exact h.update.endTir

theorem Keeps.epochLatch (h : Keeps a s) : Keeps a (epochLatch s) := h.update

theorem Keeps.holdLatch (h : Keeps a s) : Keeps a (holdLatch s) := h.update

theorem Keeps.noteMove (h : Keeps a s) {id moved skipped : ℕ} {abandoned : Bool} : Keeps a (noteMove s id moved skipped abandoned) := by
  unfold Machine.noteMove
  split
  · exact h
  · exact h.putCmd

theorem Keeps.movesEnd (h : Keeps a s) {id : ℕ} : Keeps a (movesEnd s id) := by
  unfold Machine.movesEnd
  dsimp only
  split
  · exact h
  · exact Keeps.ite h h.update.endTir

theorem Keeps.fillPage (h : Keeps a s) {k : ℕ} : Keeps a (fillPage s k) := h.foldl (fun _ _ h7 => h7.fillTile)

theorem Keeps.movePage (h : Keeps a s) {m : PageMove} : Keeps a (movePage s m) := by
  unfold Machine.movePage
  dsimp only
  split
  · exact h.update.noteMove
  · exact Keeps.ite (Keeps.ite h.update (Keeps.ite h.update.noteMove (Keeps.ite h.update.setPage.startMig
        h.update.setPage.startMig.noteMove))) (Keeps.ite (Keeps.ite h.update h.update.fillPage.noteMove) (Keeps.ite (Keeps.ite h.update
        (Keeps.ite ((Keeps.ite h.update h.update.writeBack).noteMove) (((Keeps.ite h.update h.update.writeBack).dropCopy).noteMove)))
        (Keeps.ite h.update h.update.noteMove)))

theorem Keeps.runMoves (h : Keeps a s) : Keeps a (runMoves s) :=
  (h.foldl (fun _ _ h6 => Keeps.ite h6.movePage h6)).foldl (fun _ _ h6 => h6.movesEnd)

theorem Keeps.applyWaiting (h : Keeps a s) {k : ℕ} {ws : List (ℕ × List Byte)} : Keeps a (applyWaiting s k ws) :=
  h.foldl (fun _ _ h8 => h8.uPoke)

theorem Keeps.abandonMig (h : Keeps a s) {k : ℕ} {m : Mig} : Keeps a (abandonMig s k m) :=
  (((Keeps.ite (h.setPage.fbump.foldl (fun _ _ h8 => h8.flashPut)) h.setPage.fbump.applyWaiting).serveHeld).noteMove).runMoves

theorem Keeps.migrationPassEnd (h : Keeps a s) {k : ℕ} : Keeps a (migrationPassEnd k s) := by
  unfold Machine.migrationPassEnd
  dsimp only
  split
  · exact h
  · exact Keeps.ite h (Keeps.ite h.abandonMig (Keeps.ite h.setPage h.setPage))

theorem Keeps.writeHome (h : Keeps a s) {k : ℕ} {m : Mig} {bs : List Byte} : ∀ p, writeHome s k m bs = some p → Keeps a p := by
  intro p e
  unfold Machine.writeHome at e
  split at e
  · exact h.foldlBind (fun _ _ q ht hq => ht.flashWrite q hq) _ e
  · cases e; exact h.hostWrite
  · cases e; exact h.stkWrite
  · cases e

theorem Keeps.migrationFlip (h : Keeps a s) {k : ℕ} : Keeps a (migrationFlip k s) := by
  unfold Machine.migrationFlip
  dsimp only
  split
  · exact h
  · refine Keeps.ite h (Keeps.ite h.abandonMig ?_)
    split
    · exact h.abandonMig
    · exact ((((h.writeHome _ ‹_›).setPage).fset).applyWaiting).serveHeld

theorem Keeps.migrationDrain (h : Keeps a s) {k : ℕ} : Keeps a (migrationDrain k s) := by
  unfold Machine.migrationDrain
  dsimp only
  split
  · exact h
  · refine Keeps.ite h (((((Keeps.setPage ?_).applyWaiting).serveHeld).noteMove).runMoves)
    split
    · exact h.scrubFrame
    · exact Keeps.ite h.flashDrop h

theorem Keeps.updraftPage (h : Keeps a s) {tag : ℕ} : Keeps a (updraftPage tag s) := by
  unfold Machine.updraftPage
  dsimp only
  refine h.tirCmd (fun _ _ e => ?_)
  obtain ⟨_, -, e⟩ := work_bind e
  obtain ⟨_, -, e⟩ := work_bind e
  cases e
  exact h.putCmd.update.runMoves

theorem Keeps.homePages (h : Keeps a s) {r : Region} {l : List ℕ} : ∀ p, homePages r l s = some p → Keeps a p := by
  induction l generalizing s with
  | nil => intro p e; cases e; exact h
  | cons k l ih =>
    intro p e
    unfold Machine.homePages at e
    split at e
    · split at e
      · cases e
      · rename_i h1
        exact ih (h.allocFrame _ h1).setPage _ e
    · split at e
      · exact ih h.setPage _ e
      · cases e; exact h

theorem Keeps.invalidate (h : Keeps a s) {k : ℕ} : Keeps a (invalidate s k) := Keeps.ite h.dropCopy h

theorem Keeps.createRegion (h : Keeps a s) {dom : ℕ} {b : List Byte} : Keeps a (createRegion s dom b).2.2 := by
  unfold Machine.createRegion
  split
  · exact h
  · split
    · exact h
    · split
      · exact h
      · split
        · exact h
        · rename_i h1
          exact (h.homePages _ h1).update

theorem Keeps.dropRegion (h : Keeps a s) {id : ℕ} : Keeps a (dropRegion s id) := by
  unfold Machine.dropRegion
  dsimp only
  split
  · exact h
  · exact ((h.foldl (fun _ _ h12 => h12.dropCopy)).flashDrop).update

theorem Keeps.regionBegin (h : Keeps a s) {op : ℕ} : Keeps a (regionBegin op s) := Keeps.ite h h.fset.update

theorem Keeps.regionEffect (h : Keeps a s) {c : RegCmd} {busError : Bool} : Keeps a (regionEffect c busError s).2.2 := by
  unfold Machine.regionEffect
  dsimp only
  split
  · split
    · exact h.update
    · split
      · split
        · exact h.update.createRegion
        · split
          · exact h.update
          · exact h.update.dropRegion
        · exact h.update.foldl (fun _ _ h31 => h31.writeBack)
        · exact h.update.foldl (fun _ _ h31 => h31.invalidate)
        · exact h.update.foldl (fun _ _ h34 => h34.writeBack.invalidate)
      · exact h.update
  · exact h

theorem Keeps.regionWrite (h : Keeps a s) {op : ℕ} {v : W32} : Keeps a (regionWrite op v s) :=
  h.hostReg (fun _ h7 => Keeps.ite h7.regWritePlain.regionBegin h7.regWritePlain)

theorem Keeps.installIndex (h : Keeps a s) {dom i x : ℕ} : ∀ p, installIndex s dom i x = some p → Keeps a p := by
  intro p e
  unfold Machine.installIndex at e
  dsimp only at e
  split at e
  · cases e
  · split at e
    · cases e
    · split at e
      · cases e
      · cases e
        exact h.uPoke.uPoke.setIndex.rset

theorem Keeps.removeIndex (h : Keeps a s) {i : ℕ} : Keeps a (removeIndex s i) := ((h.foldl (fun _ _ h7 => h7.dropCopy)).flashDrop).update

theorem Keeps.indexBegin (h : Keeps a s) {op : ℕ} : Keeps a (indexBegin op s) := Keeps.ite h h.fset.update

theorem Keeps.indexEffect (h : Keeps a s) {c : RegCmd} : ∀ p, indexEffect c s = some p → Keeps a p := by
  intro p e
  unfold Machine.indexEffect at e
  dsimp only at e
  split at e
  · exact h.installIndex _ e
  · cases e
    exact h.removeIndex
  · split at e
    · cases e
      exact h.setIndex
    · cases e
  · split at e
    · cases e
      exact h.setIndex
    · cases e
  · cases e

theorem Keeps.indexComplete (h : Keeps a s) : Keeps a (indexComplete s) := by
  unfold Machine.indexComplete
  dsimp only
  split
  · exact h
  · refine ((Keeps.update ?_).fset).fset
    split
    · exact h.indexEffect _ ‹_›
    · exact h

theorem Keeps.indexWrite (h : Keeps a s) {op : ℕ} {v : W32} : Keeps a (indexWrite op v s) :=
  h.hostReg (fun _ h7 => Keeps.ite h7.regWritePlain.indexBegin h7.regWritePlain)

theorem Keeps.writeSpan (h : Keeps a s) {tag dom : ℕ} {q : Span} {bs : List Byte} : Keeps a (writeSpan s tag dom q bs) := by
  unfold Machine.writeSpan
  split
  · exact h.uPoke
  · exact h.hostWrite
  · split
    · exact h
    · exact h.tileWrite

theorem Keeps.touchSpan (h : Keeps a s) {dom : ℕ} {q : Span} : Keeps a (touchSpan s dom q) := by
  unfold Machine.touchSpan
  split
  · exact h.useRange
  · exact h.emit
  · exact h

theorem Keeps.pourSpans (h : Keeps a s) {tag dom : ℕ} {l : List Span} {bs : List Byte} : Keeps a (pourSpans tag dom l bs s) := by
  induction l generalizing s bs with
  | nil => exact h
  | cons p l ih => exact ih h.writeSpan

theorem Keeps.dmaCopy (h : Keeps a s) {op chan : ℕ} : Keeps a (dmaCopy op chan s) := by
  unfold Machine.dmaCopy
  dsimp only
  refine Keeps.ite h (h.engine (fun _ _ e => ?_))
  obtain ⟨_, -, e⟩ := work_bind e
  cases e
  exact (((Keeps.ite h h.freeNext).foldl (fun _ _ h13 => h13.touchSpan)).pourSpans).endCmd

theorem Keeps.partCopy (h : Keeps a s) {chan : ℕ} {keep : ℕ → Bool} : Keeps a (partCopy s chan keep) := by
  unfold Machine.partCopy
  dsimp only
  split
  · exact h
  · split
    · exact h
    · split
      · exact h
      · exact h.freeNext.freeNext.pourSpans

theorem Keeps.dmaBusError (h : Keeps a s) {chan idx addr : ℕ} {started : List ℕ} : Keeps a (dmaBusError chan idx addr started s) :=
  Keeps.ite h.fbump (Keeps.ite h ((((((((h.partCopy.foldl (fun _ _ h10 => h10.partCopy)).fset).fset).fset).fset).fset).foldl (fun _ _ h10
    => h10.faultJob)).devEvent))

theorem Keeps.dmaRestart (h : Keeps a s) : Keeps a (dmaRestart s) := h.fset

theorem Keeps.spoilRegions (h : Keeps a s) {cl : ℕ} : Keeps a (spoilRegions s cl) := h.foldl (fun _ _ h7 => h7.tileWrite.freeNext)

theorem Keeps.ovcRefuse (h : Keeps a s) {cl : ℕ} {kind : EngKind} {op : ℕ} : Keeps a (ovcRefuse cl kind op s) := by
  unfold Machine.ovcRefuse
  refine Keeps.ite ?_ h
  split
  · exact Keeps.ite h.fbump h
  · exact h

theorem Keeps.tileAgreed (h : Keeps a s) {cl tag : ℕ} {f : TileFault} : Keeps a (tileAgreed s cl tag f) := h.fbump.chargeUnit

theorem Keeps.tileFailed (h : Keeps a s) {cl : ℕ} {c : Cmd} {f : TileFault} : Keeps a (tileFailed s cl c f) := h.fbump.faultRec

theorem Keeps.productEnd (h : Keeps a s) {cl : ℕ} {proj : Bool} {bad : Option TileFault} {c : Cmd} {q : Product} :
    Keeps a (productEnd cl proj bad s c q) := by
  unfold Machine.productEnd
  dsimp only
  refine ((Keeps.pulseTok ?_).spoilRegions).putCmd
  split
  · exact Keeps.ite ((Keeps.ite h.fbump h).tileFailed) (Keeps.ite ((Keeps.ite h.fbump h).tileAgreed) (Keeps.ite h.fbump h))
  · exact Keeps.ite h.fbump h

theorem Keeps.setRowCmd (h : Keeps a s) {id : ℕ} {r : RowCmd} : Keeps a (setRowCmd s id r) := h.update

theorem Keeps.dropRowCmd (h : Keeps a s) {id : ℕ} : Keeps a (dropRowCmd s id) := h.update

theorem Keeps.setRowQueue (h : Keeps a s) {i : ℕ} {l : List RowReq} : Keeps a (setRowQueue s i l) := h.update

theorem Keeps.pushRow (h : Keeps a s) {r : RowReq} : Keeps a (pushRow s r) := h.setRowQueue

theorem Keeps.endGather (h : Keeps a s) {inst : ℕ} {c : Cmd} {r : RowCmd} : Keeps a (endGather s inst c r) := by
  unfold Machine.endGather
  extract_lets +onlyGivenNames dom dfltBad ans get put s1 s2 dflts s3
  have hput : ∀ t k row, Keeps a t → Keeps a (put t k row) := fun _ _ _ ht => ht.uPoke
  clear_value put
  have h1 : Keeps a s1 := by
    refine Keeps.ite (h.foldl fun t i ht => ?_) (h.foldl fun t b ht => Keeps.ite ht (hput _ _ _ ht))
    cases get i with
    | none => exact ht
    | some row => exact hput _ _ _ ht
  clear_value s1
  have h2 : Keeps a s2 := Keeps.ite (h1.foldl fun _ _ ht => Keeps.ite ht.uPoke ht) h1
  clear_value s2
  have h3 : Keeps a s3 := Keeps.ite h2.countUE.faultRec h2
  exact h3.fadd.dropRowCmd.endCmd

theorem Keeps.endScatter (h : Keeps a s) {inst : ℕ} {c : Cmd} {r : RowCmd} : Keeps a (endScatter s inst c r) := h.dropRowCmd.endCmd

theorem Keeps.tryEndRows (h : Keeps a s) {inst id : ℕ} : Keeps a (tryEndRows s inst id) := by
  unfold Machine.tryEndRows
  split
  · exact Keeps.ite h (Keeps.ite h.endGather h.endScatter)
  · exact h

theorem Keeps.answerRow (h : Keeps a s) {inst id : ℕ} {x : RowAns} : Keeps a (answerRow s inst id x) := by
  unfold Machine.answerRow
  split
  · exact h.setRowCmd.tryEndRows
  · exact h

theorem Keeps.serveRow (h : Keeps a s) {r : RowReq} : Keeps a (serveRow s r).2 := by
  unfold Machine.serveRow
  dsimp only
  split
  · exact h
  · exact h.countUE
  · split
    · exact h.useRange
    · split
      · exact h.useRange.fbump
      · split
        · exact h.useRange.uWrite _ ‹_›
        · exact h
        · exact h

theorem Keeps.copyRow (h : Keeps a s) {r : RowReq} {v : ℕ} {present : Bool} {row : List Byte} : Keeps a (copyRow s r v present row) :=
  h.foldl (fun _ _ h10 => Keeps.ite h10 h10.sendSys.update)

theorem Keeps.replyRow (h : Keeps a s) {r : RowReq} {o : RowOut} : Keeps a (replyRow s r o) := by
  unfold Machine.replyRow
  dsimp only
  split
  · refine Keeps.sendSys ?_
    split
    · exact Keeps.ite h h.keepRecord
    · exact Keeps.ite h h.keepRecord
    · exact h
  · split
    · exact h
    · split
      · exact h.badAddress
      · exact h.violation
      · exact h.faultRec.answerRow
      · exact h.answerRow
      · exact Keeps.ite h.answerRow h.answerRow

theorem Keeps.rowServe (h : Keeps a s) {i : ℕ} : Keeps a (rowServe i s) := by
  unfold Machine.rowServe
  dsimp only
  split
  · exact h
  · refine Keeps.ite ?_ (Keeps.replyRow ?_)
    · split
      · exact h.setRowQueue.answerAgain
      · exact h
    · split
      · exact Keeps.ite h.setRowQueue.serveRow h.setRowQueue.serveRow.copyRow
      · exact h.setRowQueue.serveRow

theorem Keeps.badPkt (h : Keeps a s) : Keeps a (badPkt s) := h.fbump

theorem Keeps.policePkt (h : Keeps a s) {q : Pkt} {never : Bool} : Keeps a (policePkt s q never).2 := by
  unfold Machine.policePkt
  dsimp only
  split
  · exact h
  · exact h.update

theorem Keeps.serve (h : Keeps a s) {w : Window} {q : Pkt} : ∀ p, serve s w q = some p → Keeps a p := by
  intro p e
  unfold Machine.serve at e
  dsimp only at e
  split at e
  · cases e
    exact h.pushRow
  · split at e
    · cases e
      exact h.fabApply
    · split at e
      · exact h.deferPut _ e
      · split at e
        · split at e
          · split at e
            · split at e
              · cases e
                exact h.fabApply
              · exact h.deferPut _ e
            · split at e
              · cases e
              · cases e
                exact h.holdPkt
          · cases e
            exact h.fabApply
        · cases e
          exact h.fabApply

theorem Keeps.judge (h : Keeps a s) {q : Pkt} : ∀ p, judge s q = some p → Keeps a p := by
  intro p e
  unfold Machine.judge at e
  dsimp only at e
  split at e
  · cases e
    exact (Keeps.ite h.update h).sendSys
  · split at e
    · cases e
    · cases e
      exact h.holdPkt
  · split at e
    · cases e
    · exact (Keeps.ite h.update h).serve _ e

theorem Keeps.moreSegs (h : Keeps a s) {q : Pkt} {c : CopyIn} : ∀ p, moreSegs s q c = some p → Keeps a p := by
  intro p e
  unfold Machine.moreSegs at e
  dsimp only at e
  split at e
  · cases e
    exact Keeps.ite h.update.sendSys h.update
  · split at e
    · cases e
      exact h.sendSys
    · exact h.update.policePkt.serve _ e

theorem Keeps.dropCopyIn (h : Keeps a s) {key : ℕ} : Keeps a (dropCopyIn s key) := h.update

theorem Keeps.copyTimeout (h : Keeps a s) {key : ℕ} : Keeps a (copyTimeout key s) := by
  unfold Machine.copyTimeout
  dsimp only
  split
  · exact h
  · exact Keeps.ite h (Keeps.ite h.dropCopyIn h.dropCopyIn.fbump)

theorem Keeps.recordExpiry (h : Keeps a s) {key : ℕ} : Keeps a (recordExpiry key s) := by
  unfold Machine.recordExpiry
  dsimp only
  split
  · exact h
  · exact Keeps.ite h h.update

theorem Keeps.windowBegin (h : Keeps a s) {op : ℕ} : Keeps a (windowBegin op s) := Keeps.ite h h.fset.update

theorem Keeps.windowEffect (h : Keeps a s) {c : RegCmd} : Keeps a (windowEffect c s).2.2 := by
  unfold Machine.windowEffect
  dsimp only
  split
  · split
    · exact h
    · split
      · exact h
      · split
        · split
          · exact h.update
          · exact h
        · split
          · exact h
          · split
            · exact h
            · split
              · exact h
              · exact h.update
  · exact h

theorem Keeps.windowWrite (h : Keeps a s) {op : ℕ} {v : W32} : Keeps a (windowWrite op v s) :=
  h.hostReg (fun _ h7 => Keeps.ite h7.regWritePlain.windowBegin h7.regWritePlain)

theorem Keeps.setLink (h : Keeps a s) {q : ℕ} {l : Link} : Keeps a (setLink s q l) := h.update

theorem Keeps.countPorts (h : Keeps a s) : Keeps a (countPorts s) := h.fset.fset

theorem Keeps.linkChange (h : Keeps a s) {q : ℕ} : Keeps a (linkChange s q) := h.devEvent

theorem Keeps.portState (h : Keeps a s) {q st lanes : ℕ} : Keeps a (portState s q st lanes) := h.fset.fset.fset.countPorts.linkChange

theorem Keeps.portService (h : Keeps a s) {q lanes : ℕ} : Keeps a (portService s q lanes) :=
  Keeps.ite h.portState (Keeps.ite h.portState (Keeps.ite h.portState h.portState))

theorem Keeps.portTrain (h : Keeps a s) {q : ℕ} {qualify : Bool} : Keeps a (portTrain s q qualify) := h.setLink.portState

theorem Keeps.portTrainingDone (h : Keeps a s) {q lanes : ℕ} {direct : Bool} {peer : ℕ} {peerValid authOk : Bool} :
    Keeps a (portTrainingDone q lanes direct peer peerValid authOk s) :=
  Keeps.ite h (Keeps.ite h.fset.fset.setLink.portState (Keeps.ite h.fset.fset.setLink.portState h.fset.fset.setLink.portService))

theorem Keeps.qualificationComplete (h : Keeps a s) {q pass : ℕ} : Keeps a (qualificationComplete q pass s) := Keeps.ite h h.portService

theorem Keeps.linkLoss (h : Keeps a s) {q : ℕ} : Keeps a (linkLoss q s) :=
  Keeps.ite h (Keeps.ite h.setLink.portState.portState h.setLink.portState.fbump.portTrain)

theorem Keeps.frameReceive (h : Keeps a s) {q : ℕ} {crcOk authOk : Bool} : Keeps a (frameReceive q crcOk authOk s) :=
  Keeps.ite h (Keeps.ite h.setLink (Keeps.ite (((Keeps.ite h.fbump h).setLink).linkLoss) ((Keeps.ite h.fbump h).setLink)))

theorem Keeps.rekey (h : Keeps a s) {q : ℕ} {rx : Bool} : Keeps a (rekey q rx s) :=
  Keeps.ite h (Keeps.ite (Keeps.ite h.setLink h) (Keeps.ite h.setLink h))

theorem Keeps.pathNotice (h : Keeps a s) {q node : ℕ} : Keeps a (pathNotice q node s) := Keeps.ite h h.update

theorem Keeps.pathRestored (h : Keeps a s) {q node : ℕ} : Keeps a (pathRestored q node s) := h.update

theorem Keeps.endToEndReplay (h : Keeps a s) {tag : ℕ} : Keeps a (endToEndReplay tag s) := by
  unfold Machine.endToEndReplay
  dsimp only
  split
  · exact h
  · exact Keeps.ite h (Keeps.ite ((h.foldl (fun _ _ h12 => h12.sendPkt)).update) h.sendPkt.update)

theorem Keeps.retryPorts (h : Keeps a s) : Keeps a (retryPorts s) := h.foldl (fun _ _ h6 => Keeps.ite h6.portTrain h6)

theorem Keeps.holdPorts (h : Keeps a s) : Keeps a (holdPorts s) := h.foldl (fun _ _ h6 => Keeps.ite h6.setLink h6.setLink.portState)

theorem Keeps.portCmd (h : Keeps a s) {v : W32} : Keeps a (portCmd v s) :=
  Keeps.ite ((Keeps.ite h.regWritePlain.retryPorts h.regWritePlain).holdPorts) (Keeps.ite h.regWritePlain.retryPorts h.regWritePlain)

theorem Keeps.mapDone (h : Keeps a s) {st rs : ℕ} : Keeps a (mapDone s st rs) := h.fset.fset

theorem Keeps.sliceDefine (h : Keeps a s) : Keeps a (sliceDefine s) := by
  unfold Machine.sliceDefine
  dsimp only
  split
  · exact h.mapDone
  · exact Keeps.ite h.mapDone h.update.mapDone

theorem Keeps.setComp (h : Keeps a s) {k : ℕ} {c : Comp} : Keeps a (setComp s k c) := h.update

theorem Keeps.mapStage (h : Keeps a s) : Keeps a (mapStage s) := by
  unfold Machine.mapStage
  dsimp only
  split
  · exact h.mapDone
  · exact Keeps.ite h.mapDone (Keeps.ite h.mapDone h.setComp.mapDone)

theorem Keeps.pumpDrain (h : Keeps a s) {k : ℕ} : Keeps a (pumpDrain s k) := by
  unfold Machine.pumpDrain
  dsimp only
  split
  · exact h
  · exact Keeps.ite h ((Keeps.ite h (h.foldl (fun _ _ h12 => Keeps.ite h12 h12.sendSys))).setComp)

theorem Keeps.pumpDrains (h : Keeps a s) : Keeps a (pumpDrains s) := h.foldl (fun _ _ h6 => h6.pumpDrain)

theorem Keeps.launchLed (h : Keeps a s) {h1 : Handoff} {ty arg : ℕ} {operand compare : W64} :
    Keeps a (launchLed s h1 ty arg operand compare).2 :=
  h.launch

theorem Keeps.hoDone (h : Keeps a s) {h1 : Handoff} {st rs : ℕ} {entry : W64} : Keeps a (hoDone s h1 st rs entry) := by
  unfold Machine.hoDone
  dsimp only
  refine ((((Keeps.ite ?_ h).update).fset).fset).fset
  split
  · exact h.uWrite _ ‹_›
  · exact h

theorem Keeps.pumpOffer (h : Keeps a s) : Keeps a (pumpOffer s) := by
  unfold Machine.pumpOffer
  dsimp only
  split
  · exact h
  · exact Keeps.ite h h.sendSys.update

theorem Keeps.hoBegin (h : Keeps a s) {op : ℕ} : Keeps a (hoBegin op s) := by
  unfold Machine.hoBegin
  dsimp only
  refine Keeps.ite h ?_
  split
  · exact h.hoDone
  · exact Keeps.ite h.fset.update.pumpOffer h.fset.launchLed.update

theorem Keeps.hoCmd (h : Keeps a s) {v : W32} : Keeps a (hoCmd v s) := by
  unfold Machine.hoCmd
  dsimp only
  split
  · exact h.regWritePlain
  · exact h.regWritePlain.hoBegin
  · exact h.regWritePlain.hoBegin
  · exact Keeps.ite h.regWritePlain h.regWritePlain.hoDone

theorem Keeps.sendAccept (h : Keeps a s) {h1 : Handoff} {st : ℕ} {entry : W64} : Keeps a (sendAccept s h1 st entry) := h.sendSys

theorem Keeps.handoffTimeout (h : Keeps a s) : Keeps a (handoffTimeout s) := by
  unfold Machine.handoffTimeout
  dsimp only
  refine Keeps.foldl ?_ (fun _ _ h6 => Keeps.ite h6 h6.update.launchLed.update)
  split
  · exact Keeps.ite h.launchLed.update h
  · exact h

theorem Keeps.hoReply (h : Keeps a s) {tag : ℕ} {o : FabOp} {q : Pkt} : Keeps a (hoReply s tag o q) := by
  unfold Machine.hoReply
  dsimp only
  split
  · split
    · exact Keeps.ite (Keeps.ite h.hoDone h.hoDone) h
    · exact h
  · split
    · exact Keeps.ite h.hoDone h
    · exact h
  · split
    · exact h
    · exact Keeps.ite h.update.sendAccept h.update

theorem Keeps.afterOp (h : Keeps a s) : Keeps a (afterOp s) := h.pumpOffer.pumpDrains

theorem Keeps.orphanPulse (h : Keeps a s) {tag : ℕ} : Keeps a (orphanPulse s tag) := by
  unfold Machine.orphanPulse
  dsimp only
  split
  · exact h
  · exact h.update.pulseCtr

theorem Keeps.freeOp (h : Keeps a s) {tag : ℕ} {o : FabOp} : Keeps a (freeOp tag o s) := by
  unfold Machine.freeOp
  dsimp only
  refine Keeps.afterOp ?_
  split
  · split
    · exact Keeps.ite h.dropOp.dropEgress (Keeps.ite h.dropOp.dropEgress.hoDone h.dropOp.dropEgress.update)
    · exact h.dropOp.dropEgress
  · exact h.dropOp.dropEgress.giveShare

theorem Keeps.opTimeout (h : Keeps a s) {tag : ℕ} : Keeps a (opTimeout tag s) := by
  unfold Machine.opTimeout
  split
  · exact h
  · exact Keeps.ite h h.fbump.freeOp

theorem Keeps.retireCF (h : Keeps a s) {f : Spx} {tag : ℕ} {j : Job} {cf : Bool} : Keeps a (retireCF f s tag j cf) := h.retire

theorem Keeps.awaitBody (h : Keeps a s) {f : Spx} {tag : ℕ} {j : Job} : Keeps a (awaitBody f s tag j) := by
  unfold Machine.awaitBody
  dsimp only
  refine Keeps.ite (Keeps.ite h.retireCF (Keeps.ite h.waitJob h.violation)) (Keeps.ite h.violation (Keeps.ite h.abortJob ?_))
  split
  · exact h.violation
  · exact h.abortJob
  · exact h.retireCF
  · exact h.waitJob

theorem Keeps.awaitDone (h : Keeps a s) {tag : ℕ} {j : Job} : ∀ p, awaitDone s tag j = some p → Keeps a p := by
  intro p e
  unfold Machine.awaitDone at e
  split at e
  · split at e
    · cases e
      exact h.abortJob
    · cases e
      exact h.setJob
    · cases e
  · split at e
    · cases e
      exact h.setJob
    · cases e
  · cases e

theorem Keeps.fenceBody (h : Keeps a s) {f : Spx} {tag : ℕ} {j : Job} : Keeps a (fenceBody f s tag j) :=
  Keeps.ite h.setJob.retireCF h.setJob.waitJob

theorem Keeps.fenceEnd (h : Keeps a s) {tag : ℕ} {j : Job} : ∀ p, fenceEnd s tag j = some p → Keeps a p := by
  intro p e
  unfold Machine.fenceEnd at e
  split at e
  · split at e
    · cases e
      exact h.setJob
    · cases e
  · cases e

theorem Keeps.viewBind (h : Keeps a s) {f : Spx} {tag : ℕ} {j : Job} : Keeps a (viewBind f s tag j) := Keeps.ite h.retire h.violation

theorem Keeps.ardBody (h : Keeps a s) {f : Spx} {tag : ℕ} {j : Job} : Keeps a (ardBody f s tag j) := by
  unfold Machine.ardBody
  dsimp only
  split
  · exact h.violation
  · exact h.abortJob
  · exact h.retire

theorem Keeps.sqFetch (h : Keeps a s) {sq dom : ℕ} : Keeps a (sqFetch s sq dom).2 := h.fset.emit

theorem Keeps.extTimeout (h : Keeps a s) {q : BitVec 7} : Keeps a (extTimeout q s) := by
  unfold Machine.extTimeout
  split
  · exact h
  · split
    · exact h
    · refine Keeps.ite h ?_
      split
      · exact h.awaitDone _ ‹_›
      · split
        · exact h.fenceEnd _ ‹_›
        · exact h.setJob

theorem Keeps.postCompletionBody (h : Keeps a s) {f : Spx} {tag : ℕ} {j : Job} : Keeps a (postCompletionBody f s tag j) := by
  unfold Machine.postCompletionBody
  dsimp only
  split
  · exact Keeps.ite h.update.retire.flushPosts h.retire
  · exact h.retire

theorem Keeps.bar0BadAccess (h : Keeps a s) {isWrite : Bool} {off size : ℕ} : Keeps a (bar0BadAccess isWrite off size s) :=
  Keeps.ite h (Keeps.ite h.fbump h.fbump.emit)

theorem Keeps.hostLinkChange (h : Keeps a s) {speed width : ℕ} {flit : Bool} : Keeps a (hostLinkChange speed width flit s) :=
  Keeps.ite h (Keeps.ite (Keeps.ite h.fset.fset.fset.fset h.fset.fset.fset.fset.fbump) ((Keeps.ite h.fset.fset.fset.fset
    h.fset.fset.fset.fset.fbump).devEvent))

theorem Keeps.bar2Arrive (h : Keeps a s) {off n : ℕ} {data : Option (List Byte)} : Keeps a (bar2Arrive off n data s) :=
  h.wakeNode.update.bar2Pump

theorem Keeps.badDoorbell (h : Keeps a s) : Keeps a (badDoorbell s) := h.fbump

theorem Keeps.sqTail (h : Keeps a s) {q v : ℕ} : Keeps a (sqTail q v s) := Keeps.ite h.badDoorbell h.fset

theorem Keeps.sqDoorbell (h : Keeps a s) {q v : ℕ} : Keeps a (sqDoorbell q v s) := h.wakeNode.hostTurn (fun _ h7 => h7.sqTail)

theorem Keeps.eqHead (h : Keeps a s) {i v : ℕ} : Keeps a (eqHead s i v) := Keeps.ite h.badDoorbell h.fset.eqDrain

theorem Keeps.eqHeadDoorbell (h : Keeps a s) {q v : ℕ} : Keeps a (eqHeadDoorbell q v s) := Keeps.ite h.badDoorbell (Keeps.ite h h.eqHead)

theorem Keeps.eqDoorbell (h : Keeps a s) {q v : ℕ} : Keeps a (eqDoorbell q v s) := h.wakeNode.hostTurn (fun _ h7 => h7.eqHeadDoorbell)

theorem Keeps.sysEqHead (h : Keeps a s) {v : W32} : Keeps a (sysEqHead v s) := Keeps.ite h.badDoorbell h.regWritePlain.eqHead

theorem Keeps.endSeries (h : Keeps a s) {q : ℕ} : Keeps a (endSeries s q) := h.update

theorem Keeps.sqOff (h : Keeps a s) {q : ℕ} : Keeps a (sqOff s q) := h.fset.endSeries

theorem Keeps.sqCtl (h : Keeps a s) {v : W32} : Keeps a (sqCtl v s) :=
  Keeps.ite (Keeps.ite h h.sqOff) (Keeps.ite h.regWritePlain (Keeps.ite h.regWritePlain.fset h.regWritePlain.fset.fset.fset.rset))

theorem Keeps.msixTimer (h : Keeps a s) {i : ℕ} : Keeps a (msixTimer i s) := Keeps.ite h h.setEvq.msixSend

theorem Keeps.msixUnmask (h : Keeps a s) {v : ℕ} {addr : W64} {data : W32} : Keeps a (msixUnmask v addr data s) :=
  Keeps.ite h.update.msixSend h.update

theorem Keeps.msixWrite (h : Keeps a s) {v : ℕ} {addr : W64} {data : W32} : Keeps a (msixWrite v addr data s) :=
  h.hostTurn (fun _ h8 => h8.msixUnmask)

theorem Keeps.setLun (h : Keeps a s) {chan lun : ℕ} {v : Lun} : Keeps a (setLun s chan lun v) := h.update

theorem Keeps.setBlk (h : Keeps a s) {b : ℕ} {v : Blk} : Keeps a (setBlk s b v) := h.update

theorem Keeps.schedule (h : Keeps a s) {b why : ℕ} : Keeps a (schedule s b why) := Keeps.ite h h.setBlk

theorem Keeps.retireBlk (h : Keeps a s) {b : ℕ} : Keeps a (retireBlk s b) :=
  Keeps.ite ((Keeps.ite h.setBlk.fbump.update.unitFault h.setBlk.fbump.update).ovcSet) (Keeps.ite h.setBlk.fbump.update.unitFault
    h.setBlk.fbump.update)

theorem Keeps.relocate (h : Keeps a s) {mk : ℕ} {avoid : Option ℕ} : Keeps a (relocate s mk avoid) := by
  unfold Machine.relocate
  dsimp only
  split
  · exact h
  · split
    · exact h
    · exact h.setBlk.setLun.update

theorem Keeps.drainBlk (h : Keeps a s) {b : ℕ} : Keeps a (drainBlk s b) := Keeps.ite h (Keeps.ite h.retireBlk (Keeps.ite h h.setLun))

theorem Keeps.rewriteBlk (h : Keeps a s) {b : ℕ} : Keeps a (rewriteBlk s b) := (h.foldl (fun _ _ h7 => Keeps.ite h7 h7.relocate)).drainBlk

theorem Keeps.issueRead (h : Keeps a s) {chan lun : ℕ} {r : FRead} : Keeps a (issueRead s chan lun r) :=
  Keeps.ite h.setLun.setBlk.drawShare h.setLun.setBlk

theorem Keeps.lunReadIssue (h : Keeps a s) {chan lun : ℕ} {join : List ℕ} : Keeps a (lunReadIssue chan lun join s) := by
  unfold Machine.lunReadIssue
  dsimp only
  refine Keeps.ite h ?_
  split
  · exact h
  · refine h.issueRead.foldl (fun _ _ h14 => ?_)
    split
    · exact h14.issueRead
    · exact h14

theorem Keeps.losePage (h : Keeps a s) {r : FRead} {chan i : ℕ} : Keeps a (losePage s r chan i) := by
  unfold Machine.losePage
  dsimp only
  refine ((Keeps.fbump ?_).faultRec).schedule
  split
  · exact Keeps.ite h.update.fbump h
  · exact h

theorem Keeps.codewordDone (h : Keeps a s) {r : FRead} {chan : ℕ} {dec : List ℕ} {i : ℕ} : Keeps a (codewordDone r chan dec s i) :=
  Keeps.ite (Keeps.ite h.fbump.setBlk.losePage h.fbump.setBlk.schedule) (Keeps.ite h.schedule h)

theorem Keeps.deliverPage (h : Keeps a s) {r : FRead} {dec : List ℕ} {mismatch : Bool} : Keeps a (deliverPage r dec mismatch s) := by
  unfold Machine.deliverPage
  dsimp only
  refine h.foldl (fun _ _ h9 => ?_)
  split
  · exact h9.failEntry
  · exact Keeps.ite h9.failEntry (Keeps.ite h9.update.scoreEntry h9.update)

theorem Keeps.pageReadComplete (h : Keeps a s) {chan lun : ℕ} {dec : List ℕ} {mismatch : Bool} :
    Keeps a (pageReadComplete chan lun dec mismatch s) := by
  unfold Machine.pageReadComplete
  dsimp only
  split
  · exact h
  · exact Keeps.ite (((Keeps.ite h.setLun.giveShare h.setLun).foldl (fun _ _ h15 => h15.codewordDone)).deliverPage) ((Keeps.ite
        h.setLun.giveShare h.setLun).foldl (fun _ _ h15 => h15.codewordDone))

theorem Keeps.flashProgramComplete (h : Keeps a s) {chan lun : ℕ} {ok : Bool} : Keeps a (flashProgramComplete chan lun ok s) := by
  unfold Machine.flashProgramComplete
  dsimp only
  split
  · exact h
  · refine Keeps.ite h (Keeps.ite ?_ ?_)
    · split
      · exact h.setLun
      · exact Keeps.ite h.setLun (Keeps.ite h.setLun.update h.setLun.update.drainBlk)
    · split
      · exact h.setLun.schedule.setLun
      · exact h.setLun.schedule.setBlk.setLun.rewriteBlk

theorem Keeps.flashEraseComplete (h : Keeps a s) {chan lun : ℕ} {ok : Bool} : Keeps a (flashEraseComplete chan lun ok s) := by
  unfold Machine.flashEraseComplete
  dsimp only
  split
  · exact h
  · exact Keeps.ite h (Keeps.ite (Keeps.ite h.setLun.setBlk.fbump (Keeps.ite h.setLun.setBlk.fbump h.setLun.setBlk)) (Keeps.ite
        h.setLun.retireBlk h.setLun))

theorem Keeps.readDisturbLimit (h : Keeps a s) {b : ℕ} : Keeps a (readDisturbLimit b s) := Keeps.ite h.schedule h

theorem Keeps.patrolRead (h : Keeps a s) {b : ℕ} : Keeps a (patrolRead b s) :=
  Keeps.ite h (h.setLun.setBlk.foldl (fun _ _ h7 => h7.writeBack))

theorem Keeps.garbageCollection (h : Keeps a s) {chan lun : ℕ} : Keeps a (garbageCollection chan lun s) := by
  unfold Machine.garbageCollection
  dsimp only
  refine Keeps.ite h ?_
  split
  · exact h.rewriteBlk
  · split
    · exact h.setLun.rewriteBlk
    · split
      · exact h.setLun.schedule.rewriteBlk
      · exact h.setLun

theorem Keeps.readSuspend (h : Keeps a s) {chan lun : ℕ} : Keeps a (readSuspend chan lun s) := Keeps.ite h.setLun h

theorem Keeps.holdChannel (h : Keeps a s) {chan : ℕ} : Keeps a (holdChannel s chan) :=
  Keeps.ite h (Keeps.ite ((((h.update.foldl (fun _ _ h7 => h7.giveShare)).foldl (fun _ _ h7 => h7.failEntry)).unitFault).ovcSet)
    (((h.update.foldl (fun _ _ h7 => h7.giveShare)).foldl (fun _ _ h7 => h7.failEntry)).unitFault))

theorem Keeps.flsDiscard (h : Keeps a s) {v : W32} : Keeps a (flsDiscard v s) :=
  Keeps.ite h.regWritePlain (Keeps.ite h.regWritePlain.fset h.regWritePlain.fset.fset.update)

theorem Keeps.discardComplete (h : Keeps a s) : Keeps a (discardComplete s) := by
  unfold Machine.discardComplete
  dsimp only
  split
  · exact h.flashDrop.update.fset
  · exact h

theorem Keeps.limiterMove (h : Keeps a s) {governor : Bool} {achieved amount : ℕ} : Keeps a (limiterMove governor achieved amount s) :=
  Keeps.ite (Keeps.ite h h.update) (Keeps.ite h h.update)

theorem Keeps.paceWindow (h : Keeps a s) {cw ce iod : ℕ} {limited governed : Bool} : Keeps a (paceWindow cw ce iod limited governed s) :=
  Keeps.ite h h.fset.fset.fset.fset.update

theorem Keeps.clrMin (h : Keeps a s) {v : W32} : Keeps a (clrMin v s) := Keeps.ite h.fset h

theorem Keeps.ptpHeard (h : Keeps a s) {mgb : Bool} {o : W64} : Keeps a (ptpHeard s mgb o) := h.update

theorem Keeps.discipline (h : Keeps a s) {mgb : Bool} {o : W64} {rate : ℕ} : Keeps a (discipline s mgb o rate) :=
  h.fset.rset.fset.fset.update

theorem Keeps.setTime (h : Keeps a s) {t : ℕ} : Keeps a (setTime s t) := h.update

theorem Keeps.setFromMaster (h : Keeps a s) {mgb : Bool} : Keeps a (setFromMaster s mgb) := h.update.setTime.discipline

theorem Keeps.ptpMessage (h : Keeps a s) {mgb : Bool} {offset : W64} {rate : ℕ} : Keeps a (ptpMessage mgb offset rate s) :=
  Keeps.ite h (Keeps.ite h.ptpHeard (Keeps.ite h.ptpHeard.setFromMaster h.ptpHeard.discipline))

theorem Keeps.holdoverEntry (h : Keeps a s) : Keeps a (holdoverEntry s) := Keeps.ite h h.fset.fset.fset.update

theorem Keeps.grandmasterReturn (h : Keeps a s) {mgb : Bool} {offset : W64} {rate : ℕ} : Keeps a (grandmasterReturn mgb offset rate s) :=
  Keeps.ite h (Keeps.ite h.ptpHeard.discipline.unitFault h.ptpHeard.discipline)

theorem Keeps.ptpSwitchover (h : Keeps a s) {mgb : Bool} {rate : ℕ} : Keeps a (ptpSwitchover mgb rate s) := Keeps.ite h h.discipline.fset

theorem Keeps.timeLatch (h : Keeps a s) : Keeps a (timeLatch s) := h.rset.rset

theorem Keeps.seriesWrite (h : Keeps a s) {v : W32} : Keeps a (seriesWrite v s) := Keeps.ite h.regWritePlain.endSeries h.regWritePlain

theorem Keeps.polWrite (h : Keeps a s) {v : W32} : Keeps a (polWrite v s) := h.regWritePlain.update

theorem Keeps.countClear (h : Keeps a s) {r : Reg} : Keeps a (countClear r s) := h.rset

theorem Keeps.gateCancel (h : Keeps a s) {q : ℕ} : Keeps a (gateCancel s q) := by
  unfold Machine.gateCancel
  dsimp only
  split
  · exact Keeps.ite h.setPort.fset h
  · exact h

theorem Keeps.gateArm (h : Keeps a s) {q : ℕ} : Keeps a (gateArm s q) := Keeps.ite h.fset h.setPort.fset.fset

theorem Keeps.gateCtl (h : Keeps a s) {v : W32} : Keeps a (gateCtl v s) :=
  Keeps.ite h (Keeps.ite ((Keeps.ite h.regWritePlain.gateCancel h.regWritePlain).gateArm) (Keeps.ite h.regWritePlain.gateCancel
    h.regWritePlain))

theorem Keeps.gateWord (h : Keeps a s) {hi : Bool} {v : W32} : Keeps a (gateWord hi v s) := Keeps.ite h h.setPort

theorem Keeps.gateHorizonAt (h : Keeps a s) {q : ℕ} : Keeps a (gateHorizonAt q s) := by
  unfold Machine.gateHorizonAt
  dsimp only
  split
  · exact Keeps.ite h h.setPort.fset.fset
  · exact h

theorem Keeps.gateEdge (h : Keeps a s) {q : ℕ} : Keeps a (gateEdge q s) := by
  unfold Machine.gateEdge
  dsimp only
  split
  · exact Keeps.ite h h.setPort
  · exact h

theorem Keeps.putOnLine (h : Keeps a s) {q : ℕ} {k : Pkt} : Keeps a (putOnLine s q k) := h.emit.setLink

theorem Keeps.sendEgress (h : Keeps a s) {q : ℕ} {i : Egress} : Keeps a (sendEgress s q i) := by
  unfold Machine.sendEgress
  dsimp only
  split
  · exact h.putOnLine
  · split
    · exact h.update.putOnLine
    · exact h.putOnLine
    · exact h.pushFails.afterOp
    · exact h
  · exact h

theorem Keeps.egressServe (h : Keeps a s) {q : ℕ} : Keeps a (egressServe q s) := by
  unfold Machine.egressServe
  dsimp only
  refine Keeps.ite h ?_
  split
  · exact h
  · exact h.setPort.sendEgress

theorem Keeps.putSample (h : Keeps a s) {q : ℕ} : Keeps a (putSample s q) :=
  Keeps.ite h.fbump (Keeps.ite h.hostWrite.fset.update h.hostWrite.fset)

theorem Keeps.sampleTick (h : Keeps a s) : Keeps a (sampleTick s) := Keeps.ite h ((h.foldl (fun _ _ h6 => h6.putSample)).update)

theorem Keeps.sampleResume (h : Keeps a s) : Keeps a (sampleResume s) := h.update

theorem Keeps.smpCtl (h : Keeps a s) {v : W32} : Keeps a (smpCtl v s) :=
  Keeps.ite h.regWritePlain (Keeps.ite h.regWritePlain h.regWritePlain.rset.fset.update)

theorem Keeps.setDom (h : Keeps a s) {d : ℕ} {v : Dom} : Keeps a (setDom s d v) := h.update

theorem Keeps.domDone (h : Keeps a s) {st rs : ℕ} : Keeps a (domDone s st rs) := h.fset.fset.fset

theorem Keeps.domCreate (h : Keeps a s) {d part : ℕ} : Keeps a (domCreate s d part) :=
  Keeps.ite h.domDone (Keeps.ite h.domDone h.setDom.domDone)

theorem Keeps.domRelease (h : Keeps a s) {d : ℕ} : Keeps a (domRelease s d) :=
  Keeps.ite h.domDone (Keeps.ite h.domDone (Keeps.ite h.setDom.flashDrop.update.fset h.setDom.flashDrop.update.fset.wakeNode))

theorem Keeps.domBegin (h : Keeps a s) {op : ℕ} : Keeps a (domBegin op s) := by
  unfold Machine.domBegin
  dsimp only
  refine Keeps.ite h ?_
  split
  · exact h.domCreate
  · exact h.domRelease
  · exact h.domDone

theorem Keeps.domWrite (h : Keeps a s) {op : ℕ} {v : W32} : Keeps a (domWrite op v s) :=
  h.hostReg (fun _ h7 => Keeps.ite h7.regWritePlain.domBegin h7.regWritePlain)

theorem Keeps.domReleased (h : Keeps a s) : Keeps a (domReleased s) := by
  unfold Machine.domReleased
  dsimp only
  split
  · exact h
  · exact Keeps.ite h ((((h.foldl (fun _ _ h11 => h11.scrubTile.update)).setDom).update).domDone)

theorem Keeps.cfgSettle (h : Keeps a s) : Keeps a (cfgSettle s) := Keeps.ite h.fset h

theorem Keeps.cfgDrop (h : Keeps a s) : Keeps a (cfgDrop s) := by
  unfold Machine.cfgDrop
  dsimp only
  split
  · exact Keeps.ite h.update.fset h
  · exact h

theorem Keeps.cfgStage (h : Keeps a s) : Keeps a (cfgStage s) := Keeps.ite h.fset h.update.fset.fset

theorem Keeps.cfgCtl (h : Keeps a s) {v : W32} : Keeps a (cfgCtl v s) :=
  Keeps.ite ((Keeps.ite h.regWritePlain.cfgDrop h.regWritePlain).cfgStage) (Keeps.ite h.regWritePlain.cfgDrop h.regWritePlain)

theorem Keeps.cfgPublish (h : Keeps a s) : Keeps a (cfgPublish s) := by
  unfold Machine.cfgPublish
  dsimp only
  split
  · exact h
  · exact Keeps.ite h h.update.rset.rset.fset.cfgSettle

theorem Keeps.cfgGrace (h : Keeps a s) : Keeps a (cfgGrace s) := by
  unfold Machine.cfgGrace
  dsimp only
  split
  · exact h
  · exact Keeps.ite h (Keeps.ite h.update.cfgSettle h.update.fset.devEvent)

theorem Keeps.mgmtReply (h : Keeps a s) : Keeps a (mgmtReply s) := h.emit

theorem Keeps.selfFence (h : Keeps a s) {cause : ℕ} : Keeps a (selfFence cause s) := Keeps.ite h h.fset.fset.devEvent

theorem Keeps.heartbeat (h : Keeps a s) {m : Mgmt} : Keeps a (heartbeat m s) := Keeps.ite h h.update.fset

theorem Keeps.unfence (h : Keeps a s) : Keeps a (unfence s) := Keeps.ite h h.fset.fset

theorem Keeps.expel (h : Keeps a s) {n : ℕ} : Keeps a (expel n s) := Keeps.ite h.update.pumpDrains.selfFence h.update.pumpDrains

theorem Keeps.readmit (h : Keeps a s) {n : ℕ} : Keeps a (readmit n s) := h.update

theorem Keeps.leaseExpiry (h : Keeps a s) : Keeps a (leaseExpiry s) := Keeps.ite h h.update.selfFence

theorem Keeps.spdmMessage (h : Keeps a s) {msg : List Byte} : Keeps a (spdmMessage msg s) := (Keeps.ite h.update h.update.fset).emit

theorem Keeps.attestation (h : Keeps a s) {nonce : BitVec 256} : Keeps a (attestation nonce s) := h.emit

theorem Keeps.restoreByte (h : Keeps a s) {dom x : ℕ} {b : Byte} : Keeps a (restoreByte s dom x b) := Keeps.ite h h.uPut

theorem Keeps.preloadAll (h : Keeps a s) : Keeps a (preloadAll s) := h.foldl (fun _ _ h6 => h6.foldl (fun _ _ h9 => h9.fillPage))

theorem Keeps.freeFold (h : Keeps a s) {k : ℕ} {m : MergeRec} : Keeps a (freeFold s k m) := h.foldl (fun _ _ h8 => h8.freeSeg)

theorem Keeps.undoProg (h : Keeps a s) {g : Prog} : Keeps a (undoProg s g) :=
  Keeps.ite (Keeps.ite h.flashPut.setPage h.flashPut) ((Keeps.ite h.flashPut.setPage h.flashPut).update)

theorem Keeps.closeBlocks (h : Keeps a s) : Keeps a (closeBlocks s) := h.foldl (fun _ _ h6 => h6.schedule)

theorem Keeps.settleLuns (h : Keeps a s) : Keeps a (settleLuns s) :=
  h.foldl (fun _ _ h6 => Keeps.ite h6.setLun.flashEraseComplete h6.setLun.flashProgramComplete)

theorem Keeps.abortAll (h : Keeps a s) : Keeps a (abortAll s) := (h.foldl (fun _ _ h6 => h6.finishJob)).foldl (fun _ _ h6 => h6.workRecord)

theorem Keeps.warmStart (h : Keeps a s) : Keeps a (warmStart s) :=
  h.fset.fset.fset.fset.fset.fset.fset.fset.fset.fset.fset.countPorts.fset.fset.fset

theorem Keeps.dropFabric (h : Keeps a s) : Keeps a (dropFabric s) := h.update

theorem Keeps.stepDone (h : Keeps a s) {n st : ℕ} {rs value : ℕ} : Keeps a (stepDone s n st rs value) :=
  (((Keeps.ite h.update.fset.fset h.update.fset).fset).fset).devEvent

theorem Keeps.railsDone (h : Keeps a s) {rails ref warm : Bool} : Keeps a (railsDone rails ref warm s) :=
  Keeps.ite h.stepDone (Keeps.ite h.stepDone (Keeps.ite h.stepDone h.stepDone))

theorem Keeps.fusesDone (h : Keeps a s) {parity : Bool} : Keeps a (fusesDone parity s) :=
  Keeps.ite h.stepDone h.fset.fset.fset.fset.fset.stepDone

theorem Keeps.firstStageDone (h : Keeps a s) {ok : Bool} : Keeps a (firstStageDone ok s) := Keeps.ite h.stepDone h.update.stepDone

theorem Keeps.bistDone (h : Keeps a s) {bad : List (ℕ × ℕ)} : Keeps a (bistDone bad s) := h.update.stepDone

theorem Keeps.reportUnit (h : Keeps a s) {c u : ℕ} : Keeps a (reportUnit s c u) := h.freeNext.faultRec.devEvent

theorem Keeps.ymapDone (h : Keeps a s) : Keeps a (ymapDone s) :=
  Keeps.ite ((h.foldl (fun _ _ h6 => h6.reportUnit)).stepDone) ((h.foldl (fun _ _ h6 => h6.reportUnit)).stepDone)

theorem Keeps.imageDone (h : Keeps a s) {addr len : ℕ} {verifies : Bool} {busError : Option ℕ} :
    Keeps a (imageDone addr len verifies busError s) := by
  unfold Machine.imageDone
  dsimp only
  refine Keeps.ite h.stepDone ?_
  split
  · exact h.emit.freeNext.fset.fset.fset.fset.fset.stepDone
  · exact Keeps.ite h.emit.stepDone ((((Keeps.ite h.emit.update.fset h.emit.update).fset).fset).stepDone)

theorem Keeps.broadcastDone (h : Keeps a s) {ok : Bool} : Keeps a (broadcastDone ok s) :=
  Keeps.ite h.stepDone ((h.update.foldl (fun _ _ h7 => h7.fset)).stepDone)

theorem Keeps.admitChannels (h : Keeps a s) {q : FlashPart} {l : List ℕ} : Keeps a (admitChannels s q l) :=
  (h.foldl (fun _ _ h8 => h8.setBlk)).update

theorem Keeps.portsStart (h : Keeps a s) : Keeps a (portsStart s).1 := Keeps.ite h (h.foldl (fun _ _ h6 => h6.portTrain))

theorem Keeps.portsDone (h : Keeps a s) {start : ℕ} : Keeps a (portsDone start s) :=
  Keeps.ite h.stepDone (Keeps.ite h ((Keeps.ite (h.foldl (fun _ _ h7 => h7.portState)) h).stepDone))

theorem Keeps.lanesStart (h : Keeps a s) : Keeps a (lanesStart s).1 := h.foldl (fun _ _ h6 => h6.setLink)

theorem Keeps.lanesDone (h : Keeps a s) {warned : Bool} : Keeps a (lanesDone warned s) :=
  Keeps.ite h.stepDone (Keeps.ite h (Keeps.ite h.stepDone h.stepDone))

theorem Keeps.pcieDone (h : Keeps a s) : Keeps a (pcieDone s) := h.stepDone

theorem Keeps.timeStart (h : Keeps a s) : Keeps a (timeStart s).1 := by
  unfold Machine.timeStart
  dsimp only
  split
  · exact h.setTime
  · exact Keeps.ite h.setFromMaster h

theorem Keeps.timeDone (h : Keeps a s) {set : Bool} {due : ℕ} : Keeps a (timeDone set due s) :=
  Keeps.ite h.update.stepDone (Keeps.ite h.update.stepDone (Keeps.ite h h.update.stepDone))

theorem Keeps.readyDone (h : Keeps a s) : Keeps a (readyDone s) :=
  Keeps.ite h.stepDone (Keeps.ite h.stepDone (((Keeps.ite h.fset.fset h.fset).update).stepDone))

theorem Keeps.stepGo (h : Keeps a s) {n : ℕ} {run : StepRun} : Keeps a (stepGo n run s).1 := by
  unfold Machine.stepGo
  split
  · exact h.dmaRestart
  · exact h.portsStart
  · exact h.lanesStart
  · exact h.timeStart
  · exact h
  · exact h

theorem Keeps.setRank (h : Keeps a s) {i : ℕ} {r : RankCmd} : Keeps a (setRank s i r) := h.update

theorem Keeps.rankStop (h : Keeps a s) {i bank : ℕ} {status reason : ℕ} : Keeps a (rankStop s i bank status reason) := by
  unfold Machine.rankStop
  dsimp only
  split
  · exact h
  · exact Keeps.ite h h.setRank

theorem Keeps.rankEnd (h : Keeps a s) {i bank : ℕ} : Keeps a (rankEnd s i bank) := by
  unfold Machine.rankEnd
  split
  · exact h
  · exact h.setRank

theorem Keeps.startBank (h : Keeps a s) {i : ℕ} {r : RankCmd} {entry lo : ℕ} {hi bank : ℕ} : Keeps a (startBank s i r entry lo hi bank) :=
  (h.foldl (fun _ _ h12 => h12.stkWrite)).setNbu

theorem Keeps.beginNext (h : Keeps a s) {bank : ℕ} : Keeps a (beginNext s bank) := by
  unfold Machine.beginNext
  dsimp only
  split
  · split
    · exact h
    · refine Keeps.ite h ?_
      split
      · exact h
      · split
        · exact h
        · exact h.startBank
  · exact h

theorem Keeps.rankRefuse (h : Keeps a s) {i : ℕ} {r : RankCmd} {status reason stopped : ℕ} :
    Keeps a (rankRefuse s i r status reason stopped) :=
  (h.foldl (fun _ _ h11 => h11.setNbu)).setRank

theorem Keeps.rankStart (h : Keeps a s) {i : ℕ} {r : RankCmd} : Keeps a (rankStart s i r) := by
  unfold Machine.rankStart
  dsimp only
  split
  · exact h
  · split
    · exact h.rankRefuse
    · refine Keeps.ite h.rankRefuse (Keeps.ite h.violation ?_)
      split
      · exact h.badAddress
      · exact h.violation
      · exact h.violation
      · split
        · exact h.violation
        · exact h
        · refine Keeps.ite h.rankRefuse (Keeps.ite h ?_)
          split
          · exact h.badAddress
          · exact h.ueJob
          · exact (((Keeps.ite h h.useRange).setRank).foldl (fun _ _ h38 => h38.setNbu)).foldl (fun _ _ h38 => h38.beginNext)

theorem Keeps.rankCommand (h : Keeps a s) {stack : ℕ} : Keeps a (rankCommand stack s) := by
  unfold Machine.rankCommand
  split
  · exact h.rankStart
  · exact h

theorem Keeps.settleOwner (h : Keeps a s) {bank recalled : ℕ} : Keeps a (settleOwner s bank recalled) := by
  unfold Machine.settleOwner
  dsimp only
  split
  · split
    · exact h.setNbu.setOwner
    · exact h.setNbu.setOwner.foldl (fun _ _ h22 => h22.recallDone)
  · exact h.setNbu.setOwner
  · exact h.setNbu

theorem Keeps.abortNbu (h : Keeps a s) {bank i : ℕ} {kind info : ℕ} : Keeps a (abortNbu s bank i kind info) := by
  unfold Machine.abortNbu
  dsimp only
  split
  · exact h.setNbu.rankStop.settleOwner
  · exact h.setNbu.rankStop.settleOwner.faultRec.finishJob

theorem Keeps.ueNbu (h : Keeps a s) {bank i addr : ℕ} : Keeps a (ueNbu s bank i addr) := by
  unfold Machine.ueNbu
  dsimp only
  refine ((Keeps.faultRec ?_).fbump).fbump
  split
  · exact h.setNbu.setRank
  · exact h.setNbu

theorem Keeps.microOp (h : Keeps a s) {op bank : ℕ} {m : Mop} {col : Nbu → ℕ} {body : Nbu → MicroOut} :
    Keeps a (microOp op bank m col body s) := by
  unfold Machine.microOp
  dsimp only
  split
  · exact h
  · refine Keeps.ite h (Keeps.ite h.abortNbu ?_)
    split
    · exact h.abortNbu
    · exact h.ueNbu
    · exact h.setNbu

theorem Keeps.microPure (h : Keeps a s) {op bank : ℕ} {m : Mop} {f : Nbu → Nbu} : Keeps a (microPure op bank m f s) := h.microOp

theorem Keeps.microCol (h : Keeps a s) {op bank : ℕ} {m : Mop} {f : Nbu → W256 → Nbu} : Keeps a (microCol op bank m f s) := h.microOp

theorem Keeps.checkLane (h : Keeps a s) {bank : ℕ} {m : Mop} : Keeps a (checkLane bank m s) := by
  unfold Machine.checkLane
  dsimp only
  split
  · exact h
  · exact Keeps.ite h h.chargeUnit.setNbu

theorem Keeps.nbuEmit (h : Keeps a s) {bank : ℕ} {m : Mop} : Keeps a (nbuEmit bank m s) := by
  unfold Machine.nbuEmit
  dsimp only
  split
  · exact h
  · refine Keeps.ite h (Keeps.ite h.abortNbu ?_)
    split
    · exact h.setNbu
    · exact Keeps.ite h.setNbu.setRank (Keeps.ite h.setNbu.setRank.fbump h.setNbu.setRank)

theorem Keeps.completeRank (h : Keeps a s) {stack : ℕ} : Keeps a (completeRank s stack) := by
  unfold Machine.completeRank
  dsimp only
  split
  · exact h
  · exact Keeps.ite h.update (h.update.writeResult (fun _ h12 => h12.pulseTok.sweepGrants.flushPosts.foldl (fun _ _ h15 => h15.beginNext)))

theorem Keeps.lunsThrough (h : Keeps a s) : Keeps a (lunsThrough s) := h.update

theorem Keeps.spoilTests (h : Keeps a s) : Keeps a (spoilTests s) := by
  unfold Machine.spoilTests
  dsimp only
  split
  · exact (h.foldl (fun _ _ h11 => h11.setLink)).update
  · exact h.foldl (fun _ _ h10 => h10.setLink)

theorem Keeps.brownoutStart (h : Keeps a s) {rails : ℕ} : Keeps a (brownoutStart rails s) := by
  unfold Machine.brownoutStart
  dsimp only
  refine Keeps.ite h ?_
  split
  · exact h.update.fset
  · exact h.update.lunsThrough.spoilTests.fset.fset.fbump.devEvent

theorem Keeps.setCap (h : Keeps a s) {g : ℕ} : Keeps a (setCap s g) := h.update

theorem Keeps.governorWindow (h : Keeps a s) {power : ℕ} : Keeps a (governorWindow power s) :=
  Keeps.ite h (Keeps.ite h.fset.fset.update.freeNext.setCap (Keeps.ite h.fset.fset.update.freeNext.setCap h.fset.fset.update))

theorem Keeps.powerClr (h : Keeps a s) {v : W32} : Keeps a (powerClr v s) := Keeps.ite h.fset h

theorem Keeps.senseTj (h : Keeps a s) {die tj : ℕ} : Keeps a (senseTj s die tj) := h.fset.fset

theorem Keeps.setLevel (h : Keeps a s) {die level : ℕ} : Keeps a (setLevel s die level) := Keeps.ite h h.fset.fset.devEvent

theorem Keeps.watchCool (h : Keeps a s) : Keeps a (watchCool s) := h.update

theorem Keeps.heatCap (h : Keeps a s) : Keeps a (heatCap s) := Keeps.ite h h.update.setCap

theorem Keeps.thermalThrottle (h : Keeps a s) {die tj : ℕ} : Keeps a (thermalThrottle die tj s) :=
  Keeps.ite h ((Keeps.ite h.senseTj.watchCool.setLevel h.senseTj.watchCool).heatCap)

theorem Keeps.thermalEmergency (h : Keeps a s) {die tj : ℕ} : Keeps a (thermalEmergency die tj s) :=
  Keeps.ite h h.senseTj.watchCool.setLevel.fset.setCap.ovcSet

theorem Keeps.thermalNormal (h : Keeps a s) {die tj : ℕ} : Keeps a (thermalNormal die tj s) := Keeps.ite h h.senseTj.watchCool.setLevel

theorem Keeps.emergencyEnd (h : Keeps a s) : Keeps a (emergencyEnd s) := by
  unfold Machine.emergencyEnd
  dsimp only
  split
  · exact h
  · exact Keeps.ite h ((h.fset.foldl (fun _ _ h11 => h11.setLevel)).ovcClear)

theorem Keeps.thermClr (h : Keeps a s) {v : W32} : Keeps a (thermClr v s) := Keeps.ite h.fset h

theorem Keeps.writeAllBack (h : Keeps a s) : Keeps a (writeAllBack s) := h.foldl (fun _ _ h6 => h6.writeBack)

theorem Keeps.waketolWrite (h : Keeps a s) {v : W32} : Keeps a (waketolWrite v s) := Keeps.ite h.regWritePlain.wakeNode h.regWritePlain

theorem Keeps.stackHeldOut (h : Keeps a s) {k : ℕ} : Keeps a (stackHeldOut k s) :=
  Keeps.ite h (Keeps.ite h.update.faultRec.devEvent.ovcSet h.update.faultRec.devEvent)

theorem Keeps.patrolWord (h : Keeps a s) {k w : ℕ} : Keeps a (patrolWord s k w) := h.faultRec.fbump

theorem Keeps.stackPatrol (h : Keeps a s) {k : ℕ} : Keeps a (stackPatrol k s) := Keeps.ite h (h.update.foldl (fun _ _ h7 => h7.patrolWord))

theorem Keeps.takeSpare (h : Keeps a s) {c u : ℕ} : Keeps a (takeSpare s c u).1 := by
  unfold Machine.takeSpare
  dsimp only
  split
  · exact h.update
  · split <;> exact h.update

theorem Keeps.scaOut (h : Keeps a s) {cl : ℕ} : Keeps a (scaOut s cl) := Keeps.ite h.update.putOwner h.update

theorem Keeps.quarReport (h : Keeps a s) {cls u : ℕ} : Keeps a (quarReport s cls u) := h.faultRec.devEvent

theorem Keeps.quarantine (h : Keeps a s) {cls u : ℕ} : Keeps a (quarantine cls u s) := by
  unfold Machine.quarantine
  dsimp only
  refine Keeps.ite h ?_
  split
  · exact Keeps.ite h.update.quarReport.takeSpare h.update.quarReport.takeSpare.ovcSet
  · exact Keeps.ite h.update.quarReport.takeSpare h.update.quarReport.takeSpare.scaOut.ovcSet
  · exact h.update.quarReport

theorem Keeps.shdCtl (h : Keeps a s) {v : W32} : Keeps a (shdCtl v s) := Keeps.ite h.regWritePlain.update h.regWritePlain

theorem Keeps.lifecycle (h : Keeps a s) {v : W32} : Keeps a (lifecycle v s) :=
  Keeps.ite ((Keeps.ite h.regWritePlain.update.fset h.regWritePlain).fset) (Keeps.ite h.regWritePlain.update.fset h.regWritePlain)

theorem Keeps.engineComplete (h : Keeps a s) {cls inst : ℕ} : Keeps a (engineComplete cls inst s) := by
  unfold Machine.engineComplete
  refine Keeps.ite h.completeRank ?_
  split
  · exact h
  · exact h.completeCmd

theorem Keeps.jump (h : Keeps a s) {tag : ℕ} {j : Job} {g : Ctx → Ctx} : Keeps a (jump s tag j g) := h.setJob

theorem Keeps.stepFree (h : Keeps a s) {n : ℕ} : Keeps a (stepFree n s).1 := by
  unfold Machine.stepFree
  split
  · exact h.freeNext
  · exact h.freeNext
  · exact h.freeNext
  · exact h.freeNext
  · exact h
  · exact h.dmaRestart.freeNext
  · exact h.freeNext
  · exact h.freeNext
  · exact h.freeNext.freeNext
  · exact h.portsStart
  · exact h.lanesStart
  · exact h
  · exact h.timeStart
  · exact h.freeNext
  · exact h

theorem Keeps.domReg (h : Keeps a s) {r : Reg} {v : W32} : Keeps a (domReg r v s) := h.regWritePlain

theorem Keeps.pasidReg (h : Keeps a s) {v : W32} : Keeps a (pasidReg v s) := h.regWritePlain

theorem Keeps.heldReg (h : Keeps a s) {busy : Bool} {r : Reg} {v : W32} : Keeps a (heldReg busy r v s) := Keeps.ite h h.regWritePlain

theorem Keeps.setReg (h : Keeps a s) {r : Reg} {l : List Reg} {v : W32} : Keeps a (setReg r l v s) := Keeps.ite h.fset h.regWritePlain

theorem Keeps.clearReg (h : Keeps a s) {r : Reg} : Keeps a (clearReg r s) := h.rset

theorem Keeps.migReg (h : Keeps a s) {v : W32} : Keeps a (migReg v s) := Keeps.ite h.regWritePlain.fset h.regWritePlain

theorem Keeps.dmaReg (h : Keeps a s) {v : W32} : Keeps a (dmaReg v s) := Keeps.ite h.regWritePlain.dmaRestart h.regWritePlain

theorem Keeps.polReg (h : Keeps a s) {v : W32} : Keeps a (polReg v s) := Keeps.ite h.regWritePlain h

theorem Keeps.tenancyReg (h : Keeps a s) {v : W32} : Keeps a (tenancyReg v s) := Keeps.ite h.regWritePlain h.regWritePlain

theorem Keeps.latchRead (h : Keeps a s) {r : Reg} : Keeps a (latchRead r s) := by
  unfold Machine.latchRead
  split
  · exact h.epochLatch
  · exact h.holdLatch
  · exact h.timeLatch

theorem Keeps.alu (h : Keeps a s) {q : BitVec 7} {f : Spx} {opc steps : ℕ} {op : W64 → W64 → W64} {fl : Byte → W64 → W64 → Byte} :
    Keeps a (alu q f opc steps op fl s) :=
  h.pureOp

theorem Keeps.takeReports (h : Keeps a s) {k : ℕ} : Keeps a (takeReports s k) := by
  unfold Machine.takeReports
  dsimp only
  split
  · exact h
  · exact Keeps.ite h h.update.setLane

theorem Keeps.tilePut (h : Keeps a s) {rs : List ℕ} {bs : List Byte} : Keeps a (tilePut s rs bs) := by
  unfold Machine.tilePut
  refine h.foldl (fun _ _ h8 => ?_)
  split
  · exact h8.tileWrite
  · exact h8

theorem Keeps.selArm (h : Keeps a s) {inst : ℕ} {approx : Bool} : Keeps a (selArm inst approx s) := by
  unfold Machine.selArm
  dsimp only
  refine h.engine (fun _ _ e => ?_)
  obtain ⟨_, -, e⟩ := work_bind e
  obtain ⟨_, -, e⟩ := work_bind e
  split at e
  · obtain ⟨_, -, e⟩ := work_bind e
    obtain ⟨_, -, e⟩ := work_bind e
    cases e
    exact h.setLane.endCmd
  · obtain ⟨_, -, e⟩ := work_bind e
    obtain ⟨_, -, e⟩ := work_bind e
    cases e
    exact h.setLane.endCmd

theorem Keeps.mergePass (h : Keeps a s) {inst : ℕ} : Keeps a (mergePass inst s) := by
  unfold Machine.mergePass
  dsimp only
  refine h.engine (fun _ _ e => ?_)
  obtain ⟨_, -, e⟩ := work_bind e
  obtain ⟨_, -, e⟩ := work_bind e
  obtain ⟨_, -, e⟩ := work_bind e
  obtain ⟨_, -, e⟩ := work_bind e
  obtain ⟨_, -, e⟩ := work_bind e
  obtain ⟨_, -, e⟩ := work_bind e
  cases e
  exact ((h.uPoke.foldl (fun _ _ h32 => h32.uPoke)).setLane).endCmd

theorem Keeps.mergeSpillSort (h : Keeps a s) {inst : ℕ} : Keeps a (mergeSpillSort inst s) := by
  unfold Machine.mergeSpillSort
  dsimp only
  refine h.engine (fun _ _ e => ?_)
  obtain ⟨_, -, e⟩ := work_bind e
  obtain ⟨_, -, e⟩ := work_bind e
  obtain ⟨_, -, e⟩ := work_bind e
  obtain ⟨_, -, e⟩ := work_bind e
  cases e
  exact h.uPoke.freeNext.uPoke.endCmd

theorem Keeps.mergeCollective (h : Keeps a s) {inst : ℕ} : Keeps a (mergeCollective inst s) := by
  unfold Machine.mergeCollective
  dsimp only
  refine h.engine (fun _ _ e => ?_)
  obtain ⟨_, -, e⟩ := work_bind e
  obtain ⟨_, -, e⟩ := work_bind e
  obtain ⟨_, -, e⟩ := work_bind e
  obtain ⟨_, -, e⟩ := work_bind e
  obtain ⟨_, -, e⟩ := work_bind e
  obtain ⟨_, -, e⟩ := work_bind e
  obtain ⟨_, -, e⟩ := work_bind e
  obtain ⟨_, -, e⟩ := work_bind e
  split at e
  · obtain ⟨_, -, e⟩ := work_bind e
    cases e
    exact (h.uPoke.foldl (fun _ _ h46 => h46.uPoke)).endCmd
  · obtain ⟨_, -, e⟩ := work_bind e
    cases e
    exact (h.uPoke.foldl (fun _ _ h46 => h46.uPoke)).endCmd

theorem Keeps.admitEntry (h : Keeps a s) {sq dom : ℕ} {child : Bool} {series : Option ℕ} {deadline : ℕ} {i : List Byte} :
    Keeps a (admitEntry s sq dom child series deadline i) := by
  unfold Machine.admitEntry
  split
  · exact h.refuseEntry.seriesEnd.intakeGive
  · extract_lets bad fresh
    clear_value bad fresh
    split
    · exact h.refuseEntry.seriesEnd.intakeGive
    · have h1 : Keeps a (Machine.police s dom).2 := h.police
      generalize Machine.police s dom = o at h1 ⊢
      obtain ⟨pass, s1⟩ := o
      dsimp only at h1 ⊢
      split
      · exact h1.policedEntry.intakeGive
      · have h2 : Keeps a (Machine.newTag (Machine.dspCount s1 F.DSP_CNT_ADM_COUNT dom)).2 := Keeps.newTag (Keeps.dspCount h1)
        generalize Machine.newTag (Machine.dspCount s1 F.DSP_CNT_ADM_COUNT dom) = o at h2 ⊢
        obtain ⟨tag, s2⟩ := o
        dsimp only at h2 ⊢
        split
        · exact h2.update
        · split
          · exact h2.update
          · exact h2.update

theorem Keeps.scoreStart (h : Keeps a s) {chan : ℕ} {c : Cmd} : ∀ p, scoreStart chan s c = .ok p → Keeps a p := by
  intro p e
  unfold Machine.scoreStart at e
  dsimp only at e
  obtain ⟨_, -, e⟩ := work_bind e
  obtain ⟨_, -, e⟩ := work_bind e
  obtain ⟨_, -, e⟩ := work_bind e
  obtain ⟨_, -, e⟩ := work_bind e
  obtain ⟨_, -, e⟩ := work_bind e
  split at e
  · cases e
  · split at e
    · cases e
    · obtain ⟨_, -, e⟩ := work_bind e
      obtain ⟨_, -, e⟩ := work_bind e
      obtain ⟨_, -, e⟩ := work_bind e
      cases e
      exact h.useRange.putCmd.giveEntries.scSettle

theorem Keeps.lrankScorePages (h : Keeps a s) {chan : ℕ} : Keeps a (lrankScorePages chan s) := by
  unfold Machine.lrankScorePages
  split
  · exact h.scoreEntry
  · exact h.engineOn fun c p e => h.scoreStart p e

theorem Keeps.hazePush (h : Keeps a s) {i haze : ℕ} {tomb : Bool} {bs : List Byte} :
    ∀ p, hazePush s i haze tomb bs = some p → Keeps a p.2 := by
  intro p e
  unfold Machine.hazePush at e
  extract_lets x dom o cnt stride per last put at e
  have hput : ∀ t b k, Keeps a t → Keeps a (put t b k).2 := fun t b k ht => ht.uPoke.uPoke.uPoke
  clear_value put
  split at e
  · cases e
    exact hput _ _ _ h
  · obtain ⟨⟨b, s1⟩, h1, rfl⟩ := Option.map_eq_some_iff.1 e
    have hs1 : Keeps a s1 := h.areaAlloc _ h1
    exact hput _ _ _ (Keeps.ite hs1.uPoke.uPoke hs1.uPoke.uPoke).uPoke

theorem Keeps.listPush (h : Keeps a s) {i l : ℕ} {tomb : Bool} {bs : List Byte} : ∀ p, listPush s i l tomb bs = some p → Keeps a p.2 := by
  intro p e
  unfold Machine.listPush at e
  dsimp only at e
  split at e
  · cases e
  · obtain ⟨⟨_, _⟩, e', e⟩ := Option.map_eq_some_iff.1 e
    subst e
    dsimp only
    refine (Keeps.hazePush ?_ _ ‹_›).uPoke
    rename_i hq3 _ _
    split at hq3
    · exact h.newHaze _ ‹_›
    · cases hq3
      exact h

theorem Keeps.mergeOpen (h : Keeps a s) {tag : ℕ} : Keeps a (mergeOpen tag s) := by
  unfold Machine.mergeOpen
  dsimp only
  refine h.tirCmd (fun _ _ e => ?_)
  obtain ⟨_, -, e⟩ := work_bind e
  split at e
  · obtain ⟨_, -, e⟩ := work_bind e
    cases e
    exact Keeps.ite h h.journal.setMerge.endTir
  · split at e
    · cases e
      exact h.setMerge.endTir
    · split at e
      · cases e
        exact Keeps.ite h h.journal.setMerge.endTir
      · cases e

theorem Keeps.copyEnts (h : Keeps a s) {i haze : ℕ} {tomb : Bool} {l : List HEnt} : ∀ p, copyEnts i haze tomb l s = some p → Keeps a p := by
  induction l generalizing s with
  | nil => intro p e; cases e; exact h
  | cons x l ih =>
    intro p e
    unfold Machine.copyEnts at e
    dsimp only at e
    split at e
    · exact ih h _ e
    · split at e
      · cases e
      · rename_i h1
        exact ih (h.hazePush _ h1).update _ e

theorem Keeps.swapHaze (h : Keeps a s) {i l c : ℕ} {r : Root} : ∀ p, swapHaze s i l c r = some p → Keeps a p.2.2 := by
  intro p e
  unfold Machine.swapHaze at e
  extract_lets x keep ins tmb at e
  split at e
  · cases e; exact h
  · split at e
    · cases e
    · rename_i h1
      obtain ⟨_, h2, rfl⟩ := Option.map_eq_some_iff.1 e
      obtain ⟨_, h3, h4⟩ := Option.bind_eq_some_iff.1 h2
      exact ((h.newHaze _ h1).copyEnts _ h3).copyEnts _ h4

theorem Keeps.performSwap (h : Keeps a s) {k : ℕ} {m : MergeRec} {n : ℕ} : ∀ p, performSwap s k m n = some p → Keeps a p := by
  intro p e
  unfold Machine.performSwap at e
  extract_lets i l x r hz at e
  have hhz : ∀ q, hz = some q → Keeps a q.2.2 := by
    intro q hq
    simp only [hz] at hq
    split at hq
    · cases hq; exact h
    · exact h.swapHaze _ hq
  clear_value hz
  split at e
  · cases e
  · obtain ⟨⟨ra, s2⟩, h2, rfl⟩ := Option.map_eq_some_iff.1 e
    have hs2 : Keeps a s2 := (hhz _ rfl).areaAlloc _ h2
    dsimp -zeta only
    extract_lets s3 root s4 s5 _ s6
    have h5 : Keeps a s5 := Keeps.foldl (show Keeps a s4 from hs2.uPoke.uPoke) fun _ _ ht => ht.uPoke
    clear_value s5
    have h6 : Keeps a s6 := h5.update
    exact h6.foldl fun _ _ ht => ht.endTirId

theorem Keeps.performSwaps (h : Keeps a s) {n : ℕ} : Keeps a (performSwaps s n) := by
  refine h.foldl fun t p ht => ?_
  cases hp : Machine.performSwap t p.1 p.2 n with
  | none => exact ht.swapFails
  | some u => exact ht.performSwap _ hp

theorem Keeps.commitRequest (h : Keeps a s) {tag : ℕ} : Keeps a (commitRequest tag s) := by
  unfold Machine.commitRequest
  dsimp only
  refine h.tirCmd (fun _ _ e => ?_)
  split at e
  · cases e
    split
    · exact h.failCommit.endTir
    · exact h.endTir
  · split at e
    · cases e
      split
      · exact h.failCommit.endTir
      · exact h.endTir
    · obtain ⟨_, -, e⟩ := work_bind e
      split at e
      · cases e
      · split at e
        · obtain ⟨_, -, e⟩ := work_bind e
          split at e
          · cases e
            exact h.putEpoch.endTir
          · split at e
            · cases e
              split
              · exact h.failCommit.endTir
              · exact h.endTir
            · cases e
              exact h.setBatch.putCmd.foldl (fun _ _ h34 => h34.commitMsg)
        · obtain ⟨_, -, e⟩ := work_bind e
          split at e
          · cases e
            exact h.putEpoch.endTir
          · split at e
            · cases e
              split
              · exact h.failCommit.endTir
              · exact h.endTir
            · cases e
              exact h.setBatch.putCmd.foldl (fun _ _ h34 => h34.commitMsg)

theorem Keeps.groupCommit (h : Keeps a s) {journaled : ℕ} : Keeps a (groupCommit journaled s) := by
  unfold Machine.groupCommit
  dsimp only
  refine Keeps.ite h (Keeps.ite h.wakeNode (Keeps.ite h (Keeps.ite h.update.keepReserve ((((((((h.update.keepReserve.applyOverrides.foldl
      (fun _ _ h7 => ?_)).foldl (fun _ _ h7 => ?_)).foldl (fun _ _ h7 => h7.sweepDirectory)).performSwaps).update).foldl (fun _ _ h7 =>
      h7.leaveBatch)).foldl (fun _ _ h7 => h7.releaseBatch)).reclaimAll))))
  · split
    · exact h7.decide1
    · exact h7
  · split
    · exact h7.markBatch
    · exact h7

theorem Keeps.parkCmd (h : Keeps a s) {op tag : ℕ} : Keeps a (parkCmd op tag s) := by
  unfold Machine.parkCmd
  dsimp only
  refine h.tirCmd (fun _ _ e => ?_)
  obtain ⟨_, -, e⟩ := work_bind e
  obtain ⟨_, -, e⟩ := work_bind e
  obtain ⟨_, -, e⟩ := work_bind e
  split at e
  · cases e
  · obtain ⟨_, -, e⟩ := work_bind e
    obtain ⟨_, -, e⟩ := work_bind e
    cases e
    exact h.useRange.putCmd.update.runMoves

theorem Keeps.regionComplete (h : Keeps a s) {busError : Bool} : Keeps a (regionComplete busError s) := by
  unfold Machine.regionComplete
  dsimp only
  split
  · exact h
  · exact h.regionEffect.update.fset.fset.fset

theorem Keeps.windowComplete (h : Keeps a s) : Keeps a (windowComplete s) := by
  unfold Machine.windowComplete
  dsimp only
  split
  · exact h
  · exact Keeps.ite h h.windowEffect.update.fset.fset.fset

theorem Keeps.tryPost (h : Keeps a s) {f : Spx} {j : Job} : ∀ p, tryPost f s j = some p → Keeps a p := by
  intro p e
  unfold Machine.tryPost at e
  dsimp only at e
  split at e
  · cases e
  · split at e
    · cases e
      exact h.intakeDraw.admitEntry
    · cases e
      exact h.refuseEntry

theorem Keeps.postChildBody (h : Keeps a s) {f : Spx} {tag : ℕ} {j : Job} : Keeps a (postChildBody f s tag j) := by
  unfold Machine.postChildBody
  split
  · exact (h.tryPost _ ‹_›).modJob
  · exact h.waitJob

theorem Keeps.creditStallResume (h : Keeps a s) {q : BitVec 7} : Keeps a (creditStallResume q s) := by
  unfold Machine.creditStallResume
  split
  · exact h
  · split
    · exact h.reissue
    · exact h.refabric
    · split
      · exact (h.tryPost _ ‹_›).modJob
      · exact h
    · exact h

theorem Keeps.submissionFetch (h : Keeps a s) {busError : Bool} : Keeps a (submissionFetch busError s) := by
  unfold Machine.submissionFetch
  dsimp only
  refine Keeps.ite h ?_
  split
  · exact h
  · exact Keeps.ite h.update.sqOff.fset h.update.sqFetch.intakeDraw.admitEntry

theorem Keeps.periodicRelease (h : Keeps a s) {id : ℕ} : Keeps a (periodicRelease id s) := by
  unfold Machine.periodicRelease
  dsimp only
  split
  · exact h
  · exact Keeps.ite h h.update.intakeDraw.admitEntry

theorem Keeps.pushAll (h : Keeps a s) {i item : ℕ} {tomb : Bool} {bs : List Byte} {l : List ℕ} :
    ∀ p, pushAll s i item tomb bs l = some p → Keeps a p.2 := by
  induction l generalizing s with
  | nil => intro p e; cases e; exact h
  | cons r l ih =>
    intro p e
    unfold Machine.pushAll at e
    split at e
    · cases e
    · rename_i f1 s1 h1
      split at e
      · cases e
      · rename_i h2
        cases e
        have hs1 : Keeps a s1 := h.listPush _ h1
        have h3 := ih hs1 _ h2
        exact h3

theorem Keeps.appendOp (h : Keeps a s) {b i : ℕ} {v : Batch} {del : Bool} {item : ℕ} {lists : List ℕ} {bs : List Byte} {slot : ℕ} {had :
    Bool} :
    ∀ p, appendOp s b i v del item lists bs slot had = some p → Keeps a p := by
  intro p e
  unfold Machine.appendOp at e
  dsimp only at e
  split at e
  · cases e
  · split at e
    · cases e
    · rename_i h1
      cases e
      exact (h.pushAll _ h1).dirPut.setBatch.update

theorem Keeps.hazeAppend (h : Keeps a s) {tag : ℕ} : Keeps a (hazeAppend tag s) := by
  unfold Machine.hazeAppend
  dsimp only
  refine h.tirCmd (fun _ _ e => ?_)
  obtain ⟨_, -, e⟩ := work_bind e
  split at e
  · obtain ⟨_, -, e⟩ := work_bind e
    obtain ⟨_, -, e⟩ := work_bind e
    split at e
    · cases e
    · obtain ⟨_, -, e⟩ := work_bind e
      obtain ⟨_, -, e⟩ := work_bind e
      split at e
      · obtain ⟨_, -, e⟩ := work_bind e
        split at e
        · cases e
          exact (h.openBatch.appendOp _ ‹_›).endTir
        · cases e
      · cases e
      · cases e
        exact h.endTir
  · obtain ⟨_, -, e⟩ := work_bind e
    obtain ⟨_, -, e⟩ := work_bind e
    split at e
    · cases e
    · obtain ⟨_, -, e⟩ := work_bind e
      obtain ⟨_, -, e⟩ := work_bind e
      obtain ⟨_, -, e⟩ := work_bind e
      obtain ⟨_, -, e⟩ := work_bind e
      obtain ⟨_, -, e⟩ := work_bind e
      split at e
      · split at e
        · cases e
          exact (h.openBatch.appendOp _ ‹_›).endTir
        · cases e
      · split at e
        · cases e
        · split at e
          · cases e
            exact (h.openBatch.freeNext.appendOp _ ‹_›).endTir
          · cases e

theorem Keeps.placeHot (h : Keeps a s) {i : ℕ} {es : List (ℕ × List Byte)} : ∀ p, placeHot s i es = some p → Keeps a p.2 := by
  intro p e
  unfold Machine.placeHot at e
  extract_lets banks nb per mine at e
  split at e
  · cases e; exact h
  · split at e
    · cases e
    · refine foldl_some_of (P := fun p : List (ℕ × ℕ) × State => Keeps a p.2) (fun o j ho => ?_) (fun p e => by cases e; exact h) p e
      refine foldl_some_of (P := fun p : List (ℕ × ℕ) × State => Keeps a p.2) (fun o k ho p e => ?_) ho
      split at e
      · cases e
      · rename_i out t
        obtain ⟨⟨_, _⟩, h1, rfl⟩ := Option.map_eq_some_iff.1 e
        have hs : Keeps a t := ho _ rfl
        have h2 := Keeps.hotPage hs _ h1
        exact h2

theorem Keeps.putHotMap (h : Keeps a s) {i : ℕ} {es : List (ℕ × List Byte)} : ∀ p, putHotMap s i es = some p → Keeps a p.2 := by
  intro p e
  unfold Machine.putHotMap at e
  split at e
  · cases e
  · rename_i h1
    cases e
    exact h.placeHot _ h1
  · rename_i h1
    obtain ⟨⟨_, _⟩, h2, rfl⟩ := Option.map_eq_some_iff.1 e
    exact ((h.placeHot _ h1).areaAlloc _ h2).uPoke

theorem Keeps.buildSeg (h : Keeps a s) {i l seq next : ℕ} {es : List MEnt} : ∀ p, buildSeg s i l seq next es = some p → Keeps a p.2 := by
  intro p e
  unfold Machine.buildSeg at e
  extract_lets x ti nt at e
  split at e
  · cases e
  · rename_i h1
    replace h1 := h.areaAlloc _ h1
    split at e
    · cases e
    · rename_i h2
      replace h2 := h1.areaAlloc _ h2
      extract_lets s3 at e
      have h3 : Keeps a s3 := h2.foldl fun _ _ ht => ht.uPoke
      clear_value s3
      split at e
      · cases e
      · rename_i h4
        replace h4 := h3.putPages _ h4
        split at e
        · cases e
        · rename_i sb s5 h5
          have hs5 : Keeps a s5 := by
            split at h5
            · cases h5; exact h4
            · exact h4.putPages _ h5
          obtain ⟨⟨hm, s6⟩, h6, rfl⟩ := Option.map_eq_some_iff.1 e
          have hs6 : Keeps a s6 := hs5.putHotMap _ h6
          dsimp only
          exact hs6.uPoke

theorem Keeps.buildChain (h : Keeps a s) {i l : ℕ} {es : List (ℕ × List MEnt)} {tail : ℕ} :
    ∀ p, buildChain i l es tail s = some p → Keeps a p.2 := by
  induction es with
  | nil => intro p e; cases e; exact h
  | cons x es ih =>
    intro p e
    unfold Machine.buildChain at e
    split at e
    · cases e
    · rename_i h1
      split at e
      · cases e; exact ih _ h1
      · obtain ⟨⟨_, _⟩, h2, rfl⟩ := Option.map_eq_some_iff.1 e
        exact (ih _ h1).buildSeg _ h2

theorem Keeps.mergeFold (h : Keeps a s) {tag : ℕ} : Keeps a (mergeFold tag s) := by
  unfold Machine.mergeFold
  dsimp only
  refine h.tirCmd (fun _ _ e => ?_)
  obtain ⟨_, -, e⟩ := work_bind e
  obtain ⟨_, -, e⟩ := work_bind e
  split at e
  · cases e
    exact h.endTir
  · split at e
    · cases e
      exact h.journal.setMerge.endTir
    · split at e
      · split at e
        · cases e
          exact h.fbump.endTir
        · cases e
          exact ((h.journal.buildChain _ ‹_›).setMerge).endTir
      · cases e

theorem Keeps.hotChain (h : Keeps a s) {i : ℕ} {want : List ℕ} {l : List Seg} : ∀ p, hotChain i want l s = some p → Keeps a p.2.2 := by
  induction l with
  | nil => intro p e; cases e; exact h
  | cons g l ih =>
    intro p e
    unfold Machine.hotChain at e
    extract_lets x ords at e
    split at e
    · cases e
    · rename_i h1
      split at e
      · cases e
      · split at e
        · cases e
        · rename_i h2
          obtain ⟨⟨x, s3⟩, h3, rfl⟩ := Option.map_eq_some_iff.1 e
          have hs3 : Keeps a s3 := ((ih _ h1).putHotMap _ h2).areaAlloc _ h3
          dsimp only
          exact hs3.uPoke

theorem Keeps.updraftHotset (h : Keeps a s) {tag : ℕ} : Keeps a (updraftHotset tag s) := by
  unfold Machine.updraftHotset
  dsimp only
  refine h.tirCmd (fun _ _ e => ?_)
  obtain ⟨_, -, e⟩ := work_bind e
  obtain ⟨_, -, e⟩ := work_bind e
  split at e
  · cases e
  · obtain ⟨_, -, e⟩ := work_bind e
    obtain ⟨_, -, e⟩ := work_bind e
    obtain ⟨_, -, e⟩ := work_bind e
    obtain ⟨_, -, e⟩ := work_bind e
    split at e
    · cases e
      exact h
    · split at e
      · cases e
      · split at e
        · cases e
        · cases e
          exact (((h.hotChain _ ‹_›).journal).setMerge).putCmd

theorem Keeps.repAppend (h : Keeps a s) {b i : ℕ} {l : List RepOp} : ∀ p, repAppend b i l s = some p → Keeps a p := by
  induction l generalizing s with
  | nil => intro p e; cases e; exact h
  | cons o l ih =>
    intro p e
    unfold Machine.repAppend at e
    extract_lets x item at e
    split at e
    · cases e
    · obtain ⟨t, ht, e⟩ := Option.bind_eq_some_iff.1 e
      refine ih ?_ _ e
      split at ht
      · split at ht
        · exact h.appendOp _ ht
        · cases ht; exact h
      · split at ht
        · exact h.appendOp _ ht
        · split at ht
          · exact h.freeNext.appendOp _ ht
          · cases ht

theorem Keeps.replicaBatch (h : Keeps a s) {src i id : ℕ} {ops : List RepOp} : Keeps a (replicaBatch src i id ops s) := by
  unfold Machine.replicaBatch
  refine Keeps.ite h ?_
  split
  · exact h.commitMsg
  · refine Keeps.ite h.commitMsg (Keeps.ite h (Keeps.ite h.commitMsg (Keeps.ite h.commitMsg (Keeps.ite h.commitMsg ?_))))
    extract_lets b s1
    split
    · rename_i hr
      exact (h.update.setBatch.repAppend _ hr).commitMsg
    · exact h

theorem Keeps.modelDrain (h : Keeps a s) {cl lane : ℕ} {c : Cmd} {l : List ℕ} : Keeps a (modelDrain cl lane s c l) := by
  induction l generalizing s c with
  | nil => exact h.putCmd
  | cons e l ih =>
    unfold Machine.modelDrain
    split
    · exact h.stopCmd
    · exact Keeps.ite (ih h.sendCand) h.putCmd

theorem Keeps.modelStart (h : Keeps a s) {cl : ℕ} {bad : Option TileFault} {c : Cmd} {x : Index} {index lane : ℕ} {items : List (ℕ × ℕ × ℕ
    × ItemScore)} :
    Keeps a (modelStart cl bad s c x index lane items) := by
  unfold Machine.modelStart
  extract_lets +onlyGivenNames fails cut done sign es nans bads
  split
  extract_lets s1 s2
  have h1 : Keeps a s1 := Keeps.ite h.fbump h
  have h2 : Keeps a s2 := by
    simp only [s2]
    split
    · exact Keeps.ite h1.tileFailed h1.tileAgreed
    · exact h1
  exact h2.spoilRegions.modelDrain

theorem Keeps.sendRows (h : Keeps a s) {tag share : ℕ} {l : List RowReq} : Keeps a (sendRows tag share l s).2 := by
  induction l generalizing s with
  | nil => exact h
  | cons r l ih =>
    unfold Machine.sendRows
    split
    · exact ih h.pushRow
    · split
      · exact h
      · split
        · exact h
        · exact ih h.drawShare.launch

theorem Keeps.pumpRows (h : Keeps a s) {tag id : ℕ} : Keeps a (pumpRows s tag id) := by
  unfold Machine.pumpRows
  dsimp only
  split
  · exact h
  · exact h.sendRows.setRowCmd

theorem Keeps.rowReply (h : Keeps a s) {o : FabOp} {q : Pkt} : Keeps a (rowReply s o q) := Keeps.ite h.launch h.giveShare.pumpRows.answerRow

theorem Keeps.runRows (h : Keeps a s) {i : ℕ} {c : Cmd} {r : RowCmd} : Keeps a (runRows i s c r) := h.putCmd.setRowCmd.pumpRows.tryEndRows

theorem Keeps.arrive (h : Keeps a s) {ty : ℕ} {resp : Bool} {q : Pkt} {body : State → State} (hb : ∀ t, Keeps a t → Keeps a (body t)) :
    Keeps a (arrive ty resp q body s) :=
  Keeps.ite h (Keeps.ite h.badPkt (Keeps.ite h (hb _ h)))

theorem Keeps.checkRequest (h : Keeps a s) {q : Pkt} : Keeps a (checkRequest s q) := by
  unfold Machine.checkRequest
  refine Keeps.ite h.answerAgain (Keeps.ite h ?_)
  split
  · rename_i c _
    cases hm : Machine.moreSegs s q c with
    | none => exact h
    | some t => exact h.moreSegs _ hm
  · have h1 : Keeps a (Machine.policePkt s q false).2 := h.policePkt
    generalize Machine.policePkt s q false = o at h1 ⊢
    obtain ⟨pass, s1⟩ := o
    refine Keeps.ite h1.fbump.sendSys ?_
    cases hj : Machine.judge s1 q with
    | none => exact h
    | some t => exact Keeps.judge h1 _ hj

theorem Keeps.request (h : Keeps a s) {ty : ℕ} {q : Pkt} : Keeps a (request ty q s) :=
  h.arrive (fun _ h7 => Keeps.ite h7.checkRequest (Keeps.ite h7.wakeNode h7.wakeNode.holdPkt))

theorem Keeps.releaseWake (h : Keeps a s) : Keeps a (releaseWake s) := by
  refine Keeps.foldl h.update fun t d ht => ?_
  split
  · exact ht.checkRequest
  · exact ht

theorem Keeps.releaseComp (h : Keeps a s) {comp : ℕ} : Keeps a (releaseComp s comp) := by
  refine Keeps.foldl h.update fun t d ht => ?_
  split
  · rename_i q _
    cases hj : Machine.judge t q with
    | none => exact ht.holdPkt
    | some u => exact ht.judge _ hj
  · exact ht

theorem Keeps.copyDone (h : Keeps a s) {q : Pkt} : Keeps a (copyDone q s) := by
  unfold Machine.copyDone
  dsimp only
  refine h.arrive (fun _ h6 => ?_)
  split
  · exact Keeps.ite h6.update.remotePulse h6
  · exact h6

theorem Keeps.copyCancel (h : Keeps a s) {q : Pkt} : Keeps a (copyCancel q s) := h.arrive (fun _ h6 => h6.dropCopyIn)

theorem Keeps.mapCancel (h : Keeps a s) : Keeps a (mapCancel s) := h.setComp.releaseComp.mapDone

theorem Keeps.mapCmd (h : Keeps a s) {v : W32} : Keeps a (mapCmd v s) := by
  unfold Machine.mapCmd
  dsimp only
  split
  · exact h.regWritePlain
  · exact h.regWritePlain.sliceDefine
  · exact h.regWritePlain.mapStage
  · exact h.regWritePlain.mapCancel
  · exact h.regWritePlain.mapDone

theorem Keeps.mapHorizon (h : Keeps a s) {k : ℕ} : Keeps a (mapHorizon k s) := by
  unfold Machine.mapHorizon
  dsimp only
  split
  · exact h
  · exact Keeps.ite h (((h.setComp.foldl (fun _ _ h12 => h12.dropCopy)).releaseComp).pumpDrain)

theorem Keeps.drainDone (h : Keeps a s) {q : Pkt} : Keeps a (drainDone q s) := h.arrive (fun _ h6 => Keeps.ite h6 h6.setComp.pumpDrain)

theorem Keeps.ledgerRead (h : Keeps a s) {q : Pkt} : Keeps a (ledgerRead q s) := by
  unfold Machine.ledgerRead
  dsimp only
  refine h.arrive (fun _ h6 => Keeps.ite h6.wakeNode.sendSys ?_)
  split <;> exact h6.wakeNode.sendSys

theorem Keeps.ledgerCas (h : Keeps a s) {q : Pkt} : Keeps a (ledgerCas q s) := by
  unfold Machine.ledgerCas
  dsimp only
  refine h.arrive (fun _ h6 => Keeps.ite h6.wakeNode.answerAgain (Keeps.ite h6.wakeNode.sendSys ?_))
  split
  · exact h6.wakeNode.sendSys
  · exact Keeps.ite h6.wakeNode (((Keeps.ite h6.wakeNode.update h6.wakeNode).keepRecord).sendSys)

theorem Keeps.offer (h : Keeps a s) {q : Pkt} : Keeps a (offer q s) :=
  h.arrive (fun _ h6 => Keeps.ite h6.wakeNode.sendAccept (Keeps.ite h6.wakeNode.sendAccept (Keeps.ite h6.wakeNode.sendAccept
    h6.wakeNode.launchLed.update)))

theorem Keeps.acceptPkt (h : Keeps a s) {q : Pkt} : Keeps a (acceptPkt q s) := by
  unfold Machine.acceptPkt
  refine h.arrive (fun _ h6 => ?_)
  split
  · exact Keeps.ite h6.hoDone h6
  · exact h6

theorem Keeps.fabricReply (h : Keeps a s) {q : Pkt} : Keeps a (fabricReply q s) := by
  unfold Machine.fabricReply
  dsimp only
  refine h.arrive (fun _ h6 => ?_)
  split
  · exact Keeps.ite h6.update h6
  · exact h6.orphanPulse
  · refine Keeps.ite h6 (Keeps.afterOp ?_)
    split
    · exact (Keeps.ite h6.dropEgress h6).jobReply
    · exact h6.dropOp.rowReply
    · exact h6.dropOp.hoReply
    · exact h6.dropOp

theorem Keeps.pullData (h : Keeps a s) {q : Pkt} : Keeps a (pullData q s) := by
  unfold Machine.pullData
  dsimp only
  refine h.arrive (fun _ h6 => ?_)
  split
  · exact h6
  · refine Keeps.ite h6 ?_
    split
    · exact h6.badAddress
    · exact h6.violation
    · exact Keeps.ite ((h6.uWrite _ ‹_›).update) (((Keeps.ite ((h6.uWrite _ ‹_›).sendSys) (h6.uWrite _ ‹_›)).jobReply).afterOp)

theorem Keeps.takeEntry (h : Keeps a s) {sq dom n : ℕ} : Keeps a (takeEntry sq dom n s).2 := by
  induction n generalizing s with
  | zero => exact h
  | succ n ih =>
    unfold Machine.takeEntry
    split
    · exact h
    · have h1 : Keeps a (Machine.sqFetch s sq dom).2 := h.sqFetch
      generalize Machine.sqFetch s sq dom = o at h1 ⊢
      obtain ⟨e, s1⟩ := o
      dsimp only at h1 ⊢
      split
      · exact ih h1.refuseEntry
      · have h2 : Keeps a (Machine.police s1 dom).2 := h1.police
        generalize Machine.police s1 dom = o at h2 ⊢
        obtain ⟨pass, s2⟩ := o
        dsimp only at h2 ⊢
        split
        · exact h2
        · exact ih h2.policedEntry

theorem Keeps.eqCtl (h : Keeps a s) {v : W32} : Keeps a (eqCtl v s) := by
  unfold Machine.eqCtl
  extract_lets +onlyGivenNames n en old
  split
  · extract_lets s1
    have h1 : Keeps a s1 := h.regWritePlain
    refine Keeps.ite h1 (h1.putHold fun hl => ?_)
    exact (List.length_filter_le _ _).trans hl
  · extract_lets s1
    have h1 : Keeps a s1 := h.regWritePlain
    exact Keeps.ite h1 h1.fset.rset.setEvq

/-- Registers may lose entries, and so read as at reset. -/
theorem Keeps.filterRegs (h : Keeps a s) {f : Nat × W32 → Bool} : Keeps a { s with regs := s.regs.filter f } := by
  refine ⟨h.1, fun hs => ?_⟩
  obtain ⟨hmem, ⟨hsort, hval⟩, hrest⟩ := h.2 hs
  exact ⟨hmem, ⟨tsorted_filter hsort f, fun p hp => hval p (List.mem_of_mem_filter hp)⟩, hrest⟩

theorem Keeps.flr (h : Keeps a s) : Keeps a (flr s) := by
  have h1 : Keeps a { s with regs := dropRegs s.regs queueRegs } := h.filterRegs
  have h2 : Keeps a { s with regs := dropRegs s.regs queueRegs, hiu := { s.hiu with evq := [], hold := [], msix := [], rr := 32767 } } :=
    h1.putHold fun _ => by simp
  exact h2.update.fset

theorem Keeps.mgmt (h : Keeps a s) {cmd : ℕ} {m : Mgmt} {f : State → State} (hf : ∀ t, Keeps a t → Keeps a (f t)) :
    Keeps a (mgmt cmd m f s) :=
  Keeps.ite (hf _ h.update).mgmtReply h.fbump.mgmtReply

theorem Keeps.restoreBytes (h : Keeps a s) {dom x : ℕ} {l : List Byte} : Keeps a (restoreBytes s dom x l) := by
  induction l generalizing s x with
  | nil => exact h
  | cons b l ih => exact ih h.restoreByte

theorem Keeps.restoreStacks (h : Keeps a s) {j : Journal} (hj : Sound s → Memory.wf j.area) : Keeps a (restoreStacks s j) := by
  have h1 : Keeps a { s with mem := { s.mem with stk := j.area, badStk := [] } } := by
    refine ⟨h.1, fun hs => ?_⟩
    have hw := hj (h.2 hs)
    obtain ⟨⟨hstk, hmem⟩, hrest⟩ := h.2 hs
    exact ⟨⟨hw, hmem⟩, hrest⟩
  unfold Machine.restoreStacks
  extract_lets lost _ _ s1 s2
  have h2 : Keeps a s2 := Keeps.foldl (show Keeps a s1 from h1.update) fun _ _ ht => ht.restoreBytes
  exact h2.fadd

theorem Keeps.mergeRestart (h : Keeps a s) {k : ℕ} {m : MergeRec} : Keeps a (mergeRestart s k m) := by
  unfold Machine.mergeRestart
  extract_lets s1
  have h1 : Keeps a s1 := by
    refine Keeps.ite ?_ h
    cases hp : Machine.performSwap s k { m with cmds := [] } s.tir.epoch with
    | none => exact h
    | some t => exact h.performSwap _ hp
  clear_value s1
  split
  · exact h1
  · exact Keeps.ite h1.setMerge (Keeps.ite h1.freeFold.update h1.freeFold.setMerge)

theorem Keeps.restart (h : Keeps a s) {j : Journal} {lost : Bool} (hj : Sound s → Memory.wf j.area) : Keeps a (restart s j lost) := by
  unfold Machine.restart
  extract_lets _ _ s1 s2
  have hp : Keeps s s1 := (Keeps.refl s).update
  have h1 : Keeps a s1 := h.trans hp
  have hw : Sound s1 → Memory.wf j.area := fun hs => hj ⟨hs.1, hs.2⟩
  exact Keeps.foldl (Keeps.ite (h1.restoreStacks hw).preloadAll h1) fun _ _ ht => ht.mergeRestart

theorem areaCells_wf {t : State} (ht : Sound t) : Memory.wf (areaCells t) := filter_wf ht.1.1 _

/-- What is kept of the journal over a reset is canonical. -/
theorem keptJournal_wf {t : State} (ht : Sound t) : ∀ j, keptJournal t = some j → Memory.wf j.area := by
  intro j hj
  unfold keptJournal at hj
  split at hj
  · cases hj; exact areaCells_wf ht
  · exact ht.2.2.1 j hj

theorem regsWf_nil : RegsWf [] := ⟨rfl, nofun⟩

theorem Keeps.isolate (h : Keeps a s) : Keeps a (isolate s) := by
  unfold Machine.isolate
  extract_lets s1 _ s2 s3 s4
  have h1 : Keeps a s1 := by
    refine h.foldl fun t q ht => ?_
    split
    · exact ht.freeOp
    · exact ht
  clear_value s1
  have h2 : Keeps a s2 := h1.update.dropFabric
  clear_value s2
  have h3 : Keeps a s3 := h2.filterRegs
  clear_value s3
  have h4 : Keeps a s4 := h3.foldl fun _ _ ht => ht.portState
  exact h4.fset

theorem Keeps.stepStart (h : Keeps a s) {n : ℕ} {f : State → State × StepRun} (hf : ∀ t, Keeps a t → Keeps a (f t).1) :
    Keeps a (stepStart n f s) :=
  Keeps.ite h.fbump (hf _ h.fset.fset).update

theorem Keeps.trainingDone (h : Keeps a s) {bad : List ℕ} : Keeps a (trainingDone bad s) := by
  unfold Machine.trainingDone
  refine Keeps.ite h.stepDone (Keeps.stepDone ?_)
  have h1 : Keeps a { s with mem := { s.mem with stk := if s.prb.stacksLost then [] else s.mem.stk, badStk := if s.prb.stacksLost then []
      else s.mem.badStk } } := by
    refine h.putMem fun hm => ⟨?_, hm.2⟩
    show Memory.wf (if s.prb.stacksLost then [] else s.mem.stk)
    split
    · exact empty_wf
    · exact hm.1
  exact h1.update

theorem Keeps.firstDiscovery (h : Keeps a s) : Keeps a (firstDiscovery s) := by
  unfold Machine.firstDiscovery
  extract_lets _ s1
  have h1 : Keeps a s1 := Keeps.ite h h.update.freeNext
  refine Keeps.ite h1 ⟨h1.1, fun hs => ?_⟩
  obtain ⟨hmem, hregs, hj, hrest⟩ := h1.2 hs
  exact ⟨hmem, hregs, fun j hj => by cases hj; exact empty_wf, hrest⟩

theorem Keeps.discoveryDone (h : Keeps a s) {q : FlashPart} {bad : List ℕ} : Keeps a (discoveryDone q bad s) := by
  unfold Machine.discoveryDone
  extract_lets later tried _ s1 s2 s3 s4 n
  have h1 : Keeps a s1 := Keeps.ite h h.update.rset
  clear_value s1
  have h3 : Keeps a s3 := h1.admitChannels.foldl fun _ _ ht => ht.unitFault
  clear_value s3
  have h4 : Keeps a s4 := Keeps.ite h3 h3.firstDiscovery
  exact Keeps.ite h4.ovcSet.stepDone h4.ovcClear.stepDone

theorem Keeps.stepWrite (h : Keeps a s) {n : ℕ} {run : StepRun} : Keeps a (stepWrite n run s) :=
  h.hostReg (fun _ h7 => h7.stepStart (fun _ h9 => h9.stepGo))

theorem Keeps.releaseEmits (h : Keeps a s) {bank i : ℕ} {r : RankCmd} {lane : ℕ} {l : List (BitVec 192)} :
    Keeps a (releaseEmits bank i r lane l s) := by
  induction l generalizing s with
  | nil => exact h.setNbu
  | cons x l ih => exact Keeps.ite (ih h.sendCand) h.setNbu

theorem Keeps.yieldOn (h : Keeps a s) {bank i : ℕ} : Keeps a (yieldOn s bank i) := by
  unfold Machine.yieldOn
  dsimp only
  refine Keeps.ite (Keeps.setNbu ?_) (Keeps.ite (((((Keeps.setNbu ?_).rankStop).foldl (fun _ _ h8 =>
      h8.rankStop)).settleOwner).sweepGrants) (Keeps.ite (((Keeps.ite ((Keeps.setNbu ?_).rankStop) ((Keeps.setNbu
      ?_).rankEnd)).sweepGrants).beginNext) (Keeps.setNbu ?_)))
  · split
    · exact h.setNbu
    · split
      · exact h.releaseEmits
      · exact h.setNbu
  · split
    · exact h.setNbu
    · split
      · exact h.releaseEmits
      · exact h.setNbu
  · split
    · exact h.setNbu
    · split
      · exact h.releaseEmits
      · exact h.setNbu
  · split
    · exact h.setNbu
    · split
      · exact h.releaseEmits
      · exact h.setNbu
  · split
    · exact h.setNbu
    · split
      · exact h.releaseEmits
      · exact h.setNbu

theorem Keeps.nbuYieldPoint (h : Keeps a s) {bank i : ℕ} : Keeps a (nbuYieldPoint s bank i) :=
  ((((h.foldl (fun _ _ h8 => h8.stkWrite)).setNbu).serveBank).setNbu).yieldOn

theorem Keeps.yieldRow (h : Keeps a s) {op : ℕ} {ends : Bool} {bank : ℕ} {m : Mop} : Keeps a (yieldRow op ends bank m s) := by
  unfold Machine.yieldRow
  dsimp only
  split
  · exact h
  · exact Keeps.ite h.nbuYieldPoint (Keeps.ite h (Keeps.ite h.abortNbu h.setNbu.nbuYieldPoint))

theorem Keeps.loseTiles (h : Keeps a s) : Keeps a (loseTiles s) := by
  have h1 : Keeps a { s with mem := { s.mem with tile := [], badTile := [] } } := h.putMem fun hm => ⟨hm.1, empty_wf, hm.2.2⟩
  exact h1.update

theorem Keeps.enterP4 (h : Keeps a s) : Keeps a (enterP4 s) := by
  have h1 : Keeps a (Machine.writeAllBack s) := h.writeAllBack
  exact Keeps.ite h1 (h1.restoreStacks areaCells_wf).loseTiles.fset

theorem Keeps.powerEntry (h : Keeps a s) : Keeps a (powerEntry s) := by
  unfold Machine.powerEntry
  dsimp only
  refine Keeps.ite h ?_
  split
  · exact Keeps.ite ((Keeps.ite h h.loseTiles.fset).fset) h.fset.enterP4
  · exact h.loseTiles.fset
  · exact h.fset

theorem Keeps.stepCmd (h : Keeps a s) {v : W32} : Keeps a (stepCmd v s) := Keeps.ite h (h.stepStart (fun _ h6 => h6.stepFree))

theorem Keeps.opReg (h : Keeps a s) {r : Reg} {lo : ℕ} {f : ℕ → State → State} {v : W32} (hf : ∀ n t, Keeps a t → Keeps a (f n t)) :
    Keeps a (opReg r lo f v s) := Keeps.ite h.regWritePlain (hf _ _ h.regWritePlain)

theorem Keeps.writeCounters (h : Keeps a s) {k : ℕ} : ∀ p, writeCounters s k = some p → Keeps a p := by
  intro p e
  unfold Machine.writeCounters at e
  split at e
  · cases e; exact h
  · refine h.foldlBind (fun x t p ht e => ?_) _ e
    split at e
    · cases e; exact ht
    · split at e
      · rename_i hw
        cases e; exact ht.uWrite _ hw
      · cases e

theorem Keeps.scanLoadGroup (h : Keeps a s) {k : ℕ} : Keeps a (scanLoadGroup k s) := by
  unfold Machine.scanLoadGroup
  dsimp only
  refine h.engine (fun _ _ e => ?_)
  split at e
  · cases e
    exact h
  · split at e
    · cases e
    · split at e
      · cases e
        exact (((h.writeCounters _ ‹_›).update).setLane).endCmd
      · split at e
        · cases e
          exact (((((h.writeCounters _ ‹_›).update).setLane).useRange).update).endCmd
        · cases e
          exact (((h.writeCounters _ ‹_›).update).setLane).endCmd
        · cases e

theorem Keeps.scanDrain (h : Keeps a s) {k : ℕ} {c : Cmd} {l : List ℕ} : Keeps a (scanDrain k s c l) := by
  induction l generalizing s c with
  | nil => exact h.putCmd
  | cons w l ih =>
    unfold Machine.scanDrain
    split
    · exact h.putCmd
    · extract_lets slot gs
      refine Keeps.ite (ih h) ?_
      split
      · exact h.stopCmd
      · exact Keeps.ite (ih h.update.sendCand) h.putCmd

theorem Keeps.flushSet (h : Keeps a s) {dom : ℕ} {c : CSet} : ∀ p, flushSet s dom c = some p → Keeps a p.2 := by
  intro p e
  unfold Machine.flushSet at e
  extract_lets sorted need n res at e
  obtain ⟨t, ht, rfl⟩ := Option.map_eq_some_iff.1 e
  refine h.foldlBind (fun x t p ht e => ?_) _ ht
  split at e
  · rename_i hw
    cases e; exact ht.uWrite _ hw
  · cases e

theorem Keeps.placeEntry (h : Keeps a s) {dom : ℕ} {c : CSet} {key : ℕ} {i : BitVec 192} :
    ∀ p, placeEntry s dom c key i = some p → Keeps a p.2.2 := by
  intro p e
  unfold Machine.placeEntry at e
  dsimp only at e
  split at e
  · cases e
    exact Keeps.ite h h.fbump
  · split at e
    · split at e
      · cases e
        exact h
      · split at e
        · split at e
          · cases e
            exact h
          · cases e
            exact h
        · split at e
          · cases e
            exact h
          · split at e
            · obtain ⟨⟨_, _⟩, e', e⟩ := Option.map_eq_some_iff.1 e
              subst e
              dsimp only
              exact Keeps.ite ((h.flushSet _ ‹_›).fbump) (h.flushSet _ ‹_›)
            · cases e
              exact Keeps.ite h.fbump h
    · split at e
      · cases e
        exact h
      · split at e
        · split at e
          · cases e
            exact h
          · cases e
            exact h
        · split at e
          · cases e
            exact h
          · split at e
            · obtain ⟨⟨_, _⟩, e', e⟩ := Option.map_eq_some_iff.1 e
              subst e
              dsimp only
              exact Keeps.ite ((h.flushSet _ ‹_›).fbump) (h.flushSet _ ‹_›)
            · cases e
              exact Keeps.ite h.fbump h

theorem Keeps.candidateIntake (h : Keeps a s) {l : ℕ} : Keeps a (candidateIntake l s) := by
  unfold Machine.candidateIntake
  dsimp only
  split
  · exact h
  · split
    · exact h.setLane.giveShare.fbump
    · split
      · exact h.setLane.giveShare.badAddress
      · exact (h.setLane.giveShare.placeEntry _ ‹_›).setLane

theorem Keeps.drainSlots (h : Keeps a s) {dom : ℕ} {v : Lane} {loc : Bool} {l : List ℕ} :
    ∀ p, drainSlots s dom v loc l = some p → Keeps a p.1 := by
  refine foldl_some_of (P := fun p : State × List Drained => Keeps a p.1) (fun o q ho p e => ?_) fun p e => by cases e; exact h
  obtain ⟨⟨t, m⟩, rfl, e⟩ := Option.bind_eq_some_iff.1 e
  have ht : Keeps a t := ho _ rfl
  dsimp only at e
  split at e
  · cases e; exact ht
  · split at e
    · cases e; exact ht
    · obtain ⟨⟨u, w⟩, hu, rfl⟩ := Option.map_eq_some_iff.1 e
      have hw : Keeps a w := ht.flushSet _ hu
      exact Keeps.ite hw.fbump hw

theorem Keeps.selDrain (h : Keeps a s) {inst : ℕ} : Keeps a (selDrain inst s) := by
  unfold Machine.selDrain
  dsimp only
  refine h.engine (fun _ _ e => ?_)
  obtain ⟨_, -, e⟩ := work_bind e
  split at e
  · obtain ⟨_, -, e⟩ := work_bind e
    split at e
    · cases e
      exact h.putCmd
    · split at e
      · cases e
      · obtain ⟨_, -, e⟩ := work_bind e
        obtain ⟨_, -, e⟩ := work_bind e
        cases e
        exact ((((h.drainSlots _ ‹_›).uPoke).uPoke).setLane).putCmd
  · obtain ⟨_, -, e⟩ := work_bind e
    split at e
    · cases e
      exact h.putCmd
    · split at e
      · cases e
      · obtain ⟨_, -, e⟩ := work_bind e
        obtain ⟨_, -, e⟩ := work_bind e
        cases e
        exact ((((h.drainSlots _ ‹_›).uPoke).uPoke).setLane).putCmd

theorem Keeps.encProduct (h : Keeps a s) {cl : ℕ} {proj : Bool} {bad : Option TileFault} : Keeps a (encProduct cl proj bad s) := by
  unfold Machine.encProduct
  extract_lets +onlyGivenNames op
  clear_value op
  have h0 : Keeps a (Machine.ovcRefuse cl .enc op s) := h.ovcRefuse
  generalize Machine.ovcRefuse cl .enc op s = t at h0 ⊢
  refine h0.engine fun c p e => ?_
  extract_lets +onlyGivenNames dom at e
  obtain ⟨q, -, e⟩ := work_bind e
  extract_lets ws at e
  split at e
  · split at e <;> cases e
  · obtain rfl := Except.ok.inj e
    exact (h0.foldl fun _ _ ht => ht.uPoke).productEnd

theorem Keeps.encCentroid (h : Keeps a s) {cl : ℕ} {bad : Option TileFault} : Keeps a (encCentroid cl bad s) := by
  unfold Machine.encCentroid
  refine h.engine fun c p e => ?_
  extract_lets +onlyGivenNames dom at e
  obtain ⟨_, -, e⟩ := work_bind e
  extract_lets +onlyGivenNames fails note ord at e
  have hnote : ∀ t, Keeps a t → Keeps a (note t) := by
    intro t ht
    simp only [note]
    split
    · exact Keeps.ite ht.tileFailed ht.tileAgreed
    · exact ht
  clear_value note
  split at e
  · obtain rfl := Except.ok.inj e
    exact (Keeps.ite (hnote _ h).spoilRegions.setCmds (hnote _ h).spoilRegions).putCmd
  · extract_lets wait at e
    split at e
    · cases e; exact h
    · obtain ⟨⟨out, n, bytes⟩, -, e⟩ := work_bind e
      obtain rfl := Except.ok.inj e
      exact (hnote _ (Keeps.ite h h.uPoke)).spoilRegions.putCmd

/-- Work that is only reshaped: it went well, and its outcome is the reshaped one. -/
theorem work_map {α β : Type} {x : Work α} {f : α → β} {p : β} (e : x.map f = .ok p) : ∃ v, x = .ok v ∧ f v = p := by
  cases x with
  | error => cases e
  | ok v => exact ⟨v, rfl, by cases e; rfl⟩

theorem Keeps.encCross (h : Keeps a s) {cl : ℕ} {bad : Option TileFault} : Keeps a (encCross cl bad s) := by
  refine h.ovcRefuse.engine fun c p e => ?_
  split at e
  · cases e; exact h.ovcRefuse.modelDrain
  · obtain ⟨_, -, rfl⟩ := work_map e
    exact h.ovcRefuse.modelStart

theorem Keeps.maxsim (h : Keeps a s) {cl : ℕ} {bad : Option TileFault} : Keeps a (maxsim cl bad s) := by
  refine h.ovcRefuse.engine fun c p e => ?_
  split at e
  · cases e; exact h.ovcRefuse.modelDrain
  · obtain ⟨_, -, rfl⟩ := work_map e
    exact h.ovcRefuse.modelStart

theorem Keeps.gather (h : Keeps a s) {op i : ℕ} : Keeps a (gather op i s) := by
  refine h.engine fun c p e => ?_
  split at e
  · cases e; exact h.pumpRows.tryEndRows
  · obtain ⟨_, -, rfl⟩ := work_map e
    exact h.runRows

theorem Keeps.scatter (h : Keeps a s) {op i : ℕ} : Keeps a (scatter op i s) := by
  refine h.engine fun c p e => ?_
  split at e
  · cases e; exact h.pumpRows.tryEndRows
  · obtain ⟨_, -, rfl⟩ := work_map e
    exact h.runRows

theorem Keeps.tryTake (h : Keeps a s) {f : Spx} {tag : ℕ} {j : Job} :
    Keeps a (tryTake f s tag j).2 ∧ ∀ p, (tryTake f s tag j).1 = some p → Keeps a p := by
  unfold Machine.tryTake
  extract_lets sq
  split
  · dsimp only
    exact ⟨h, fun p hp => by cases hp⟩
  · have h1 : Keeps a (Machine.takeEntry sq j.dom (sqPending s sq) s).2 := h.takeEntry
    generalize Machine.takeEntry sq j.dom (sqPending s sq) s = o at h1 ⊢
    obtain ⟨e, s1⟩ := o
    cases e with
    | none => exact ⟨h1, fun p hp => by cases hp⟩
    | some e =>
      replace h1 : Keeps a s1 := h1
      have h2 : Keeps a (Machine.newTag (Machine.dspCount s1 F.DSP_CNT_ADM_COUNT j.dom)).2 := Keeps.newTag (Keeps.dspCount h1)
      dsimp only
      generalize Machine.newTag (Machine.dspCount s1 F.DSP_CNT_ADM_COUNT j.dom) = o at h2 ⊢
      obtain ⟨t, s2⟩ := o
      exact ⟨h2, fun p hp => by cases hp; exact Keeps.modJob h2⟩

theorem Keeps.takeBody (h : Keeps a s) {f : Spx} {tag : ℕ} {j : Job} : Keeps a (takeBody f s tag j) := by
  unfold Machine.takeBody
  refine Keeps.ite h.retireCF ?_
  obtain ⟨h2, h1⟩ := h.tryTake (f := f) (tag := tag) (j := j)
  generalize Machine.tryTake f s tag j = o at h1 h2 ⊢
  obtain ⟨_ | t, s1⟩ := o
  · exact Keeps.waitJob h2
  · exact Keeps.modJob (h1 t rfl)

theorem Keeps.takeEnd (h : Keeps a s) {tag : ℕ} {j : Job} : Keeps a (takeEnd s tag j) := by
  unfold Machine.takeEnd
  split
  · rename_i f _
    obtain ⟨h2, h1⟩ := h.tryTake (f := f) (tag := tag) (j := j)
    generalize Machine.tryTake f s tag j = o at h1 h2 ⊢
    obtain ⟨_ | t, s1⟩ := o
    · exact h2
    · exact Keeps.modJob (h1 t rfl)
  · exact h

theorem Keeps.undoProgs (h : Keeps a s) : Keeps a (undoProgs s) := by
  have hloop : ∀ (l : List ℕ) (x : State × List Prog), Keeps a x.1 → Keeps a (l.foldl (fun (x : State × List Prog) _ =>
      match leastBy (fun g => 2 ^ 64 - g.seq) x.2 with
      | some g => (Machine.undoProg x.1 g, x.2.erase g)
      | none => x) x).1 := by
    intro l
    induction l with
    | nil => exact fun x hx => hx
    | cons _ l ih =>
      intro x hx
      refine ih _ ?_
      beta_reduce
      cases leastBy (fun g => 2 ^ 64 - g.seq) x.2 with
      | none => exact hx
      | some g => exact hx.undoProg
  exact hloop _ _ h

theorem Keeps.warmReset (h : Keeps a s) : Keeps a (warmReset s) := by
  have hf : Keeps a (Machine.undoProgs (Machine.settleLuns (Machine.abortAll s))) := h.abortAll.settleLuns.undoProgs
  unfold Machine.warmReset
  extract_lets f lost _ _ s2
  have h2 : Keeps a s2 := by
    refine ⟨h.1, fun hs => ?_⟩
    have ht := hf.2 hs
    obtain ⟨⟨hstk, _, hflash, hhost⟩, ⟨hsort, hval⟩, _, _, hlog, hlo, hhi⟩ := id ht
    have hlost : Memory.wf (if lost then [] else f.mem.stk) := by split <;> [exact empty_wf; exact hstk]
    exact ⟨⟨hlost, empty_wf, hflash, hhost⟩, ⟨tsorted_filter hsort _, fun p hp => hval p (List.mem_of_mem_filter hp)⟩,
      keptJournal_wf ht, by simp [s2], hlog, hlo, hhi⟩
  exact h2.warmStart

theorem Keeps.warmAsked (h : Keeps a s) : Keeps a (warmAsked s) := Keeps.ite h (Keeps.ite h.update.fset h.warmReset)

theorem Keeps.coldReset (h : Keeps a s) {cause : ℕ} : Keeps a (coldReset cause s) := by
  have hf : Keeps a (Machine.closeBlocks (Machine.undoProgs s)) := h.undoProgs.closeBlocks
  unfold Machine.coldReset
  extract_lets j f s1
  have h1 : Keeps a s1 := by
    refine ⟨h.1, fun hs => ?_⟩
    obtain ⟨⟨_, _, hflash, hhost⟩, -⟩ := hf.2 hs
    have ht := h.2 hs
    obtain ⟨_, _, _, _, hlog, hlo, hhi⟩ := id ht
    exact ⟨⟨empty_wf, empty_wf, hflash, hhost⟩, regsWf_nil, keptJournal_wf ht, by simp [s1], hlog, hlo, hhi⟩
  exact h1.fset.fset

theorem Keeps.resetCmd (h : Keeps a s) {v : W32} : Keeps a (resetCmd v s) := by
  unfold Machine.resetCmd
  refine Keeps.ite h ?_
  split
  · exact h.warmAsked
  · exact Keeps.ite h h.isolate
  · exact h.coldReset
  · exact h

theorem Keeps.resetWrite (h : Keeps a s) {kind : ℕ} {v : W32} : Keeps a (resetWrite kind v s) :=
  h.hostReg (fun _ h7 => Keeps.ite h7.resetCmd h7)

theorem Keeps.powerOn (h : Keeps a s) : Keeps a (powerOn s) := by
  have h1 : Keeps a (Machine.coldReset 0 s) := h.coldReset
  unfold Machine.powerOn
  refine ⟨h1.1, fun hs => ?_⟩
  obtain ⟨hmem, hregs, hj, hhold, -⟩ := h1.2 hs
  exact ⟨hmem, hregs, hj, hhold, by simp, by simp, by simp⟩

theorem Keeps.configDone (h : Keeps a s) {format readable : Bool} {records : ℕ} : Keeps a (configDone format readable records s) := by
  unfold Machine.configDone
  extract_lets _ go
  have hgo : ∀ j n, (Sound s → Memory.wf j.area) → Keeps a (go j n) := by
    intro j n hj
    have h1 : Keeps a { s with prb := { s.prb with journal := some j, restoreDue := false } } := by
      refine ⟨h.1, fun hs => ?_⟩
      have hw := hj (h.2 hs)
      obtain ⟨hmem, hregs, -, hrest⟩ := h.2 hs
      exact ⟨hmem, hregs, fun k hk => by cases hk; exact hw, hrest⟩
    have h2 := h1.restart (lost := s.prb.restoreDue) fun hs => hs.2.2.1 j rfl
    exact h2.stepDone
  split
  · rename_i hj
    exact hgo _ _ fun hs => hs.2.2.1 _ hj
  · exact Keeps.ite (hgo _ _ fun _ => empty_wf) h.stepDone

theorem Keeps.stepComplete (h : Keeps a s) : Keeps a (stepComplete s) := by
  unfold Machine.stepComplete
  split
  · exact h
  · split
    · exact h.railsDone
    · exact h.fusesDone
    · exact h.firstStageDone
    · exact h.bistDone
    · exact h.ymapDone
    · exact h.imageDone
    · exact h.broadcastDone
    · exact h.trainingDone
    · exact h.discoveryDone
    · exact h.portsDone
    · exact h.lanesDone
    · exact h.pcieDone
    · exact h.timeDone
    · exact h.configDone
    · exact h.readyDone

theorem Keeps.brownoutEnd (h : Keeps a s) {lowMv : ℕ} : Keeps a (brownoutEnd lowMv s) := by
  unfold Machine.brownoutEnd
  dsimp only
  split
  · exact h
  · exact Keeps.ite h (Keeps.ite h.update.fset.fset.devEvent.warmReset h.update.fset.fset.devEvent)

theorem Keeps.railReset (h : Keeps a s) {rail : ℕ} : Keeps a (railReset rail s) :=
  Keeps.ite (h.foldl (fun _ _ h7 => h7.holdChannel)) (Keeps.ite h.coldReset h)

theorem Keeps.thermalTrip (h : Keeps a s) {die tj : ℕ} : Keeps a (thermalTrip die tj s) := Keeps.ite h h.emit.coldReset

theorem Keeps.regEffect (h : Keeps a s) {r : Reg} {inst : ℕ} {v : W32} : Keeps a (regEffect r inst v s) := by
  unfold Machine.regEffect
  split
  · exact h.sqCtl
  · exact h.eqCtl
  · exact h.heldReg
  · exact h.heldReg
  · exact h.heldReg
  · exact h.heldReg
  · exact h.sysEqHead
  · exact h.domReg
  · exact h.domReg
  · exact h.pasidReg
  · exact h.setReg
  · exact h.setReg
  · exact h.setReg
  · exact h.setReg
  · exact h.setReg
  · exact h.setReg
  · exact h.setReg
  · exact h.setReg
  · exact h.polWrite
  · exact h.seriesWrite
  · exact h.countClear
  · exact h.countClear
  · exact h.countClear
  · exact h.countClear
  · exact h.clearReg
  · exact h.clearReg
  · exact h.clearReg
  · exact h.clearReg
  · exact Keeps.ite h.fset h
  · exact h.flsDiscard
  · exact h.polReg
  · exact h.opReg (fun _ _ h10 => h10.indexBegin)
  · exact h.opReg (fun _ _ h10 => h10.regionBegin)
  · exact h.migReg
  · exact h.dmaReg
  · exact h.mapCmd
  · exact h.hoCmd
  · exact h.portCmd
  · exact h.opReg (fun _ _ h10 => h10.windowBegin)
  · exact h.regWritePlain.countPorts
  · exact h.gateCtl
  · exact h.gateWord
  · exact h.gateWord
  · exact h.smpCtl
  · exact h.heldReg
  · exact h.heldReg
  · exact h.heldReg
  · exact h.cfgCtl
  · exact h.opReg (fun _ _ h10 => h10.domBegin)
  · exact h.lifecycle
  · exact h.tenancyReg
  · exact h.clrMin
  · exact h.powerClr
  · exact h.thermClr
  · exact h.waketolWrite
  · exact h.resetCmd
  · exact h.shdCtl
  · exact h.stepCmd
  · exact h.regWritePlain

theorem Keeps.registerWrite (h : Keeps a s) {r : Reg} {inst : ℕ} {v : W32} : Keeps a (registerWrite r inst v s) :=
  Keeps.ite (h.hostReg (fun _ h8 => h8.regEffect)) h

theorem Keeps.hostAccess (h : Keeps a s) {x : HostAcc} : Keeps a (hostAccess x s) := by
  unfold Machine.hostAccess
  split
  · exact h.hostReg (fun _ h10 => h10.regEffect)
  · exact h.hostReg (fun _ h8 => h8.latchRead)
  · exact h.stepWrite
  · exact h.bar2Arrive
  · exact h.sqDoorbell
  · exact h.eqDoorbell
  · exact h.msixWrite

theorem Keeps.hostPump (h : Keeps a s) {n : ℕ} : Keeps a (hostPump n s) := by
  induction n generalizing s with
  | zero => exact h
  | succ n ih =>
    unfold Machine.hostPump
    split
    · exact h
    · extract_lets _ t
      have ht : Keeps a t := Keeps.hostAccess h.update
      exact Keeps.ite (ih ht.update) h

theorem Keeps.wakeDone (h : Keeps a s) : Keeps a (wakeDone s) :=
  Keeps.ite h (((Keeps.ite ((((((Keeps.ite h.preloadAll h).fset).fset).update).fbump).sampleResume) (((((Keeps.ite h.preloadAll
    h).fset).fset).update).fbump)).releaseWake).hostPump)

theorem Keeps.tick (h : Keeps a s) : Keeps a (tick s) := (Keeps.ite h.update.hostPump h.update.hostPump.update).cfgSettle

/-- Work that goes on alike after either of two pieces of work. -/
theorem work_join {α β : Type} {c : Prop} [Decidable c] {x y : Work α} {f : α → Work β} {p : β}
    (e : (if c then x >>= f else y >>= f) = .ok p) : ∃ v, f v = .ok p := by
  split at e <;> obtain ⟨v, -, e⟩ := work_bind e <;> exact ⟨v, e⟩

theorem Keeps.scanStart (h : Keeps a s) {k : ℕ} {resident : Bool} {dissent : List ℕ} {split : Option ℕ} {c : Cmd} :
    ∀ p, scanStart k resident dissent split s c = .ok p → Keeps a p := by
  intro p e
  unfold Machine.scanStart at e
  extract_lets -underBinder +onlyGivenNames t d dom tag idx wsn ta withTable at e
  have ht : Keeps a t := h.takeReports
  clear_value t
  obtain ⟨_, e⟩ := work_join e
  dsimp -zeta only [withTable] at e
  obtain ⟨_, -, e⟩ := work_bind e
  extract_lets -underBinder +onlyGivenNames withHeader at e
  obtain ⟨_, e⟩ := work_join e
  dsimp -zeta only [withHeader] at e
  extract_lets -underBinder +onlyGivenNames hdrAt tilesN at e
  obtain ⟨_, -, e⟩ := work_bind e
  obtain ⟨_, -, e⟩ := work_bind e
  extract_lets -underBinder +onlyGivenNames withSpace at e
  obtain ⟨_, e⟩ := work_join e
  dsimp -zeta only [withSpace] at e
  obtain ⟨_, -, e⟩ := work_bind e
  extract_lets -underBinder +onlyGivenNames slots at e
  split at e
  · cases e
  · obtain ⟨_, -, e⟩ := work_bind e
    obtain ⟨_, -, e⟩ := work_bind e
    split at e
    · cases e
    · extract_lets -underBinder +onlyGivenNames root at e
      obtain ⟨_, -, e⟩ := work_bind e
      extract_lets -underBinder +onlyGivenNames epoch qs at e
      obtain ⟨_, -, e⟩ := work_bind e
      extract_lets -underBinder +onlyGivenNames mine at e
      obtain ⟨_, -, e⟩ := work_bind e
      obtain ⟨_, -, e⟩ := work_bind e
      extract_lets -underBinder +onlyGivenNames served excl exclMask top tombs live at e
      obtain ⟨_, -, e⟩ := work_bind e
      extract_lets -underBinder +onlyGivenNames tombUe same segs rs z1 z passes cands slots1 s1 s2 s3 s4 s5 s6 st spec at e
      obtain rfl := Except.ok.inj e
      have h1 : Keeps a s1 := ht.update
      clear_value s1
      have h2 : Keeps a s2 := Keeps.ite h1.tilePut h1
      clear_value s2
      have h3 : Keeps a s3 := Keeps.ite h2.fbump h2
      clear_value s3
      have h4 : Keeps a s4 := Keeps.ite h3.fbump h3
      clear_value s4
      have h5 : Keeps a s5 := h4.foldl fun _ _ hu => hu.chargeUnit
      clear_value s5
      have h6 : Keeps a s6 := by
        simp only [s6]
        split
        · exact h5.countUE.faultRec.fbump
        · exact h5
      exact h6.scanDrain

theorem Keeps.scanList (h : Keeps a s) {k op : ℕ} {dissent : List ℕ} {split : Option ℕ} : Keeps a (scanList k op dissent split s) := by
  unfold Machine.scanList
  refine h.engine (fun _ _ e => ?_)
  split at e
  · split at e
    · cases e
      exact (Keeps.ite h.fbump h).putCmd
    · exact h.scanStart _ e
  · cases e
    exact h.takeReports.scanDrain

theorem Keeps.mergePartial (h : Keeps a s) {inst : ℕ} : Keeps a (mergePartial inst s) := by
  refine h.engine fun c p e => ?_
  extract_lets +onlyGivenNames d dom n k out approx at e
  obtain ⟨_, -, e⟩ := work_bind e
  obtain ⟨_, -, e⟩ := work_bind e
  obtain ⟨_, -, e⟩ := work_bind e
  obtain rfl := Except.ok.inj e
  exact h.uPoke.endCmd

theorem Keeps.uniq (h : Keeps a s) {inst op : ℕ} : Keeps a (uniq inst op s) := by
  refine h.engine fun c p e => ?_
  obtain ⟨_, -, e⟩ := work_bind e
  extract_lets +onlyGivenNames d dom n out at e
  obtain ⟨_, -, e⟩ := work_bind e
  obtain ⟨_, -, e⟩ := work_bind e
  obtain ⟨_, -, e⟩ := work_bind e
  obtain rfl := Except.ok.inj e
  exact h.uPoke.endCmd

theorem Keeps.getD (h : Keeps a s) {o : Option State} (ho : ∀ p, o = some p → Keeps a p) : Keeps a (o.getD s) := by
  cases o with
  | none => exact h
  | some t => exact ho t rfl

/-- Every command has a next state, and keeps what a command keeps: one arm for each command of the table, by what its meaning keeps. -/
theorem exec_keeps (c : Instr) (s : State) : ∃ t, exec c s = .next t ∧ Keeps s t := by
  have h := Keeps.refl s
  cases c with
  | registerWrite r inst v => exact ⟨_, rfl, h.registerWrite⟩
  | bar0BadAccess isWrite off size => exact ⟨_, rfl, h.bar0BadAccess⟩
  | paceTargetWrite v => exact ⟨_, rfl, h.hostReg (fun _ h5 => h5.regWritePlain)⟩
  | limiterRamp governor achieved amount => exact ⟨_, rfl, h.limiterMove⟩
  | paceMonWindow cw ce iod limited governed => exact ⟨_, rfl, h.paceWindow⟩
  | clrMin v => exact ⟨_, rfl, h.hostReg (fun _ h5 => h5.clrMin)⟩
  | ptpMessage mgb offset rate => exact ⟨_, rfl, h.ptpMessage⟩
  | holdoverEntry => exact ⟨_, rfl, h.holdoverEntry⟩
  | grandmasterReturn mgb offset rate => exact ⟨_, rfl, h.grandmasterReturn⟩
  | ptpSwitchover mgb rate => exact ⟨_, rfl, h.ptpSwitchover⟩
  | smcTimeLoRead => exact ⟨_, rfl, h.hostReg (fun _ h4 => h4.timeLatch)⟩
  | planLoad tag =>
    refine ⟨_, rfl, ?_⟩
    split
    · exact Keeps.ite h.planLoad h
    · exact h
  | planUnload tag =>
    refine ⟨_, rfl, ?_⟩
    split
    · exact Keeps.ite h.planUnload h
    · exact h
  | jobPlacement => exact ⟨_, rfl, h.jobPlacement⟩
  | deadlineReached tag => exact ⟨_, rfl, h.deadlineReached⟩
  | pendingJobLate tag => exact ⟨_, rfl, h.pendingJobLate⟩
  | takenRequestLate tag slot => exact ⟨_, rfl, h.takenLate⟩
  | claim q f => exact ⟨_, rfl, h.spx (fun _ _ _ h8 => h8.claimBody)⟩
  | heldClaimGrant => exact ⟨_, rfl, h.heldClaimGrant⟩
  | handFree q f => exact ⟨_, rfl, h.hand⟩
  | handToJob q f => exact ⟨_, rfl, h.hand⟩
  | handToEngine q f => exact ⟨_, rfl, h.hand⟩
  | handRecall q f => exact ⟨_, rfl, h.hand⟩
  | yieldPoint q f => exact ⟨_, rfl, h.spx (fun _ _ _ h8 => h8.retire.seqYield)⟩
  | seqWatchdogAbort q => exact ⟨_, rfl, h.seqWatchdogAbort⟩
  | nbuWatchdogAbort bank =>
    refine ⟨_, rfl, ?_⟩
    split
    · exact Keeps.ite h h.fbump.abortNbu
    · exact h
  | seqOverrun q => exact ⟨_, rfl, h.seqOverrun⟩
  | nbuOverrun bank => exact ⟨_, rfl, Keeps.ite h.setNbu.fbump h⟩
  | forcedRefreshSuspension bank =>
    refine ⟨_, rfl, ?_⟩
    dsimp only
    split
    · exact Keeps.ite h h.setNbu.fbump.faultRec
    · exact h
  | seqViolCntClear v => exact ⟨_, rfl, h.hostReg (fun _ h5 => h5.rset)⟩
  | seqStalePulseClear v => exact ⟨_, rfl, h.hostReg (fun _ h5 => h5.rset)⟩
  | creditStallResume q => exact ⟨_, rfl, h.creditStallResume⟩
  | pulse idx gen inc => exact ⟨_, rfl, h.pulseCtr⟩
  | makeWayRequest => exact ⟨_, rfl, h.makeWayRequest⟩
  | jobResume ue => exact ⟨_, rfl, h.jobResume⟩
  | add q f => exact ⟨_, rfl, h.alu⟩
  | sub q f => exact ⟨_, rfl, h.alu⟩
  | mul q f => exact ⟨_, rfl, h.alu⟩
  | mulhu q f => exact ⟨_, rfl, h.alu⟩
  | divu q f => exact ⟨_, rfl, h.alu⟩
  | remu q f => exact ⟨_, rfl, h.alu⟩
  | div q f => exact ⟨_, rfl, h.alu⟩
  | rem q f => exact ⟨_, rfl, h.alu⟩
  | andOp q f => exact ⟨_, rfl, h.alu⟩
  | orOp q f => exact ⟨_, rfl, h.alu⟩
  | xorOp q f => exact ⟨_, rfl, h.alu⟩
  | shl q f => exact ⟨_, rfl, h.alu⟩
  | shr q f => exact ⟨_, rfl, h.alu⟩
  | sar q f => exact ⟨_, rfl, h.alu⟩
  | minu q f => exact ⟨_, rfl, h.alu⟩
  | maxu q f => exact ⟨_, rfl, h.alu⟩
  | minOp q f => exact ⟨_, rfl, h.alu⟩
  | maxOp q f => exact ⟨_, rfl, h.alu⟩
  | cmp q f => exact ⟨_, rfl, h.pureOp⟩
  | mov q f => exact ⟨_, rfl, h.pureOp⟩
  | popc q f => exact ⟨_, rfl, h.pureOp⟩
  | clz q f => exact ⟨_, rfl, h.pureOp⟩
  | li q f => exact ⟨_, rfl, h.pureOp⟩
  | ld q f => exact ⟨_, rfl, h.spx (fun _ _ _ h8 => h8.tileLoad)⟩
  | st q f => exact ⟨_, rfl, h.spx (fun _ _ _ h8 => h8.tileStore)⟩
  | ldd q f => exact ⟨_, rfl, h.spx (fun _ _ _ h8 => h8.tileLoad)⟩
  | std q f => exact ⟨_, rfl, h.spx (fun _ _ _ h8 => h8.tileStore)⟩
  | dset q f => exact ⟨_, rfl, h.pureOp⟩
  | dget q f => exact ⟨_, rfl, h.pureOp⟩
  | vld q f => exact ⟨_, rfl, h.spx (fun _ _ _ h8 => h8.tileLoad)⟩
  | vst q f => exact ⟨_, rfl, h.spx (fun _ _ _ h8 => h8.tileStore)⟩
  | vget q f => exact ⟨_, rfl, h.pureOp⟩
  | vput q f => exact ⟨_, rfl, h.pureOp⟩
  | vcnt q f => exact ⟨_, rfl, h.pureOp⟩
  | vsetc q f => exact ⟨_, rfl, h.pureOp⟩
  | time q f => exact ⟨_, rfl, h.spx (fun _ _ _ h8 => h8.retire)⟩
  | br q f => exact ⟨_, rfl, h.spx (fun _ _ _ h8 => h8.jump)⟩
  | bc q f => exact ⟨_, rfl, h.spx (fun _ _ _ h8 => Keeps.ite h8.jump h8.retire)⟩
  | jal q f => exact ⟨_, rfl, h.spx (fun _ _ _ h8 => h8.jump)⟩
  | jr q f => exact ⟨_, rfl, h.spx (fun _ _ _ h8 => h8.jump)⟩
  | nop q f => exact ⟨_, rfl, h.pureOp⟩
  | endJob q f => exact ⟨_, rfl, h.spx (fun _ _ _ h8 => h8.finishJob)⟩
  | tinst q f => exact ⟨_, rfl, h.spx (fun _ _ _ h8 => h8.retire)⟩
  | scan q f => exact ⟨_, rfl, h.issue⟩
  | rank q f => exact ⟨_, rfl, h.issue⟩
  | lrank q f => exact ⟨_, rfl, h.issue⟩
  | sel q f => exact ⟨_, rfl, h.issue⟩
  | merge q f => exact ⟨_, rfl, h.issue⟩
  | uniq q f => exact ⟨_, rfl, h.issue⟩
  | gath q f => exact ⟨_, rfl, h.issue⟩
  | scat q f => exact ⟨_, rfl, h.issue⟩
  | move q f => exact ⟨_, rfl, h.issue⟩
  | enc q f => exact ⟨_, rfl, h.issue⟩
  | maxsim q f => exact ⟨_, rfl, h.issue⟩
  | fld q f => exact ⟨_, rfl, h.fabric⟩
  | fst q f => exact ⟨_, rfl, h.fabric⟩
  | fatom q f => exact ⟨_, rfl, h.fabric⟩
  | acopyPush q f => exact ⟨_, rfl, Keeps.ite h h.fabric⟩
  | acopyPull q f => exact ⟨_, rfl, Keeps.ite h.fabric h⟩
  | fabricReply y => exact ⟨_, rfl, h.fabricReply⟩
  | await q f => exact ⟨_, rfl, h.spx (fun _ _ _ h8 => h8.awaitBody)⟩
  | extTimeout q => exact ⟨_, rfl, h.extTimeout⟩
  | fence q f => exact ⟨_, rfl, h.spx (fun _ _ _ h8 => h8.fenceBody)⟩
  | viewBind q f => exact ⟨_, rfl, Keeps.ite h (h.spx (fun _ _ _ h8 => h8.viewBind))⟩
  | viewUnbind q f => exact ⟨_, rfl, Keeps.ite (h.spx (fun _ _ _ h8 => h8.retire)) h⟩
  | ard q f => exact ⟨_, rfl, h.spx (fun _ _ _ h8 => h8.ardBody)⟩
  | take q f => exact ⟨_, rfl, h.spx (fun _ _ _ h8 => h8.takeBody)⟩
  | takeRetire q =>
    refine ⟨_, rfl, ?_⟩
    split
    · exact h.takeEnd
    · exact h
  | postChild q f => exact ⟨_, rfl, Keeps.ite h (h.spx (fun _ _ _ h8 => h8.postChildBody))⟩
  | postCompletion q f => exact ⟨_, rfl, Keeps.ite (h.spx (fun _ _ _ h8 => h8.postCompletionBody)) h⟩
  | scanLoadGroup cluster => exact ⟨_, rfl, h.scanLoadGroup⟩
  | scanStackList cluster dissent split => exact ⟨_, rfl, h.scanList⟩
  | scanResidentList cluster dissent split => exact ⟨_, rfl, h.scanList⟩
  | rankCommand stack => exact ⟨_, rfl, h.rankCommand⟩
  | nbuNop bank m => exact ⟨_, rfl, h.microPure⟩
  | nbuYield bank m => exact ⟨_, rfl, h.yieldRow⟩
  | nbuEnd bank m => exact ⟨_, rfl, h.yieldRow⟩
  | nbuLdr bank m => exact ⟨_, rfl, h.microCol⟩
  | nbuLdh bank m => exact ⟨_, rfl, h.microOp⟩
  | nbuStc bank m => exact ⟨_, rfl, h.microOp⟩
  | nbuLdz bank m => exact ⟨_, rfl, h.microCol⟩
  | nbuLds bank m => exact ⟨_, rfl, h.microCol⟩
  | nbuMac bank m => exact ⟨_, rfl, h.checkLane.microCol⟩
  | nbuMacr bank m => exact ⟨_, rfl, h.checkLane.microPure⟩
  | nbuMqz bank m => exact ⟨_, rfl, h.checkLane.microOp⟩
  | nbuRed bank m => exact ⟨_, rfl, h.microPure⟩
  | nbuFop bank m => exact ⟨_, rfl, h.microPure⟩
  | nbuSetm bank m => exact ⟨_, rfl, h.microPure⟩
  | nbuSetp bank m => exact ⟨_, rfl, h.microPure⟩
  | nbuAddp bank m => exact ⟨_, rfl, h.microPure⟩
  | nbuMovp bank m => exact ⟨_, rfl, h.microPure⟩
  | nbuBr bank m => exact ⟨_, rfl, h.microOp⟩
  | nbuLoop bank m => exact ⟨_, rfl, h.microOp⟩
  | nbuBz bank m => exact ⟨_, rfl, h.microOp⟩
  | nbuEmit bank m => exact ⟨_, rfl, h.nbuEmit⟩
  | refreshDue bank => exact ⟨_, rfl, Keeps.ite h.setNbu h⟩
  | stkDeferMaxClr stack v => exact ⟨_, rfl, h.hostReg (fun _ h6 => Keeps.ite h6.fset h6)⟩
  | lrankLoadTable channel => exact ⟨_, rfl, h.lrankLoadTable⟩
  | lrankScorePages channel => exact ⟨_, rfl, h.lrankScorePages⟩
  | lunReadIssue channel lun join => exact ⟨_, rfl, h.lunReadIssue⟩
  | pageReadComplete channel lun dec mismatch => exact ⟨_, rfl, h.pageReadComplete⟩
  | candidateIntake lane => exact ⟨_, rfl, h.candidateIntake⟩
  | selArmExact inst => exact ⟨_, rfl, h.selArm⟩
  | selArmApprox inst => exact ⟨_, rfl, h.selArm⟩
  | selDrain inst => exact ⟨_, rfl, h.selDrain⟩
  | mergePartial inst => exact ⟨_, rfl, h.mergePartial⟩
  | mergePass inst => exact ⟨_, rfl, h.mergePass⟩
  | mergeSpillSort inst => exact ⟨_, rfl, h.mergeSpillSort⟩
  | mergeCollective inst => exact ⟨_, rfl, h.mergeCollective⟩
  | uniqValues inst => exact ⟨_, rfl, h.uniq⟩
  | uniqCounts inst => exact ⟨_, rfl, h.uniq⟩
  | encLayer sca bad => exact ⟨_, rfl, h.encProduct⟩
  | encCentroid sca bad => exact ⟨_, rfl, h.encCentroid⟩
  | encProjection sca bad => exact ⟨_, rfl, h.encProduct⟩
  | encCrossScore sca bad => exact ⟨_, rfl, h.encCross⟩
  | maxsimScore sca bad => exact ⟨_, rfl, h.maxsim⟩
  | gathGather tbe => exact ⟨_, rfl, h.gather⟩
  | gathPool tbe => exact ⟨_, rfl, h.gather⟩
  | scatOverwrite tbe => exact ⟨_, rfl, h.scatter⟩
  | scatAdd tbe => exact ⟨_, rfl, h.scatter⟩
  | scatReplace tbe => exact ⟨_, rfl, h.scatter⟩
  | rowRequest tbe => exact ⟨_, rfl, h.rowServe⟩
  | replicaCopyRetry id =>
    refine ⟨_, rfl, ?_⟩
    dsimp only
    split
    · exact h
    · exact Keeps.ite h h.fbump.sendSys.update
  | moveCopy channel => exact ⟨_, rfl, h.dmaCopy⟩
  | moveCopyList channel => exact ⟨_, rfl, h.dmaCopy⟩
  | hazeAppend tag => exact ⟨_, rfl, h.hazeAppend⟩
  | commitRequest tag => exact ⟨_, rfl, h.commitRequest⟩
  | pin tag => exact ⟨_, rfl, h.pinCmd⟩
  | unpin tag => exact ⟨_, rfl, h.unpinCmd⟩
  | mergeOpen tag => exact ⟨_, rfl, h.mergeOpen⟩
  | mergeFold tag => exact ⟨_, rfl, h.mergeFold⟩
  | mergeSwap tag => exact ⟨_, rfl, h.mergeSwap⟩
  | mergeClose tag => exact ⟨_, rfl, h.mergeClose⟩
  | park tag => exact ⟨_, rfl, h.parkCmd⟩
  | unpark tag => exact ⟨_, rfl, h.parkCmd⟩
  | updraftPage tag => exact ⟨_, rfl, h.updraftPage⟩
  | updraftHotset tag => exact ⟨_, rfl, h.updraftHotset⟩
  | engineCommandComplete cls inst => exact ⟨_, rfl, h.engineComplete⟩
  | groupCommit journaled => exact ⟨_, rfl, h.groupCommit⟩
  | replicaBatch src index id ops => exact ⟨_, rfl, h.replicaBatch⟩
  | replicaAck src id tags refusal => exact ⟨_, rfl, h.replicaAck⟩
  | commitNotice src id => exact ⟨_, rfl, h.commitNotice⟩
  | noticeAck src id => exact ⟨_, rfl, h.noticeAck⟩
  | discardNotice src id => exact ⟨_, rfl, h.discardNotice⟩
  | commitTimeout id => exact ⟨_, rfl, h.commitTimeout⟩
  | outcomeQueryTimer id => exact ⟨_, rfl, h.outcomeQueryTimer⟩
  | outcomeQuery src id => exact ⟨_, rfl, h.outcomeQuery⟩
  | indexInstall v => exact ⟨_, rfl, h.indexWrite⟩
  | indexRemove v => exact ⟨_, rfl, h.indexWrite⟩
  | overrideSet v => exact ⟨_, rfl, h.indexWrite⟩
  | overrideClear v => exact ⟨_, rfl, h.indexWrite⟩
  | indexCommandComplete => exact ⟨_, rfl, h.indexComplete⟩
  | tirIdxOvlClear v => exact ⟨_, rfl, h.hostReg (fun _ h5 => h5.fset)⟩
  | epochLoRead => exact ⟨_, rfl, h.hostReg (fun _ h4 => h4.epochLatch)⟩
  | holdLoRead => exact ⟨_, rfl, h.hostReg (fun _ h4 => h4.holdLatch)⟩
  | regionCreate v => exact ⟨_, rfl, h.regionWrite⟩
  | regionRemove v => exact ⟨_, rfl, h.regionWrite⟩
  | regionClean v => exact ⟨_, rfl, h.regionWrite⟩
  | regionInvalidate v => exact ⟨_, rfl, h.regionWrite⟩
  | regionCleanInvalidate v => exact ⟨_, rfl, h.regionWrite⟩
  | regionCommandComplete busError => exact ⟨_, rfl, h.regionComplete⟩
  | migrationPassEnd page => exact ⟨_, rfl, h.migrationPassEnd⟩
  | migrationFlip page => exact ⟨_, rfl, h.migrationFlip⟩
  | migrationDrain page => exact ⟨_, rfl, h.migrationDrain⟩
  | migFinalMaxClr v => exact ⟨_, rfl, h.hostReg (fun _ h5 => Keeps.ite h5.regWritePlain.fset h5.regWritePlain)⟩
  | flashProgramComplete channel lun ok => exact ⟨_, rfl, h.flashProgramComplete⟩
  | flashEraseComplete channel lun ok => exact ⟨_, rfl, h.flashEraseComplete⟩
  | readDisturbLimit block => exact ⟨_, rfl, h.readDisturbLimit⟩
  | patrolRead block => exact ⟨_, rfl, h.patrolRead⟩
  | garbageCollection channel lun => exact ⟨_, rfl, h.garbageCollection⟩
  | readSuspend channel lun => exact ⟨_, rfl, h.readSuspend⟩
  | channelHeldOut channel => exact ⟨_, rfl, h.holdChannel⟩
  | flsDiscard v => exact ⟨_, rfl, h.hostReg (fun _ h5 => h5.flsDiscard)⟩
  | discardComplete => exact ⟨_, rfl, h.discardComplete⟩
  | windowCreate v => exact ⟨_, rfl, h.windowWrite⟩
  | windowRemove v => exact ⟨_, rfl, h.windowWrite⟩
  | windowCommandComplete => exact ⟨_, rfl, h.windowComplete⟩
  | load y => exact ⟨_, rfl, h.request⟩
  | store y => exact ⟨_, rfl, h.request⟩
  | atomic y => exact ⟨_, rfl, h.request⟩
  | copyPush y => exact ⟨_, rfl, h.request⟩
  | copyPull y => exact ⟨_, rfl, h.request⟩
  | copyData y => exact ⟨_, rfl, h.pullData⟩
  | copyDone y => exact ⟨_, rfl, h.copyDone⟩
  | copyCancel y => exact ⟨_, rfl, h.copyCancel⟩
  | rowRead y => exact ⟨_, rfl, h.request⟩
  | rowUpdate y => exact ⟨_, rfl, h.request⟩
  | fabricOperationTimeout tag => exact ⟨_, rfl, h.opTimeout⟩
  | copyTrackerTimeout key => exact ⟨_, rfl, h.copyTimeout⟩
  | portTrainingDone port lanes direct peer peerValid authOk => exact ⟨_, rfl, h.portTrainingDone⟩
  | qualificationComplete port pass => exact ⟨_, rfl, h.qualificationComplete⟩
  | linkLoss port => exact ⟨_, rfl, h.linkLoss⟩
  | frameReceive port crcOk authOk => exact ⟨_, rfl, h.frameReceive⟩
  | rekey port rx => exact ⟨_, rfl, h.rekey⟩
  | pathNotice port node => exact ⟨_, rfl, h.pathNotice⟩
  | pathRestored port node => exact ⟨_, rfl, h.pathRestored⟩
  | endToEndReplay tag => exact ⟨_, rfl, h.endToEndReplay⟩
  | portRetry v => exact ⟨_, rfl, h.hostReg (fun _ h5 => h5.portCmd)⟩
  | portHold v => exact ⟨_, rfl, h.hostReg (fun _ h5 => h5.portCmd)⟩
  | sliceDefine v => exact ⟨_, rfl, h.hostReg (fun _ h5 => h5.mapCmd)⟩
  | mapStage v => exact ⟨_, rfl, h.hostReg (fun _ h5 => h5.mapCmd)⟩
  | mapCancel v => exact ⟨_, rfl, h.hostReg (fun _ h5 => h5.mapCmd)⟩
  | mapHorizon comp => exact ⟨_, rfl, h.mapHorizon⟩
  | drainDone y => exact ⟨_, rfl, h.drainDone⟩
  | ledgerRead y => exact ⟨_, rfl, h.ledgerRead⟩
  | ledgerCas y => exact ⟨_, rfl, h.ledgerCas⟩
  | offer y => exact ⟨_, rfl, h.offer⟩
  | accept y => exact ⟨_, rfl, h.acceptPkt⟩
  | handoffOffer v => exact ⟨_, rfl, h.hostReg (fun _ h5 => h5.hoCmd)⟩
  | handoffLedgerRead v => exact ⟨_, rfl, h.hostReg (fun _ h5 => h5.hoCmd)⟩
  | handoffTimeout => exact ⟨_, rfl, h.handoffTimeout⟩
  | hostLinkChange speed width flit => exact ⟨_, rfl, h.hostLinkChange⟩
  | bar2Read off len => exact ⟨_, rfl, Keeps.ite h.bar2Arrive h⟩
  | bar2Write off data => exact ⟨_, rfl, Keeps.ite h.bar2Arrive h⟩
  | sqTailDoorbell q v => exact ⟨_, rfl, h.sqDoorbell⟩
  | eqHeadDoorbell q v => exact ⟨_, rfl, h.eqDoorbell⟩
  | sysEqHeadWrite v => exact ⟨_, rfl, h.hostReg (fun _ h5 => h5.sysEqHead)⟩
  | sqEnable v => exact ⟨_, rfl, h.hostReg (fun _ h5 => h5.sqCtl)⟩
  | sqDisable v => exact ⟨_, rfl, h.hostReg (fun _ h5 => h5.sqCtl)⟩
  | eqEnable v => exact ⟨_, rfl, h.hostReg (fun _ h5 => h5.eqCtl)⟩
  | eqDisable v => exact ⟨_, rfl, h.hostReg (fun _ h5 => h5.eqCtl)⟩
  | submissionFetch busError => exact ⟨_, rfl, h.submissionFetch⟩
  | msixTimer eq => exact ⟨_, rfl, h.msixTimer⟩
  | msixUnmask vec addr data => exact ⟨_, rfl, h.msixWrite⟩
  | flr => exact ⟨_, rfl, h.flr⟩
  | dmaBusError channel idx addr started => exact ⟨_, rfl, h.dmaBusError⟩
  | dmaRestart v => exact ⟨_, rfl, h.hostReg (fun _ h5 => Keeps.ite h5.regWritePlain.dmaRestart h5.regWritePlain)⟩
  | spdmMessage msg => exact ⟨_, rfl, h.spdmMessage⟩
  | attestationRequest nonce => exact ⟨_, rfl, h.attestation⟩
  | periodicRelease id => exact ⟨_, rfl, h.periodicRelease⟩
  | seriesStop v => exact ⟨_, rfl, h.hostReg (fun _ h5 => h5.seriesWrite)⟩
  | dspPolWrite v => exact ⟨_, rfl, h.hostReg (fun _ h5 => h5.polWrite)⟩
  | dspCountClear r v => exact ⟨_, rfl, Keeps.ite (h.hostReg (fun _ h6 => h6.countClear)) h⟩
  | trfIngDropClear v => exact ⟨_, rfl, h.hostReg (fun _ h5 => h5.rset)⟩
  | gateListArm v => exact ⟨_, rfl, h.hostReg (fun _ h5 => h5.gateCtl)⟩
  | gateListCancel v => exact ⟨_, rfl, h.hostReg (fun _ h5 => h5.gateCtl)⟩
  | gateListHorizon port => exact ⟨_, rfl, h.gateHorizonAt⟩
  | gateWindowEdge port => exact ⟨_, rfl, h.gateEdge⟩
  | egressServe port => exact ⟨_, rfl, h.egressServe⟩
  | sampleTick => exact ⟨_, rfl, h.sampleTick⟩
  | samplingEnable v => exact ⟨_, rfl, h.hostReg (fun _ h5 => h5.smpCtl)⟩
  | samplingDisable v => exact ⟨_, rfl, h.hostReg (fun _ h5 => h5.smpCtl)⟩
  | sampleHeadWrite v => exact ⟨_, rfl, h.hostReg (fun _ h5 => h5.regWritePlain)⟩
  | domainCreate v => exact ⟨_, rfl, h.domWrite⟩
  | domainRelease v => exact ⟨_, rfl, h.domWrite⟩
  | domainReleaseDone => exact ⟨_, rfl, h.domReleased⟩
  | heartbeat m => exact ⟨_, rfl, h.mgmt (fun _ h5 => h5.heartbeat)⟩
  | mgmtFence m => exact ⟨_, rfl, h.mgmt (fun _ h5 => h5.selfFence)⟩
  | unfence m => exact ⟨_, rfl, h.mgmt (fun _ h5 => h5.unfence)⟩
  | expel m => exact ⟨_, rfl, h.mgmt (fun _ h5 => h5.expel)⟩
  | readmit m => exact ⟨_, rfl, h.mgmt (fun _ h5 => h5.readmit)⟩
  | statusRequest m => exact ⟨_, rfl, h.mgmtReply⟩
  | leaseExpiry => exact ⟨_, rfl, h.leaseExpiry⟩
  | cfgArm v => exact ⟨_, rfl, h.hostReg (fun _ h5 => h5.cfgCtl)⟩
  | cfgCancel v => exact ⟨_, rfl, h.hostReg (fun _ h5 => h5.cfgCtl)⟩
  | cfgHorizon => exact ⟨_, rfl, h.cfgPublish⟩
  | cfgGraceExpiry => exact ⟨_, rfl, h.cfgGrace⟩
  | railsAndReference rails ref warm => exact ⟨_, rfl, h.stepWrite⟩
  | fuseLoad parity => exact ⟨_, rfl, h.stepWrite⟩
  | firstStageVerification ok => exact ⟨_, rfl, h.stepWrite⟩
  | unitBist bad => exact ⟨_, rfl, h.stepWrite⟩
  | yieldMapReconciliation => exact ⟨_, rfl, h.stepWrite⟩
  | firmwareImageLoad verifies busError => exact ⟨_, rfl, h.stepWrite⟩
  | firmwareBroadcast ok => exact ⟨_, rfl, h.stepWrite⟩
  | stackTraining bad => exact ⟨_, rfl, h.stepWrite⟩
  | flashDiscovery part bad => exact ⟨_, rfl, h.stepWrite⟩
  | fabricTraining => exact ⟨_, rfl, h.stepWrite⟩
  | linkQualification => exact ⟨_, rfl, h.stepWrite⟩
  | fullPcieFunction => exact ⟨_, rfl, h.stepWrite⟩
  | timeSync => exact ⟨_, rfl, h.stepWrite⟩
  | configurationLoad readable records => exact ⟨_, rfl, h.stepWrite⟩
  | ready => exact ⟨_, rfl, h.stepWrite⟩
  | stepComplete => exact ⟨_, rfl, h.stepComplete⟩
  | brownoutStart rails => exact ⟨_, rfl, h.brownoutStart⟩
  | brownoutEnd lowMv => exact ⟨_, rfl, h.brownoutEnd⟩
  | railResetLevel rail => exact ⟨_, rfl, h.railReset⟩
  | governorWindow power => exact ⟨_, rfl, h.governorWindow⟩
  | prbPowerClr v => exact ⟨_, rfl, h.hostReg (fun _ h5 => h5.powerClr)⟩
  | thermalThrottle die tj => exact ⟨_, rfl, h.thermalThrottle⟩
  | thermalEmergency die tj => exact ⟨_, rfl, h.thermalEmergency⟩
  | emergencyEnd => exact ⟨_, rfl, h.emergencyEnd⟩
  | thermalTrip die tj => exact ⟨_, rfl, h.thermalTrip⟩
  | prbThermClrMax v => exact ⟨_, rfl, h.hostReg (fun _ h5 => h5.thermClr)⟩
  | powerStateEntry => exact ⟨_, rfl, h.powerEntry⟩
  | wakeComplete => exact ⟨_, rfl, h.wakeDone⟩
  | waketolWrite v => exact ⟨_, rfl, h.hostReg (fun _ h5 => h5.waketolWrite)⟩
  | warmReset v => exact ⟨_, rfl, h.resetWrite⟩
  | fabricIsolationReset v => exact ⟨_, rfl, h.resetWrite⟩
  | coldResetCommand v => exact ⟨_, rfl, h.resetWrite⟩
  | perst => exact ⟨_, rfl, h.coldReset⟩
  | powerOn => exact ⟨_, rfl, h.powerOn⟩
  | ref100Loss => exact ⟨_, rfl, Keeps.ite h.coldReset h⟩
  | stackHeldOut stack => exact ⟨_, rfl, h.stackHeldOut⟩
  | stackPatrol stack => exact ⟨_, rfl, h.stackPatrol⟩
  | quarantine cls unit => exact ⟨_, rfl, h.quarantine⟩
  | shadowClear v => exact ⟨_, rfl, h.hostReg (fun _ h5 => h5.shdCtl)⟩
  | goProd v => exact ⟨_, rfl, h.hostReg (fun _ h5 => h5.lifecycle)⟩
  | lock v => exact ⟨_, rfl, h.hostReg (fun _ h5 => h5.lifecycle)⟩
  | thermalLevelNormal die tj => exact ⟨_, rfl, h.thermalNormal⟩
  | replayRecordExpiry key => exact ⟨_, rfl, h.recordExpiry⟩
  | awaitSatisfied q =>
    refine ⟨_, rfl, ?_⟩
    split
    · exact h.getD h.awaitDone
    · exact h
  | fenceRetire q =>
    refine ⟨_, rfl, ?_⟩
    split
    · exact h.getD h.fenceEnd
    · exact h

/-- A step that goes on keeps a sound state sound. -/
theorem step_sound {s t : State} (hs : Sound s) (e : step s = .next t) : Sound t := by
  unfold step at e
  split at e
  · cases e
    exact (Keeps.refl s).tick.2 hs
  · rename_i c rest _
    obtain ⟨u, hu, hk⟩ := exec_keeps c { s with pending := rest }
    rw [hu] at e
    cases e
    exact hk.2 hs

/-- Settles O28: every function of the model keeps a sound state sound (`Keeps`), and so does every step. -/
theorem soundStatesStaySound : Obligations.SoundStatesStaySound := by
  unfold Obligations.SoundStatesStaySound
  exact fun s t hs e => step_sound hs e

/-- Settles O27: no function of the model touches the queue of waiting commands (`Keeps`). -/
theorem commandsLeaveTheQueue : Obligations.CommandsLeaveTheQueue := by
  unfold Obligations.CommandsLeaveTheQueue
  intro c s t e
  obtain ⟨u, hu, hk⟩ := exec_keeps c s
  rw [hu] at e
  cases e
  exact hk.1

end Sys2Proof.Keeping

/-! # Steps and memories (R14, R40, R244, R616) -/

namespace Sys2Proof.Steps

open Sys2Proof Sys2Proof.Machine Sys2Proof.Claims Sys2Proof.Laws Sys2Proof.Keeping

theorem cfgSettle_now (s : State) : (cfgSettle s).now = s.now := by
  unfold cfgSettle
  split <;> rfl

/-- With no host access waiting, a nanosecond passes and nothing is pumped. -/
theorem tick_now {s : State} (hw : s.hiu.waiting = []) : (tick s).now = s.now + 1 := by
  unfold tick
  simp only [hw, List.length_nil, hostPump, cfgSettle_now]
  split <;> rfl

/-- Settles O58: a step is `exec` on the front command, and `exec` always answers a next state. -/
theorem stepsAndEffects : Obligations.StepsAndEffects := by
  unfold Obligations.StepsAndEffects StepRunsTheFrontCommand EveryCommandHasAnEffect
  have heffect : ∀ c s, ∃ t, exec c s = .next t := fun c s => by
    obtain ⟨t, ht, -⟩ := exec_keeps c s
    exact ⟨t, ht⟩
  refine ⟨⟨fun _ _ _ => rfl, fun _ => rfl, fun _ hw => tick_now hw⟩, heffect, fun s hstop => ?_⟩
  cases hp : s.pending with
  | nil => exact hstop (tick s) (by simp [step, hp])
  | cons c rest =>
    obtain ⟨t, ht⟩ := heffect c { s with pending := rest }
    exact hstop t (by simp only [step, hp, ht])

theorem cellsRead_nil (a n : Nat) : cellsRead [] a n = List.replicate n 0 := by
  simp [cellsRead, tget, tfind]

/-- The fields of a register, and how far apart they stand: decided register by register. -/
theorem regReset_field : ∀ r : Reg, ∀ f ∈ regFields r, f.reset < 2 ^ f.w → bitsOf (regReset r).toNat f.lsb f.w = f.reset := by
  intro r
  cases r <;> decide

/-- Settles O59: the register file after power-on is empty, and so every register reads as its Reset column says. -/
theorem powerOn : Obligations.PowerOn := by
  unfold Obligations.PowerOn PowerOnState PowerOnStateIsSound
  refine ⟨⟨fun _ _ => rfl, regReset_field, rfl, rfl, rfl, cellsRead_nil, cellsRead_nil, cellsRead_nil, rfl, rfl, rfl, rfl, rfl, rfl, rfl, rfl⟩,
    reset_mem_wf, regsWf_nil, nofun, ?_⟩
  decide

end Sys2Proof.Steps

namespace Sys2Proof.Memories

open Sys2Proof Sys2Proof.Machine Sys2Proof.Claims Sys2Proof.Laws

theorem cellsRead_length (m : List Host.Cell) (a n : Nat) : (cellsRead m a n).length = n := by simp [cellsRead]

theorem cellsRead_succ (m : List Host.Cell) (a n : Nat) : cellsRead m a (n + 1) = tget 0 m a :: cellsRead m (a + 1) n := by
  simp only [cellsRead, List.range_succ_eq_map, List.map_cons, List.map_map, Nat.add_zero]
  congr 2
  funext i
  simp [Nat.add_comm 1, Nat.add_assoc]

/-- A byte outside the bytes written reads as before. -/
theorem tget_cellsWrite_other {m : List Host.Cell} {a x : Nat} {bs : List Byte} (h : x < a ∨ a + bs.length ≤ x) :
    tget 0 (cellsWrite m a bs) x = tget 0 m x := by
  induction bs generalizing m a with
  | nil => rfl
  | cons b bs ih =>
    simp only [List.length_cons] at h
    rw [cellsWrite, ih (by omega), tget_tput_other _ _ (by omega)]

/-- Bytes that do not meet those written read as before. -/
theorem cellsRead_cellsWrite_other {m : List Host.Cell} {a x n : Nat} {bs : List Byte} (h : x + n ≤ a ∨ a + bs.length ≤ x) :
    cellsRead (cellsWrite m a bs) x n = cellsRead m x n := by
  refine List.map_congr_left fun i hi => tget_cellsWrite_other ?_
  have := List.mem_range.1 hi
  omega

theorem cellsRead_cellsWrite_same {m : List Host.Cell} {a : Nat} {bs : List Byte} (hm : Memory.wf m) :
    cellsRead (cellsWrite m a bs) a bs.length = bs := by
  induction bs generalizing m a with
  | nil => rfl
  | cons b bs ih =>
    rw [List.length_cons, cellsRead_succ, cellsWrite, ih (tcanon_tput hm _ _), tget_cellsWrite_other (.inl (Nat.lt_succ_self a)),
      tget_tput_same (tcanon_iff.1 hm).1]

/-- A key that a filter lets pass is found as before. -/
theorem tfind_filter {α : Type} {m : Table α} {f : Nat → Bool} {k : Nat} (hk : f k = true) : tfind (m.filter fun p => f p.1) k = tfind m k := by
  induction m with
  | nil => rfl
  | cons p m ih =>
    obtain ⟨j, v⟩ := p
    by_cases hj : j = k
    · subst hj; simp [hk, tfind]
    · by_cases hf : f j = true <;> simp [hf, tfind, hj, ih]

/-- The word of a byte that is written is healed (R616). -/
theorem word_healed {l : List Nat} {a n i : Nat} (hi : i < n) : (a + i) / 4 ∉ l.filter fun w => !(a / 4 ≤ w && w ≤ (a + n - 1) / 4) := by
  intro hmem
  have hlo : a / 4 ≤ (a + i) / 4 := Nat.div_le_div_right (by omega)
  have hhi : (a + i) / 4 ≤ (a + n - 1) / 4 := Nat.div_le_div_right (by omega)
  simpa [hlo, hhi] using (List.mem_filter.1 hmem).2

theorem stkWrite_out {s : State} {a : Nat} (bs : List Byte) (h : stackOf a ∈ s.flt.stacksOut) : stkWrite s a bs = s := by
  simp [stkWrite, h]

theorem stkWrite_in {s : State} {a : Nat} (bs : List Byte) (h : stackOf a ∉ s.flt.stacksOut) :
    stkWrite s a bs = { s with mem := { s.mem with
      stk := cellsWrite s.mem.stk a bs
      badStk := s.mem.badStk.filter fun w => !(a / 4 ≤ w && w ≤ (a + bs.length - 1) / 4) } } := by
  simp [stkWrite, h]

/-- Settles O29: writes are `cellsWrite`, by induction on the bytes written. -/
theorem memoriesKeepWhatIsWritten : Obligations.MemoriesKeepWhatIsWritten := by
  unfold Obligations.MemoriesKeepWhatIsWritten
  refine ⟨fun m a bs x _ h => cellsRead_cellsWrite_other (by omega), fun m a bs hm => cellsRead_cellsWrite_same hm, fun s a bs hm h => ?_,
    fun s a bs h => stkWrite_out bs h, fun s a bs i h hi => ?_, fun s a bs x n h => ?_, fun s a bs x n h => cellsRead_cellsWrite_other h,
    fun s pasid a bs x n h => cellsRead_cellsWrite_other h, fun s f x n hx hf => ?_⟩
  · rw [stkWrite_in bs h]
    exact cellsRead_cellsWrite_same hm
  · rw [stkWrite_in bs h]
    exact word_healed hi
  · by_cases ho : stackOf a ∈ s.flt.stacksOut
    · rw [stkWrite_out bs ho]
    · rw [stkWrite_in bs ho]
      exact cellsRead_cellsWrite_other h
  · refine List.map_congr_left fun i hi => ?_
    have hi := List.mem_range.1 hi
    have hk : ((x + i) / 65536 != f) = true := by simp; omega
    show (tfind (s.mem.stk.filter fun p => p.1 / 65536 != f) (x + i)).getD 0 = _
    rw [tfind_filter (f := fun k => k / 65536 != f) hk]
    rfl

end Sys2Proof.Memories

/-! # Spenex instructions that end their job before they begin (R112, R113) -/

namespace Sys2Proof.Undefined

open Sys2Proof Sys2Proof.Machine Sys2Proof.Claims Sys2Proof.Laws

section
variable {s : State} {q : BitVec 7} {f : Spx} {tag : Nat} {j : Job}
  (htag : seqTag s q.toNat = some tag) (hj : jobOf s tag = some j) (hrun : mayRun s j = true)
include htag hj hrun

/-- An uncorrectable word in the instruction ends the job, whatever the instruction is. -/
theorem spx_ue (hue : f.ue = true) (opc n : Nat) (body : State → Nat → Job → State) : spx q f opc n body s = ueJob s tag := by
  simp [spx, htag, hj, hrun, hue]

/-- An instruction outside the text, or an undefined encoding, ends the job, whatever the instruction is. -/
theorem spx_undefined {opc : Nat} (hue : f.ue = false) (hbad : inText s j f = false ∨ defined opc (planOf s j.plan).phases.length f = false)
    (n : Nat) (body : State → Nat → Job → State) : spx q f opc n body s = abortJob s tag := by
  rcases hbad with hbad | hbad <;> simp [spx, htag, hj, hrun, hue, hbad]

end

/-- A row of the opcode table: its command checks the instruction as `spx` does, under the row's opcode. -/
def IsSpxRow (row : (BitVec 7 → Spx → Instr) × Nat) : Prop :=
  ∀ q f s, ∃ (n : Nat) (body : State → Nat → Job → State), exec (row.1 q f) s = .next (spx q f row.2 n body s)

section
variable {c : BitVec 7 → Spx → Instr} {opc n : Nat}

theorem IsSpxRow.of_pureOp {g : Spx → Ctx → Ctx} (h : ∀ q f s, exec (c q f) s = .next (pureOp q f opc n (g f) s)) : IsSpxRow (c, opc) :=
  fun q f s => ⟨n, fun s tag j => retire f s tag j (g f), h q f s⟩

theorem IsSpxRow.of_alu {op : W64 → W64 → W64} {fl : Byte → W64 → W64 → Byte} (h : ∀ q f s, exec (c q f) s = .next (alu q f opc n op fl s)) :
    IsSpxRow (c, opc) :=
  .of_pureOp h

end

/-- Settles O1: every row of the table goes through `spx`, which ends the job before the instruction's own effect. -/
theorem undefinedEncodingEndsTheJob : Obligations.UndefinedEncodingEndsTheJob := by
  unfold Obligations.UndefinedEncodingEndsTheJob
  intro row hrow
  have hspx : IsSpxRow row := by
    revert row
    simp only [List.forall_mem_cons, List.not_mem_nil, false_imp_iff, implies_true, and_true]
    repeat' apply And.intro
    iterate 18 exact .of_alu fun _ _ _ => rfl -- ADD to MAX
    iterate 5 exact .of_pureOp fun _ _ _ => rfl -- CMP to LI
    iterate 4 exact fun _ _ _ => ⟨_, _, rfl⟩ -- LD, ST, LDD, STD
    iterate 2 exact .of_pureOp fun _ _ _ => rfl -- DSET, DGET
    iterate 2 exact fun _ _ _ => ⟨_, _, rfl⟩ -- VLD, VST
    iterate 4 exact .of_pureOp fun _ _ _ => rfl -- VGET to VSETC
    iterate 5 exact fun _ _ _ => ⟨_, _, rfl⟩ -- TIME, the branches and jumps
    iterate 1 exact .of_pureOp fun _ _ _ => rfl -- NOP
    iterate 22 exact fun _ _ _ => ⟨_, _, rfl⟩ -- END, the token, engine, fabric, synchronisation and queue rows
  intro q f s tag j htag hj hrun
  obtain ⟨n, body, hexec⟩ := hspx q f s
  refine ⟨fun hue => ?_, fun hue hbad => ?_⟩
  · rw [hexec, spx_ue htag hj hrun hue]
  · rw [hexec, spx_undefined htag hj hrun hue hbad]
    rfl

end Sys2Proof.Undefined

/-! # Fields of words, and shares of a pool -/

namespace Sys2Proof.Words

open Sys2Proof Sys2Proof.Machine Sys2Proof.Claims Sys2Proof.Laws

theorem bitsOf_toNat {n : Nat} (w : BitVec n) (lo k : Nat) : bitsOf w.toNat lo k = (w.extractLsb' lo k).toNat := by
  simp [bitsOf, Nat.shiftRight_eq_div_pow]

theorem ofNat_bitsOf_toNat {n : Nat} (w : BitVec n) (lo k : Nat) : BitVec.ofNat k (bitsOf w.toNat lo k) = w.extractLsb' lo k := by
  rw [bitsOf_toNat, BitVec.ofNat_toNat, BitVec.setWidth_eq]

/-- The INC field of an instruction word. -/
theorem immN_mod (f : Spx) : immN f % 65536 = (f.imm.extractLsb' 0 16).toNat := by
  rw [← bitsOf_toNat]; simp [bitsOf, immN]

/-- The token field of an instruction word. -/
theorem immN_div (f : Spx) : immN f / 65536 % 8 = (f.imm.extractLsb' 16 3).toNat := by
  rw [← bitsOf_toNat]; simp [bitsOf, immN]

theorem modJob_of_job {s : State} {tag : Nat} {j : Job} (h : jobOf s tag = some j) (g : Job → Job) : modJob s tag g = setJob s tag (g j) := by
  simp [modJob, h]

@[simp] theorem modJob_setJob (s : State) (tag : Nat) (j : Job) (g : Job → Job) : modJob (setJob s tag j) tag g = setJob s tag (g j) := by
  rw [modJob_of_job (jobOf_setJob s tag j), setJob_setJob]

theorem setGrant_setJob (s : State) (tag : Nat) (j : Job) (h : Nat) (g : Grant) : setGrant (setJob s tag j) h g = setJob (setGrant s h g) tag j := rfl

@[simp] theorem tokGrantOf_setJob (s : State) (tag : Nat) (j k : Job) (t : Nat) : tokGrantOf (setJob s tag j) k t = tokGrantOf s k t := rfl

@[simp] theorem tokGrantOf_paid (s : State) (f : Spx) (n : Nat) (j : Job) (t : Nat) : tokGrantOf s (paid f n j) t = tokGrantOf s j t := rfl

/-- The grant of a valid token. -/
theorem grantOf_of_tokGrantOf {s : State} {j : Job} {t : Nat} {g : Grant} (h : tokGrantOf s j t = some g) :
    grantOf s (tokGrant (tokOf j t)) = some g := by
  unfold tokGrantOf at h
  dsimp only at h
  split at h
  · exact h
  · cases h

theorem drawShare_of_grant {s : State} {h : Nat} {g : Grant} (hg : grantOf s h = some g) :
    drawShare s h = setGrant s h { g with used := g.used + 1 } := by
  simp [drawShare, hg]

theorem myNode_of_valid {s : State} (h : fget s F.FAB_NODE_VALID = 1) : myNode s = some (fget s F.FAB_NODE_NODE) := by
  simp [myNode, h]

theorem ilen_ofNat (f : Spx) : BitVec.ofNat 64 (ilen f) = if f.x then 16 else 8 := by
  unfold ilen; split <;> rfl

end Sys2Proof.Words

/-! # Fabric instructions (R134, R135) -/

namespace Sys2Proof.Fabric

open Sys2Proof Sys2Proof.Machine Sys2Proof.Claims Sys2Proof.Laws Sys2Proof.Words

/-- The fabric instructions share their meaning; the two forms of ACOPY differ in bit 4 of FN. -/
theorem exec_fabricRow {k : FabKind} {f : Spx} (hpush : k = .push → f.fn.getLsbD 4 = false) (hpull : k = .pull → f.fn.getLsbD 4 = true)
    (q : BitVec 7) (s : State) : exec (fabricRow k q f) s = .next (fabric k q f s) := by
  cases k with
  | fld | fst | fatom => rfl
  | push => simp only [exec, execAcopyPush, fabricRow, hpush rfl, Bool.false_eq_true, if_false]
  | pull => simp only [exec, execAcopyPull, fabricRow, hpull rfl, if_true]

section
variable {k : FabKind} {f : Spx} {s : State} {tag : Nat} {j : Job} {g : Grant}

/-- The operation that a fabric instruction launches. -/
def fabOpOf (k : FabKind) (f : Spx) (s : State) (tag : Nat) (j : Job) : FabOp :=
  { kind := 0, job := tag, pkt := fabPkt s k f j, statusReg := f.c.toNat, destReg := f.a.toNat, width := fabWidth f
    inc := (f.imm.extractLsb' 0 16).toNat, counter := (aReg j.ctx (f.fn.toNat % 16)).extractLsb' 0 12
    gen := (aReg j.ctx (f.fn.toNat % 16)).extractLsb' 12 16, share := tokGrant (tokOf j (f.imm.extractLsb' 16 3).toNat), fence := j.fence
    src := ((gReg j.ctx f.a).extractLsb' 0 56).toNat, dom := j.dom }

/-- With all that it needs at hand, the instruction draws its credit, marks its status register, and launches its operation. -/
theorem tryFabric_sent (hg : tokGrantOf s j (f.imm.extractLsb' 16 3).toNat = some g) (hcls : g.cls = 12)
    (hview : f.imm.extractLsb' 0 16 ≠ 0#16 → viewBound (aReg j.ctx (f.fn.toNat % 16)) = true)
    (hrange : k = .push ∨ k = .pull → inRange s j.dom ((gReg j.ctx f.a).extractLsb' 0 56).toNat (f.ext.toNat % 2 ^ 26) = true)
    (hnode : fget s F.FAB_NODE_VALID = 1) (hused : g.used < g.credits) (hops : s.fab.ops.length < 16384) :
    tryFabric k f s tag j = .sent (launch
      (modJob (setGrant s (tokGrant (tokOf j (f.imm.extractLsb' 16 3).toNat)) { g with used := g.used + 1 }) tag
        fun j => { j with ctx := setG j.ctx f.c 0xFF })
      (domQueue s j.dom j.be) (fabOpOf k f s tag j)) := by
  have hinc : (immN f % 65536 != 0 && !viewBound (aReg j.ctx (fnN f % 16))) = false := by
    by_cases h0 : f.imm.extractLsb' 0 16 = 0#16
    · simp [immN_mod, h0]
    · have : viewBound (aReg j.ctx (fnN f % 16)) = true := hview h0
      simp [this]
  have hsrc : (decide (k = .push ∨ k = .pull) && !inRange s j.dom (bitsOf (gReg j.ctx f.a).toNat 0 56) (f.ext.toNat % 2 ^ 26)) = false := by
    by_cases hk : k = .push ∨ k = .pull
    · simp only [bitsOf_toNat, hrange hk, Bool.not_true, Bool.and_false]
    · simp [hk]
  have hroom : ¬((myNode s).isNone || decide (g.used ≥ g.credits) || decide (s.fab.ops.length ≥ 16384)) = true := by
    simp [myNode_of_valid hnode]; omega
  have hc : (g.cls != 12) = false := by simp [hcls]
  unfold tryFabric
  simp only [immN_div, hg, hc, hinc]
  rw [if_neg Bool.false_ne_true, if_neg Bool.false_ne_true, if_neg (by simpa using hsrc), if_neg hroom,
    drawShare_of_grant (grantOf_of_tokGrantOf hg), immN_mod, bitsOf_toNat, viewIdx, viewGen, ofNat_bitsOf_toNat, ofNat_bitsOf_toNat]
  rfl

end

/-- Settles O3: `spx` begins the instruction, and with everything at hand `tryFabric` sends. -/
theorem fabricInstructionSendsRequest : Obligations.FabricInstructionSendsRequest := by
  unfold Obligations.FabricInstructionSendsRequest
  intro k q f s tag j g hb hpush hpull hg hcls hview hrange hnode hused hops j1 hj1
  have hb : Begins (fabOpc k) q f s tag j := by cases k <;> exact hb
  have hsent := tryFabric_sent (k := k) (s := setJob s tag (paid f 8 j)) (tag := tag) (j := paid f 8 j) hg hcls hview hrange hnode hused hops
  rw [exec_fabricRow hpush hpull, fabric, spx_begins hb, fabricBody, hsent]
  subst hj1
  simp only [setGrant_setJob, modJob_setJob, stepPc, ilen_ofNat]
  rfl

end Sys2Proof.Fabric

/-! # RANK commands start their banks (R251, R266) -/

namespace Sys2Proof.Rank

open Sys2Proof Sys2Proof.Machine Sys2Proof.Claims Sys2Proof.Laws

theorem filter_false {α : Type} {l : List α} {f : α → Bool} (h : ∀ x ∈ l, f x = false) : l.filter f = [] :=
  List.filter_eq_nil_iff.2 fun x hx => by simp [h x hx]

theorem filter_true {α : Type} {l : List α} {f : α → Bool} (h : ∀ x ∈ l, f x = true) : l.filter f = l := List.filter_eq_self.2 h

/-- A command that passes every check starts all its banks. -/
theorem rankStart_checked {s : State} {i : Nat} {r : RankCmd} {j : Job} {lane share : Nat} {qs : List Byte}
    (hj : jobOf s r.tok.job = some j) (hentry : (rankEntry s j r.tok.op.toNat).isSome = true) (hcols : laneBits r.tok.desc 1 52 9 ≤ 256)
    (hbanks : ∀ b ∈ r.banks, ownerOf s 0 b = .nbu r.tok.job ∧ (nbuOf s b).queue.contains i = true ∧ quarantined s 1 b = false)
    (hres : hasResult r.tok.desc = true → writable s j.dom (resAddr r.tok.desc + 8 * r.word) 8 0 (r.banks.headD 0) = .ok ())
    (hlane : jobInst s r.tok.job 4 (laneBits r.tok.desc 1 48 4) = .ok lane) (hshare : laneShare s r.tok.job lane = .ok share)
    (hin : s.flt.stacksOut.contains r.stack = false) (hroom : operandUsed s r.stack + 32 * laneBits r.tok.desc 1 52 9 ≤ 65536)
    (hread : uRead s j.dom (laneBits r.tok.desc 2 0 56) (32 * laneBits r.tok.desc 1 52 9) = .ok qs) :
    rankStart s i r = r.banks.foldl beginNext (setRank
      (if 32 * laneBits r.tok.desc 1 52 9 = 0 then s else useRange s j.dom (laneBits r.tok.desc 2 0 56) (32 * laneBits r.tok.desc 1 52 9)) i
      { r with started := true, left := r.banks, query := qs, share := share, stopped := 0 }) := by
  obtain ⟨e, he⟩ := Option.isSome_iff_exists.1 hentry
  have hwrite : (if hasResult r.tok.desc then writable s j.dom (resAddr r.tok.desc + 8 * r.word) 8 0 (r.banks.headD 0) else .ok ()) = .ok () := by
    split
    · exact hres ‹_›
    · rfl
  have howned : (r.banks.any fun b => ownerOf s 0 b != .nbu r.tok.job && ownerOf s 0 b != .job r.tok.job) = false := by
    simp only [List.any_eq_false]
    intro b hb
    simp [(hbanks b hb).1]
  have hback : (r.banks.filter fun b => ownerOf s 0 b != .nbu r.tok.job || !(nbuOf s b).queue.contains i) = [] :=
    filter_false fun b hb => by
      obtain ⟨hown, hq, -⟩ := hbanks b hb
      simp only [hown, hq]; simp
  have hbad : (r.banks.filter fun b => !([] : List Nat).contains b && quarantined s 1 b) = [] :=
    filter_false fun b hb => by simp [(hbanks b hb).2.2]
  have hok : (r.banks.filter fun b => !([] : List Nat).contains b && !([] : List Nat).contains b) = r.banks := filter_true fun b _ => by simp
  unfold rankStart
  simp only [hj, he, hwrite, howned, hlane, hshare, hin, hread, hback, hbad, hok]
  rw [if_neg (by omega), if_neg Bool.false_ne_true, if_neg Bool.false_ne_true, if_neg (by omega)]
  rfl

theorem foldl_stkWrite_stk {α : Type} (l : List α) (f : α → Nat) (g : α → List Byte) (s : State) :
    (l.foldl (fun s k => stkWrite s (f k) (g k)) s).stk = s.stk := by
  induction l generalizing s with
  | nil => rfl
  | cons k l ih =>
    rw [List.foldl_cons, ih]
    unfold stkWrite
    split <;> rfl

theorem nbuOf_congr {s t : State} (h : t.stk = s.stk) (bank : Nat) : nbuOf t bank = nbuOf s bank := by rw [nbuOf, nbuOf, h]

/-- A unit that is not idle is read back. -/
theorem nbuOf_setNbu {s : State} {bank : Nat} {n : Nbu} (h : n ≠ {}) : nbuOf (setNbu s bank n) bank = n := by
  simp only [nbuOf, setNbu, tput, tget, if_neg h, tfind_tins_same, Option.getD_some]

/-- The parameters of a program, in the order of the command's lanes. -/
def paramTable (a b c d : Nat) : Table W32 := tput 0 (tput 0 (tput 0 (tput 0 [] 0 (BitVec.ofNat 32 a)) 1 (BitVec.ofNat 32 b)) 2 (BitVec.ofNat 32 c)) 3 (BitVec.ofNat 32 d)

theorem tget_paramTable (a b c d : Nat) : tget 0 (paramTable a b c d) 0 = BitVec.ofNat 32 a ∧ tget 0 (paramTable a b c d) 1 = BitVec.ofNat 32 b
    ∧ tget 0 (paramTable a b c d) 2 = BitVec.ofNat 32 c ∧ tget 0 (paramTable a b c d) 3 = BitVec.ofNat 32 d := by
  have h0 : tcanon (0 : W32) [] = true := rfl
  have h1 := tcanon_tput h0 0 (BitVec.ofNat 32 a)
  have h2 := tcanon_tput h1 1 (BitVec.ofNat 32 b)
  have h3 := tcanon_tput h2 2 (BitVec.ofNat 32 c)
  unfold paramTable
  refine ⟨?_, ?_, ?_, ?_⟩
  · rw [tget_tput_other _ _ (by decide), tget_tput_other _ _ (by decide), tget_tput_other _ _ (by decide), tget_tput_same (tcanon_iff.1 h0).1]
  · rw [tget_tput_other _ _ (by decide), tget_tput_other _ _ (by decide), tget_tput_same (tcanon_iff.1 h1).1]
  · rw [tget_tput_other _ _ (by decide), tget_tput_same (tcanon_iff.1 h2).1]
  · exact tget_tput_same (tcanon_iff.1 h3).1 _ _

/-- What the unit of a bank is once it begins its oldest command. -/
theorem nbuOf_startBank (s : State) (i : Nat) (r : RankCmd) (e lo hi bank : Nat) :
    nbuOf (startBank s i r e lo hi bank) bank =
      { queue := (nbuOf s bank).queue.drop 1, owed := (nbuOf s bank).owed, recalled := (nbuOf s bank).recalled
        p := paramTable (laneBits r.tok.desc 0 0 32) (laneBits r.tok.desc 0 32 32) (laneBits r.tok.desc 1 0 32) (laneBits r.tok.desc 1 32 16)
        pc := BitVec.ofNat 8 e, cmd := some i, lo := lo, hi := hi } := by
  unfold startBank
  simp only [nbuOf_congr (foldl_stkWrite_stk _ _ _ s)]
  exact nbuOf_setNbu fun h => by simpa using congrArg Nbu.cmd h

/-- Settles O4: the checks of `rankStart` are the hypotheses; a bank that is idle begins the oldest command of its queue. -/
theorem rankCommandStarts : Obligations.RankCommandStarts := by
  unfold Obligations.RankCommandStarts
  refine ⟨fun s stack i r j lane share qs hfind hj hentry hcols hbanks hres hlane hshare hin hroom hread => ?_,
    fun s bank i r j e lo hi hidle hhead hrank hstarted hj hentry => ?_⟩
  · simp only [exec, execRankCommand, rankCommand, hfind]
    rw [rankStart_checked hj hentry hcols hbanks hres hlane hshare hin hroom hread]
  · obtain ⟨rest, hqueue⟩ : ∃ rest, (nbuOf s bank).queue = i :: rest := by
      cases hq : (nbuOf s bank).queue with
      | nil => rw [hq] at hhead; cases hhead
      | cons k rest => rw [hq] at hhead; cases hhead; exact ⟨rest, rfl⟩
    have hbegin : beginNext s bank = startBank s i r e lo hi bank := by
      simp [beginNext, hidle, hqueue, rankOf, hrank, hstarted, hj, hentry]
    obtain ⟨h0, h1, h2, h3⟩ := tget_paramTable (laneBits r.tok.desc 0 0 32) (laneBits r.tok.desc 0 32 32) (laneBits r.tok.desc 1 0 32)
      (laneBits r.tok.desc 1 32 16)
    rw [hbegin, nbuOf_startBank]
    exact ⟨_, rfl, rfl, rfl, rfl, rfl, rfl, rfl, rfl, rfl, rfl, rfl, h0, h1, h2, h3⟩

end Sys2Proof.Rank

/-! # Register writes (R12, R13) -/

namespace Sys2Proof.Registers

open Sys2Proof Sys2Proof.Machine Sys2Proof.Claims Sys2Proof.Laws

/-- The bits of a field within a word of 32 bits. -/
theorem bitsOf_ofNat_toNat {n lo w : Nat} (h : lo + w ≤ 32) : bitsOf (BitVec.ofNat 32 n).toNat lo w = bitsOf n lo w := by
  apply Nat.eq_of_testBit_eq
  intro i
  simp only [bitsOf, BitVec.toNat_ofNat, Nat.testBit_mod_two_pow, Nat.testBit_div_two_pow]
  by_cases hi : i < w
  · simp [show i + lo < 32 by omega]
  · simp [hi]

theorem bitsOf_lt (n lo w : Nat) : bitsOf n lo w < 2 ^ w := Nat.mod_lt _ (Nat.two_pow_pos w)

theorem tsorted_rset {s : State} (hs : tsorted s.regs = true) (r : Reg) (b : Nat) (v : W32) : tsorted (rset s r b v).regs = true := by
  show tsorted (tput (regReset r) s.regs (regKey r b) v) = true
  unfold tput
  split
  · exact tsorted_tdel hs _
  · exact tsorted_tins hs _ _

/-- A field that is set reads as set. -/
theorem fget_fset_same {s : State} (hs : tsorted s.regs = true) {f : Fld} (hf : f.lsb + f.w ≤ 32) (v b : Nat) :
    fget (fset s f v b) f b = v % 2 ^ f.w := by
  rw [fget, fset, rget_rset_same s hs, bitsOf_ofNat_toNat hf, bitsOf_putBits_same]

/-- A count rises by 1 and stops at its bound. -/
theorem fget_fbump_same {s : State} (hs : tsorted s.regs = true) {f : Fld} (hf : f.lsb + f.w ≤ 32) (b : Nat) :
    fget (fbump s f b) f b = min (fget s f b + 1) (2 ^ f.w - 1) := by
  rw [fbump, fadd, fget_fset_same hs hf]
  have : 0 < 2 ^ f.w := Nat.two_pow_pos _
  exact Nat.mod_eq_of_lt (by omega)

/-! ### The fields of a register -/

/-- Two fields share no bit. -/
def apart (f g : FieldSpec) : Bool := f.lsb + f.w ≤ g.lsb || g.lsb + g.w ≤ f.lsb

/-- No two fields of a list share a bit, and each ends within 32 bits. -/
def allApart : List FieldSpec → Bool
  | [] => true
  | f :: fs => f.lsb + f.w ≤ 32 && fs.all (apart f) && allApart fs

theorem regFields_allApart (r : Reg) : allApart (regFields r) = true := by cases r <;> decide

/-- What a write leaves in one field, by its type (R12). -/
def fieldAfter (lk : Bool) (ty : FieldType) (was took : Nat) : Nat :=
  match ty with
  | .rw => took
  | .rwl => if lk then was else took
  | .rw1c => if took = 0 then was else 0
  | _ => was

/-- A write to one field leaves the bits of the others. -/
theorem bitsOf_writeField_apart (lk : Bool) (v n : Nat) {f g : FieldSpec} (h : apart f g = true) :
    bitsOf (writeField lk v n f) g.lsb g.w = bitsOf n g.lsb g.w := by
  have h : f.lsb + f.w ≤ g.lsb ∨ g.lsb + g.w ≤ f.lsb := by simpa [apart] using h
  have put : ∀ x, bitsOf (putBits n f.lsb f.w x) g.lsb g.w = bitsOf n g.lsb g.w := fun x => bitsOf_putBits_other _ _ _ _ _ _ h
  unfold writeField
  split <;> (try split) <;> simp only [put]

/-- A write to a field follows the field's type. -/
theorem bitsOf_writeField_self (lk : Bool) (v n : Nat) (f : FieldSpec) :
    bitsOf (writeField lk v n f) f.lsb f.w = fieldAfter lk f.ty (bitsOf n f.lsb f.w) (bitsOf v f.lsb f.w) := by
  have put : ∀ x, bitsOf (putBits n f.lsb f.w x) f.lsb f.w = x % 2 ^ f.w := fun x => bitsOf_putBits_same _ _ _ _
  have took : bitsOf v f.lsb f.w % 2 ^ f.w = bitsOf v f.lsb f.w := Nat.mod_eq_of_lt (bitsOf_lt _ _ _)
  unfold writeField fieldAfter
  cases f.ty
  case rw => simp only [put, took]
  case rwl => cases lk <;> simp [put, took]
  case rw1c => simp only; split <;> simp [put]
  case ro => rfl
  case wo => rfl

theorem bitsOf_foldl_apart (lk : Bool) (v : Nat) {g : FieldSpec} :
    ∀ {fs : List FieldSpec}, (∀ f ∈ fs, apart g f = true) → ∀ n,
      bitsOf (fs.foldl (fun n f => writeField lk v n f) n) g.lsb g.w = bitsOf n g.lsb g.w
  | [], _, _ => rfl
  | f :: fs, h, n => by
    have hf : apart f g = true := by
      have := h f (List.mem_cons_self ..)
      simp only [apart, Bool.or_eq_true, decide_eq_true_eq] at this ⊢
      exact this.symm
    rw [List.foldl_cons, bitsOf_foldl_apart lk v (fun x hx => h x (List.mem_cons_of_mem _ hx)), bitsOf_writeField_apart lk v n hf]

/-- Fields that share no bit are each written by their type. -/
theorem bitsOf_foldl_writeField (lk : Bool) (v : Nat) {g : FieldSpec} :
    ∀ {fs : List FieldSpec}, allApart fs = true → g ∈ fs → ∀ n, bitsOf (fs.foldl (fun n f => writeField lk v n f) n) g.lsb g.w =
      fieldAfter lk g.ty (bitsOf n g.lsb g.w) (bitsOf v g.lsb g.w)
  | f :: fs, h, hg, n => by
    simp only [allApart, Bool.and_eq_true, List.all_eq_true, decide_eq_true_eq] at h
    obtain ⟨⟨_, hf⟩, hfs⟩ := h
    rw [List.foldl_cons]
    rcases List.mem_cons.1 hg with rfl | hg
    · rw [bitsOf_foldl_apart lk v hf, bitsOf_writeField_self]
    · rw [bitsOf_foldl_writeField lk v hfs hg, bitsOf_writeField_apart lk v n (hf g hg)]

theorem allApart_within : ∀ {fs : List FieldSpec} {g : FieldSpec}, allApart fs = true → g ∈ fs → g.lsb + g.w ≤ 32
  | f :: fs, g, h, hg => by
    simp only [allApart, Bool.and_eq_true, decide_eq_true_eq] at h
    rcases List.mem_cons.1 hg with rfl | hg
    · exact h.1.1
    · exact allApart_within h.2 hg

/-- The word that a write leaves, field by field. -/
theorem bitsOf_writeWord (lk : Bool) (r : Reg) (old v : W32) {g : FieldSpec} (hg : g ∈ regFields r) :
    bitsOf (writeWord lk r old v).toNat g.lsb g.w = fieldAfter lk g.ty (bitsOf old.toNat g.lsb g.w) (bitsOf v.toNat g.lsb g.w) := by
  rw [writeWord, bitsOf_ofNat_toNat (allApart_within (regFields_allApart r) hg), bitsOf_foldl_writeField lk _ (regFields_allApart r) hg]

/-! ### A plain register write -/

/-- A register without rules of its own is written by its fields' types. -/
theorem regEffect_plain {r : Reg} (h : r ∉ ruled) (inst : Nat) (v : W32) (s : State) :
    regEffect r inst v s = regWritePlain s r (regBank s r inst) v := by
  unfold regEffect
  split
  case h_59 => rfl
  all_goals exact absurd (by decide) h

theorem rset_regs (s : State) (r : Reg) (b : Nat) (v : W32) (m : Table W32) : { rset s r b v with regs := m } = { s with regs := m } := rfl

theorem fbump_regs (s : State) (f : Fld) (b : Nat) (m : Table W32) : { fbump s f b with regs := m } = { s with regs := m } := by
  rw [fbump, fadd, fset, rset_regs]

theorem fbump_out (s : State) (f : Fld) (b : Nat) : (fbump s f b).out = s.out := by
  rw [fbump, fadd, fset, rset_out]

theorem regWritePlain_regs (s : State) (r : Reg) (b : Nat) (v : W32) : { regWritePlain s r b v with regs := s.regs } = s := by
  unfold regWritePlain
  split
  · rw [fbump_regs, rset_regs]
  · rw [rset_regs]

/-- A field's count leaves every other register. -/
theorem rget_fbump_other (s : State) {f : Fld} {q : Reg} (b c : Nat) (h : f.reg ≠ q) : rget (fbump s f b) q c = rget s q c := by
  rw [fbump, fadd, fset, rget_rset_other _ _ _ _ _ _ (.inl h)]

/-- Every register but the one written and the count of refusals reads as before. -/
theorem rget_regWritePlain_other (s : State) {r q : Reg} {b c : Nat} (v : W32) (h : q ≠ r ∨ c % 65536 ≠ b % 65536)
    (hq : q ≠ .SMC_LIFECYCLE) : rget (regWritePlain s r b v) q c = rget s q c := by
  have h1 : rget (rset s r b (writeWord (locked s) r (rget s r b) v)) q c = rget s q c :=
    rget_rset_other _ _ _ _ _ _ (h.imp Ne.symm Ne.symm)
  unfold regWritePlain
  split
  · rw [rget_fbump_other _ _ _ (Ne.symm hq), h1]
  · exact h1

theorem rget_regWritePlain_same {s : State} (hs : tsorted s.regs = true) {r : Reg} (b : Nat) (v : W32) (hr : r ≠ .SMC_LIFECYCLE) :
    rget (regWritePlain s r b v) r b = writeWord (locked s) r (rget s r b) v := by
  have h1 := rget_rset_same s hs r b (writeWord (locked s) r (rget s r b) v)
  unfold regWritePlain
  split
  · rw [rget_fbump_other _ _ _ (Ne.symm hr), h1]
  · exact h1

/-- `REFUSED` counts a write under the lock to a register with lockable fields. -/
theorem refused_regWritePlain {s : State} (hs : tsorted s.regs = true) {r : Reg} (b : Nat) (v : W32) (hr : r ≠ .SMC_LIFECYCLE) :
    fget (regWritePlain s r b v) F.SMC_LIFECYCLE_REFUSED =
      if fget s F.SMC_LIFECYCLE_LOCKED = 1 ∧ (∃ g ∈ regFields r, g.ty = .rwl)
      then min (fget s F.SMC_LIFECYCLE_REFUSED + 1) (2 ^ F.SMC_LIFECYCLE_REFUSED.w - 1) else fget s F.SMC_LIFECYCLE_REFUSED := by
  have h1 : fget (rset s r b (writeWord (locked s) r (rget s r b) v)) F.SMC_LIFECYCLE_REFUSED = fget s F.SMC_LIFECYCLE_REFUSED := by
    unfold fget
    rw [rget_rset_other _ _ F.SMC_LIFECYCLE_REFUSED.reg _ _ _ (.inl hr)]
  have cond : (locked s && hasRwl r) = true ↔ fget s F.SMC_LIFECYCLE_LOCKED = 1 ∧ (∃ g ∈ regFields r, g.ty = .rwl) := by
    simp [locked, hasRwl]
  unfold regWritePlain
  simp only [cond]
  split
  · rw [fget_fbump_same (tsorted_rset hs r b _) (by decide), h1]
  · exact h1

/-- Settles O10, from what a write leaves in each field of a register whose fields share no bit. -/
theorem registerFieldsFollowTheirTypes : Obligations.RegisterFieldsFollowTheirTypes := by
  intro r inst v s hawake hs hinst hr
  have hlife : r ≠ .SMC_LIFECYCLE := fun e => hr (by rw [e]; decide)
  have step : exec (.registerWrite r inst v) s = .next (regWritePlain s r (regBank s r inst) v) := by
    show Host.Outcome.next _ = _
    rw [registerWrite, if_pos hinst, hostReg_awake hawake, regEffect_plain hr]
  refine ⟨_, step, regWritePlain_regs .., ?_, fun q c h hq => rget_regWritePlain_other s v h hq, refused_regWritePlain hs _ v hlife⟩
  intro g hg was took hwas htook
  rw [rget_regWritePlain_same hs _ v hlife, bitsOf_writeWord _ _ _ _ hg, ← hwas, ← htook]
  unfold fieldAfter
  cases g.ty <;> simp [locked]

/-! ### Accesses that are refused, and accesses that wait (R491, R587, R655) -/

/-- The number of each block that answers before step 7 has ended. -/
theorem earlyBlock_iff (b : Nat) : earlyBlock b = true ↔ b ∈ [1, 15, 16] := by simp [earlyBlock, or_assoc]

theorem earlyBlock_false {b : Nat} (h : b ∉ [1, 15, 16]) : earlyBlock b = false := by
  rw [← Bool.not_eq_true, earlyBlock_iff]
  exact h

/-- A block that does not answer yet: the access is counted and nothing else happens. -/
theorem hostReg_silent {s : State} (hs : Prompt s) {r : Reg} (hr : regBlock r ∉ [1, 15, 16]) (hstep : fget s F.PRB_STEP_LAST < 7)
    (a : HostAcc) (f : State → State) : hostReg s r a f = fbump s F.HIU_STAT_BADACC := by
  have hb : blockAnswers s (regBlock r) = false := by simp [blockAnswers, earlyBlock_false hr, hstep]
  simp [hostReg, hb, hostTurn_prompt hs]

theorem registerWrite_of_lt {r : Reg} {inst : Nat} (h : inst < dirInsts r) (v : W32) (s : State) :
    exec (.registerWrite r inst v) s = .next (hostReg s r (.reg r inst v) (regEffect r inst v)) := by
  show Host.Outcome.next _ = _
  rw [registerWrite, if_pos h]

/-- An access of a wrong size or alignment, or to a block that does not answer. -/
theorem bar0BadAccess_bad (isWrite : Bool) {off size : Nat} {s : State}
    (h : ¬ ((size = 4 ∧ off % 4 = 0) ∨ (size = 8 ∧ off % 8 = 0)) ∨ (fget s F.PRB_STEP_LAST < 7 ∧ off / 2 ^ 24 ∉ [0, 14, 15])) :
    bar0BadAccess isWrite off size s = if isWrite then fbump s F.HIU_STAT_BADACC
      else emit (fbump s F.HIU_STAT_BADACC) (.readReply (some (List.replicate size 0xFF#8))) := by
  have hb : (bar0Ok off size && blockAnswers s (off / 2 ^ 24 + 1)) = false := by
    rw [Bool.and_eq_false_iff]
    refine h.imp (fun h => by simpa [bar0Ok] using h) fun ⟨hstep, hblock⟩ => ?_
    have : off / 2 ^ 24 + 1 ∉ [1, 15, 16] := by simpa using hblock
    rw [blockAnswers, earlyBlock_false this]
    simp [hstep]
  rw [bar0BadAccess, hb, if_neg Bool.false_ne_true]

/-- An access that is not first in its order, or whose block is not ready, waits behind the others. -/
theorem hostTurn_waits {s : State} (a : HostAcc) {ready : Bool} (f : State → State) (h : hostFree s = false ∨ ready = false) :
    hostTurn s a ready f = { s with hiu := { s.hiu with waiting := s.hiu.waiting ++ [a] } } := by
  rw [hostTurn, if_neg]
  rw [Bool.and_eq_true]
  rintro ⟨h1, h2⟩
  rcases h with h | h <;> simp_all

theorem hostFree_of_not_prompt {s : State} (h : ¬ Prompt s) : hostFree s = false := by
  by_contra hf
  simp only [hostFree, writeDeferred, Bool.not_eq_false, Bool.and_eq_true, List.isEmpty_iff, Bool.not_eq_true', List.any_eq_false,
    List.any_eq_true, not_exists, not_and, Option.isNone_iff_eq_none, Option.isSome_iff_ne_none, not_not] at hf
  refine h ⟨hf.1, fun p hp d hd => ?_⟩
  by_cases hd1 : d.pkt = none
  · exact .inr (hf.2 p hp d hd hd1)
  · exact .inl hd1

theorem hostFree_wakeNode (s : State) : hostFree (wakeNode s) = hostFree s := by
  unfold wakeNode
  split <;> rfl

theorem waiting_wakeNode (s : State) : (wakeNode s).hiu = s.hiu := by
  unfold wakeNode
  split <;> rfl

theorem wakeNode_rest (s : State) (h : Hiu) :
    { { wakeNode s with hiu := h } with hiu := s.hiu, prb := { (wakeNode s).prb with waking := s.prb.waking } } = s := by
  unfold wakeNode
  split <;> rfl

/-- A node that is not in P0 begins to wake, unless it wakes already. -/
theorem wakeNode_asleep {s : State} (h : fget s F.PRB_PWR_STAT_STATE ≠ 0) :
    wakeNode s = { s with prb := { s.prb with waking := some (s.prb.waking.getD s.now) } } := by
  unfold wakeNode
  simp only [h, decide_false, Bool.false_or]
  by_cases hw : s.prb.waking.isSome
  · obtain ⟨t, ht⟩ := Option.isSome_iff_exists.1 hw
    rw [if_pos hw, ht, Option.getD_some, ← ht]
  · rw [if_neg hw, Option.not_isSome_iff_eq_none.1 hw, Option.getD_none]

/-- Behind an access that waits a register access waits too, whatever its block. -/
theorem hostReg_waits {s : State} (h : ¬ Prompt s) (r : Reg) (a : HostAcc) (f : State → State) :
    ∃ t, (t = s ∨ t = wakeNode s) ∧ hostReg s r a f = { t with hiu := { t.hiu with waiting := s.hiu.waiting ++ [a] } } := by
  have hf := hostFree_of_not_prompt h
  unfold hostReg
  extract_lets b idle s1
  have h1 : s1 = s ∨ s1 = wakeNode s := by
    by_cases hi : idle = true
    · exact .inl (if_pos hi)
    · exact .inr (if_neg hi)
  refine ⟨s1, h1, ?_⟩
  have hfree : hostFree s1 = false := by
    rcases h1 with h1 | h1 <;> rw [h1]
    · exact hf
    · rw [hostFree_wakeNode, hf]
  have hw : s1.hiu = s.hiu := by
    rcases h1 with h1 | h1 <;> rw [h1]
    exact waiting_wakeNode s
  rw [hostTurn_waits a _ (.inl hfree), hw]

/-- A doorbell behind an access that waits. -/
theorem doorbell_waits {s : State} (h : ¬ Prompt s) (a : HostAcc) (f : State → State) :
    ∃ t, hostTurn (wakeNode s) a true f = t ∧ t.hiu.waiting = s.hiu.waiting ++ [a]
      ∧ { t with hiu := s.hiu, prb := { t.prb with waking := s.prb.waking } } = s := by
  have hf : hostFree (wakeNode s) = false := by rw [hostFree_wakeNode, hostFree_of_not_prompt h]
  refine ⟨_, hostTurn_waits a f (.inl hf), ?_, wakeNode_rest s _⟩
  rw [waiting_wakeNode]

/-- The instructions that write a register outside the blocks HIU, SMC and PRB, with the register. -/
noncomputable def registerRows : List ((W32 → Instr) × Reg) :=
  [(.seqViolCntClear, .SEQ_VIOL_CNT), (.seqStalePulseClear, .SEQ_STALE_PULSE),
      (.trfIngDropClear, .TRF_ING_DROP), (.tirIdxOvlClear, .TIR_IDX_OVL), (.indexInstall, .TIR_IDX_CMD), (.indexRemove, .TIR_IDX_CMD),
      (.overrideSet, .TIR_IDX_CMD), (.overrideClear, .TIR_IDX_CMD), (.regionCreate, .TIR_RGN_CMD), (.regionRemove, .TIR_RGN_CMD),
      (.regionClean, .TIR_RGN_CMD), (.regionInvalidate, .TIR_RGN_CMD), (.regionCleanInvalidate, .TIR_RGN_CMD),
      (.migFinalMaxClr, .TIR_MIG_STAT), (.flsDiscard, .FLS_DSC_CMD), (.windowCreate, .FAB_WIN_CMD), (.windowRemove, .FAB_WIN_CMD),
      (.dmaRestart, .DMA_ERR), (.portRetry, .FAB_PORT_CMD), (.portHold, .FAB_PORT_CMD), (.sliceDefine, .FAB_MAP_CMD),
      (.mapStage, .FAB_MAP_CMD), (.mapCancel, .FAB_MAP_CMD), (.handoffOffer, .FAB_HO_CMD), (.handoffLedgerRead, .FAB_HO_CMD),
      (.seriesStop, .DSP_SERIES), (.dspPolWrite, .DSP_POL), (.gateListArm, .TRF_GL_CTL), (.gateListCancel, .TRF_GL_CTL),
      (.samplingEnable, .TRF_SMP_CTL), (.samplingDisable, .TRF_SMP_CTL), (.sampleHeadWrite, .TRF_SMP_HEAD)]

/-- Each instruction that writes a register of one unit is the write of that register. -/
theorem registerRow_write {row : (W32 → Instr) × Reg} (h : row ∈ registerRows) (v : W32) (s : State) :
    0 < dirInsts row.2 ∧ regBlock row.2 ∉ [1, 15, 16]
      ∧ ∃ a f, exec (row.1 v) s = .next (hostReg s row.2 a f) := by
  simp only [registerRows, List.mem_cons, List.not_mem_nil, or_false] at h
  rcases h with rfl | rfl | rfl | rfl | rfl | rfl | rfl | rfl | rfl | rfl | rfl | rfl | rfl | rfl | rfl | rfl |
    rfl | rfl | rfl | rfl | rfl | rfl | rfl | rfl | rfl | rfl | rfl | rfl | rfl | rfl | rfl | rfl
  all_goals exact ⟨by decide, by decide, _, _, rfl⟩

/-- Settles O11, from what a block that does not answer makes of an access. -/
theorem registerAccessesThatAreRefused : Obligations.RegisterAccessesThatAreRefused := by
  refine ⟨fun r inst v s h => ?_, fun r inst v s h hr hstep hs => ?_, fun off size s h => ⟨?_, ?_⟩, fun row hrow v s hstep hs => ?_⟩
  · show Host.Outcome.next _ = _
    rw [registerWrite, if_neg (by omega)]
  · rw [registerWrite_of_lt h, hostReg_silent hs hr hstep]
  · show Host.Outcome.next (bar0BadAccess true off size s) = _
    rw [bar0BadAccess_bad true h, if_pos rfl]
  · show Host.Outcome.next (bar0BadAccess false off size s) = _
    rw [bar0BadAccess_bad false h, if_neg Bool.false_ne_true, emit, fbump_out]
    rfl
  · obtain ⟨_, hr, a, f, e⟩ := registerRow_write hrow v s
    rw [e, hostReg_silent hs hr hstep]

/-- Settles O12, from the order that waiting accesses keep. -/
theorem hostAccessesKeepTheirOrder : Obligations.HostAccessesKeepTheirOrder := by
  refine ⟨fun r inst v s h hr hstep hp => ?_, fun r inst v s h hs => ?_, fun q v s hs => ?_, fun q v s hs => ?_,
    fun s r inst v h => registerWrite_of_lt h v s, fun s q v => ⟨rfl, rfl⟩, fun s a rest n t hw ht => ⟨fun h => ?_, fun h => ?_⟩⟩
  · rw [registerWrite_of_lt h, hostReg]
    have hb : blockAnswers s (regBlock r) = true := by simp [blockAnswers, hstep]
    have h0 : inP0 { s with prb := { s.prb with waking := some (s.prb.waking.getD s.now) } } = false := by
      have : fget { s with prb := { s.prb with waking := some (s.prb.waking.getD s.now) } } F.PRB_PWR_STAT_STATE =
        fget s F.PRB_PWR_STAT_STATE := rfl
      rw [inP0, this]
      simpa using hp
    simp only [earlyBlock_false hr, hb, Bool.not_true, Bool.or_false, Bool.false_eq_true, if_false, Bool.false_or, wakeNode_asleep hp]
    rw [hostTurn_waits _ _ (.inr h0)]
  · obtain ⟨t, ht, e⟩ := hostReg_waits hs r (.reg r inst v) (regEffect r inst v)
    refine ⟨_, by rw [registerWrite_of_lt h, e], rfl, ?_⟩
    rcases ht with rfl | rfl
    · rfl
    · exact wakeNode_rest s _
  · obtain ⟨t, e, ht⟩ := doorbell_waits hs (.sqTail q.toNat v.toNat) (sqTail q.toNat v.toNat)
    exact ⟨t, congrArg Host.Outcome.next e, ht⟩
  · obtain ⟨t, e, ht⟩ := doorbell_waits hs (.eqHead q.toNat v.toNat) (eqHeadDoorbell q.toNat v.toNat)
    exact ⟨t, congrArg Host.Outcome.next e, ht⟩
  · rw [hostPump, hw]
    simp only [← ht, h, List.isEmpty_nil, if_true]
  · rw [hostPump, hw]
    simp only [← ht, List.isEmpty_iff, h, if_false]

end Sys2Proof.Registers

/-! # Power states (R587, R588) -/

namespace Sys2Proof.Power

open Sys2Proof Sys2Proof.Machine Sys2Proof.Claims Sys2Proof.Laws

/-- What an idle node does once `HYST` has passed, where a deeper state is allowed (R587). -/
theorem powerEntry_idle {s : State} (hidle : nodeIdle s = true) (hwake : s.prb.waking = none)
    (hhyst : s.prb.lastActive + hystNs s ≤ s.now) (hdeep : fget s F.PRB_PWR_STAT_STATE < tolState (fget s F.PRB_WAKETOL_TOL)) :
    powerEntry s = match tolState (fget s F.PRB_WAKETOL_TOL) with
      | 4 => if p4Barred s then
          fset (if fget s F.PRB_PWR_STAT_STATE = 3 then s else fset (loseTiles s) F.PRB_PWR_STAT_STATE 3) F.PRB_PWR_STAT_P4_BLOCKED 1
        else enterP4 (fset s F.PRB_PWR_STAT_P4_BLOCKED 0)
      | 3 => fset (loseTiles s) F.PRB_PWR_STAT_STATE 3
      | n => fset s F.PRB_PWR_STAT_STATE n := by
  have guard : ¬ (!nodeIdle s || s.prb.waking.isSome || decide (s.now < s.prb.lastActive + hystNs s) ||
      decide (tolState (fget s F.PRB_WAKETOL_TOL) ≤ fget s F.PRB_PWR_STAT_STATE)) = true := by
    simp [hidle, hwake, hhyst, hdeep]
  rw [powerEntry]
  exact if_neg guard

/-- A node that is at work, or has been idle for less than `HYST`, stays in its state. -/
theorem powerEntry_busy {s : State} (h : nodeIdle s = false ∨ s.now < s.prb.lastActive + hystNs s) : powerEntry s = s := by
  have guard : (!nodeIdle s || s.prb.waking.isSome || decide (s.now < s.prb.lastActive + hystNs s) ||
      decide (tolState (fget s F.PRB_WAKETOL_TOL) ≤ fget s F.PRB_PWR_STAT_STATE)) = true := by
    rcases h with h | h <;> simp [h]
  rw [powerEntry]
  exact if_pos guard

/-- A wake from P0 to P2 ends with no stack to restore and no sampling to resume. -/
theorem wakeDone_light {s : State} {t0 : Nat} (hw : s.prb.waking = some t0) (hst : fget s F.PRB_PWR_STAT_STATE ≤ 2) {s1 s2 : State}
    (h1 : s1 = fset (fset s F.PRB_PWR_STAT_STATE 0) F.PRB_PWR_STAT_P4_BLOCKED 0)
    (h2 : s2 = releaseWake (fbump { s1 with prb := { s1.prb with waking := none, lastActive := s.now } } F.PRB_PWR_STAT_WAKES)) :
    wakeDone s = hostPump s2.hiu.waiting.length s2 := by
  have n4 : ¬ fget s F.PRB_PWR_STAT_STATE = 4 := by omega
  have n3 : decide (fget s F.PRB_PWR_STAT_STATE ≥ 3) = false := decide_eq_false (by omega)
  rw [wakeDone, hw, if_neg (by simp)]
  simp only [if_neg n4, n3, Bool.false_and, Bool.false_eq_true, if_false, ← h1, ← h2]

/-- Settles O13, from the entry of an idle node and the end of a wake. -/
theorem powerStatesAndWakes : Obligations.PowerStatesAndWakes := by
  refine ⟨fun s want hidle hwake hhyst hwant hdeep => ?_, fun s h => congrArg Host.Outcome.next (powerEntry_busy h), fun tol => rfl,
    fun s t0 hw hst s1 s2 h1 h2 => congrArg Host.Outcome.next (wakeDone_light hw hst h1 h2)⟩
  have step : exec .powerStateEntry s = .next (powerEntry s) := rfl
  rw [step, powerEntry_idle hidle hwake hhyst (hwant ▸ hdeep), ← hwant]
  refine ⟨fun h => ?_, fun h => ?_, fun h hb => ?_, fun h hb s1 h1 => ?_⟩
  · split
    · omega
    · omega
    · rfl
  · subst h; rfl
  · subst h; simp only [hb, if_true]
  · subst h
    simp only [hb, Bool.false_eq_true, if_false, enterP4, ← h1]
    cases allDurable s1 <;> simp

end Sys2Proof.Power

/-! # Host link, aperture, MSI-X and evidence -/

namespace Sys2Proof.HostSide

open Sys2Proof Sys2Proof.Machine Sys2Proof.Claims Sys2Proof.Laws

/-- A change of the host link to a rate and a width of the link (R482). -/
theorem hostLinkChange_known {speed width : Nat} (hsp : speed ∈ linkSpeeds) (hw : width ∈ linkWidths) (flit : Bool) (s : State) :
    hostLinkChange speed width flit s =
      let s1 := fset (fset (fset (fset s F.HIU_LINK_STAT_SPEED speed) F.HIU_LINK_STAT_WIDTH width) F.HIU_LINK_STAT_FLIT
        (if flit = true ∨ 64 ≤ speed then 1 else 0)) F.HIU_LINK_STAT_USABLE (if 256 ≤ width * speed then 1 else 0)
      let s2 := if fget s F.HIU_LINK_STAT_SPEED = 0 then s1 else fbump s1 F.HIU_LINK_STAT_RETRAINS
      if fget s F.HIU_LINK_STAT_SPEED = speed ∧ fget s F.HIU_LINK_STAT_WIDTH = width then s2
      else devEvent s2 0x05 0 0 (bytesOf 1 8 ++ bytesOf 1 3 ++ bytesOf 1 width ++ bytesOf 1 0) := by
  unfold hostLinkChange
  rw [if_neg (by simp [hsp, hw])]
  simp only [ge_iff_le, decide_eq_true_eq, Bool.or_eq_true, Bool.and_eq_true]

/-! ### The aperture (R489, R490) -/

theorem wakeNode_awake {s : State} (h : fget s F.PRB_PWR_STAT_STATE = 0) : wakeNode s = s := by simp [wakeNode, h]

theorem writeDeferred_prompt {s : State} (h : Prompt s) : writeDeferred s = false := by
  have := hostFree_prompt h
  simpa [hostFree, h.1] using this

/-- A BAR2 access that nothing waits before is tried on arrival. -/
theorem bar2Arrive_prompt {s : State} (h0 : fget s F.PRB_PWR_STAT_STATE = 0) (h : Prompt s) {off n : Nat} {data : Option (List Byte)}
    {t : State} (ht : bar2Try s off n data = some t) : bar2Arrive off n data s = t := by
  have e : ({ s with hiu := { s.hiu with waiting := [] } } : State) = s := by rw [← h.1]
  simp only [bar2Arrive, wakeNode_awake h0, h.1, List.nil_append, List.length_singleton, bar2Pump, e, ht]

/-- An access through no slice. -/
theorem bar2Try_none {s : State} (h0 : fget s F.PRB_PWR_STAT_STATE = 0) (h : Prompt s) {off : Nat} (ha : aperture s off = none) (n : Nat)
    (data : Option (List Byte)) :
    bar2Try s off n data = some (match data with | some _ => fbump s F.HIU_STAT_BAR2_WR | none => emit s (.readReply none)) := by
  cases data <;> simp [bar2Try, inP0, h0, writeDeferred_prompt h, ha]

/-- An access through a slice, of a bank that does not defer it. -/
theorem bar2Try_some {s : State} (h0 : fget s F.PRB_PWR_STAT_STATE = 0) (h : Prompt s) {off dom a : Nat} (ha : aperture s off = some (dom, a))
    (hb : ∀ b, bankOfAccess s dom a = some b → hostDefers s b = false) (n : Nat) (data : Option (List Byte)) :
    bar2Try s off n data = some (match data with | some bs => hostStore s dom a bs | none => hostLoad s dom a n) := by
  unfold bar2Try
  rw [if_neg (by simp [inP0, h0, writeDeferred_prompt h]), ha]
  cases data <;> cases hbank : bankOfAccess s dom a with
  | none => simp only [hbank]
  | some b => simp only [hbank, hb b hbank, Bool.false_eq_true, if_false]

theorem bar2Fits_of {off n : Nat} (ho : off < 2 ^ 36) (hn : 0 < n) (hfit : off % 4096 + n ≤ 4096) : bar2Fits off n = true := by
  simp only [bar2Fits, Bool.and_eq_true, bne_iff_ne, decide_eq_true_eq]
  omega

theorem exec_bar2Read {s t : State} {off n : Nat} (ho : off < 2 ^ 36) (hn : 0 < n) (hfit : off % 4096 + n ≤ 4096)
    (h0 : fget s F.PRB_PWR_STAT_STATE = 0) (h : Prompt s) (ht : bar2Try s off n none = some t) : exec (.bar2Read off n) s = .next t := by
  show Host.Outcome.next _ = _
  rw [if_pos (bar2Fits_of ho hn hfit), bar2Arrive_prompt h0 h ht]

theorem exec_bar2Write {s t : State} {off : Nat} {bs : List Byte} (ho : off < 2 ^ 36) (hn : bs ≠ []) (hfit : off % 4096 + bs.length ≤ 4096)
    (h0 : fget s F.PRB_PWR_STAT_STATE = 0) (h : Prompt s) (ht : bar2Try s off bs.length (some bs) = some t) :
    exec (.bar2Write off bs) s = .next t := by
  show Host.Outcome.next _ = _
  rw [if_pos (bar2Fits_of ho (List.length_pos_iff.2 hn) hfit), bar2Arrive_prompt h0 h ht]

/-- A write of bytes that are all there, and all the host's to write. -/
theorem hostStore_plain {s : State} {dom a : Nat} {bs : List Byte} (h : ∀ i < bs.length, locate s dom (a + i) ≠ .outside ∧
    parkedAt s dom (a + i) = false ∧ readOnly s dom (a + i) = false ∧ tirOnly s dom (a + i) = false) :
    hostStore s dom a bs = uPoke s dom a bs := by
  have none_of : ∀ p : Nat → Bool, (∀ i < bs.length, p i = false) → ¬ (List.range bs.length).any p = true := fun p hp e => by
    obtain ⟨i, hi, hpi⟩ := List.any_eq_true.1 e
    rw [hp i (List.mem_range.1 hi)] at hpi
    cases hpi
  unfold hostStore
  rw [if_neg (none_of _ fun i hi => by simp [(h i hi).1]), if_neg (none_of _ fun i hi => by simp [(h i hi).2.1, (h i hi).2.2.1]),
    if_neg (none_of _ fun i hi => (h i hi).2.2.2)]

/-! ### MSI-X (R499) -/

/-- The timer of a queue with records that wait for their interrupt. -/
theorem msixTimer_due {s : State} {e : Nat} (hm : fget s F.HIU_EQ_CTL_MSIX e = 1) (hus : fget s F.HIU_EQ_CTL_IRQ_US e ≠ 0)
    (hn : (evqOf s e).unsignalled ≠ 0) (ht : (evqOf s e).first + fget s F.HIU_EQ_CTL_IRQ_US e * 1000 ≤ s.now) :
    msixTimer e s = msixSend (setEvq s e { evqOf s e with unsignalled := 0 }) e := by
  rw [msixTimer]
  exact if_neg (by simp [hm, hus, hn, ht])

theorem msixSend_open {s : State} {v : Nat} (h : (tget {} s.hiu.msix v).mask = false) :
    msixSend s v = emit s (.msix v (tget {} s.hiu.msix v).addr (tget {} s.hiu.msix v).data (eqPasid s v)) := by
  unfold msixSend
  exact if_neg (Bool.eq_false_iff.1 h)

theorem msixSend_masked {s : State} {v : Nat} (h : (tget {} s.hiu.msix v).mask = true) :
    msixSend s v = { s with hiu := { s.hiu with msix := tput {} s.hiu.msix v { (tget {} s.hiu.msix v) with pba := true } } } := by
  unfold msixSend
  exact if_pos h

/-- An entry that is not the default reads back, whatever the table. -/
theorem tget_tput_of_ne {α : Type} [DecidableEq α] {d : α} (m : Table α) (k : Nat) {v : α} (h : v ≠ d) : tget d (tput d m k v) k = v := by
  rw [tget, tput, if_neg h, tfind_tins_same, Option.getD_some]

/-! ### Evidence -/

theorem bytesOf_length : ∀ n v, (bytesOf n v).length = n
  | 0, _ => rfl
  | n + 1, v => by rw [bytesOf, List.length_cons, bytesOf_length n]

/-- Evidence begins with the nonce and the time. -/
theorem evidence_head (s : State) (nonce : BitVec 256) :
    evidence s nonce = bytesOf 32 nonce.toNat ++ bytesOf 8 s.now ++ (evidence s nonce).drop 40 := by
  have head : (evidence s nonce).take 40 = bytesOf 32 nonce.toNat ++ bytesOf 8 s.now := by
    simp only [evidence, List.append_assoc]
    rw [← List.append_assoc, List.take_left' (by rw [List.length_append, bytesOf_length, bytesOf_length])]
  rw [← head, List.take_append_drop]

/-- Settles O15, from what each of these commands does. -/
theorem hostLinkAndAperture : Obligations.HostLinkAndAperture := by
  refine ⟨fun s speed width flit hsp hw s1 s2 same h1 h2 hsame => ?_, fun s off h0 h ho => ⟨fun ha => ⟨?_, ?_⟩, fun dom a ha hb => ⟨?_, ?_⟩⟩,
    fun s eq e q he hq hm hus hn ht => ?_, fun s vec addr data h hp => ?_, fun s vec addr data h hp => ?_, fun s nonce => ?_, fun s msg => ?_⟩
  · have step : exec (.hostLinkChange speed width flit) s = .next (hostLinkChange speed width flit s) := rfl
    rw [step, hostLinkChange_known hsp hw]
    simp only [← h1, ← h2]
    exact ⟨fun h => by rw [if_pos (hsame.1 h)], fun h => by rw [if_neg (fun e => h (hsame.2 e))]⟩
  · exact fun n hn hfit => exec_bar2Read ho hn hfit h0 h (bar2Try_none h0 h ha n none)
  · exact fun bs hn hfit => exec_bar2Write ho hn hfit h0 h (bar2Try_none h0 h ha _ (some bs))
  · intro n bs s1 hn hfit hload
    rw [exec_bar2Read ho hn hfit h0 h (bar2Try_some h0 h ha hb n none)]
    simp only [hostLoad, hload, emit]
  · intro bs hn hfit hbytes
    rw [exec_bar2Write ho hn hfit h0 h (bar2Try_some h0 h ha hb _ (some bs))]
    simp only [hostStore_plain hbytes]
  · subst he hq
    have step : exec (.msixTimer eq) s = .next (msixSend (setEvq s eq.toNat { evqOf s eq.toNat with unsignalled := 0 }) eq.toNat) :=
      congrArg Host.Outcome.next (msixTimer_due hm hus hn ht)
    refine ⟨fun hmask => ?_, fun hmask => ?_⟩
    · rw [step, msixSend_open (s := setEvq s eq.toNat _) hmask]
      rfl
    · rw [step, msixSend_masked (s := setEvq s eq.toNat _) hmask]
      rfl
  · show Host.Outcome.next _ = _
    rw [msixWrite, hostTurn_prompt h, msixUnmask, hp]
    rfl
  · refine ⟨_, rfl, ?_⟩
    rw [msixWrite, hostTurn_prompt h, msixUnmask]
    simp only [hp, if_true]
    have hv : tget {} (tput {} s.hiu.msix vec.toNat { addr := addr, data := data, mask := false, pba := false }) vec.toNat =
        { addr := addr, data := data, mask := false, pba := false } := tget_tput_of_ne _ _ fun h => by cases congrArg Msix.mask h
    rw [msixSend_open (by rw [hv]), hv]
    rfl
  · refine ⟨Config.crypto 23 (bytesOf 32 Config.deviceSecret ++ s.prb.image) ++
      Config.crypto 24 (bytesOf 32 Config.deviceSecret ++ s.prb.image ++ evidence s nonce), ?_⟩
    show Host.Outcome.next (attestation nonce s) = _
    rw [attestation, ← evidence_head, emit, List.append_assoc]
  · show ∃ t r, Host.Outcome.next (spdmMessage msg s) = .next t ∧ _
    rw [spdmMessage]
    by_cases h : s.hiu.spdm = 0
    · simp only [h, if_true]
      exact ⟨_, _, rfl, rfl, by rw [← h]; rfl, fun g b hg => rfl, fun _ => rfl⟩
    · simp only [h, if_false]
      exact ⟨_, _, rfl, rfl, rfl, fun g b hg => rget_rset_other _ _ _ _ _ _ (.inl (Ne.symm hg)), fun e => e.elim⟩

end Sys2Proof.HostSide

/-! # Configuration agreement -/

namespace Sys2Proof.Agreement

open Sys2Proof Sys2Proof.Machine Sys2Proof.Claims Sys2Proof.Laws Sys2Proof.Registers

/-- A write of `CFG_CTL` has its effect in every power state. -/
theorem hostReg_cfg {s : State} (h : Prompt s) (a : HostAcc) (f : State → State) : hostReg s .SMC_CFG_CTL a f = f s :=
  hostReg_early h _ (by decide) a f

section
variable {s s1 : State} {v : W32}

/-- What a write of `CFG_CTL` leaves of the other registers of the configuration. -/
theorem rget_cfgWrite (h1 : s1 = regWritePlain s .SMC_CFG_CTL 0 v) {r : Reg} (hr : r ≠ .SMC_CFG_CTL) (hl : r ≠ .SMC_LIFECYCLE) (b : Nat) :
    rget s1 r b = rget s r b := by
  rw [h1, rget_regWritePlain_other s v (.inl hr) hl]

theorem rpair_cfgWrite (h1 : s1 = regWritePlain s .SMC_CFG_CTL 0 v) {lo hi : Reg} (hlo : lo ≠ .SMC_CFG_CTL ∧ lo ≠ .SMC_LIFECYCLE)
    (hhi : hi ≠ .SMC_CFG_CTL ∧ hi ≠ .SMC_LIFECYCLE) : rpair s1 lo hi = rpair s lo hi := by
  rw [rpair, rget_cfgWrite h1 hlo.1 hlo.2, rget_cfgWrite h1 hhi.1 hhi.2, rpair]

theorem digOf_cfgWrite (h1 : s1 = regWritePlain s .SMC_CFG_CTL 0 v) : digOf s1 cfgExpRegs 0 = digOf s cfgExpRegs 0 := by
  simp [digOf, cfgExpRegs, rget_cfgWrite h1]

/-- A plain write changes nothing but registers. -/
theorem cfgWrite_smc (h1 : s1 = regWritePlain s .SMC_CFG_CTL 0 v) : s1.smc = s.smc ∧ s1.now = s.now := by
  have e := regWritePlain_regs s .SMC_CFG_CTL 0 v
  have esmc := congrArg State.smc e
  have enow := congrArg State.now e
  rw [h1]
  exact ⟨esmc, enow⟩

end

/-- What a write of `CFG_CTL` with ARM and without CANCEL does. -/
theorem cfgCtl_arm {v : W32} (hv : v.getLsbD 1 = false) (s : State) :
    cfgCtl (v ||| 1) s = cfgStage (regWritePlain s .SMC_CFG_CTL 0 (v ||| 1)) := by
  have b1 : (v ||| 1).getLsbD 1 = false := by rw [BitVec.getLsbD_or, hv]; decide
  have b0 : (v ||| 1).getLsbD 0 = true := by rw [BitVec.getLsbD_or]; simp
  rw [cfgCtl, b1, b0]
  rfl

/-- What a write of `CFG_CTL` with CANCEL and without ARM does. -/
theorem cfgCtl_cancel (v : W32) (s : State) :
    cfgCtl ((v ||| 2) &&& 0xFFFFFFFE) s = cfgDrop (regWritePlain s .SMC_CFG_CTL 0 ((v ||| 2) &&& 0xFFFFFFFE)) := by
  have b1 : ((v ||| 2) &&& 0xFFFFFFFE).getLsbD 1 = true := by
    rw [BitVec.getLsbD_and, BitVec.getLsbD_or]
    simp
  have b0 : ((v ||| 2) &&& 0xFFFFFFFE).getLsbD 0 = false := by
    rw [BitVec.getLsbD_and]
    simp
  rw [cfgCtl, b1, b0]
  rfl

/-- Settles O16, from what each write and each horizon does. -/
theorem configurationAgreement : Obligations.ConfigurationAgreement := by
  refine ⟨fun s v s1 h hp hh hv h1 => ?_, fun s v s1 hp h1 => ?_, fun s e d h hcfg => ⟨fun ht s1 h1 => ?_, fun ht => ?_⟩,
    fun s e d t hdue s1 h1 => ⟨fun ht hd => ?_, fun ht hd => ?_, fun ht => ?_⟩⟩
  · have step : exec (.cfgArm v) s = .next (cfgStage s1) := by
      show Host.Outcome.next _ = _
      rw [hostReg_cfg hp, cfgCtl_arm hv, ← h1]
    obtain ⟨hsmc, hnow⟩ := cfgWrite_smc h1
    have hhor : rpair s1 .SMC_CFG_HZN_LO .SMC_CFG_HZN_HI = h := by rw [rpair_cfgWrite h1 (by decide) (by decide), hh]
    have hstg := rpair_cfgWrite h1 (lo := .SMC_CFG_STG_LO) (hi := .SMC_CFG_STG_HI) (by decide) (by decide)
    rw [step, cfgStage]
    simp only [hsmc, hnow, hhor, hstg, digOf_cfgWrite h1]
    refine ⟨fun hc hlt s2 h2 => ?_, fun hc => ?_⟩
    · rw [if_neg (by simp [hc, hlt]), h2]
    · rw [if_pos (by simpa [Option.isSome_iff_ne_none] using hc)]
  · have step : exec (.cfgCancel v) s = .next (cfgDrop s1) := by
      show Host.Outcome.next _ = _
      rw [hostReg_cfg hp, cfgCtl_cancel, ← h1]
    obtain ⟨hsmc, hnow⟩ := cfgWrite_smc h1
    refine ⟨fun e d h hc hlt => ?_, fun hc => ?_⟩ <;> rw [step, cfgDrop] <;> simp only [hsmc, hnow, hc]
    rw [if_pos hlt]
  · have step : exec .cfgHorizon s = .next (cfgPublish s) := rfl
    rw [step, cfgPublish, hcfg, h1]
    simp only [if_neg (Nat.not_lt.2 ht)]
  · have step : exec .cfgHorizon s = .next (cfgPublish s) := rfl
    rw [step, cfgPublish, hcfg]
    simp only [if_pos ht]
  · have step : exec .cfgGraceExpiry s = .next (cfgGrace s) := rfl
    rw [step, cfgGrace, hdue, h1]
    simp only [if_neg (Nat.not_lt.2 ht), if_neg hd]
  · have step : exec .cfgGraceExpiry s = .next (cfgGrace s) := rfl
    rw [step, cfgGrace, hdue, h1]
    simp only [if_neg (Nat.not_lt.2 ht), if_pos hd]
  · have step : exec .cfgGraceExpiry s = .next (cfgGrace s) := rfl
    rw [step, cfgGrace, hdue]
    simp only [if_pos ht]

end Sys2Proof.Agreement

/-! # Replies, segments and timers of fabric operations -/

namespace Sys2Proof.Replies

open Sys2Proof Sys2Proof.Machine Sys2Proof.Claims Sys2Proof.Laws Sys2Proof.Words

/-- A packet of a handler's own type, well formed, of the direction that the handler takes. -/
theorem arrive_ok {s : State} {ty : Nat} {resp : Bool} {p : Pkt} (hty : p.ty.toNat = ty) (hok : pktOk s p = true)
    (hresp : p.flags.getLsbD 0 = resp) (body : State → State) : arrive ty resp p body s = body s := by
  unfold arrive
  rw [if_neg (by simp [hty]), if_neg (by simp [hok]), if_neg (by rw [hresp]; simp)]

/-- What a reply to the operation of a job does: the status word, the destination, the credit and the pulse (R127). -/
theorem jobReply_of_job {s : State} {tag : Nat} {o : FabOp} {p : Pkt} {s1 : State} {j : Job} (h1 : s1 = giveShare (dropOp s tag) o.share)
    (hj : jobOf s1 o.job = some j) {word : W64}
    (hword : word = BitVec.ofNat 64 (p.status.toNat + if p.status.toNat = stMOVED then p.newNode.toNat * 256 else 0)) {s2 : State}
    (h2 : s2 = setJob s1 o.job
      { j with ctx := setG (if p.status = 0 then replyRegs j.ctx o p else j.ctx) (BitVec.ofNat 5 o.statusReg) word }) :
    jobReply s tag o p = if o.inc = 0 then s2 else pulseCtr s2 o.counter.toNat o.gen o.inc := by
  have hz : (p.status.toNat = 0) = (p.status = 0) := propext ⟨fun h => BitVec.eq_of_toNat_eq (by simpa using h), fun h => by rw [h]; rfl⟩
  rw [jobReply, ← h1, modJob_of_job hj]
  simp only [hz, ← hword, ← h2]

/-- A reply that matches no operation of this node changes nothing. -/
theorem fabricReply_other {s : State} {p : Pkt} (hok : pktOk s p = true) (hresp : p.flags.getLsbD 0 = true)
    (hc : tfind s.tbe.copies p.tag.toNat = none)
    (ho : ∀ o, tfind s.fab.ops p.tag.toNat = some o → p.ty ≠ o.pkt.ty ∨ p.src ≠ o.pkt.dst ∨ fabStatus p.status.toNat = false)
    (horphan : tfind s.fab.orphans p.tag.toNat = none) : fabricReply p s = s := by
  rw [fabricReply, arrive_ok rfl hok hresp]
  simp only [hc]
  cases hop : tfind s.fab.ops p.tag.toNat with
  | none => simp only [orphanPulse, horphan]
  | some o =>
    have := ho o hop
    refine if_pos ?_
    simp only [Bool.or_eq_true, bne_iff_ne, Bool.not_eq_true']
    tauto

/-- The final reply to an operation of a job. -/
theorem fabricReply_job {s : State} {p : Pkt} {o : FabOp} (hok : pktOk s p = true) (hresp : p.flags.getLsbD 0 = true)
    (hc : tfind s.tbe.copies p.tag.toNat = none) (hop : tfind s.fab.ops p.tag.toNat = some o) (hkind : o.kind = 0)
    (hty : p.ty = o.pkt.ty) (h4 : p.ty ≠ 4) (hsrc : p.src = o.pkt.dst) (hst : fabStatus p.status.toNat = true)
    (h5 : p.ty = 5 → p.status ≠ 0) : fabricReply p s = afterOp (jobReply s p.tag.toNat o p) := by
  rw [fabricReply, arrive_ok rfl hok hresp]
  simp only [hc, hop]
  rw [if_neg]
  · simp only [hkind, if_neg (hty ▸ h4)]
  · simp only [hty, hsrc, hst, bne_self_eq_false, Bool.not_true, Bool.false_or, Bool.and_eq_true, decide_eq_true_eq]
    exact fun h => h5 (hty.trans h.1) h.2

/-- A segment of a pull that is still awaited. -/
theorem pullData_segment {s s1 : State} {p : Pkt} {o o1 : FabOp} (hty : p.ty.toNat = 6) (hok : pktOk s p = true)
    (hresp : p.flags.getLsbD 0 = false) (hop : tfind s.fab.ops p.tag.toNat = some o) (h5 : o.pkt.ty = 5) (hsrc : p.src = o.pkt.dst)
    (hseg : p.seg.toNat ∈ o.segs)
    (hw : uWrite s o.dom (o.src + 1024 * p.seg.toNat) (p.payload.take (min 1024 (o.pkt.total.toNat - 1024 * p.seg.toNat))) = .ok s1)
    (h1 : o1 = { o with segs := o.segs.filter fun i => i != p.seg.toNat }) :
    pullData p s = if o1.segs != [] then { s1 with fab := { s1.fab with ops := tins s1.fab.ops p.tag.toNat o1 } }
      else afterOp (jobReply (if o.pkt.flags.getLsbD 1 then sendSys s1 { o.pkt with ty := 7, payload := [], len := 0 } else s1)
        p.tag.toNat o1 { noPkt with ty := 5 }) := by
  rw [pullData, arrive_ok hty hok hresp]
  simp only [hop]
  rw [if_neg (by simp [h5, hsrc, hseg])]
  rw [h1]
  simp only [hw]

/-- Settles O17, one kind of packet or timer after the other. -/
theorem repliesCompleteOperations : Obligations.RepliesCompleteOperations := by
  refine ⟨fun s p tag o s1 j htag _ hok hresp hc hop hkind hty h4 hsrc hst h5 h1 hj word hword s2 h2 => ?_,
    fun s p hok hresp hc ho horphan => congrArg Host.Outcome.next (fabricReply_other hok hresp hc ho horphan),
    fun s p tag o s1 o1 htag hty hok hresp hop h5 hsrc hseg hw h1 => ?_, fun s p c hty hok hresp hc h5 => ?_,
    fun s p hty hok hresp => ?_, fun s tag o hop => ⟨fun ht => ?_, fun ht => ?_⟩, fun s key c hc => ⟨fun ht => ?_, fun ht => ?_⟩,
    fun s key r hr => ⟨fun ht => ?_, fun ht => ?_⟩⟩
  · subst htag
    have step : exec (.fabricReply p) s = .next (fabricReply p s) := rfl
    rw [step, fabricReply_job hok hresp hc hop hkind hty h4 hsrc hst h5, jobReply_of_job h1 hj hword h2]
  · subst htag
    have step : exec (.copyData p) s = .next (pullData p s) := rfl
    rw [step, pullData_segment hty hok hresp hop h5 hsrc hseg hw h1]
    exact ⟨fun h => by rw [if_pos (bne_iff_ne.2 h)], fun h s2 h2 => by rw [if_neg (by simp [h]), h2]⟩
  · have step : exec (.copyDone p) s = .next (copyDone p s) := rfl
    rw [step, copyDone, arrive_ok hty hok hresp]
    simp only [hc, if_pos h5]
  · have step : exec (.copyCancel p) s = .next (copyCancel p s) := rfl
    rw [step, copyCancel, arrive_ok hty hok hresp]
  · have step : exec (.fabricOperationTimeout tag) s = .next (opTimeout tag.toNat s) := rfl
    rw [step, opTimeout]
    simp only [hop, if_neg (Nat.not_lt.2 ht)]
  · have step : exec (.fabricOperationTimeout tag) s = .next (opTimeout tag.toNat s) := rfl
    rw [step, opTimeout]
    simp only [hop, if_pos ht]
  · have step : exec (.copyTrackerTimeout key) s = .next (copyTimeout key s) := rfl
    rw [step, copyTimeout]
    simp only [hc, if_neg (Nat.not_lt.2 ht)]
    cases c.refused <;> simp
  · have step : exec (.copyTrackerTimeout key) s = .next (copyTimeout key s) := rfl
    rw [step, copyTimeout]
    simp only [hc, if_pos ht]
  · have step : exec (.replayRecordExpiry key) s = .next (recordExpiry key s) := rfl
    rw [step, recordExpiry]
    simp only [hr, if_neg (Nat.not_lt.2 ht)]
  · have step : exec (.replayRecordExpiry key) s = .next (recordExpiry key s) := rfl
    rw [step, recordExpiry]
    simp only [hr, if_pos ht]

end Sys2Proof.Replies

/-! # Ports and links -/

namespace Sys2Proof.Ports

open Sys2Proof Sys2Proof.Machine Sys2Proof.Claims Sys2Proof.Laws

/-- A training that ends, of a port that trains. -/
theorem portTrainingDone_training {s s1 : State} {p lanes peer w : Nat} {direct peerValid authOk : Bool} {l : Link}
    (hp : fget s F.FAB_PORT_STAT_STATE p = 1) (hw : w = trainedWidth lanes)
    (h1 : s1 = fset (fset s F.FAB_PORT_STAT_DIRECT (if direct then 1 else 0) p) F.FAB_PORT_STAT_PEER (if direct then peer else 0) p)
    (hl : l = { linkOf s p with lanes := lanes, frames := 0, keyed := s.now, rx := 0, rxKeyed := s.now }) :
    portTrainingDone p lanes direct peer peerValid authOk s =
      if w = 0 ∨ authOk = false ∨ (direct = true ∧ (peerValid = false ∨ myNode s = some peer ∨ peer ∈ s.smc.expelled))
      then portState (setLink s1 p l) p 5 0
      else if l.qualify then portState (setLink s1 p l) p 2 w else portService (setLink s1 p l) p w := by
  have hlink : linkOf s1 p = linkOf s p := by
    subst h1
    rw [linkOf, fset, fset, rset_fab, rset_fab, linkOf]
  rw [portTrainingDone, if_neg (by simp [hp])]
  simp only [← h1, hlink, ← hw, ← hl, decide_eq_true_eq, Bool.or_eq_true, Bool.and_eq_true, Bool.not_eq_true', beq_iff_eq,
    List.contains_iff_mem, or_assoc, show l.qualify = (linkOf s p).qualify by rw [hl]]

/-- A link that is lost: retrained, or held at the fourth loss in 60 s (R463). -/
theorem linkLoss_up {s s1 : State} {p : Nat} {recent : List Nat} (hup : portUp s p = true)
    (hr : recent = s.now :: (linkOf s p).losses.filter (fun t => s.now < t + 60000000000))
    (h1 : s1 = portState (setLink s p { linkOf s p with losses := recent.take 4 }) p 0 0) :
    linkLoss p s = if recent.length ≥ 4 then portState s1 p 5 0 else portTrain (fbump s1 F.FAB_PORT_STAT_RETRAINS p) p false := by
  rw [linkLoss, if_neg (by simp [hup])]
  simp only [← hr, ← h1]

/-- A frame that is refused counts towards the eight that lose the link. -/
theorem frameReceive_refused {s : State} {p : Nat} (hup : portUp s p = true) {crcOk authOk : Bool} (hbad : (crcOk && authOk) = false)
    {s2 : State} (h2 : s2 = setLink (if crcOk then fbump s F.FAB_PORT_STAT_AUTH_FAIL p else s) p
      { linkOf s p with replays := (linkOf s p).replays + 1 }) :
    frameReceive p crcOk authOk s = if (linkOf s p).replays + 1 ≥ 8 then linkLoss p s2 else s2 := by
  rw [frameReceive, if_neg (by simp [hup])]
  simp only [hbad, Bool.false_eq_true, if_false, ← h2]

theorem frameReceive_good {s : State} {p : Nat} (hup : portUp s p = true) :
    frameReceive p true true s = setLink s p { linkOf s p with rx := (linkOf s p).rx + 1, replays := 0 } := by
  rw [frameReceive, if_neg (by simp [hup])]
  rfl

/-- Keys change after 2^40 frames or an hour, in each direction. -/
theorem rekey_due {s : State} {p : Nat} (hup : portUp s p = true) :
    (2 ^ 40 ≤ (linkOf s p).rx ∨ (linkOf s p).rxKeyed + 3600000000000 ≤ s.now →
        rekey p true s = setLink s p { linkOf s p with rx := 0, rxKeyed := s.now })
    ∧ (2 ^ 40 ≤ (linkOf s p).frames ∨ (linkOf s p).keyed + 3600000000000 ≤ s.now →
        rekey p false s = setLink s p { linkOf s p with frames := 0, keyed := s.now }) := by
  have h0 : ¬ (!portUp s p) = true := by simp [hup]
  refine ⟨fun h => ?_, fun h => ?_⟩ <;> unfold rekey <;> simp only [if_neg h0, Bool.false_eq_true, if_true, if_false]
  · refine if_pos ?_
    simpa using h
  · refine if_pos ?_
    simpa using h

/-- A path notice adds its route to those that are cut. -/
theorem pathNotice_cut (p n : Nat) (s : State) : p * 4096 + n ∈ (pathNotice p n s).fab.cut
    ∧ (∀ x, x ≠ p * 4096 + n → (x ∈ (pathNotice p n s).fab.cut ↔ x ∈ s.fab.cut))
    ∧ { pathNotice p n s with fab := { (pathNotice p n s).fab with cut := s.fab.cut } } = s := by
  unfold pathNotice
  by_cases h : p * 4096 + n ∈ s.fab.cut
  · rw [if_pos (List.contains_iff_mem.2 h)]
    exact ⟨h, fun x _ => Iff.rfl, rfl⟩
  · rw [if_neg (mt List.contains_iff_mem.1 h)]
    exact ⟨List.mem_cons_self .., fun x hx => by simp [hx], rfl⟩

/-- Sending takes no time. -/
theorem sendPkt_now (s : State) (q : Nat) (p : Pkt) : (sendPkt s q p).2.now = s.now := by
  unfold sendPkt
  split
  · rfl
  · split
    · rfl
    · split <;> rfl

/-- An operation that is due goes out again, with REPLAY set (R465). -/
theorem endToEndReplay_due {s s1 : State} {tag q port : Nat} {o : FabOp} (hop : tfind s.fab.ops tag = some o) (hdue : replayDue s o = true)
    (h4 : o.pkt.ty ≠ 4)
    (hq : q = if o.kind = 0 ∨ o.kind = 2 then domQueue s o.dom (match jobOf s o.job with | some j => j.be | none => true) else 15)
    (hsend : sendPkt s q (fenceFlag s { o.pkt with flags := o.pkt.flags ||| 4 }) = (port, s1)) :
    endToEndReplay tag s = { s1 with fab := { s1.fab with ops := tins s1.fab.ops tag { o with sent := s.now, port := port } } } := by
  have hty : (fenceFlag s { o.pkt with flags := o.pkt.flags ||| 4 }).ty ≠ 4 := by
    unfold fenceFlag
    split <;> exact h4
  unfold endToEndReplay
  rw [hop]
  simp -zeta only [hdue, Bool.not_true, Bool.false_eq_true, if_false]
  extract_lets q' src p' put
  have hq' : q' = q := by
    rw [hq]
    simp only [q', Bool.or_eq_true, decide_eq_true_eq] <;> rfl
  have hs' : sendPkt s q' p' = (port, s1) := by
    rw [hq']
    exact hsend
  have hnow : s1.now = s.now := by rw [← sendPkt_now s q p', ← hq', hs']
  rw [if_neg (show ¬ p'.ty = 4 from hty), hs', ← hnow]

/-- Settles O18, one event of a port after the other. -/
theorem portsAndLinks : Obligations.PortsAndLinks := by
  refine ⟨fun s p lanes direct peer peerValid authOk w s1 l hp hw h1 hl => ?_, fun s p hp hsp pass => ?_, fun s p recent s1 hup hr h1 => ?_,
    fun s p l hup hl => ?_, fun s p n k hk => ⟨⟨_, rfl, ?_⟩, ?_⟩, fun s tag o q port s1 hop hdue h4 hq hsend => ?_, fun s tag o hop hdue => ?_,
    fun s v s1 ha h1 => ⟨fun h8 h9 => ?_, fun h8 h9 => ?_⟩⟩
  · have step : exec (.portTrainingDone p lanes direct peer peerValid authOk) s =
        .next (portTrainingDone p.toNat lanes.toNat direct peer.toNat peerValid authOk s) := rfl
    rw [step, portTrainingDone_training hp hw h1 hl]
    refine ⟨fun hbad => by rw [if_pos hbad], fun hw0 hauth hpeer => ?_⟩
    rw [if_neg]
    rintro (h | h | ⟨hd, h⟩)
    · exact hw0 h
    · rw [hauth] at h; cases h
    · obtain ⟨h1, h2, h3⟩ := hpeer hd
      rcases h with h | h | h
      · rw [h1] at h; cases h
      · exact h2 h
      · exact h3 h
  · have step : exec (.qualificationComplete p pass) s = .next (qualificationComplete p.toNat pass.toNat s) := rfl
    rw [step, qualificationComplete, if_neg (by simp [hp, hsp])]
  · have step : exec (.linkLoss p) s = .next (linkLoss p.toNat s) := rfl
    rw [step, linkLoss_up hup hr h1]
    exact ⟨fun h => by rw [if_pos h], fun h => by rw [if_neg (by omega)]⟩
  · subst hl
    have step : ∀ c a, exec (.frameReceive p c a) s = .next (frameReceive p.toNat c a s) := fun _ _ => rfl
    refine ⟨by rw [step, frameReceive_good hup], fun h => ?_, fun h => ?_, fun h => ?_, fun h => ?_, fun h => ?_⟩
    · rw [step, frameReceive_refused hup rfl rfl, if_neg (by omega)]
      rfl
    · rw [step, frameReceive_refused hup rfl rfl, if_neg (by omega)]
      rfl
    · rw [step, frameReceive_refused hup rfl rfl, if_pos (by omega)]
      rfl
    · exact congrArg Host.Outcome.next ((rekey_due hup).1 h)
    · exact congrArg Host.Outcome.next ((rekey_due hup).2 h)
  · subst hk
    exact pathNotice_cut p.toNat n.toNat s
  · subst hk
    rfl
  · exact congrArg Host.Outcome.next (endToEndReplay_due hop hdue h4 hq hsend)
  · have step : exec (.endToEndReplay tag) s = .next (endToEndReplay tag.toNat s) := rfl
    rw [step, endToEndReplay, hop]
    simp [hdue]
  · have step : exec (.portRetry v) s = .next (hostReg s .FAB_PORT_CMD (.reg .FAB_PORT_CMD 0 v) (portCmd v)) := rfl
    rw [step, hostReg_awake ha, portCmd, h8, h9, ← h1]
    rfl
  · have step : exec (.portHold v) s = .next (hostReg s .FAB_PORT_CMD (.reg .FAB_PORT_CMD 0 v) (portCmd v)) := rfl
    rw [step, hostReg_awake ha, portCmd, h8, h9, ← h1]
    rfl

end Sys2Proof.Ports

/-! # Windows, slices and maps -/

namespace Sys2Proof.Windows

open Sys2Proof Sys2Proof.Machine Sys2Proof.Claims Sys2Proof.Laws Sys2Proof.Words Sys2Proof.Registers Sys2Proof.Replies

/-- A plain register write changes registers only. -/
theorem regWritePlain_rest {s s1 : State} {r : Reg} {b : Nat} {v : W32} (h : s1 = regWritePlain s r b v) :
    s1.fab = s.fab ∧ s1.smc = s.smc ∧ s1.exec = s.exec ∧ s1.now = s.now ∧ { s1 with regs := s.regs } = s := by
  have e := regWritePlain_regs s r b v
  rw [← h] at e
  have hfab := congrArg State.fab e
  have hsmc := congrArg State.smc e
  have hexec := congrArg State.exec e
  have hnow := congrArg State.now e
  exact ⟨hfab, hsmc, hexec, hnow, e⟩

section Commands
variable {s s1 : State} {v : W32} (h1 : s1 = regWritePlain s .FAB_WIN_CMD 0 v)
include h1

/-- The registers of the window command that a write of the command leaves. -/
theorem windowCmd_regs : fget s1 F.FAB_WIN_STAT_BUSY = fget s F.FAB_WIN_STAT_BUSY
    ∧ rpair s1 .FAB_WIN_DESC_LO .FAB_WIN_DESC_HI = rpair s .FAB_WIN_DESC_LO .FAB_WIN_DESC_HI := by
  have other : ∀ r, r ≠ .FAB_WIN_CMD → r ≠ .SMC_LIFECYCLE → rget s1 r 0 = rget s r 0 := fun r hr hl => by
    rw [h1, rget_regWritePlain_other s v (.inl hr) hl]
  refine ⟨?_, ?_⟩
  · unfold fget
    rw [other F.FAB_WIN_STAT_BUSY.reg (by decide) (by decide)]
  · rw [rpair, other _ (by decide) (by decide), other _ (by decide) (by decide), rpair]

/-- A window command that is begun waits for its completion, with `BUSY` set. -/
theorem windowBegin_idle (hb : fget s F.FAB_WIN_STAT_BUSY = 0) (op : Nat) : ∃ go windows, windowBegin op s1 =
      { fset s1 F.FAB_WIN_STAT_BUSY 1 with fab := { s.fab with
        winCmd := some { op := op, arg := fget s1 F.FAB_WIN_CMD_WINDOW
                         args := [fget s1 F.FAB_WIN_CMD_DOMAIN, rpair s .FAB_WIN_DESC_LO .FAB_WIN_DESC_HI, go] }
        windows := windows } }
    ∧ (op = 1 → go = 0 ∧ windows = s.fab.windows) := by
  obtain ⟨hbusy, hdesc⟩ := windowCmd_regs h1
  obtain ⟨hfab, -⟩ := regWritePlain_rest h1
  have hset : (fset s1 F.FAB_WIN_STAT_BUSY 1).fab = s.fab := by rw [fset, rset_fab, hfab]
  rw [windowBegin, if_neg (by rw [hbusy, hb]; decide)]
  simp only [hset, hdesc]
  exact ⟨_, _, rfl, fun h => by subst h; exact ⟨rfl, rfl⟩⟩

end Commands

/-- A write of a window operation to an idle command register begins the operation. -/
theorem windowWrite_begins {s s1 : State} {v : W32} {op : Nat} (ha : Awake s) (hv : (v.extractLsb' 12 4).toNat = op) (hop : op ≠ 0)
    (h1 : s1 = regWritePlain s .FAB_WIN_CMD 0 v) : windowWrite op v s = windowBegin op s1 := by
  have hbits : bitsOf v.toNat 12 4 = op := by rw [bitsOf_toNat, hv]
  rw [windowWrite, hostReg_awake ha]
  simp only [hbits, ← h1]
  exact if_pos (by simp [hop])

/-- What `FAB_WIN_STAT` shows when a window command ends. -/
def windowEnds (s : State) (st rs : Nat) : State :=
  fset (fset (fset { s with fab := { s.fab with winCmd := none } } F.FAB_WIN_STAT_STATUS st) F.FAB_WIN_STAT_REASON rs) F.FAB_WIN_STAT_BUSY 0

/-- A create command completes with what its descriptor gives. -/
theorem windowComplete_create {s : State} {a dom win : Nat} {b : List Byte} {w : Window}
    (hc : s.fab.winCmd = some { op := 1, arg := win, args := [dom, a, 0] }) (hd : (tget {} s.smc.doms dom).state = 1)
    (hb : readDesc s dom a 64 false false = some b) (hw : parseWindow dom win b = some w) :
    ((tfind s.fab.windows win).isSome = true → windowComplete s = windowEnds s stBAD_OPERATOR 0xB1)
    ∧ (tfind s.fab.windows win = none → (∀ x ∈ s.fab.windows, crosses x.2.foff x.2.len w.foff w.len = false) →
        pagesIn s dom w.base w.len = true →
        windowComplete s = windowEnds { s with fab := { s.fab with windows := tins s.fab.windows win w } } stOK 0) := by
  have heff : windowEffect { op := 1, arg := win, args := [dom, a, 0] } s =
      if (tfind s.fab.windows win).isSome || s.fab.windows.any fun p => crosses p.2.foff p.2.len w.foff w.len then (stBAD_OPERATOR, 0xB1, s)
      else if !pagesIn s dom w.base w.len then (stBAD_OPERATOR, 0xB2, s)
      else (stOK, 0, { s with fab := { s.fab with windows := tins s.fab.windows win w } }) := by
    unfold windowEffect
    simp [domActive, hd, hb, hw]
  have hop : windowComplete s = (fun r : Nat × Nat × State => windowEnds r.2.2 r.1 r.2.1)
      (windowEffect { op := 1, arg := win, args := [dom, a, 0] } s) := by
    rw [windowComplete, hc]
    rfl
  refine ⟨fun h => ?_, fun h hx hp => ?_⟩ <;> rw [hop, heff]
  · rw [if_pos (by rw [h]; rfl)]
  · rw [if_neg, if_neg (by simp [hp])]
    simpa [h] using hx

/-- A remove command waits until no operation crosses the window, and then the window is gone. -/
theorem windowComplete_remove {s : State} {a dom win : Nat} {w : Window}
    (hc : s.fab.winCmd = some { op := 2, arg := win, args := [dom, a, 1] }) (hd : (tget {} s.smc.doms dom).state = 1)
    (hw : tfind s.fab.windows win = some w) (hr : w.removing = true) :
    windowComplete s = if windowBusy s w then s
      else windowEnds { s with fab := { s.fab with windows := tdel s.fab.windows win } } stOK 0 := by
  have heff : windowEffect { op := 2, arg := win, args := [dom, a, 1] } s =
      (stOK, 0, { s with fab := { s.fab with windows := tdel s.fab.windows win } }) := by
    unfold windowEffect
    simp [domActive, hd]
  rw [windowComplete, hc]
  simp only [hw, hr, heff, beq_self_eq_true, Bool.true_and]
  rfl

/-! ### Slices and maps -/

section Maps
variable {s s1 : State} {v : W32} (ha : Awake s) (h1 : s1 = regWritePlain s .FAB_MAP_CMD 0 v)

/-- The map operation that a write of `MAP_CMD` asks for. -/
theorem mapCmd_op (ha : Awake s) (h1 : s1 = regWritePlain s .FAB_MAP_CMD 0 v) {n : BitVec 4} (hv : v.extractLsb' 8 4 = n) (a : HostAcc) :
    hostReg s .FAB_MAP_CMD a (mapCmd v) = match n.toNat with
      | 0 => s1
      | 1 => sliceDefine s1
      | 2 => mapStage s1
      | 3 => mapCancel s1
      | _ => mapDone s1 stBAD_OPERATOR 0 := by
  rw [hostReg_awake ha, mapCmd, bitsOf_toNat, hv, ← h1] <;> rfl

/-- A slice is defined where no loaded plan names it and it shares no unit. -/
theorem sliceDefine_parsed {b : List Byte} {k : Nat} {l : Slice} (hb : mapDesc s 32 = some b) (hl : parseSlice b = some (k, l)) :
    ((∃ p ∈ s.exec.plans, p.2.slice = k) → sliceDefine s = mapEnds s 0x0B 0xB5)
    ∧ ((∀ p ∈ s.exec.plans, p.2.slice ≠ k) → (∀ p ∈ s.fab.slices, p.1 = k ∨ slicesMeet p.2 l = false) →
        sliceDefine s = mapEnds { s with fab := { s.fab with slices := tins s.fab.slices k l } } 0x00 0) := by
  have hparse : (mapDesc s 32).bind parseSlice = some (k, l) := by rw [hb]; exact hl
  refine ⟨fun ⟨p, hp, hk⟩ => ?_, fun hp hx => ?_⟩ <;> rw [sliceDefine, hparse] <;> simp only
  · rw [if_pos]
    · rfl
    · rw [Bool.or_eq_true]
      exact .inl (List.any_eq_true.2 ⟨p, hp, by simp [hk]⟩)
  · rw [if_neg]
    · rfl
    · simp only [Bool.or_eq_true, List.any_eq_true, beq_iff_eq, Bool.and_eq_true, bne_iff_ne]
      rintro (⟨p, h, hk⟩ | ⟨p, h, hk, hm⟩)
      · exact hp p h hk
      · rcases hx p h with h | h
        · exact hk h
        · rw [h] at hm; cases hm

/-- A map of the next epoch is staged while none is staged or draining. -/
theorem mapStage_read {k : Nat} {c : Comp} {m : RMap} (hk : k = fget s F.FAB_MAP_CMD_COMP) (hc : c = tget {} s.fab.comps k)
    (hm : readMap s k = some m) (h255 : k ≠ 255) :
    mapStage s = if m.epoch ≠ nextEpoch ((mapEpoch c.current).getD 0) then mapEnds s 0x0B 0xB4
      else if c.draining ≠ none ∨ c.staged ≠ none then mapEnds s 0x0B 0xB3 else mapEnds (setComp s k { c with staged := some m }) 0x00 0 := by
  have hcomp : compOf s k = c := hc.symm
  rw [mapStage]
  simp only [← hk, hm, hcomp, h255, decide_false, Bool.or_false, bne_iff_ne, Bool.or_eq_true, Option.isSome_iff_ne_none]
  rfl

/-- No operation waits for the map of a composition: nothing is released. -/
theorem releaseComp_none {k : Nat} (h : ∀ d ∈ s.fab.hold, d.bank ≠ 2 ^ 70 + k) : releaseComp s k = s := by
  have mine : s.fab.hold.filter (fun d => d.bank == holdComp k) = [] := List.filter_eq_nil_iff.2 fun d hd => by
    have := h d hd
    simpa [holdComp] using this
  have others : s.fab.hold.filter (fun d => d.bank != holdComp k) = s.fab.hold := List.filter_eq_self.2 fun d hd => by
    have := h d hd
    simpa [holdComp] using this
  rw [releaseComp, mine, others]
  rfl

/-- At its horizon a staged map becomes current, and the old one drains. -/
theorem mapHorizon_staged {k : Nat} {c : Comp} {m : RMap} (hc : c = tget {} s.fab.comps k) (hm : c.staged = some m) :
    (s.now < m.horizon → mapHorizon k s = s)
    ∧ (m.horizon ≤ s.now → s.tir.pages = [] → mapHorizon k s = pumpDrain (releaseComp
        (setComp s k { c with current := some m, draining := c.current, staged := none, sentDone := false }) k) k) := by
  have hcomp : compOf s k = c := hc.symm
  refine ⟨fun h => ?_, fun h hp => ?_⟩ <;> rw [mapHorizon, hcomp, hm] <;> simp only
  · rw [if_pos h]
  · rw [if_neg (Nat.not_lt.2 h)]
    simp only [setComp, hp, List.map_nil, List.filter_nil, List.foldl_nil]

/-- The drain ends once every member has sent `DRAIN_DONE`. -/
theorem pumpDrain_all {k : Nat} {c : Comp} {m : RMap} (hc : c = tget {} s.fab.comps k) (hd : c.draining = some m)
    (h0 : drainCount s m = 0) (hsent : c.sentDone = true)
    (hall : ∀ n ∈ drainMembers c, some n = myNode s ∨ n ∈ s.smc.expelled ∨ m.epoch * 4096 + n ∈ c.done) :
    pumpDrain s k = setComp s k { c with draining := none, sentDone := false, done := [] } := by
  have hcomp : compOf s k = c := hc.symm
  have h : ((drainMembers c).all fun n => some n == myNode s || s.smc.expelled.contains n || c.done.contains (m.epoch * 4096 + n)) = true := by
    simpa [List.all_eq_true, or_assoc] using hall
  rw [pumpDrain, hcomp, hd]
  simp only [h0, bne_self_eq_false, Bool.false_eq_true, if_false, hsent, if_true, h]

end Maps

/-- Settles O19, from what each command and each horizon does. -/
theorem windowsSlicesAndMaps : Obligations.WindowsSlicesAndMaps := by
  refine ⟨fun row hrow s v s1 ha hb hop h1 => ?_, fun s a dom win b w s1 hc hd hb hw h1 => ⟨fun h0 hx hp => ?_, fun h0 => ?_⟩,
    fun s a dom win w s1 hc hd hw hr h1 => ⟨fun h => ?_, fun h => ?_⟩, fun s v s1 b k l ha hv h1 hb hl => ?_,
    fun s v s1 k c m ha hv h1 hk hc hm h255 => ?_, fun s v s1 k ha hv h1 hk hh => ?_, fun s k c m hc hm => ⟨fun h hp => ?_, fun h => ?_⟩,
    fun s p k c d hp hk hc hne hd hnew => ?_, fun s k c m hs hc hd h0 hsent hall => ?_⟩
  · have step : exec (row.1 v) s = .next (windowWrite row.2 v s) ∧ row.2 ≠ 0 := by
      simp only [List.mem_cons, List.not_mem_nil, or_false] at hrow
      rcases hrow with rfl | rfl <;> exact ⟨rfl, by decide⟩
    obtain ⟨go, windows, hbegin, hone⟩ := windowBegin_idle h1 hb row.2
    rw [step.1, windowWrite_begins ha hop step.2 h1, hbegin]
    refine ⟨_, go, rfl, fun l hl => by rw [hl], rfl, hone, ?_⟩
    obtain ⟨-, -, -, -, e⟩ := regWritePlain_rest h1
    rw [← e]
    rfl
  · have step : exec .windowCommandComplete s = .next (windowComplete s) := rfl
    rw [step, (windowComplete_create hc hd hb hw).2 h0 hx hp, h1]
    rfl
  · have step : exec .windowCommandComplete s = .next (windowComplete s) := rfl
    rw [step, (windowComplete_create hc hd hb hw).1 h0, h1]
    rfl
  · have step : exec .windowCommandComplete s = .next (windowComplete s) := rfl
    rw [step, windowComplete_remove hc hd hw hr, if_pos h]
  · have step : exec .windowCommandComplete s = .next (windowComplete s) := rfl
    rw [step, windowComplete_remove hc hd hw hr, if_neg (by simp [h]), h1]
    rfl
  · have step : exec (.sliceDefine v) s = .next (sliceDefine s1) := congrArg Host.Outcome.next (mapCmd_op ha h1 hv _)
    obtain ⟨hfab, -, hexec, -⟩ := regWritePlain_rest h1
    obtain ⟨hin, hok⟩ := sliceDefine_parsed hb hl
    rw [show s1.exec.plans = s.exec.plans by rw [hexec]] at hin hok
    rw [show s1.fab.slices = s.fab.slices by rw [hfab]] at hok
    refine ⟨fun hp hx => ?_, fun h => step.trans (congrArg _ (hin h))⟩
    rw [step, hok hp hx, hfab]
  · have step : exec (.mapStage v) s = .next (mapStage s1) := congrArg Host.Outcome.next (mapCmd_op ha h1 hv _)
    obtain ⟨hfab, -⟩ := regWritePlain_rest h1
    rw [step, mapStage_read (c := c) hk (by rw [hfab, hc]) hm h255]
    refine ⟨fun he hdr hst => ?_, fun he => ?_, fun he h => ?_⟩
    · rw [if_neg (not_not.2 he), if_neg (by simp [hdr, hst])]
    · rw [if_pos he]
    · rw [if_neg (not_not.2 he), if_pos h]
  · have step : exec (.mapCancel v) s = .next (mapCancel s1) := congrArg Host.Outcome.next (mapCmd_op ha h1 hv _)
    obtain ⟨hfab, -⟩ := regWritePlain_rest h1
    rw [step, mapCancel]
    simp only [← hk]
    rw [releaseComp_none (s := setComp s1 k _) (by rw [← hfab] at hh; exact hh), compOf, hfab]
    rfl
  · exact congrArg Host.Outcome.next ((mapHorizon_staged hc hm).2 h hp)
  · exact congrArg Host.Outcome.next ((mapHorizon_staged hc hm).1 h)
  · obtain ⟨hty, hok, hresp⟩ := hp
    have step : exec (.drainDone p) s = .next (drainDone p s) := rfl
    have hcomp : compOf s k = c := hc.symm
    rw [step, drainDone, arrive_ok hty hok hresp]
    simp only [bitsOf_toNat, ← hk, hcomp, ← hd]
    rw [if_neg (by simp [hne, hnew])]
  · rw [pumpDrain_all hc hd h0 hsent hall, setComp]
    simp only [tget_tput_same hs]
    exact ⟨trivial, trivial⟩

end Sys2Proof.Windows

/-! # The ledger and the handoff of windows -/

namespace Sys2Proof.Ledger

open Sys2Proof Sys2Proof.Machine Sys2Proof.Claims Sys2Proof.Laws Sys2Proof.Words Sys2Proof.Registers Sys2Proof.Replies Sys2Proof.Windows

/-- The halves of a ledger word. -/
theorem ledOwner_eq (x : W64) : ledOwner x = (x.extractLsb' 0 12).toNat := bitsOf_toNat x 0 12

theorem ledGen_eq (x : W64) : ledGen x = (x.extractLsb' 32 32).toNat := bitsOf_toNat x 32 32

/-- The home answers a `LEDGER_READ` (R455). -/
theorem ledgerRead_arrives {s : State} {p : Pkt} (ha : Arrives s p 0x10) (h0 : fget s F.PRB_PWR_STAT_STATE = 0) :
    ledgerRead p s = if p.src.toNat ∈ s.smc.expelled then sendSys s (replyPkt s p stFENCED)
      else match ledWin s p with
        | none => sendSys s (replyPkt s p stNOT_OWNER)
        | some (_, w) => sendSys s (replyPkt s p stOK 0 (ledWord w.owner w.gen)) := by
  obtain ⟨hty, hok, hresp⟩ := ha
  rw [ledgerRead, arrive_ok hty hok hresp]
  simp only [HostSide.wakeNode_awake h0, List.contains_iff_mem] <;> rfl

/-- A `LEDGER_CAS` that is new, from a node of the composition, of a window that the home leads. -/
theorem ledgerCas_arrives {s : State} {p : Pkt} {k : Nat} {w : Window} (ha : Arrives s p 0x11) (h0 : fget s F.PRB_PWR_STAT_STATE = 0)
    (hnew : p.flags.getLsbD 2 = false) (hsrc : p.src.toNat ∉ s.smc.expelled) (hw : ledWin s p = some (k, w)) :
    ledgerCas p s = if windowBusy s w || s.fab.records.length ≥ maxRecords then s
      else
        let hit := w.owner == ledOwner p.compare && w.gen == ledGen p.compare
        let s1 : State := if hit then { s with fab := { s.fab with
          windows := tins s.fab.windows k { w with owner := ledOwner p.operand, gen := ledGen p.operand } } } else s
        let r := if hit then replyPkt s1 p stOK 0 p.operand else replyPkt s1 p stNOT_OWNER 0 (ledWord w.owner w.gen)
        sendSys (keepRecord s1 p (some r)) r := by
  obtain ⟨hty, hok, hresp⟩ := ha
  rw [ledgerCas, arrive_ok hty hok hresp]
  simp only [HostSide.wakeNode_awake h0]
  rw [if_neg (by simp only [applied, hnew]; simp), if_neg (by simpa using hsrc), hw]

/-- An offer leaves once this node's writes to the home are acknowledged (R457). -/
theorem pumpOffer_offer {s : State} {h : Handoff} (hh : s.fab.handoff = some h) (hr : h.role = 0) (hs : h.sent = false) (hn : myNode s ≠ none) :
    ((∃ p ∈ s.fab.ops, writesAt p.2.pkt = true ∧ p.2.pkt.dst.toNat = h.home) → pumpOffer s = s)
    ∧ ((∀ p ∈ s.fab.ops, writesAt p.2.pkt = true → p.2.pkt.dst.toNat ≠ h.home) →
        (pumpOffer s).fab.handoff = some { h with sent := true, start := s.now }) := by
  refine ⟨fun ⟨p, hp, hw, hd⟩ => ?_, fun hp => ?_⟩ <;> rw [pumpOffer, hh] <;> simp only
  · rw [if_pos]
    rw [Bool.or_eq_true]
    exact .inr (List.any_eq_true.2 ⟨p, hp, by simp [hw, hd]⟩)
  · rw [if_neg]
    have : (s.fab.ops.any fun p => writesAt p.2.pkt && p.2.pkt.dst.toNat == h.home) = false := by
      simpa using hp
    simp [hr, hs, hn, this]

/-- A write of `HO_CMD` with no command at work. -/
theorem hoCmd_idle {s s1 s2 : State} {v : W32} {dom a : Nat} {b : List Byte} {h : Handoff} (ha : Awake s)
    (h1 : s1 = regWritePlain s .FAB_HO_CMD 0 v) (hb : fget s1 F.FAB_HO_CMD_BUSY = 0) (hdom : dom = fget s1 F.FAB_HO_CMD_DOMAIN)
    (haddr : a = rpair s .FAB_HO_DESC_LO .FAB_HO_DESC_HI) (hbytes : uBytes s1 dom a 32 = some b)
    (hh : h = { home := bitsOf (fieldOf b 0 8) 48 12, foff := bitsOf (fieldOf b 0 8) 0 48, peer := fieldOf b 8 2 % 4096
                gen := fieldOf b 0xC 4, dom := dom, desc := a, start := s.now }) (h2 : s2 = fset s1 F.FAB_HO_CMD_BUSY 1) (acc : HostAcc) :
    (v.extractLsb' 12 4 = 1#4 → hostReg s .FAB_HO_CMD acc (hoCmd v) =
      pumpOffer { s2 with fab := { s2.fab with handoff := some { h with role := 0 } } })
    ∧ (∀ tag s3, v.extractLsb' 12 4 = 2#4 → launchLed s2 { h with role := 2 } 0x10 3 0 0 = (tag, s3) →
      hostReg s .FAB_HO_CMD acc (hoCmd v) = { s3 with fab := { s3.fab with handoff := some { h with role := 2, tag := tag } } }) := by
  have other : ∀ r, r ≠ .FAB_HO_CMD → r ≠ .SMC_LIFECYCLE → rget s1 r 0 = rget s r 0 := fun r hr hl => by
    rw [h1, rget_regWritePlain_other s v (.inl hr) hl]
  have hpair : rpair s1 .FAB_HO_DESC_LO .FAB_HO_DESC_HI = a := by
    rw [rpair, other _ (by decide) (by decide), other _ (by decide) (by decide), haddr, rpair]
  obtain ⟨-, -, -, hnow, -⟩ := regWritePlain_rest h1
  have hop : ∀ n : BitVec 4, v.extractLsb' 12 4 = n → n.toNat = 1 ∨ n.toNat = 2 →
      hostReg s .FAB_HO_CMD acc (hoCmd v) = hoBegin n.toNat s1 := fun n hv hn => by
    rw [hostReg_awake ha, hoCmd, bitsOf_toNat, hv, ← h1]
    rcases hn with hn | hn <;> simp only [hn]
  subst hh
  refine ⟨fun hv => ?_, fun tag s3 hv hl => ?_⟩
  · rw [hop _ hv (.inl rfl)]
    simp only [BitVec.toNat_ofNat, Nat.reducePow, Nat.reduceMod, hoBegin, hb, ← hdom, hpair, hbytes, hnow, ← h2, Nat.reduceEqDiff,
      reduceIte]
  · simp only at hl
    rw [hop _ hv (.inr rfl)]
    simp only [BitVec.toNat_ofNat, Nat.reducePow, Nat.reduceMod, hoBegin, hb, ← hdom, hpair, hbytes, hnow, ← h2, Nat.reduceEqDiff,
      reduceIte, hl]

/-- A party of a handoff that has waited longer than `TMO` (R458). -/
def late (s : State) (h : Handoff) : Bool := h.sent && !h.resolving && decide (h.start + hoTmo s < s.now)

theorem late_false {s : State} {h : Handoff} (hle : s.now ≤ h.start + hoTmo s) : late s h = false := by
  simp [late, Nat.not_lt.2 hle]

/-- Receives that are not late are left as they are. -/
theorem foldl_not_late {s : State} {f : State → Handoff → State} : ∀ {l : List Handoff},
    (∀ h ∈ l, s.now ≤ h.start + hoTmo s) → ∀ t, l.foldl (fun t h => if !late s h || (myNode t).isNone then t else f t h) t = t
  | [], _, _ => rfl
  | h :: l, hl, t => by
    rw [List.foldl_cons, late_false (hl h (List.mem_cons_self ..)), if_pos (by simp)]
    exact foldl_not_late (fun x hx => hl x (List.mem_cons_of_mem _ hx)) t

/-- While no party is late nothing happens. -/
theorem handoffTimeout_early {s : State} (hh : ∀ h, s.fab.handoff = some h → s.now ≤ h.start + hoTmo s)
    (hr : ∀ h ∈ s.fab.receives, s.now ≤ h.start + hoTmo s) : handoffTimeout s = s := by
  unfold handoffTimeout
  extract_lets late' s1
  have e1 : s1 = s := by
    simp only [s1]
    cases hho : s.fab.handoff with
    | none => rfl
    | some h =>
      have : late' h = false := late_false (hh h hho)
      simp [this]
  rw [e1]
  exact foldl_not_late hr s

/-- An offer that is late asks the ledger (R458). -/
theorem handoffTimeout_late {s s1 : State} {h : Handoff} {tag : Nat} (hh : s.fab.handoff = some h) (hr : h.role = 0) (hs : h.sent = true)
    (hres : h.resolving = false) (hlate : h.start + hoTmo s < s.now) (hn : myNode s ≠ none)
    (hl : launchLed s h 0x11 0 (ledWord (meNode s) (h.gen + 1)) (ledWord (meNode s) h.gen) = (tag, s1)) (hrec : s1.fab.receives = []) :
    handoffTimeout s = { s1 with fab := { s1.fab with handoff := some { h with resolving := true, tag := tag } } } := by
  have hnode : (myNode s).isSome = true := Option.isSome_iff_ne_none.2 hn
  rw [handoffTimeout, hh]
  simp only [hr, hs, hres, hlate, hnode, hl, hrec, decide_true, Bool.not_false, Bool.and_self, if_true, List.foldl_nil]

/-- An offer is answered at once while this node is self-fenced, overcast, or accepts none (R457). -/
theorem offer_arrives {s : State} {p : Pkt} {h : Handoff} (ha : Arrives s p 0x12) (h0 : fget s F.PRB_PWR_STAT_STATE = 0)
    (hh : h = { role := 1, home := p.newNode.toNat, foff := p.off.toNat, peer := p.src.toNat, gen := (p.operand.extractLsb' 32 32).toNat
                dom := p.sdom.toNat, start := s.now, sent := true }) :
    offer p s = if fenced s then sendAccept s h stFENCED p.operand
      else if overcast s then sendAccept s h stOVERCAST p.operand
      else if fget s F.FAB_HO_CMD_ACCEPT = 0 then sendAccept s h stABORTED p.operand
      else
        let (tag, s1) := launchLed s h 0x11 1 (ledWord (meNode s) (h.gen + 1)) (ledWord h.peer h.gen)
        { s1 with fab := { s1.fab with receives := s1.fab.receives ++ [{ h with tag := tag }] } } := by
  obtain ⟨hty, hok, hresp⟩ := ha
  subst hh
  rw [offer, arrive_ok hty hok hresp]
  simp only [HostSide.wakeNode_awake h0, ledGen_eq]

/-- The answer to the offer that is out ends the command. -/
theorem acceptPkt_arrives {s : State} {p : Pkt} {h : Handoff} (ha : Arrives s p 0x13) (hho : s.fab.handoff = some h) (hr : h.role = 0)
    (hs : h.sent = true) (hres : h.resolving = false) (hpeer : h.peer = p.src.toNat) (hoff : h.foff = p.off.toNat) :
    acceptPkt p s = hoDone s h p.status.toNat (if p.status.toNat = stABORTED then 0xB8 else 0) p.operand := by
  obtain ⟨hty, hok, hresp⟩ := ha
  rw [acceptPkt, arrive_ok hty hok hresp]
  simp only [hho]
  exact if_pos (by simp [hr, hs, hres, hpeer, hoff])

/-- Settles O20, one message or timer after the other. -/
theorem ledgerAndHandoff : Obligations.LedgerAndHandoff := by
  refine ⟨fun s p ha h0 => ?_, fun s p k w hit s1 r ha h0 hnew hsrc hw hbusy hrec hhit => ?_, fun s p k w ha h0 hnew hsrc hw hbusy => ?_,
    fun s p h ha h0 hh => ?_, fun s p h ha hho hr hs hres hpeer hoff => ?_, fun s v s1 dom a b h ha h1 hb hdom haddr hbytes hh s2 h2 => ?_,
    fun s h hh hr hs hn => pumpOffer_offer hh hr hs hn, fun s h tag s1 hh hr hs hres hlate hn hl hrec => ?_,
    fun s hh hr => congrArg Host.Outcome.next (handoffTimeout_early hh hr)⟩
  · have step : exec (.ledgerRead p) s = .next (ledgerRead p s) := rfl
    rw [step, ledgerRead_arrives ha h0]
    refine ⟨fun h => by rw [if_pos h], fun h hw => by rw [if_neg h, hw], fun k w h hw => by rw [if_neg h, hw]; rfl⟩
  · have step : exec (.ledgerCas p) s = .next (ledgerCas p s) := rfl
    rw [step, ledgerCas_arrives ha h0 hnew hsrc hw, if_neg (by simp [hbusy, maxRecords, hrec])]
    simp only [ledOwner_eq, ledGen_eq]
    refine ⟨fun h h1 hr => ?_, fun h hr => ?_⟩
    · have hc := hhit.1 h
      simp only [hc.1, hc.2, beq_self_eq_true, Bool.and_self, if_true, ← h1]
      rw [hr]
      rfl
    · have hc : (w.owner == (p.compare.extractLsb' 0 12).toNat && w.gen == (p.compare.extractLsb' 32 32).toNat) = false := by
        rw [← Bool.not_eq_true, Bool.and_eq_true, beq_iff_eq, beq_iff_eq, ← hhit]
        exact h
      simp only [hc, Bool.false_eq_true, if_false]
      rw [hr]
      rfl
  · have step : exec (.ledgerCas p) s = .next (ledgerCas p s) := rfl
    rw [step, ledgerCas_arrives ha h0 hnew hsrc hw, if_pos (by simp [hbusy])]
  · have step : exec (.offer p) s = .next (offer p s) := rfl
    rw [step, offer_arrives ha h0 hh]
    refine ⟨fun hf => by rw [if_pos hf], fun hf ho => by rw [if_neg (by simp [hf]), if_pos ho],
      fun hf ho hacc => by rw [if_neg (by simp [hf]), if_neg (by simp [ho]), if_pos hacc], fun tag s1 hf ho hacc hl => ?_⟩
    rw [if_neg (by simp [hf]), if_neg (by simp [ho]), if_neg hacc, hl]
  · exact congrArg Host.Outcome.next (acceptPkt_arrives ha hho hr hs hres hpeer hoff)
  · obtain ⟨h1', h2'⟩ := hoCmd_idle ha h1 hb hdom haddr hbytes hh h2 (.reg .FAB_HO_CMD 0 v)
    exact ⟨fun hv => congrArg Host.Outcome.next (h1' hv), fun tag s3 hv hl => congrArg Host.Outcome.next (h2' tag s3 hv hl)⟩
  · exact congrArg Host.Outcome.next (handoffTimeout_late hh hr hs hres hlate hn hl hrec)

end Sys2Proof.Ledger

/-! # Units out of service -/

namespace Sys2Proof.Units

open Sys2Proof Sys2Proof.Machine Sys2Proof.Claims Sys2Proof.Laws

theorem fbump_flt (s : State) (f : Fld) (b : Nat) : (fbump s f b).flt = s.flt := by rw [fbump, fadd, fset_flt]

theorem msixSend_flt (s : State) (v : Nat) : (msixSend s v).flt = s.flt := by
  unfold msixSend
  extract_lets m
  split <;> rfl

theorem msixCount_flt (s : State) (e : Nat) : (msixCount s e).flt = s.flt := by
  unfold msixCount
  split
  · rfl
  · simp only
    split
    · rw [msixSend_flt, setEvq_flt, setEvq_flt]
    · rw [setEvq_flt]

theorem eqPut_flt (s : State) (e : Nat) (r : Rec) : (eqPut s e r).flt = s.flt := by
  unfold eqPut
  extract_lets q tail base s1 next s2
  rw [msixCount_flt, setEvq_flt]
  exact fset_flt ..

/-- A record of a queue leaves the fault state. -/
theorem eqRecord_flt (s : State) (e : Nat) (r : Rec) : (eqRecord s e r).flt = s.flt := by
  unfold eqRecord
  split
  · rw [fbump_flt]
  · split
    · split
      · rfl
      · rw [fbump_flt, setEvq_flt]
    · exact eqPut_flt ..

/-- A fault record holds out no further stack. -/
theorem faultRec_stacksOut (s : State) (r : FaultRec) : (faultRec s r).flt.stacksOut = s.flt.stacksOut := by
  unfold faultRec
  extract_lets log r1 s1
  split
  · rw [fbump_flt]
  · rfl

/-- A stack that is held out is recorded and reported; the fifth is an overcast cause (R615). -/
theorem stackHeldOut_new {s s1 s2 s3 : State} {k : Nat} (hk : k < 20) (hnew : k ∉ s.flt.stacksOut)
    (h1 : s1 = { s with flt := { s.flt with stacksOut := s.flt.stacksOut ++ [k] } })
    (h2 : s2 = faultRec s1 { block := 6, kind := 0x0B, die := 3 + k, inst := k })
    (h3 : s3 = devEvent s2 0x09 0 0 (bytesOf 1 6 ++ bytesOf 1 0x0B ++ bytesOf 2 0 ++ bytesOf 4 (newestFault s2) ++ bytesOf 4 k)) :
    stackHeldOut k s = if 4 ≤ s.flt.stacksOut.length then ovcSet s3 1 else s3 := by
  have hlen : s3.flt.stacksOut.length = s.flt.stacksOut.length + 1 := by
    rw [h3, devEvent, eqRecord_flt, h2, faultRec_stacksOut, h1, List.length_append, List.length_singleton]
  rw [stackHeldOut, if_neg (by simp [hk, hnew])]
  simp only [← h1, ← h2, ← h3, hlen, ge_iff_le, Nat.reduceLeDiff]

/-- A patrol pass of a stack in service ends once in 24 h. -/
theorem stackPatrol_due {s : State} {k : Nat} (hk : k < 20) (hin : k ∉ s.flt.stacksOut) (hstep : 8 ≤ fget s F.PRB_STEP_LAST)
    (hp : fget s F.PRB_PWR_STAT_STATE < 3) (ht : tget 0 s.stk.patrol k + patrolNs ≤ s.now) :
    stackPatrol k s = (badWords s k).foldl (fun s w => patrolWord s k w) { s with stk := { s.stk with patrol := tput 0 s.stk.patrol k s.now } } := by
  rw [stackPatrol, if_neg]
  simp only [Bool.or_eq_true, decide_eq_true_eq, List.contains_iff_mem, not_or]
  exact ⟨⟨⟨⟨by omega, hin⟩, by omega⟩, by omega⟩, by omega⟩

/-- The unit that takes the place of one that is quarantined, by its class (R631). -/
def afterReport (s : State) (cls u : Nat) : State :=
  match cls with
  | 0 => let (s2, ok) := takeSpare s 0 u; if ok then s2 else ovcSet s2 3
  | 3 => let (s2, ok) := takeSpare s 2 u; if ok then s2 else ovcSet (scaOut s2 (u / 130)) 3
  | _ => s

/-- A unit over its threshold is reported and taken out of service (R631). -/
theorem quarantine_over {s s1 : State} {cls u : Nat} (hu : u < shdCount cls) (hq : quarantined s cls u = false) (ho : overThresh s cls u = true)
    (h1 : s1 = quarReport { s with flt := { s.flt with quar := s.flt.quar ++ [shdKey cls u] } } cls u) :
    quarantine cls u s = afterReport s1 cls u := by
  have guard : ¬ (decide (u ≥ shdCount cls) || quarantined s cls u || !overThresh s cls u) = true := by
    rw [hq, ho, decide_eq_false (Nat.not_le.2 hu)]
    decide
  rw [h1]
  exact if_neg guard

theorem quarantine_not {s : State} {cls u : Nat} (h : shdCount cls ≤ u ∨ quarantined s cls u = true ∨ overThresh s cls u = false) :
    quarantine cls u s = s := by
  rw [quarantine, if_pos]
  simp only [Bool.or_eq_true, decide_eq_true_eq, Bool.not_eq_true', ge_iff_le]
  tauto

/-- Settles O21, from what becomes of a stack and of a unit. -/
theorem unitsOutOfService : Obligations.UnitsOutOfService := by
  refine ⟨fun s k s1 s2 s3 hk hnew h1 h2 h3 => congrArg Host.Outcome.next (stackHeldOut_new hk hnew h1 h2 h3), fun s k h => ?_,
    fun s k hk hin hstep hp ht => congrArg Host.Outcome.next (stackPatrol_due hk hin hstep hp ht), fun s cls u s1 s2 ok hu hq ho h1 => ?_,
    fun s cls u h => congrArg Host.Outcome.next (quarantine_not h)⟩
  · have step : exec (.stackHeldOut k) s = .next (stackHeldOut k s) := rfl
    rw [step, stackHeldOut, if_pos]
    simpa [Bool.or_eq_true] using h
  · have step : exec (.quarantine cls u) s = .next (quarantine cls u s) := rfl
    rw [step, quarantine_over hu hq ho h1]
    refine ⟨fun h => ?_, fun h ht => ?_, fun h ht => ?_⟩
    · rcases h with rfl | rfl <;> rfl
    · subst h; simp only [afterReport, ht]
    · subst h; simp only [afterReport, ht]

end Sys2Proof.Units

/-! # Replicated commits -/

namespace Sys2Proof.Replication

open Sys2Proof Sys2Proof.Machine Sys2Proof.Claims Sys2Proof.Laws

/-- What a replica does with a batch of an index whose replica set holds the sender (R163). -/
theorem replicaBatch_member {s : State} {src i id : Nat} {ops : List RepOp} {x : Index} (hn : myNode s ≠ none)
    (hx : tfind s.tir.indexes i = some x) (hr : x.removing = false) (hsrc : src ∈ x.replicas) :
    replicaBatch src i id ops s =
      let ack := fun (s : State) (r : Nat) => commitMsg s 0x21 src id i (bytesOf 4 (rget s .PRB_FDOM 0).toNat ++ bytesOf 1 r)
      if fenced s then ack s refFenced
      else if overcast s then ack s refOvercast
      else if (repBatch s src id).isSome then ack s 0
      else match repAppend s.tir.nextBatch i ops (setBatch { s with tir := { s.tir with nextBatch := s.tir.nextBatch + 1 } } s.tir.nextBatch
          { index := i, primary := src, replica := true, phase := .inDoubt, remoteId := id, sentAt := s.now }) with
        | some s2 => ack s2 0
        | none => s := by
  unfold replicaBatch
  rw [if_neg (by simpa using hn), hx]
  simp only [hr, Bool.false_eq_true, if_false]
  rw [if_neg (by simp [hsrc])] <;> rfl

/-- What the primary does with the answer of a replica (R164). -/
theorem replicaAck_waiting {s : State} {src id tags refusal : Nat} {v : Batch} (hv : tfind s.tir.batches id = some v)
    (hr : v.replica = false) (hp : v.phase = .waitAcks) (hsrc : src ∈ replicasOf (idx s v.index)) :
    replicaAck src id tags refusal s =
      if refusal = refNoIndex then failCommit s id v stNOT_OWNER 0 true [src]
      else if refusal = refFenced then failCommit s id v stFENCED 0 true []
      else if refusal = refOvercast then failCommit s id v stOVERCAST 0 true []
      else setBatch s id { v with acks := tins v.acks src tags } := by
  rw [replicaAck, hv]
  exact if_neg (by simp [hr, hp, hsrc])

/-- The primary gives up at `COMMIT_TMO`, while a replica has not acknowledged. -/
theorem commitTimeout_waiting {s : State} {id : Nat} {v : Batch} (hv : tfind s.tir.batches id = some v) (hr : v.replica = false)
    (hp : v.phase = .waitAcks) :
    commitTimeout id s = if s.now < v.sentAt + commitTmo (idx s v.index) ∨ ∀ n ∈ replicasOf (idx s v.index), ∃ a ∈ v.acks, a.1 = n
      then s else failCommit s id v stABORTED 0x23 true [] := by
  rw [commitTimeout, hv]
  exact if_congr (by simp [hr, hp]) rfl rfl

/-- A replica in doubt asks for the outcome once `COMMIT_TMO` has passed, unless the primary is expelled. -/
theorem outcomeQueryTimer_inDoubt {s : State} {id : Nat} {v : Batch} (hv : tfind s.tir.batches id = some v) (hr : v.replica = true)
    (hp : v.phase = .inDoubt) :
    outcomeQueryTimer id s = if v.primary ∈ s.smc.expelled then setBatch s id { v with phase := .noticed }
      else if s.now < v.sentAt + commitTmo (idx s v.index) then s
      else commitMsg (setBatch s id { v with sentAt := s.now }) 0x25 v.primary v.remoteId v.index [] := by
  rw [outcomeQueryTimer, hv]
  simp [hr, hp]

/-- Settles O22, one message or timer after the other. -/
theorem replicatedCommits : Obligations.ReplicatedCommits := by
  refine ⟨fun s src i id ops hn hx => ?_, fun s src i id ops x hn hx hr hsrc d hd => ?_, fun s src id tags r v hv hr hp hsrc => ?_,
    fun s src id b v hb => ?_, fun s src id hb hx => ?_, fun s src id v hv hp => ?_, fun s id v hv hr hp => ?_, fun s id v hv hr hp => ?_,
    fun s src id hv => ?_⟩
  · have step : exec (.replicaBatch src i id ops) s = .next (replicaBatch src.toNat i.toNat id ops s) := rfl
    rw [step, replicaBatch, if_neg (by simpa using hn), hx]
    rfl
  · have step : exec (.replicaBatch src i id ops) s = .next (replicaBatch src.toNat i.toNat id ops s) := rfl
    subst hd
    rw [step, replicaBatch_member hn hx hr hsrc]
    simp only
    refine ⟨fun hf => by rw [if_pos hf]; rfl, fun hf ho => by rw [if_neg (by simp [hf]), if_pos ho]; rfl, fun hf ho hb => ?_,
      fun s1 hf ho hb h1 => ?_⟩
    · rw [if_neg (by simp [hf]), if_neg (by simp [ho]), if_pos hb]
    · rw [if_neg (by simp [hf]), if_neg (by simp [ho]), if_neg (by simp [hb]), ← h1]
      exact ⟨fun h => by rw [h], fun s2 h => by rw [h]⟩
  · have step : exec (.replicaAck src id tags r) s = .next (replicaAck src.toNat id tags.toNat r.toNat s) := rfl
    rw [step, replicaAck_waiting hv hr hp hsrc]
    refine ⟨fun h => ?_, fun h => ?_, fun h => ?_, fun h => ?_⟩ <;> subst h <;> rfl
  · have step : exec (.commitNotice src id) s = .next (commitNotice src.toNat id s)
        ∧ exec (.discardNotice src id) s = .next (discardNotice src.toNat id s) := ⟨rfl, rfl⟩
    rw [step.1, step.2, commitNotice, discardNotice, hb]
    exact ⟨fun h => by simp only [if_pos h, and_self], fun h => by simp only [if_neg h, and_self]⟩
  · have step : exec (.commitNotice src id) s = .next (commitNotice src.toNat id s)
        ∧ exec (.discardNotice src id) s = .next (discardNotice src.toNat id s) := ⟨rfl, rfl⟩
    rw [step.1, step.2, commitNotice, discardNotice, hb]
    simp only [and_true]
    rw [if_pos]
    obtain ⟨p, hp, hm⟩ := hx
    exact List.any_eq_true.2 ⟨p, hp, List.contains_iff_mem.2 hm⟩
  · have step : exec (.noticeAck src id) s = .next (noticeAck src.toNat id s)
        ∧ exec (.outcomeQuery src id) s = .next (outcomeQuery src.toNat id s) := ⟨rfl, rfl⟩
    rw [step.1, step.2, noticeAck, outcomeQuery, hv]
    exact ⟨fun h => by simp [hp, h], fun h => by simp [hp, h], fun h => by simp [hp, h]⟩
  · have step : exec (.commitTimeout id) s = .next (commitTimeout id s) := rfl
    rw [step, commitTimeout_waiting hv hr hp]
    refine ⟨fun ht ⟨n, hn, ha⟩ => ?_, fun ht => by rw [if_pos (.inl ht)], fun hall => by rw [if_pos (.inr hall)]⟩
    rw [if_neg]
    · rfl
    rintro (h | h)
    · exact absurd h (Nat.not_lt.2 ht)
    · obtain ⟨a, ham, e⟩ := h n hn
      exact ha a ham e
  · have step : exec (.outcomeQueryTimer id) s = .next (outcomeQueryTimer id s) := rfl
    rw [step, outcomeQueryTimer_inDoubt hv hr hp]
    refine ⟨fun h => by rw [if_pos h], fun h ht => ?_, fun h ht => ?_⟩
    · rw [if_neg h]
      exact congrArg _ (if_neg (Nat.not_lt.2 ht))
    · rw [if_neg h]
      exact congrArg _ (if_pos ht)
  · have step : exec (.outcomeQuery src id) s = .next (outcomeQuery src.toNat id s) := rfl
    rw [step, outcomeQuery, hv]
    exact ⟨fun h => by simp only [h, if_true], fun h => by simp only [h, Bool.false_eq_true, if_false]⟩

end Sys2Proof.Replication

/-! # Merges -/

namespace Sys2Proof.Merges

open Sys2Proof Sys2Proof.Machine Sys2Proof.Claims Sys2Proof.Laws

/-! ### The checks of a merge step -/

theorem mergeChecks_overcast {s : State} {c : Cmd} (h : overcast s = true) : mergeChecks s c = .error (.report stOVERCAST 0 0 0) := by
  rw [mergeChecks, h]
  rfl

theorem mergeChecks_ok {s : State} {c : Cmd} {x : Index} (ho : overcast s = false) (h0 : laneBits c.tok.desc 0 42 22 = 0)
    (h1 : lane64 c.tok.desc 1 = 0) (h2 : lane64 c.tok.desc 2 = 0) (hx : indexOf s c.tok.dom (mIndex c) = some x) (hstep : mStep c ≤ 3)
    (hlist : mChoose c = true ∨ mList c < x.lists) (hchoose : mChoose c = false ∨ mStep c = 0) : mergeChecks s c = .ok () := by
  have e2 : (mChoose c || decide (mList c < x.lists)) = true := by simpa using hlist
  have e3 : (!mChoose c || mStep c == 0) = true := by simpa using hchoose
  simp only [mergeChecks, ho, h0, h1, h2, hx, e2, e3, hstep, need, Bool.not_false, beq_self_eq_true, decide_true, Bool.and_true, if_true]
  rfl

theorem mergeChecks_step {n : Nat} {s : State} {tag : W32} {c : Cmd} (h : StepNext n s tag c) (hn : n ≤ 3) : mergeChecks s c = .ok () := by
  obtain ⟨-, hstep, hch, ho, h0, h1, h2, x, hx, hl⟩ := h
  exact mergeChecks_ok ho h0 h1 h2 hx (hstep ▸ hn) (.inr hl) (.inl hch)

theorem stepRec_expected {n : Nat} {s : State} {c : Cmd} {m : MergeRec} (h : Expects n s c m) (hn : n ≠ 0) : stepRec s c n = .ok m := by
  obtain ⟨hm, hj, hstep⟩ := h
  rw [stepRec, hm]
  exact if_pos (by simpa [hj, hn] using hstep)

/-- A step out of order, or of another job. -/
theorem stepRec_refused {n : Nat} {s : State} {c : Cmd}
    (h : ∀ m, mergeOf s (listKey (mIndex c) (mList c)) = some m → m.job ≠ some c.tok.job ∨ m.next ≠ n ∧ m.last ≠ n) :
    stepRec s c n = .error (.report stBAD_OPERATOR 0x2A 0 0) := by
  unfold stepRec
  cases hm : mergeOf s (listKey (mIndex c) (mList c)) with
  | none => rfl
  | some m =>
    refine if_neg ?_
    simp only [Bool.and_eq_true, decide_eq_true_eq, Bool.or_eq_true]
    rintro ⟨hj, hs⟩
    rcases h m hm with h | h
    · exact h hj
    · rcases hs with hs | hs
      · exact h.1 hs
      · exact h.2 hs.1

/-- Work goes on with what a check or a lookup gives. -/
theorem work_ok {α β : Type} (a : α) (f : α → Work β) : ((.ok a : Work α) >>= f) = f a := rfl

theorem work_error {α β : Type} (e : Stop) (f : α → Work β) : ((.error e : Work α) >>= f) = .error e := rfl

theorem idx_of_indexOf {s : State} {dom i : Nat} {x : Index} (h : indexOf s dom i = some x) : idx s i = x := by
  unfold indexOf at h
  split at h
  · rename_i y hy
    split at h
    · rw [idx, tget, hy]
      exact Option.some.inj h
    · cases h
  · cases h

/-! ### The steps -/

section Steps
variable {s s0 : State} {tag : W32} {c : Cmd} {m : MergeRec}

theorem mergeOpen_list (h : StepNext 0 s tag c) :
    mergeOpen tag.toNat s = if (mergeOf s (listKey (mIndex c) (mList c))).isSome then endCmd s 14 tag.toNat c stBAD_OPERATOR 0x2A 0 0
      else if hotPending s (listKey (mIndex c) (mList c)) then s
      else endTir (setMerge { s with tir := { s.tir with jseq := s.tir.jseq + 1 } } (listKey (mIndex c) (mList c))
        { cut := s.tir.epoch, job := some tag.toNat, next := 1, last := 0 }) tag.toNat c stOK 0 (mList c) (openSpec false 1) := by
  have hch : mChoose c = false := h.2.2.1
  rw [mergeOpen, tirCmd_next h.1 _ (by simp [h.2.1])]
  simp only [mergeChecks_step h (by decide), work_ok, hch, Bool.not_false, if_true, need]
  cases mergeOf s (listKey (mIndex c) (mList c)) with
  | none => simp only [Option.isNone_none, if_true, work_ok, Option.isSome_none, Bool.false_eq_true, if_false]; rfl
  | some m => rfl

/-- What a restart left, and what is due, once a merge may choose its list. -/
theorem mergeOpen_choose {x : Index} (h : TirNext 0x17 s tag c) (hstep : mStep c = 0) (hch : mChoose c = true) (ho : overcast s = false)
    (h0 : laneBits c.tok.desc 0 42 22 = 0) (h1 : lane64 c.tok.desc 1 = 0) (h2 : lane64 c.tok.desc 2 = 0)
    (hx : indexOf s c.tok.dom (mIndex c) = some x) :
    (∀ k m, (s.tir.merges.filter fun p => p.1 / 2 ^ 24 == mIndex c && p.2.job.isNone && !p.2.hotset).head? = some (k, m) →
      mergeOpen tag.toNat s = endTir (setMerge s k { m with job := some tag.toNat }) tag.toNat c stOK 0 (k % 2 ^ 24) (openSpec true m.next))
    ∧ (s.tir.merges = [] → (∀ l < (idx s (mIndex c)).lists, listDue (idx s (mIndex c)) (listRoot s (mIndex c) l) = false) →
      mergeOpen tag.toNat s = endCmd s 14 tag.toNat c stSHORT 0x28 0 0) := by
  have hchecks : mergeChecks s c = .ok () := mergeChecks_ok ho h0 h1 h2 hx (by omega) (.inl hch) (.inr hstep)
  refine ⟨fun k m hm => ?_, fun hm hdue => ?_⟩ <;> rw [mergeOpen, tirCmd_next h _ (by simp [hstep])] <;>
    simp only [hchecks, work_ok, hch, Bool.not_true, Bool.false_eq_true, if_false]
  · simp only [hm]
  · have none_due : (List.range (idx s (mIndex c)).lists).filter (fun l =>
        listDue (idx s (mIndex c)) (listRoot s (mIndex c) l) && (mergeOf s (listKey (mIndex c) l)).isNone) = [] :=
      List.filter_eq_nil_iff.2 fun l hl => by simp [hdue l (List.mem_range.1 hl)]
    simp only [hm, List.filter_nil, List.head?_nil, none_due]
    rfl

theorem mergeFold_done (h : StepNext 1 s tag c) (hm : Expects 1 s c m) (hd : m.foldDone = true) :
    mergeFold tag.toNat s = endTir s tag.toNat c stOK 0 0 0 := by
  rw [mergeFold, tirCmd_next h.1 _ (by simp [h.2.1])]
  simp only [mergeChecks_step h (by decide), stepRec_expected hm (by decide), work_ok, hd, if_true]

/-- A fold that goes on: 65,536 entries more are built. -/
theorem mergeFold_part {f : FoldPlan} (h : StepNext 1 s tag c) (hm : Expects 1 s c m)
    (hf : f = foldPlan s (idx s (mIndex c)) (listRoot s (mIndex c) (mList c)) m.cut)
    (h0 : s0 = { s with tir := { s.tir with jseq := s.tir.jseq + 1 } }) (hd : m.foldDone = false) (hleft : m.built + 65536 < f.total) :
    mergeFold tag.toNat s = endTir (setMerge s0 (listKey (mIndex c) (mList c))
      { m with built := m.built + 65536, next := 1, last := 1, jnl := s.tir.jseq + 1 }) tag.toNat c stOK 0 (f.total - m.built - 65536) 0 := by
  rw [mergeFold, tirCmd_next h.1 _ (by simp [h.2.1])]
  simp only [mergeChecks_step h (by decide), stepRec_expected hm (by decide), work_ok, hd, Bool.false_eq_true, if_false, journal, ← h0, ← hf]
  rw [if_pos (by omega)]

/-- The last part of a fold builds the list's new segments and stands complete. -/
theorem mergeFold_last {f : FoldPlan} {s1 : State} {old : List (List MEnt)} {new : List MEnt} {gs all : List Seg} (h : StepNext 1 s tag c)
    (hm : Expects 1 s c m) (hf : f = foldPlan s (idx s (mIndex c)) (listRoot s (mIndex c) (mList c)) m.cut)
    (h0 : s0 = { s with tir := { s.tir with jseq := s.tir.jseq + 1 } }) (hd : m.foldDone = false) (hleft : f.total ≤ m.built + 65536)
    (hold : allSome (f.rewrite.map fun p =>
      allSome (p.2.map (segEnt s (idx s (mIndex c)) p.1 (hotOrds s (idx s (mIndex c)).dom p.1)))) = some old)
    (hnew : allSome (f.inserts.map (hazeMEnt s (idx s (mIndex c)))) = some new)
    (hchain : buildChain (mIndex c) (mList c) ((new :: old).zipIdx.map fun p =>
      ((f.rewrite.map fun q => q.1.seq).foldl max (f.kept.foldl (fun n g => max n g.seq) 0) + 1 + p.2, p.1))
      (match f.kept.head? with | some g => g.addr | none => 0) s0 = some (gs, s1)) (hall : all = gs ++ f.kept) :
    mergeFold tag.toNat s = endTir (setMerge s1 (listKey (mIndex c) (mList c)) { m with
      built := f.total, foldDone := true, next := 2, last := 1, jnl := s.tir.jseq + 1, head := (match all.head? with | some g => g.addr | none => 0)
      segs := all.length, items := (all.map (·.items)).foldl (· + ·) 0, tiles := (all.map (·.tiles)).foldl (· + ·) 0
      newSegs := gs.map (·.addr) }) tag.toNat c stOK 0 0 0 := by
  subst hall
  rw [mergeFold, tirCmd_next h.1 _ (by simp [h.2.1])]
  simp only [mergeChecks_step h (by decide), stepRec_expected hm (by decide), work_ok, hd, Bool.false_eq_true, if_false, journal, ← h0, ← hf]
  rw [if_neg (by omega)]
  simp only [hold, hnew]
  cases hk : f.kept.head? <;> simp only [hk] at hchain ⊢ <;> simp only [hchain] <;> rfl

theorem mergeSwap_expected (h : StepNext 2 s tag c) (hm : Expects 2 s c m) :
    mergeSwap tag.toNat s = if m.swapped then endTir s tag.toNat c stOK 0 0 0
      else putCmd (setMerge { s with tir := { s.tir with jseq := s.tir.jseq + 1 } } (listKey (mIndex c) (mList c))
        { m with scheduled := true, next := 3, last := 2, jnl := max m.jnl (s.tir.jseq + 1), cmds := m.cmds ++ [c.id] }) 14 tag.toNat
        { c with phase := .running } := by
  rw [mergeSwap, tirCmd_next h.1 _ (by simp [h.2.1])]
  simp only [mergeChecks_step h (by decide), stepRec_expected hm (by decide), work_ok]
  cases m.swapped <;> rfl

theorem mergeClose_expected (h : StepNext 3 s tag c) (hm : Expects 3 s c m) :
    (m.swapped = false → mergeClose tag.toNat s = s)
    ∧ (m.swapped = true → mEvent c = false → mergeClose tag.toNat s =
      endTir { s with tir := { s.tir with merges := tdel s.tir.merges (listKey (mIndex c) (mList c)), jseq := s.tir.jseq + 1 } }
        tag.toNat c stOK 0 0 0) := by
  refine ⟨fun hs => ?_, fun hs he => ?_⟩ <;> rw [mergeClose, tirCmd_next h.1 _ (by simp [h.2.1])] <;>
    simp only [mergeChecks_step h (by decide), stepRec_expected hm (by decide), work_ok, hs, Bool.not_true, Bool.not_false,
      Bool.false_eq_true, if_true, if_false]
  simp only [he]
  rfl

end Steps

/-- A swap notes the cut of the list and that the merge is swapped. -/
theorem performSwap_records {s t : State} {k e : Nat} {m : MergeRec} (h : performSwap s k m e = some t) (hc : m.cmds = [])
    (hh : m.hotset = false) : tfind t.tir.cuts k = some m.cut
    ∧ tfind t.tir.merges k = some { m with swapped := true, swapEpoch := e, cmds := [] } := by
  unfold performSwap at h
  simp only [hh, hc, Bool.false_eq_true, if_false, List.foldl_nil] at h
  split at h
  · cases h
  · obtain ⟨x, -, rfl⟩ := Option.map_eq_some_iff.1 h
    exact ⟨tfind_tins_same .., by rw [hh]; exact tfind_tins_same ..⟩

/-- Settles O23, step by step. -/
theorem mergesGoStepByStep : Obligations.MergesGoStepByStep := by
  refine ⟨fun s tag c k h hk => ⟨fun hn s1 h1 => ?_, fun m hm => ?_⟩, fun s tag c k m h hstep hch ho h0 h1 h2 ⟨x, hx⟩ hm => ?_,
    fun s tag c x h hstep hch ho h0 h1 h2 hx hm hdue => ?_, fun s tag c m i l f h hm hi hl hf s0 h0 => ⟨fun hd => ?_, fun hd hleft => ?_,
      fun old new gs s1 all hd hleft hold hnew hchain hall => ?_⟩,
    fun s tag c m k h hm hk => ⟨fun hs => ?_, fun hs s1 h1 => ?_⟩, fun s tag c m k h hm hk => ⟨fun hs => ?_, fun hs he => ?_⟩,
    fun row hrow s tag c h hbad => ?_, fun row hrow s tag c h hstep ho => ?_, fun s k m e t h hc hh => performSwap_records h hc hh⟩
  · subst hk h1
    have step : exec (.mergeOpen tag) s = .next (mergeOpen tag.toNat s) := rfl
    rw [step, mergeOpen_list h, if_neg (by simp [mergeOf, hn]), if_neg (by simp [hotPending, hn])]
    rfl
  · subst hk
    have step : exec (.mergeOpen tag) s = .next (mergeOpen tag.toNat s) := rfl
    rw [step, mergeOpen_list h, if_pos (by rw [hm]; rfl)]
    rfl
  · exact congrArg Host.Outcome.next ((mergeOpen_choose h hstep hch ho h0 h1 h2 hx).1 k m hm)
  · have hidx : idx s (mIndex c) = x := idx_of_indexOf hx
    exact congrArg Host.Outcome.next ((mergeOpen_choose h hstep hch ho h0 h1 h2 hx).2 hm (by rw [hidx]; exact hdue))
  · exact congrArg Host.Outcome.next (mergeFold_done h hm hd)
  · subst hi hl
    exact congrArg Host.Outcome.next (mergeFold_part h hm hf h0 hd hleft)
  · subst hi hl
    exact congrArg Host.Outcome.next (mergeFold_last h hm hf h0 hd hleft hold hnew hchain hall)
  · have step : exec (.mergeSwap tag) s = .next (mergeSwap tag.toNat s) := rfl
    rw [step, mergeSwap_expected h hm, if_pos hs]
    rfl
  · subst hk h1
    have step : exec (.mergeSwap tag) s = .next (mergeSwap tag.toNat s) := rfl
    rw [step, mergeSwap_expected h hm, if_neg (by simp [hs])]
  · exact congrArg Host.Outcome.next ((mergeClose_expected h hm).1 hs)
  · subst hk
    exact congrArg Host.Outcome.next ((mergeClose_expected h hm).2 hs he)
  · have hrec := stepRec_refused hbad
    simp only [List.mem_cons, List.not_mem_nil, or_false] at hrow
    rcases hrow with rfl | rfl | rfl
    · have step : exec (.mergeFold tag) s = .next (mergeFold tag.toNat s) := rfl
      rw [step, mergeFold, tirCmd_next h.1 _ (by simp [h.2.1])]
      simp only [mergeChecks_step h (by decide), hrec, work_ok, work_error]
      rfl
    · have step : exec (.mergeSwap tag) s = .next (mergeSwap tag.toNat s) := rfl
      rw [step, mergeSwap, tirCmd_next h.1 _ (by simp [h.2.1])]
      simp only [mergeChecks_step h (by decide), hrec, work_ok, work_error]
      rfl
    · have step : exec (.mergeClose tag) s = .next (mergeClose tag.toNat s) := rfl
      rw [step, mergeClose, tirCmd_next h.1 _ (by simp [h.2.1])]
      simp only [mergeChecks_step h (by decide), hrec, work_ok, work_error]
      rfl
  · have hrec := mergeChecks_overcast (c := c) ho
    simp only [List.mem_cons, List.not_mem_nil, or_false] at hrow
    rcases hrow with rfl | rfl | rfl | rfl
    · have step : exec (.mergeOpen tag) s = .next (mergeOpen tag.toNat s) := rfl
      rw [step, mergeOpen, tirCmd_next h _ (by simp [hstep])]
      simp only [hrec, work_error]
      rfl
    · have step : exec (.mergeFold tag) s = .next (mergeFold tag.toNat s) := rfl
      rw [step, mergeFold, tirCmd_next h _ (by simp [hstep])]
      simp only [hrec, work_error]
      rfl
    · have step : exec (.mergeSwap tag) s = .next (mergeSwap tag.toNat s) := rfl
      rw [step, mergeSwap, tirCmd_next h _ (by simp [hstep])]
      simp only [hrec, work_error]
      rfl
    · have step : exec (.mergeClose tag) s = .next (mergeClose tag.toNat s) := rfl
      rw [step, mergeClose, tirCmd_next h _ (by simp [hstep])]
      simp only [hrec, work_error]
      rfl

end Sys2Proof.Merges

/-! # Migrations -/

namespace Sys2Proof.Migrations

open Sys2Proof Sys2Proof.Machine Sys2Proof.Claims Sys2Proof.Laws

section Passes
variable {s : State} {k : Nat} {m : Mig}

/-- A sub-block that a pass must copy and that cannot be read, or a target that is lost. -/
def passFails (s : State) (k : Nat) (m : Mig) : Prop :=
  (∃ i < 64, (m.passes = 0 ∨ m.mask.getLsbD i = true) ∧ homeBad s k i = true) ∨ m.target = 2 ∧ flashGone s = true

/-- What the end of a pass does: abandon, begin the final copy, or go on (R374). -/
theorem migrationPassEnd_copying (hm : (pageOf s k).mig = some m) (hf : m.final = false) (hfl : m.flipped = false) :
    (passFails s k m → migrationPassEnd k s = abandonMig s k m)
    ∧ (¬ passFails s k m → migrationPassEnd k s =
        if (1 ≤ m.passes ∧ popcount m.mask.toNat 64 ≤ 16) ∨ 2 ≤ m.passes
        then setPage s k { pageOf s k with mig := some { m with passes := m.passes + 1, final := true, finalAt := s.now } }
        else setPage s k { pageOf s k with mig := some { m with passes := m.passes + 1, mask := 0 } }) := by
  have hcond : ((List.range 64).any (fun i => (m.passes = 0 || m.mask.getLsbD i) && homeBad s k i) || (m.target = 2 && flashGone s)) = true
      ↔ passFails s k m := by
    simp [passFails, List.any_eq_true]
  refine ⟨fun h => ?_, fun h => ?_⟩ <;> unfold migrationPassEnd <;> simp only [hm, hf, hfl, Bool.or_self, Bool.false_eq_true, if_false]
  · exact if_pos (hcond.2 h)
  · rw [if_neg (mt hcond.1 h)]
    refine if_congr ?_ rfl rfl
    simp only [Bool.or_eq_true, Bool.and_eq_true, decide_eq_true_eq]
    omega

/-- What the flip does with a page of which every sub-block marked can be read. -/
theorem migrationFlip_final (hm : (pageOf s k).mig = some m) (hf : m.final = true) (hfl : m.flipped = false) :
    ((∃ i < 64, m.mask.getLsbD i = true ∧ homeBad s k i = true) → migrationFlip k s = abandonMig s k m)
    ∧ ((∀ i < 64, m.mask.getLsbD i = true → homeBad s k i = false) →
      (writeHome s k m (homeBytes s k) = none → migrationFlip k s = abandonMig s k m)
      ∧ ∀ s1 s2, writeHome s k m (homeBytes s k) = some s1 →
        s2 = setPage s1 k { pageOf s1 k with
          home := m.target, hostAddr := m.hostAddr, frame := m.frame, present := (if m.target = 1 then BitVec.allOnes 16 else 0)
          mig := some { m with flipped := true, waiting := [], oldHome := (pageOf s k).home
                               old := (if (pageOf s k).home = 2 ∨ (pageOf s k).home = 3 then none else (pageOf s k).frame) } } →
        migrationFlip k s = serveHeld (applyWaiting (fset s2 F.TIR_MIG_STAT_FINAL_MAX
          (max (fget s2 F.TIR_MIG_STAT_FINAL_MAX) (min 0xFF (cdiv (s.now - m.finalAt) 100)))) k m.waiting) (holdPage k)) := by
  have hcond : ((List.range 64).any fun i => m.mask.getLsbD i && homeBad s k i) = true ↔
      ∃ i < 64, m.mask.getLsbD i = true ∧ homeBad s k i = true := by simp [List.any_eq_true]
  have hread : (∀ i < 64, m.mask.getLsbD i = true → homeBad s k i = false) →
      ¬ ((List.range 64).any fun i => m.mask.getLsbD i && homeBad s k i) = true := fun h e => by
    obtain ⟨i, hi, hmask, hbad⟩ := hcond.1 e
    rw [h i hi hmask] at hbad
    cases hbad
  refine ⟨fun h => ?_, fun h => ⟨fun hw => ?_, fun s1 s2 hw h2 => ?_⟩⟩ <;> unfold migrationFlip <;>
    simp only [hm, hf, hfl, Bool.not_true, Bool.or_self, Bool.false_eq_true, if_false]
  · exact if_pos (hcond.2 h)
  · rw [if_neg (hread h), hw]
  · have hold : (if (pageOf s k).home = 2 || (pageOf s k).home = 3 then none else (pageOf s k).frame) =
        if (pageOf s k).home = 2 ∨ (pageOf s k).home = 3 then none else (pageOf s k).frame := if_congr (by simp) rfl rfl
    rw [if_neg (hread h), hw]
    rw [h2]
    simp only [hold, hf]

/-- The drain scrubs and frees the old frame. -/
theorem migrationDrain_flipped {f : Nat} (hm : (pageOf s k).mig = some m) (hfl : m.flipped = true) (hold : m.old = some f) {s1 : State}
    (h1 : s1 = setPage (scrubFrame s f) k { pageOf s k with mig := none }) :
    migrationDrain k s = runMoves (noteMove (serveHeld (applyWaiting s1 k m.waiting) (holdPage k)) m.cmd 1 0 false) := by
  unfold migrationDrain
  simp only [hm, hfl, hold, Bool.not_true, Bool.false_eq_true, if_false, ← h1]

end Passes

/-- Settles O24, phase by phase. -/
theorem migrationPassesFlipsAndDrains : Obligations.MigrationPassesFlipsAndDrains := by
  refine ⟨fun s k m hm hf hfl => ⟨fun h => ?_, fun hread htarget => ?_⟩, fun s k m hm hf hfl => ?_, fun s k m f hm hfl hold s1 h1 =>
    congrArg Host.Outcome.next (migrationDrain_flipped hm hfl hold h1), fun s k hm => ?_, fun s k m hm hfl => ?_⟩
  · exact congrArg Host.Outcome.next ((migrationPassEnd_copying hm hf hfl).1 h)
  · have hgo : ¬ passFails s k m := by
      rintro (⟨i, hi, hmask, hbad⟩ | ⟨ht, hg⟩)
      · rw [hread i hi hmask] at hbad
        cases hbad
      · rcases htarget with h | h
        · exact h ht
        · rw [h] at hg
          cases hg
    have step : exec (.migrationPassEnd k) s = .next (migrationPassEnd k s) := rfl
    rw [step, (migrationPassEnd_copying hm hf hfl).2 hgo]
    exact ⟨fun h => by rw [if_pos h], fun h => by rw [if_neg (by omega)]⟩
  · obtain ⟨hbad, hread⟩ := migrationFlip_final hm hf hfl
    refine ⟨fun h => congrArg Host.Outcome.next (hbad h), fun h => ⟨fun hw => congrArg Host.Outcome.next ((hread h).1 hw), fun s1 s2 hw h2 => ?_⟩⟩
    exact congrArg Host.Outcome.next ((hread h).2 s1 s2 hw h2)
  · have step : exec (.migrationPassEnd k) s = .next (migrationPassEnd k s) ∧ exec (.migrationFlip k) s = .next (migrationFlip k s)
        ∧ exec (.migrationDrain k) s = .next (migrationDrain k s) := ⟨rfl, rfl, rfl⟩
    rw [step.1, step.2.1, step.2.2, migrationPassEnd, migrationFlip, migrationDrain, hm]
    exact ⟨rfl, rfl, rfl⟩
  · have step : exec (.migrationDrain k) s = .next (migrationDrain k s) := rfl
    rw [step, migrationDrain, hm]
    simp [hfl]

end Sys2Proof.Migrations

/-! # Region commands -/

namespace Sys2Proof.Regions

open Sys2Proof Sys2Proof.Machine Sys2Proof.Claims Sys2Proof.Laws Sys2Proof.Words Sys2Proof.Registers

/-- A write of a region operation to an idle command register begins the operation. -/
theorem regionWrite_begins {s s1 : State} {v : W32} {op : Nat} (ha : Awake s) (hv : (v.extractLsb' 12 4).toNat = op) (hop : op ≠ 0)
    (h1 : s1 = regWritePlain s .TIR_RGN_CMD 0 v) : regionWrite op v s = regionBegin op s1 := by
  have hbits : bitsOf v.toNat 12 4 = op := by rw [bitsOf_toNat, hv]
  rw [regionWrite, hostReg_awake ha]
  simp only [hbits, ← h1]
  exact if_pos (by simp [hop])

/-- The region that a remove command refuses to new uses; 0 for none. -/
def removed (s : State) (op dom a host : Nat) : Nat :=
  if op = 2 then (match regionChecks s 2 dom (readDesc s dom a 64 (host == 1) false) with | (0, _, i) => i | _ => 0) else 0

/-- A region command that is begun waits for its completion, with `BUSY` set (R389). -/
theorem regionBegin_idle {s : State} (hb : fget s F.TIR_RGN_STAT_BUSY = 0) (op : Nat) {dom a host : Nat} (hdom : dom = fget s F.TIR_RGN_CMD_DOMAIN)
    (ha : a = fget s F.TIR_RGN_DESC_LO_V + 2 ^ 32 * fget s F.TIR_RGN_DESC_HI_V) (hh : host = fget s F.TIR_RGN_DESC_HI_HOST) :
    regionBegin op s = { fset s F.TIR_RGN_STAT_BUSY 1 with tir := { s.tir with
      rgnCmd := some { op := op, arg := dom, args := [a, host, removed s op dom a host] }
      regions := if removed s op dom a host = 0 then s.tir.regions
        else tmod s.tir.regions (removed s op dom a host) fun r => { r with removing := true } } } := by
  rw [regionBegin, if_neg (by rw [hb]; decide)]
  simp only [← hdom, ← ha, ← hh, fset_tir]
  rfl

section Effect
variable {s s0 : State} {c : RegCmd} {b : Bool} {a h id : Nat} {d : List Byte}
  (hargs : c.args = [a, h, id]) (hlo : 1 ≤ c.op) (hhi : c.op ≤ 5)
  (h0 : s0 = { s with tir := { s.tir with regions := tmod s.tir.regions id fun r => { r with removing := false } } })
  (hd : readDesc s0 c.arg a 64 (h == 1) b = some d)
include hargs hlo hhi h0 hd

/-- The effect of a region command whose descriptor is read. -/
theorem regionEffect_read : regionEffect c b s = match regionChecks s0 c.op c.arg (some d) with
    | (0, _, _) => (match c.op with
      | 1 => createRegion s0 c.arg d
      | 2 => if id = 0 then (stBAD_OPERATOR, 0x90, s0) else (stOK, 0, dropRegion s0 id)
      | 3 => (stOK, 0, (rangePages s0 c.arg (rdBase d) (rdLen d)).foldl writeBack s0)
      | 4 => (stOK, 0, (rangePages s0 c.arg (rdBase d) (rdLen d)).foldl invalidate s0)
      | _ => (stOK, 0, (rangePages s0 c.arg (rdBase d) (rdLen d)).foldl (fun s k => invalidate (writeBack s k) k) s0))
    | (st, rs, _) => (st, rs, s0) := by
  unfold regionEffect
  rw [hargs]
  simp only [← h0, hd]
  rw [if_neg (by simp only [Bool.or_eq_true, decide_eq_true_eq]; omega)]
  rcases regionChecks s0 c.op c.arg (some d) with ⟨_ | st, rs, i⟩ <;> rfl

/-- A refusal leaves the region that was to be removed in use. -/
theorem regionEffect_refused {st rs i : Nat} (hc : regionChecks s0 c.op c.arg (some d) = (st, rs, i)) (hst : st ≠ 0) :
    regionEffect c b s = (st, rs, s0) := by
  rw [regionEffect_read hargs hlo hhi h0 hd, hc]
  cases st with
  | zero => exact absurd rfl hst
  | succ n => rfl

/-- A command that passes its checks has the effect of its operation. -/
theorem regionEffect_passed {i : Nat} (hc : regionChecks s0 c.op c.arg (some d) = (0, 0, i)) :
    (c.op = 1 → regionEffect c b s = createRegion s0 c.arg d)
    ∧ (c.op = 2 → id ≠ 0 → regionEffect c b s = (0, 0, dropRegion s0 id))
    ∧ (c.op = 3 → regionEffect c b s = (0, 0, (rangePages s0 c.arg (rdBase d) (rdLen d)).foldl writeBack s0))
    ∧ (c.op = 4 → regionEffect c b s = (0, 0, (rangePages s0 c.arg (rdBase d) (rdLen d)).foldl invalidate s0))
    ∧ (c.op = 5 → regionEffect c b s = (0, 0, (rangePages s0 c.arg (rdBase d) (rdLen d)).foldl (fun s2 k => invalidate (writeBack s2 k) k) s0)) := by
  rw [regionEffect_read hargs hlo hhi h0 hd, hc]
  refine ⟨fun h => ?_, fun h hid => ?_, fun h => ?_, fun h => ?_, fun h => ?_⟩ <;> simp only [h]
  · rw [if_neg hid]
    rfl
  all_goals rfl

end Effect

/-- A create command makes a region that overlaps none and has its frames (R390). -/
theorem createRegion_parsed {s : State} {dom : Nat} {b : List Byte} {r : Region} (hr : parseRegion dom b = some r)
    (hn : s.tir.regions.length < 65536) :
    ((∃ p ∈ s.tir.regions, p.2.dom = dom ∧ crosses p.2.base p.2.len r.base r.len = true) → createRegion s dom b = (stBAD_OPERATOR, 0x90, s))
    ∧ ((∀ p ∈ s.tir.regions, p.2.dom = dom → crosses p.2.base p.2.len r.base r.len = false) →
      createRegion s dom b = if needsFrames r && poolFrames s dom < r.len / 65536 then (stBAD_OPERATOR, 0x91, s)
        else match homePages r (regionPages r) s with
          | none => (stBAD_OPERATOR, 0x91, s)
          | some s1 => (stOK, 0, { s1 with tir := { s1.tir with
              regions := tins s1.tir.regions s1.tir.nextRegion r, nextRegion := s1.tir.nextRegion + 1 } })) := by
  have hcond : (s.tir.regions.length ≥ 65536 || s.tir.regions.any (fun p => p.2.dom == dom && crosses p.2.base p.2.len r.base r.len)) = true
      ↔ ∃ p ∈ s.tir.regions, p.2.dom = dom ∧ crosses p.2.base p.2.len r.base r.len = true := by
    simp only [Bool.or_eq_true, decide_eq_true_eq, List.any_eq_true, Bool.and_eq_true, beq_iff_eq]
    exact or_iff_right (by omega)
  refine ⟨fun h => ?_, fun h => ?_⟩ <;> rw [createRegion, hr] <;> simp only
  · rw [if_pos (hcond.2 h)]
  · refine if_neg fun hx => ?_
    obtain ⟨p, hp, hdom, hx⟩ := hcond.1 hx
    rw [h p hp hdom] at hx
    cases hx

/-- What the checks of a region descriptor leave (R388). -/
theorem parseRegion_some {dom : Nat} {b : List Byte} {r : Region} (h : parseRegion dom b = some r) :
    r.dom = dom ∧ r.base % 65536 = 0 ∧ r.len % 65536 = 0 ∧ 0 < r.len ∧ r.base + r.len ≤ 2 ^ 55
      ∧ r.cls ≤ 2 ∧ r.park = .active ∧ r.removing = false := by
  unfold parseRegion at h
  extract_lets cls bk home fl host rem pre rc combo hosted at h
  rw [Option.ite_none_left_eq_some] at h
  · obtain ⟨hok, hr⟩ := h
    obtain rfl := Option.some.inj hr
    simp only [Bool.or_eq_true, not_or, bne_iff_ne, decide_eq_true_eq, not_not, Bool.not_eq_true', Bool.not_eq_false] at hok
    obtain ⟨⟨⟨⟨⟨⟨⟨⟨⟨⟨hver, hfl⟩, hb56⟩, hbase⟩, hlen0⟩, hlen⟩, hhost⟩, hrem⟩, hres⟩, htop⟩, hcombo⟩ := hok
    refine ⟨rfl, hbase, hlen, Nat.pos_of_ne_zero hlen0, Nat.not_lt.1 htop, ?_, rfl, rfl⟩
    show cls ≤ 2
    by_contra hc
    obtain ⟨n, hn⟩ : ∃ n, cls = n + 3 := ⟨cls - 3, by omega⟩
    have : combo = false := by simp only [combo, hn]
    rw [this] at hcombo
    cases hcombo

/-- Settles O26, from the beginning and the completion of a command. -/
theorem regionCommands : Obligations.RegionCommands := by
  refine ⟨fun row hrow s v s1 dom a h hawake hb hop h1 hdom ha hh => ?_, fun s c b st rs s1 hc he s2 h2 => ?_,
    fun s c b a h id s0 d hargs hlo hhi h0 hd => ⟨fun st rs i hc hst => regionEffect_refused hargs hlo hhi h0 hd hc hst,
      fun i hc => regionEffect_passed hargs hlo hhi h0 hd hc⟩,
    fun s dom b r hr hn => ⟨(createRegion_parsed hr hn).1, fun hx => ⟨fun hf hp => ?_, fun s1 hf hh => ?_⟩⟩,
    fun s dom b hr => by rw [createRegion, hr]; rfl, fun dom b r hr => parseRegion_some hr⟩
  · have step : exec (row.1 v) s = .next (regionWrite row.2 v s) ∧ row.2 ≠ 0 := by
      simp only [List.mem_cons, List.not_mem_nil, or_false] at hrow
      rcases hrow with rfl | rfl | rfl | rfl | rfl <;> exact ⟨rfl, by decide⟩
    have hbusy : fget s1 F.TIR_RGN_STAT_BUSY = 0 := by
      rw [h1, fget, rget_regWritePlain_other s v (q := F.TIR_RGN_STAT_BUSY.reg) (.inl (by decide)) (by decide)]
      exact hb
    obtain ⟨-, -, -, -, hrest⟩ := Windows.regWritePlain_rest h1
    have htir := congrArg State.tir hrest
    rw [step.1, regionWrite_begins hawake hop step.2 h1, regionBegin_idle hbusy row.2 hdom ha hh]
    refine ⟨_, removed s1 row.2 dom a h, rfl, rfl, ?_, fun l hl => by rw [hl], fun h2 => ?_, fun i h2 hc hi => ?_⟩
    · rw [← hrest]
      rfl
    · have : removed s1 row.2 dom a h = 0 := if_neg h2
      simp only [this, if_true]
      exact ⟨trivial, htir ▸ rfl⟩
    · have : removed s1 row.2 dom a h = i := by
        rw [removed, if_pos h2, hc] <;> rfl
      simp only [this, if_neg (Nat.pos_iff_ne_zero.1 hi)]
      exact ⟨trivial, htir ▸ rfl⟩
  · have step : exec (.regionCommandComplete b) s = .next (regionComplete b s) := rfl
    rw [step, regionComplete, hc]
    simp only [he, ← h2]
  · rw [(createRegion_parsed hr hn).2 hx, if_pos (by simp [hf, hp])]
    rfl
  · rw [(createRegion_parsed hr hn).2 hx, if_neg, hh]
    · rfl
    · rw [Bool.and_eq_true, decide_eq_true_eq]
      rintro ⟨h1, h2⟩
      rcases hf with hf | hf
      · rw [hf] at h1
        cases h1
      · omega

end Sys2Proof.Regions

/-! # Loads, stores, descriptor lanes and selection vectors -/

namespace Sys2Proof.Tile

open Sys2Proof Sys2Proof.Machine Sys2Proof.Claims Sys2Proof.Laws Sys2Proof.Words Sys2Proof.Sync Sys2Proof.Scalar

section Access
variable {s : State} {tag : Nat} {f : Spx} {j : Job} {n align size x : Nat}

@[simp] theorem tileAddr_setJob (j0 j : Job) : tileAddr (setJob s tag j0) tag j f align size = tileAddr s tag j f align size := rfl

@[simp] theorem tileInst_setJob (j0 j : Job) : tileInst (setJob s tag j0) j f = tileInst s j f := rfl

theorem tileLoad_reads (ha : tileAddr s tag (paid f n j) f align size = some x) (hb : tileBad s x size = false) (g : Ctx → List Byte → Ctx) :
    tileLoad f align size g (setJob s tag (paid f n j)) tag (paid f n j) = setJob s tag (retired f n (g j.ctx (tileBytes s x size)) j) := by
  have hbad : tileBad (setJob s tag (paid f n j)) x size = false := hb
  rw [tileLoad, tileAddr_setJob, ha]
  simp only [hbad, Bool.false_eq_true, if_false, retire_paid]
  rfl

theorem tileLoad_refused (ha : tileAddr s tag (paid f n j) f align size = none) (g : Ctx → List Byte → Ctx) :
    tileLoad f align size g (setJob s tag (paid f n j)) tag (paid f n j) =
      violation (setJob s tag (paid f n j)) tag 1 (tileInst s (paid f n j) f) := by
  rw [tileLoad, tileAddr_setJob, ha]
  rfl

theorem tileStore_writes (ha : tileAddr s tag (paid f n j) f align size = some x) (g : Ctx → List Byte) :
    tileStore f align g size (setJob s tag (paid f n j)) tag (paid f n j) = setJob (tileWrite s x (g j.ctx)) tag (retired f n j.ctx j) := by
  rw [tileStore, tileAddr_setJob, ha]
  exact retire_paid f n (tileWrite s x (g j.ctx)) tag j id

theorem tileStore_refused (ha : tileAddr s tag (paid f n j) f align size = none) (g : Ctx → List Byte) :
    tileStore f align g size (setJob s tag (paid f n j)) tag (paid f n j) =
      violation (setJob s tag (paid f n j)) tag 1 (tileInst s (paid f n j) f) := by
  rw [tileStore, tileAddr_setJob, ha]
  rfl

end Access

/-! ### Lanes and selection entries -/

theorem fnN_eq_zero (f : Spx) : fnN f = 0 ↔ f.fn = 0 :=
  ⟨fun h => BitVec.eq_of_toNat_eq (by simpa [fnN] using h), fun h => by rw [fnN, h]; rfl⟩

theorem ofNat_lane (x k : Nat) : BitVec.ofNat 64 (bitsOf x k 64) = BitVec.ofNat 64 (x / 2 ^ k) := by
  apply BitVec.eq_of_toNat_eq
  simp [bitsOf]

theorem ofNat_item (e : BitVec 96) : BitVec.ofNat 64 (bitsOf e.toNat 0 32) = (e.extractLsb' 0 32).setWidth 64 := by
  apply BitVec.eq_of_toNat_eq
  rw [bitsOf_toNat, BitVec.toNat_ofNat, BitVec.toNat_setWidth]

/-- Writing the item of an entry. -/
theorem ofNat_putItem (e : BitVec 96) (v : W64) : BitVec.ofNat 96 (putBits e.toNat 0 32 v.toNat) = e.extractLsb' 32 64 ++ v.setWidth 32 := by
  apply BitVec.eq_of_toNat_eq
  have he := e.isLt
  rw [toNat_append_eq_add, BitVec.extractLsb'_toNat, BitVec.toNat_setWidth, BitVec.toNat_ofNat, putBits, Nat.shiftRight_eq_div_pow]
  omega

/-- Writing the key of an entry. -/
theorem ofNat_putKey (e : BitVec 96) (v : W64) : BitVec.ofNat 96 (putBits e.toNat 32 64 v.toNat) = v ++ e.extractLsb' 0 32 := by
  apply BitVec.eq_of_toNat_eq
  have he := e.isLt
  have hv := v.isLt
  rw [toNat_append_eq_add, BitVec.extractLsb'_toNat, BitVec.toNat_ofNat, putBits, Nat.shiftRight_eq_div_pow]
  omega

/-! ### The rows of R117 -/

theorem dsetRow : PureRow .dset 0x24 1 (fun f c => setD c f.a.toNat
    (BitVec.ofNat 256 (putBits (dReg c f.a.toNat).toNat (64 * f.fn.toNat) 64 (gReg c f.b).toNat))) :=
  pureRow_of_exec (fun _ _ _ => rfl) fun _ _ => rfl

theorem dgetRow : PureRow .dget 0x25 1
    (fun f c => wroteG f (BitVec.ofNat 64 ((dReg c f.b.toNat).toNat / 2 ^ (64 * f.fn.toNat))) c.flags c) :=
  pureRow_of_exec (fun _ _ _ => rfl) fun f c => by rw [ofNat_lane]; rfl

theorem vgetRow : PureRow .vget 0x28 2 (fun f c => wroteG f (if (gReg c f.c).toNat ≥ 1024 then BitVec.allOnes 64
    else if f.fn = 0 then ((vEnt c f.b.toNat (gReg c f.c).toNat).extractLsb' 0 32).setWidth 64
    else (vEnt c f.b.toNat (gReg c f.c).toNat).extractLsb' 32 64) c.flags c) :=
  pureRow_of_exec (fun _ _ _ => rfl) fun f c => by
    have hsel : BitVec.ofNat 64 (if fnN f = 0 then bitsOf (vEnt c f.b.toNat (gReg c f.c).toNat).toNat 0 32
        else bitsOf (vEnt c f.b.toNat (gReg c f.c).toNat).toNat 32 64) =
        if f.fn = 0 then ((vEnt c f.b.toNat (gReg c f.c).toNat).extractLsb' 0 32).setWidth 64
        else (vEnt c f.b.toNat (gReg c f.c).toNat).extractLsb' 32 64 := by
      by_cases h : f.fn = 0
      · rw [if_pos ((fnN_eq_zero f).2 h), if_pos h, ofNat_item]
      · rw [if_neg (mt (fnN_eq_zero f).1 h), if_neg h, ofNat_bitsOf_toNat]
    simp only [hsel]
    rfl

theorem vputRow : PureRow .vput 0x29 2 (fun f c => let i := (gReg c f.b).toNat
    let e := vEnt c f.a.toNat i
    if i ≥ 1024 then c else setV c f.a.toNat i
      (if f.fn = 0 then e.extractLsb' 32 64 ++ (gReg c f.c).setWidth 32 else gReg c f.c ++ e.extractLsb' 0 32)) :=
  pureRow_of_exec (fun _ _ _ => rfl) fun f c => by
    have hsel : ∀ e : BitVec 96, BitVec.ofNat 96 (if fnN f = 0 then putBits e.toNat 0 32 (gReg c f.c).toNat
        else putBits e.toNat 32 64 (gReg c f.c).toNat) =
        if f.fn = 0 then e.extractLsb' 32 64 ++ (gReg c f.c).setWidth 32 else gReg c f.c ++ e.extractLsb' 0 32 := fun e => by
      by_cases h : f.fn = 0
      · rw [if_pos ((fnN_eq_zero f).2 h), if_pos h, ofNat_putItem]
      · rw [if_neg (mt (fnN_eq_zero f).1 h), if_neg h, ofNat_putKey]
    simp only [hsel]

theorem vcntRow : PureRow .vcnt 0x2A 1 (fun f c => wroteG f (BitVec.ofNat 64 (tget 0 c.vn f.b.toNat)) c.flags c) :=
  pureRow_of_exec (fun _ _ _ => rfl) fun _ _ => rfl

theorem vsetcRow : PureRow .vsetc 0x2B 1 (fun f c => { c with vn := tput 0 c.vn f.a.toNat (min 1024 (gReg c f.b).toNat) }) :=
  pureRow_of_exec (fun _ _ _ => rfl) fun _ _ => rfl

/-- An instruction that sequencer `q` begins runs its body. -/
theorem exec_begins {i : BitVec 7 → Spx → Instr} {opc n : Nat} {body : State → Nat → Job → State} {q : BitVec 7} {f : Spx} {s : State}
    {tag : Nat} {j : Job} (hexec : exec (i q f) s = .next (spx q f opc n body s)) (h : Begins opc q f s tag j) :
    exec (i q f) s = .next (body (setJob s tag (paid f n j)) tag (paid f n j)) := by
  rw [hexec, spx_begins h]

theorem spenexMemoryAndVectors : SpenexMemoryAndVectors := by
  refine ⟨fun q f s tag j h x ha hb => ?_, fun q f s tag j h x ha => ?_, fun q f s tag j h x ha hb => ?_, fun q f s tag j h x ha => ?_,
    dsetRow, dgetRow, fun q f s tag j h x ha hb => ?_, fun q f s tag j h x ha => ?_, vgetRow, vputRow, vcntRow, vsetcRow,
    fun q f s tag j h => ?_⟩
  · rw [exec_begins (i := .ld) rfl h, tileLoad_reads ha hb]
    rfl
  · rw [exec_begins (i := .st) rfl h, tileStore_writes ha]
  · rw [exec_begins (i := .ldd) rfl h, tileLoad_reads ha hb]
    rfl
  · rw [exec_begins (i := .std) rfl h, tileStore_writes ha]
  · rw [exec_begins (i := .vld) rfl h, tileLoad_reads ha hb]
  · rw [exec_begins (i := .vst) rfl h, tileStore_writes ha]
  · rw [exec_begins (i := .time) rfl h, retire_paid]
    rfl

/-! ### Tile addresses (R116) -/

/-- A tile address that passes names bytes of one region that the job holds. -/
theorem tileAddr_inside {s : State} {tag : Nat} {j : Job} {f : Spx} {align size x : Nat} (h : tileAddr s tag j f align size = some x) :
    ∃ g r, tokGrantOf s j ((gReg j.ctx f.b).toNat / 2 ^ 24 % 8) = some g ∧ g.cls = 1
      ∧ g.insts[(gReg j.ctx f.b).toNat / 2 ^ 16 % 256]? = some r ∧ ownerOf s 1 r = .job tag
      ∧ r * 65536 ≤ x ∧ x + size ≤ (r + 1) * 65536 ∧ (gReg j.ctx f.b).toNat < 2 ^ 27 := by
  unfold tileAddr at h
  simp only at h
  split at h
  · cases h
  · rename_i hw
    split at h
    · cases h
    · rename_i g hg
      split at h
      · cases h
      · rename_i hcls
        split at h
        · cases h
        · rename_i r hr
          rw [Option.ite_none_left_eq_some] at h
          obtain ⟨hok, hx⟩ := h
          obtain rfl := Option.some.inj hx
          simp only [Bool.or_eq_true, decide_eq_true_eq, bne_iff_ne, not_or, not_not] at hok
          obtain ⟨⟨he, hsize⟩, hown⟩ := hok
          exact ⟨g, r, hg, by simpa using hcls, hr, hown, by omega, by omega, by omega⟩

theorem tileAccessStaysInsideHeldRegion : TileAccessStaysInsideHeldRegion := by
  refine ⟨fun s tag j f align size x _ h => tileAddr_inside h, fun q f s tag j => ⟨fun h ha => ?_, fun h ha => ?_⟩⟩
  · rw [exec_begins (i := .ld) rfl h, tileLoad_refused ha]
  · rw [exec_begins (i := .st) rfl h, tileStore_refused ha]

/-- Settles O31, from the rows of R117 and what a tile address that passes R116 names. -/
theorem spenexMemoryAccess : Obligations.SpenexMemoryAccess := ⟨spenexMemoryAndVectors, tileAccessStaysInsideHeldRegion⟩

end Sys2Proof.Tile

/-! # Claims, handovers, yield points -/

namespace Sys2Proof.Tokens

open Sys2Proof Sys2Proof.Machine Sys2Proof.Claims Sys2Proof.Laws Sys2Proof.Words Sys2Proof.Sync Sys2Proof.Scalar Sys2Proof.Tile

/-! ### CLAIM (R67, R130) -/

/-- The number of the phase of a CLAIM, and the bit that asks it to wait. -/
theorem claim_fn {f : Spx} {phases : Nat} (h : defined 0x60 phases f = true) :
    fnN f % 64 = (f.fn.extractLsb' 0 6).toNat ∧ (64 ≤ fnN f ↔ f.fn.getLsbD 6 = true) := by
  have hlt : fnN f < 128 := by
    simp only [defined, Bool.and_eq_true, decide_eq_true_eq] at h
    exact h.1.2
  refine ⟨by simp [fnN, BitVec.extractLsb'_toNat], ?_⟩
  unfold fnN at hlt ⊢
  rw [BitVec.getLsbD, Nat.testBit, Nat.shiftRight_eq_div_pow, Nat.and_comm, Nat.and_one_is_mod, bne_iff_ne]
  omega

/-- The entries of a phase that claim none of the job's valid tokens. -/
theorem find_valid_none {l : List Nat} {m : Nat → MaskEnt} {p : MaskEnt → Bool} (h : ∀ e ∈ l, p (m e) = false) : (l.map m).find? p = none := by
  rw [List.find?_eq_none]
  intro x hx
  obtain ⟨e, he, rfl⟩ := List.mem_map.1 hx
  rw [h e he]
  exact Bool.false_ne_true

theorem find_valid_some {l : List Nat} {m : Nat → MaskEnt} {p : MaskEnt → Bool} (h : ∃ e ∈ l, p (m e) = true) :
    ∃ x, (l.map m).find? p = some x := by
  obtain ⟨e, he, hp⟩ := h
  exact Option.isSome_iff_exists.1 (List.find?_isSome.2 ⟨m e, List.mem_map.2 ⟨e, he, rfl⟩, hp⟩)

section Claim
variable {q : BitVec 7} {f : Spx} {s s0 : State} {tag : Nat} {j : Job} {phase : Nat} (h : Begins 0x60 q f s tag j)
  (h0 : s0 = setJob s tag (paid f 320 j)) (hp : phase = (f.fn.extractLsb' 0 6).toNat)
include h h0 hp

/-- What a CLAIM does whose phase writes no valid token. -/
theorem exec_claim (hfree : ∀ e ∈ phaseEntries (planOf s j.plan) phase,
      tokValid (tokOf j (maskEnt ((planOf s j.plan).masks.getD e 0)).tok) = false) :
    exec (.claim q f) s = .next (match claimPhase s0 tag (paid f 320 j) phase with
      | some s1 => modJob s1 tag fun k => { k with ctx := { k.ctx with pc := k.ctx.pc + 8, flags := flagCF k.ctx.flags false } }
      | none => if f.fn.getLsbD 6 && !holdsClaimed s tag then
          waitJob { s0 with exec := { s0.exec with held := s.exec.held ++ [⟨tag, phase, j.be, false⟩] } } tag (.claim phase) none 8
        else setJob s tag { paid f 320 j with ctx := { j.ctx with pc := j.ctx.pc + 8, flags := flagCF j.ctx.flags true } }) := by
  obtain ⟨hphase, hwait⟩ := claim_fn h.2.2.2.2.2
  have hbit : decide (fnN f ≥ 64) = f.fn.getLsbD 6 := by
    rw [Bool.eq_iff_iff, decide_eq_true_eq]
    exact hwait
  rw [exec_begins (i := .claim) rfl h, ← h0, claimBody]
  have hplan : planOf s0 (paid f 320 j).plan = planOf s j.plan := by rw [h0]; rfl
  have hfind : ((phaseEntries (planOf s j.plan) phase).map fun e => maskEnt ((planOf s j.plan).masks.getD e 0)).find?
      (fun m => tokValid (tokOf (paid f 320 j) m.tok)) = none := find_valid_none hfree
  have hheld : s0.exec.held = s.exec.held := by rw [h0]; rfl
  have hholds : holdsClaimed s0 tag = holdsClaimed s tag := by rw [h0]; rfl
  simp only [hplan, hphase, ← hp, hfind, hbit, hheld, hholds, setCF_eq, stepPc]
  have hset : modJob s0 tag (fun k => { k with ctx := { k.ctx with pc := k.ctx.pc + BitVec.ofNat 64 8, flags := flagCF k.ctx.flags true } }) =
      setJob s tag { paid f 320 j with ctx := { j.ctx with pc := j.ctx.pc + 8, flags := flagCF j.ctx.flags true } } := by
    rw [h0, modJob_setJob]
    rfl
  rw [hset] <;> rfl

end Claim

theorem claimGrantsWholeOrNotAtAll : ClaimGrantsWholeOrNotAtAll := by
  refine fun q f s tag j s0 phase h h0 hp => ⟨fun hfree => ?_, fun ⟨e, he, hv⟩ => ?_⟩
  · rw [exec_claim h h0 hp hfree]
    refine ⟨fun s1 hc => by rw [hc], fun hc hw => ?_, fun hc hw hh => ?_⟩ <;> simp only [hc]
    · rw [if_neg]
      rw [Bool.and_eq_true, Bool.not_eq_true']
      rintro ⟨h1, h2⟩
      rcases hw with hw | hw
      · rw [hw] at h1; cases h1
      · rw [hw] at h2; cases h2
    · rw [if_pos (by rw [hw, hh]; rfl)]
  · obtain ⟨hphase, -⟩ := claim_fn h.2.2.2.2.2
    have hplan : planOf s0 (paid f 320 j).plan = planOf s j.plan := by rw [h0]; rfl
    obtain ⟨m, hm⟩ := find_valid_some (m := fun e => maskEnt ((planOf s j.plan).masks.getD e 0))
      (p := fun m => tokValid (tokOf (paid f 320 j) m.tok)) ⟨e, he, hv⟩
    refine ⟨m.cls, ?_⟩
    rw [exec_begins (i := .claim) rfl h, ← h0, claimBody]
    simp only [hplan, hphase, ← hp, hm]

/-! ### HAND (R131) -/

/-- A handover that the token allows is noted for the next yield point. -/
theorem handBody_fit {s : State} {tag kind : Nat} {f : Spx} {j : Job} {g : Grant} (hg : tokGrantOf s j f.a.toNat = some g) :
    handBody f kind (setJob s tag (paid f 2 j)) tag (paid f 2 j) =
      if tokHold (tokOf j f.a.toNat) ≠ (if kind = 3 then 2 else 0) ∨ (kind = 2 ∧ g.cls ≠ 0)
      then violation (setJob s tag (paid f 2 j)) tag g.cls (g.insts.headD 0)
      else setJob s tag { retired f 2 { j.ctx with t := tput 0 j.ctx.t f.a.toNat (tokSetHold (tokOf j f.a.toNat) 1) } j with
        hands := tins j.hands f.a.toNat { kind := kind
                                          tag := if kind = 1 then ((gReg j.ctx f.b).extractLsb' 0 32).toNat else 0
                                          tok := if kind = 1 then f.c.toNat else 0 } } := by
  have hcond : ((kind = 3 && tokHold (tokOf j f.a.toNat) != 2) || (kind != 3 && tokHold (tokOf j f.a.toNat) != 0) || (kind = 2 && g.cls != 0)) = true
      ↔ tokHold (tokOf j f.a.toNat) ≠ (if kind = 3 then 2 else 0) ∨ (kind = 2 ∧ g.cls ≠ 0) := by
    by_cases h3 : kind = 3 <;> simp [h3]
  have htok : tokOf (paid f 2 j) f.a.toNat = tokOf j f.a.toNat := rfl
  rw [handBody, tokGrantOf_setJob, tokGrantOf_paid, hg]
  simp only [htok, hcond, retire_setJob]
  refine if_congr Iff.rfl rfl ?_
  simp only [id, setTok, BitVec.extractLsb'_toNat, Nat.shiftRight_zero]
  rfl

theorem exec_hand {row : (BitVec 7 → Spx → Instr) × Nat} (hrow : row ∈ [(.handFree, 0), (.handToJob, 1), (.handToEngine, 2), (.handRecall, 3)])
    {q : BitVec 7} {f : Spx} {s : State} {tag : Nat} {j : Job} (h : Begins 0x61 q f s tag j) (hk : f.fn.toNat % 4 = row.2) :
    exec (row.1 q f) s = .next (handBody f row.2 (setJob s tag (paid f 2 j)) tag (paid f 2 j)) := by
  have step : exec (row.1 q f) s = .next (hand q f row.2 s) := by
    simp only [List.mem_cons, List.not_mem_nil, or_false] at hrow
    rcases hrow with rfl | rfl | rfl | rfl <;> rfl
  rw [step, hand, if_pos (show fnN f % 4 = row.2 from hk), spx_begins h]

theorem handShowsTokenInTransit : HandShowsTokenInTransit := by
  intro row hrow q f s tag j w h hk hw
  subst hw
  rw [exec_hand hrow h hk]
  refine ⟨fun g hg hhold hcls => ?_, fun hg => ?_, fun g hg hbad => ?_⟩
  · rw [handBody_fit hg, if_neg]
    rintro (h1 | ⟨h1, h2⟩)
    · exact h1 hhold
    · exact h2 (hcls h1)
  · rw [handBody, tokGrantOf_setJob, tokGrantOf_paid, hg]
  · rw [handBody_fit hg, if_pos hbad]

/-! ### YIELD and TINST -/

/-- What TINST reads. -/
theorem tinstValue_reads (s : State) (j : Job) (f : Spx) :
    (tokGrantOf s j f.b.toNat = none → tinstValue s j f = if f.fn = 2 then 0 else BitVec.allOnes 64)
    ∧ ∀ g, tokGrantOf s j f.b.toNat = some g →
      (f.fn = 0 → g.insts.length ≤ f.imm.toNat → tinstValue s j f = BitVec.allOnes 64)
      ∧ (∀ l i, f.fn = 0 → sliceOf s (planOf s j.plan).slice = some l → g.insts[f.imm.toNat]? = some i →
        tinstValue s j f = BitVec.ofNat 64 (relInst l g.cls i))
      ∧ (f.fn = 1 → tinstValue s j f = BitVec.ofNat 64 (if 9 ≤ g.cls ∧ g.cls ≤ 12 then g.credits else g.insts.length))
      ∧ (f.fn = 2 → tinstValue s j f = tokOf j f.b.toNat) := by
  refine ⟨fun hg => ?_, fun g hg => ⟨fun h0 hi => ?_, fun l i h0 hl hi => ?_, fun h1 => ?_, fun h2 => ?_⟩⟩ <;>
    simp only [tinstValue, hg]
  · by_cases h2 : f.fn = 2
    · have : fnN f = 2 := by rw [fnN, h2]; rfl
      simp only [if_pos h2, this]
    · have : fnN f ≠ 2 := fun e => h2 (BitVec.eq_of_toNat_eq (by simpa [fnN] using e))
      rw [if_neg h2]
      split
      · omega
      · rfl
      all_goals contradiction
  · have hf : fnN f = 0 := (fnN_eq_zero f).2 h0
    have hnone : g.insts[immN f]? = none := List.getElem?_eq_none hi
    simp only [hf, hnone]
  · have hf : fnN f = 0 := (fnN_eq_zero f).2 h0
    have hsome : g.insts[immN f]? = some i := hi
    simp only [hf, hsome, hl]
  · have hf : fnN f = 1 := by rw [fnN, h1]; rfl
    simp only [hf, isPool]
    refine congrArg _ (if_congr ?_ rfl rfl)
    simp
  · have hf : fnN f = 2 := by rw [fnN, h2]; rfl
    simp only [hf]

theorem yieldAndTokenRead : YieldAndTokenRead := by
  refine ⟨fun q f s tag j h => ?_, fun q f s tag j h => ⟨tinstValue s j f, ?_, tinstValue_reads s j f⟩⟩
  · rw [exec_begins (i := .yieldPoint) rfl h, retire_paid]
    rfl
  · rw [exec_begins (i := .tinst) rfl h, retire_paid]
    rfl

/-- Settles O32, from the bodies of CLAIM, HAND, YIELD and TINST. -/
theorem tokensAreClaimedHandedAndYielded : Obligations.TokensAreClaimedHandedAndYielded :=
  ⟨claimGrantsWholeOrNotAtAll, handShowsTokenInTransit, yieldAndTokenRead⟩

end Sys2Proof.Tokens

/-! # Engine issue -/

namespace Sys2Proof.Issue

open Sys2Proof Sys2Proof.Machine Sys2Proof.Claims Sys2Proof.Laws Sys2Proof.Words Sys2Proof.Sync Sys2Proof.Scalar Sys2Proof.Tile

theorem issueTable_eq (k : EngKind) : issueTable k = (kindOpc k, kindClass k) := by cases k <;> rfl

theorem exec_issueRow (k : EngKind) (q : BitVec 7) (f : Spx) (s : State) : exec (issueRow k q f) s = .next (issue k q f s) := by
  cases k <;> rfl

theorem immN_inst (f : Spx) : immN f / 65536 % 256 = (f.imm.extractLsb' 16 8).toNat := by
  simp [immN, BitVec.extractLsb'_toNat, Nat.shiftRight_eq_div_pow]

theorem immN_inst_all (f : Spx) : immN f / 65536 % 256 = 255 ↔ f.imm.extractLsb' 16 8 = 255#8 := by
  rw [immN_inst]
  exact ⟨fun h => BitVec.eq_of_toNat_eq (by simpa using h), fun h => by rw [h]; rfl⟩

theorem immN_inc (f : Spx) : immN f % 65536 = 0 ↔ f.imm.extractLsb' 0 16 = 0#16 := by
  rw [immN_mod]
  exact ⟨fun h => BitVec.eq_of_toNat_eq (by simpa using h), fun h => by rw [h]; rfl⟩

theorem issueInsts_eq (g : Grant) (f : Spx) : issueInsts g f = named f g := by
  exact if_congr (immN_inst_all f) rfl (by rw [immN_inst])

/-- The command token is that of R85. -/
theorem mkToken_eq (k : EngKind) (f : Spx) (tag n : Nat) (j : Job) (insts : List Nat) :
    { mkToken k f tag (paid f n j) with insts := insts } = tokenFor k f tag j insts := by
  have hidx : BitVec.ofNat 12 (viewIdx (aReg j.ctx f.c.toNat)) = (aReg j.ctx f.c.toNat).extractLsb' 0 12 :=
    ofNat_bitsOf_toNat _ 0 12
  have hgen : viewGen (aReg j.ctx f.c.toNat) = (aReg j.ctx f.c.toNat).extractLsb' 12 16 := ofNat_bitsOf_toNat _ 12 16
  have hinc : BitVec.ofNat 16 (immN f % 65536) = f.imm.extractLsb' 0 16 := by
    rw [immN_mod, BitVec.ofNat_toNat, BitVec.setWidth_eq]
  by_cases h : f.imm.extractLsb' 0 16 = 0#16
  · simp only [mkToken, tokenFor, (immN_inc f).2 h, h, paid, if_true, bne_self_eq_false, Bool.false_eq_true, if_false]
    rfl
  · have h0 : ¬ immN f % 65536 = 0 := mt (immN_inc f).1 h
    simp only [mkToken, tokenFor, h0, bne_iff_ne, ne_eq, h, not_false_eq_true, hidx, hgen, hinc, paid, if_true, if_false]

@[simp] theorem issueFull_setJob (s : State) (tag : Nat) (j : Job) (k : EngKind) (op t : Nat) (insts : List Nat) :
    issueFull (setJob s tag j) k op t insts = issueFull s k op t insts := rfl

section Attempt
variable {k : EngKind} {f : Spx} {s : State} {tag : Nat} {j : Job}

theorem tryIssue_none (n : Nat) (hg : tokGrantOf s j f.b.toNat = none) :
    tryIssue k f (setJob s tag (paid f n j)) tag (paid f n j) = .violates (issueTable k).2 0 := by
  rw [tryIssue, tokGrantOf_setJob, tokGrantOf_paid, hg, issueTable_eq]

/-- What becomes of an issue whose token holds instances (R128, R130). -/
theorem tryIssue_some {g : Grant} (n : Nat) (hg : tokGrantOf s j f.b.toNat = some g) :
    tryIssue k f (setJob s tag (paid f n j)) tag (paid f n j) =
      if g.cls ≠ (issueTable k).2 ∨ ¬ (tokHold (tokOf j f.b.toNat) = 2 ↔ k = .rank) ∨ (f.imm.extractLsb' 16 8 ≠ 255#8 ∧ named f g = [])
      then .violates g.cls (g.insts.headD 0)
      else if f.imm.extractLsb' 0 16 ≠ 0#16 ∧ viewBound (aReg j.ctx f.c.toNat) = false
      then .violates 13 (viewIdx (aReg j.ctx f.c.toNat))
      else if issueFull s k f.fn.toNat tag (named f g) then .stalls
      else .sent (tokenCount k (named f g)) (sendTokens k (tokenFor k f tag j (named f g)) tag (named f g) (setJob s tag (paid f n j))) := by
  have htok : tokOf (paid f n j) f.b.toNat = tokOf j f.b.toNat := rfl
  have hctx : (paid f n j).ctx = j.ctx := rfl
  have hheld : ((tokHold (tokOf j f.b.toNat) == 2) != (k == .rank)) = true ↔ ¬ (tokHold (tokOf j f.b.toNat) = 2 ↔ k = .rank) := by
    rw [bne_iff_ne, ne_eq, Bool.eq_iff_iff, beq_iff_eq, beq_iff_eq]
  rw [tryIssue, tokGrantOf_setJob, tokGrantOf_paid, hg, issueTable_eq]
  simp only [issueInsts_eq, htok, hctx, mkToken_eq, issueFull_setJob]
  refine if_congr ?_ rfl (if_congr ?_ rfl rfl)
  · rw [Bool.or_eq_true, Bool.or_eq_true, hheld, Bool.and_eq_true, bne_iff_ne, bne_iff_ne, beq_iff_eq, ne_eq, ne_eq, ne_eq, immN_inst_all,
      or_assoc]
  · rw [Bool.and_eq_true, bne_iff_ne, ne_eq, immN_inc, Bool.not_eq_true']

end Attempt

/-- An engine-issue instruction runs the attempt and does what it comes to. -/
theorem exec_issue {k : EngKind} {q : BitVec 7} {f : Spx} {s : State} {tag : Nat} {j : Job} (h : Begins (issueTable k).1 q f s tag j) :
    exec (issueRow k q f) s = .next (issueBody k f (setJob s tag (paid f 8 j)) tag (paid f 8 j)) := by
  have h' : Begins (kindOpc k) q f s tag j := by
    rw [issueTable_eq] at h
    exact h
  rw [exec_issueRow, issue, spx_begins h']

section Sends
variable {k : EngKind} {q : BitVec 7} {f : Spx} {s : State} {tag : Nat} {j : Job} {g : Grant} (h : Begins (issueTable k).1 q f s tag j)
  (hg : tokGrantOf s j f.b.toNat = some g) (hcls : g.cls = (issueTable k).2) (hheld : tokHold (tokOf j f.b.toNat) = 2 ↔ k = .rank)
  (hname : f.imm.extractLsb' 16 8 ≠ 255#8 → named f g ≠ []) (hview : f.imm.extractLsb' 0 16 ≠ 0#16 → viewBound (aReg j.ctx f.c.toNat) = true)
include h hg hcls hheld hname hview

omit h in
/-- An issue that its token and its view allow. -/
theorem tryIssue_allowed (n : Nat) : tryIssue k f (setJob s tag (paid f n j)) tag (paid f n j) =
    if issueFull s k f.fn.toNat tag (named f g) then .stalls
    else .sent (tokenCount k (named f g)) (sendTokens k (tokenFor k f tag j (named f g)) tag (named f g) (setJob s tag (paid f n j))) := by
  rw [tryIssue_some n hg, if_neg, if_neg]
  · rintro ⟨h1, h2⟩
    rw [hview h1] at h2
    cases h2
  · rintro (h1 | h1 | ⟨h1, h2⟩)
    · exact h1 hcls
    · exact h1 hheld
    · exact hname h1 h2

theorem exec_issue_sends (hroom : issueFull s k f.fn.toNat tag (named f g) = false) :
    exec (issueRow k q f) s = .next (setJob
        (sendTokens k (tokenFor k f tag j (named f g)) tag (named f g) (setJob s tag (paid f 8 j))) tag
        (retired f (8 + 4 * (tokenCount k (named f g) - 1)) j.ctx j)) := by
  rw [exec_issue h, issueBody, tryIssue_allowed hg hcls hheld hname hview, if_neg (by rw [hroom]; decide)]
  simp only [retire, stepPc, ilen]
  congr 2
  simp only [retired, paid, id]
  congr 1
  · split <;> rfl
  · omega

theorem exec_issue_stalls (hfull : issueFull s k f.fn.toNat tag (named f g) = true) :
    exec (issueRow k q f) s = .next (waitJob (setJob s tag (paid f 8 j)) tag (.issue k f) none 8) := by
  rw [exec_issue h, issueBody, tryIssue_allowed hg hcls hheld hname hview, if_pos hfull]

end Sends

/-- One engine other than RANK, and of no TIR form, is sent one command. -/
theorem sendTokens_one {k : EngKind} {t : Token} {tag i : Nat} (s : State) (hk : k ≠ .rank) (hm : k = .move → t.op.toNat < 0x10) :
    sendTokens k t tag [i] s = pushCmd s (issueTable k).2 i t := by
  have hop : ¬ (decide (k = .move) && decide (t.op.toNat ≥ 0x10)) = true := by
    rw [Bool.and_eq_true, decide_eq_true_eq, decide_eq_true_eq]
    rintro ⟨h1, h2⟩
    have := hm h1
    omega
  rw [sendTokens, if_neg hk, if_neg hop, issueTable_eq]
  rfl

theorem pushCmd_setJob (s : State) (tag : Nat) (j : Job) (cls i : Nat) (t : Token) :
    pushCmd (setJob s tag j) cls i t = setJob (pushCmd s cls i t) tag j := rfl

theorem engineIssueSendsTokens : EngineIssueSendsTokens := by
  intro k q f s tag j g h hg hcls hheld hname hview hroom
  have hsend := exec_issue_sends h hg hcls hheld hname hview hroom
  refine ⟨hsend, fun i hi hk hm => ?_⟩
  have hcount : tokenCount k [i] = 1 := if_neg hk
  rw [hsend, hi, hcount, sendTokens_one _ hk hm, pushCmd_setJob, setJob_setJob]
  rfl

theorem engineIssueStallsOrViolates : EngineIssueStallsOrViolates := by
  refine fun k q f s tag j h => ⟨fun g hg hcls hheld hname hview hfull => exec_issue_stalls h hg hcls hheld hname hview hfull,
    fun hg => ?_, fun g hg hbad => ?_⟩
  · rw [exec_issue h, issueBody, tryIssue_none 8 hg]
  · rw [exec_issue h, issueBody, tryIssue_some 8 hg, if_pos hbad]

/-- Settles O33, from what becomes of an attempt to issue. -/
theorem engineIssue : Obligations.EngineIssue := ⟨engineIssueSendsTokens, engineIssueStallsOrViolates⟩

end Sys2Proof.Issue

/-! # AWAIT, and the end of waits and stalls -/

namespace Sys2Proof.Waiting

open Sys2Proof Sys2Proof.Machine Sys2Proof.Claims Sys2Proof.Laws Sys2Proof.Words Sys2Proof.Sync Sys2Proof.Scalar Sys2Proof.Tile

theorem viewWord_mod (i gen base : Nat) : viewWord i gen (base % 2 ^ 32) = viewWord i gen base := by
  simp [viewWord]

/-- The low 28 bits of a view are its generation and its index. -/
theorem low28_eq (w : W64) : w.extractLsb' 12 16 ++ w.extractLsb' 0 12 = w.extractLsb' 0 28 := by
  apply BitVec.eq_of_toNat_eq
  simp only [toNat_append_eq_add, BitVec.extractLsb'_toNat, Nat.shiftRight_eq_div_pow]
  omega

/-- The advancing form moves the base of the view by the count (R90). -/
theorem advance_eq (j : Job) (a n : Nat) (adv : Bool) : advance j a n adv = if adv then rebased j a n else j := by
  unfold advance rebased
  refine if_congr Iff.rfl ?_ rfl
  have hbase : (viewBase (aReg j.ctx a) + n) % 2 ^ 32 = ((aReg j.ctx a).extractLsb' 28 32 + BitVec.ofNat 32 n).toNat := by
    rw [viewBase_eq, BitVec.toNat_add, BitVec.toNat_ofNat, Nat.add_mod_mod]
  have hgen : viewGen (aReg j.ctx a) = (aReg j.ctx a).extractLsb' 12 16 := ofNat_bitsOf_toNat _ 12 16
  simp only [setA]
  rw [← viewWord_mod, hbase, viewIdx_eq, hgen, viewWord_eq_append, low28_eq]

theorem wakeJob_eq (j : Job) (cf : Bool) : wakeJob j cf = released j cf := by
  simp only [wakeJob, released, stepPc, setCF_eq]

theorem tokReady_iff (j : Job) (t : Nat) : tokReady j t = true ↔ (tokOf j t).getLsbD 0 = true ∧ (tokOf j t).extractLsb' 1 2 = 0#2 := by
  rw [tokReady, Bool.and_eq_true, tokValid, tokHold, beq_iff_eq, bitsOf_toNat]
  exact and_congr_right fun _ => ⟨fun h => BitVec.eq_of_toNat_eq (by simpa using h), fun h => by rw [h]; rfl⟩

theorem seeView_no {s : State} {w : W64} {n : Nat} (hb : w.getLsbD 63 = true) (h : (viewAhead s w).toNat < 2 ^ 31)
    (hn : (viewAhead s w).toNat < n) : seeView s w n = .no := by
  simp only [seeView, viewBound, hb, Bool.not_true, Bool.false_eq_true, if_false, viewDiff_eq, ge_iff_le, Nat.not_le.2 h, Nat.not_le.2 hn]

@[simp] theorem seeView_setJob (s : State) (tag : Nat) (j : Job) (w : W64) (n : Nat) : seeView (setJob s tag j) w n = seeView s w n := rfl

section Await
variable {q : BitVec 7} {f : Spx} {s : State} {tag : Nat} {j : Job}

/-- AWAIT on a view (R90). -/
theorem awaitBody_view (hf : f.fn.getLsbD 2 = false) {w : W64} {n : Nat} (hw : w = aReg j.ctx f.a.toNat)
    (hn : n = if f.fn.getLsbD 1 then ((gReg j.ctx f.b).extractLsb' 0 32).toNat else f.imm.toNat) (hlt : n < 2 ^ 31) :
    awaitBody f (setJob s tag (paid f 2 j)) tag (paid f 2 j) =
      if w.getLsbD 63 = false then violation (setJob s tag (paid f 2 j)) tag 13 (viewIdx w)
      else match seeView s w n with
        | .unbound => violation (setJob s tag (paid f 2 j)) tag 13 (viewIdx w)
        | .overrun => abortJob (setJob s tag (paid f 2 j)) tag
        | .yes => retireCF f (setJob s tag (paid f 2 j)) tag (advance (paid f 2 j) f.a.toNat n (f.fn.getLsbD 0)) false
        | .no => waitJob (setJob s tag (paid f 2 j)) tag (.view f.a.toNat n (f.fn.getLsbD 0))
          (if f.x then some (s.now + f.ext.toNat) else none) (if f.x then 16 else 8) := by
  have hcount : (if f.fn.getLsbD 1 then (gReg (paid f 2 j).ctx f.b).toNat % 2 ^ 32 else immN f) = n := by
    rw [hn, BitVec.extractLsb'_toNat]
    rfl
  have hctx : aReg (paid f 2 j).ctx f.a.toNat = w := hw.symm
  rw [awaitBody, if_neg (by rw [hf]; decide)]
  simp only [hcount, hctx, viewBound, Bool.not_eq_true', seeView_setJob, timeoutAt_setJob, ilen]
  refine if_congr Iff.rfl rfl ?_
  exact if_neg (Nat.not_le.2 hlt)

theorem awaitOnView : AwaitOnView := by
  intro q f s tag j h hf w n hw hn hlt
  have step : exec (.await q f) s = .next (awaitBody f (setJob s tag (paid f 2 j)) tag (paid f 2 j)) := exec_begins (i := .await) rfl h
  rw [step, awaitBody_view hf hw hn hlt]
  refine ⟨fun hb => ?_, fun hb => by rw [if_pos hb]⟩
  rw [if_neg (by rw [hb]; decide)]
  refine ⟨fun hle hahead => ?_, fun hlt => ?_, fun hover => ?_⟩
  · rw [seeView_yes hb hahead hle, advance_eq]
    simp only [retireCF_setJob]
    cases f.fn.getLsbD 0 <;> rfl
  · rw [seeView_no hb (by omega) hlt]
  · rw [seeView_overrun hb hover]

/-- AWAIT on a token (R139). -/
theorem awaitBody_token (hf : f.fn.getLsbD 2 = true) : awaitBody f (setJob s tag (paid f 2 j)) tag (paid f 2 j) =
    if tokReady j f.a.toNat then retireCF f (setJob s tag (paid f 2 j)) tag (paid f 2 j) false
    else if tokValid (tokOf j f.a.toNat) || handoverPending (setJob s tag (paid f 2 j)) tag f.a.toNat
    then waitJob (setJob s tag (paid f 2 j)) tag (.token f.a.toNat) (if f.x then some (s.now + f.ext.toNat) else none) (if f.x then 16 else 8)
    else violation (setJob s tag (paid f 2 j)) tag 0 0 := by
  rw [awaitBody, if_pos hf]
  rfl

theorem awaitOnToken : AwaitOnToken := by
  intro q f s tag j w h hf hw
  subst hw
  have step : exec (.await q f) s = .next (awaitBody f (setJob s tag (paid f 2 j)) tag (paid f 2 j)) := exec_begins (i := .await) rfl h
  rw [step, awaitBody_token hf]
  refine ⟨fun hv hh => ?_, fun hw => ?_, fun hv hp => ?_⟩
  · rw [if_pos ((tokReady_iff j _).2 ⟨hv, hh⟩), retireCF_setJob]
    rfl
  · have hnot : ¬ tokReady j f.a.toNat = true := fun e => by
      obtain ⟨h1, h2⟩ := (tokReady_iff j _).1 e
      rcases hw with ⟨-, h3⟩ | ⟨h3, -⟩
      · exact h3 h2
      · rw [h1] at h3; cases h3
    rw [if_neg hnot, if_pos]
    rw [Bool.or_eq_true]
    exact hw.imp (fun h => h.1) fun h => h.2
  · have hnot : ¬ tokReady j f.a.toNat = true := fun e => by
      rw [((tokReady_iff j _).1 e).1] at hv
      cases hv
    rw [if_neg hnot, if_neg]
    rw [Bool.or_eq_true, tokValid, hv, hp]
    simp

/-- Settles O34, from the two forms of AWAIT. -/
theorem awaits : Obligations.Awaits := ⟨awaitOnView, awaitOnToken⟩

end Await

/-! ### Waits that end -/

section Ends
variable {q : BitVec 7} {s : State} {tag : Nat} {j : Job} (h : Waits q s tag j)
include h

theorem waiter_waits : waiter s q = some (tag, j) := by
  obtain ⟨hq, hj, hp, hd⟩ := h
  have hmet : deadlineMet s j.deadline = false := by
    simp only [deadlineMet]
    rcases hd with hd | hd <;> simp [hd]
  rw [waiter, hq]
  simp only [hj]
  exact if_pos (by rw [hp, hmet]; rfl)

theorem exec_awaitSatisfied : exec (.awaitSatisfied q) s = .next ((awaitDone s tag j).getD s) := by
  show Host.Outcome.next _ = _
  rw [waiter_waits h]

theorem exec_fenceRetire : exec (.fenceRetire q) s = .next ((fenceEnd s tag j).getD s) := by
  show Host.Outcome.next _ = _
  rw [waiter_waits h]

end Ends

theorem waitsEndWithTheirCondition : WaitsEndWithTheirCondition := by
  refine fun q s tag j h => ⟨fun a n adv hw hb hle hlt => ?_, fun t hw hv hh => ?_, fun e node hw hf => ?_, fun t ht hnow ha hf => ?_⟩
  · rw [exec_awaitSatisfied h, awaitDone, hw]
    simp only [seeView_yes hb hlt hle, advance_eq, wakeJob_eq, Option.getD_some]
  · rw [exec_awaitSatisfied h, awaitDone, hw]
    simp only [if_pos ((tokReady_iff j t).2 ⟨hv, hh⟩), wakeJob_eq, Option.getD_some]
  · rw [exec_fenceRetire h, fenceEnd, hw]
    simp only [if_pos hf, wakeJob_eq, Option.getD_some]
  · show Host.Outcome.next (extTimeout q s) = _
    rw [extTimeout, waiter_waits h]
    simp only [ht, if_neg (Nat.not_lt.2 hnow), ha, hf, wakeJob_eq]

theorem stalledInstructionsIssueAgain : StalledInstructionsIssueAgain := by
  intro q s tag j h
  have step : exec (.creditStallResume q) s = .next (creditStallResume q s) := rfl
  rw [step, creditStallResume, waiter_waits h]
  refine ⟨fun k f n s1 hw ht => ?_, fun k f s1 hw ht => ?_, fun f s1 hw ht => ?_, fun k f hw ht => ?_⟩ <;> simp only [hw]
  · simp only [reissue, ht, wakeJob_eq]
    rfl
  · simp only [refabric, ht, wakeJob_eq]
    rfl
  · simp only [ht, wakeJob_eq]
    rfl
  · simp only [reissue, ht]

/-- Settles O35, from what ends a wait and what a stalled instruction tries again. -/
theorem waitsAndStallsEnd : Obligations.WaitsAndStallsEnd := ⟨waitsEndWithTheirCondition, stalledInstructionsIssueAgain⟩

end Sys2Proof.Waiting

/-! # TAKE and POST -/

namespace Sys2Proof.Queues

open Sys2Proof Sys2Proof.Machine Sys2Proof.Claims Sys2Proof.Laws Sys2Proof.Words Sys2Proof.Sync Sys2Proof.Scalar Sys2Proof.Tile Sys2Proof.Waiting

/-! ### The first number of a kind -/

theorem firstFrom_some {p : Nat → Bool} : ∀ {fuel n k : Nat}, firstFrom p fuel n = some k →
    n ≤ k ∧ k < n + fuel ∧ p k = true ∧ ∀ i, n ≤ i → i < k → p i = false
  | fuel + 1, n, k, h => by
    rw [firstFrom] at h
    by_cases hn : p n = true
    · rw [if_pos hn] at h
      obtain rfl := Option.some.inj h
      exact ⟨le_rfl, by omega, hn, fun i h1 h2 => by omega⟩
    · rw [if_neg hn] at h
      obtain ⟨h1, h2, h3, h4⟩ := firstFrom_some h
      refine ⟨by omega, by omega, h3, fun i hi hk => ?_⟩
      rcases Nat.eq_or_lt_of_le hi with rfl | hi
      · exact Bool.not_eq_true _ ▸ hn
      · exact h4 i hi hk

theorem firstFrom_none {p : Nat → Bool} : ∀ {fuel n : Nat}, (∀ i, n ≤ i → i < n + fuel → p i = false) → firstFrom p fuel n = none
  | 0, _, _ => rfl
  | fuel + 1, n, h => by
    rw [firstFrom, h n le_rfl (by omega), if_neg Bool.false_ne_true]
    exact firstFrom_none fun i h1 h2 => h i (by omega) (by omega)

/-! ### TAKE (R93) -/

section Take
variable {q : BitVec 7} {f : Spx} {s s1 s2 : State} {tag : Nat} {j : Job}

/-- A TAKE that delivers has found a free slot, and puts its entry there. -/
theorem tryTake_delivers (h : tryTake f s tag j = (some s1, s2)) : ∃ k e t, takeSlot j = some k ∧ s1 = modJob s2 tag fun x =>
    { x with
      take := tins x.take k { tag := t, epoch := s.tir.epoch % 2 ^ 48, sq := f.imm.toNat, cookie := fieldOf e 16 8
                              deadline := fieldOf e 24 8, ovc := overcast s }
      ctx := setG (setG { x.ctx with d := (List.range 4).foldl (fun m i => tput 0 m (f.a.toNat + i)
        (BitVec.ofNat 256 (fieldOf e (32 * i) 32))) x.ctx.d } f.b (BitVec.ofNat 64 (s.tir.epoch % 2 ^ 48)))
        f.c (BitVec.ofNat 64 (k + t * 65536)) } := by
  unfold tryTake at h
  cases hk : takeSlot j with
  | none => simp only [hk] at h; cases (Prod.mk.inj h).1
  | some k =>
    simp only [hk] at h
    rcases he : takeEntry (immN f) j.dom (sqPending s (immN f)) s with ⟨_ | e, sE⟩ <;> simp only [he] at h
    · cases (Prod.mk.inj h).1
    · obtain ⟨h1, h2⟩ := Prod.mk.inj h
      refine ⟨k, e, (newTag (dspCount sE F.DSP_CNT_ADM_COUNT j.dom)).1, rfl, ?_⟩
      rw [← h2]
      exact (Option.some.inj h1).symm

theorem takeSlot_none_of_full (h : ∀ k < 64, (tfind j.take k).isSome = true) : takeSlot j = none :=
  firstFrom_none fun i _ hi => by
    have := h i (by omega)
    simpa [Option.isSome_iff_ne_none] using this

theorem exec_take (h : Begins 0xC8 q f s tag j) :
    exec (.take q f) s = .next (takeBody f (setJob s tag (paid f 12 j)) tag (paid f 12 j)) := exec_begins (i := .take) rfl h

theorem takeDeliversOneEntry : TakeDeliversOneEntry := by
  refine ⟨fun q f s tag j s1 s2 h ht => ?_, fun q f s tag j h hfull => ?_, fun q f s tag j s1 s2 h hw ht => ?_, fun f s tag j s1 s2 ht => ?_⟩
  · obtain ⟨k, e, t, hk, -⟩ := tryTake_delivers ht
    rw [exec_take h, takeBody, if_neg (by rw [hk]; simp)]
    simp only [ht, stepPc, setCF_eq, ofNat_ilen]
  · rw [exec_take h, takeBody, if_pos, retireCF_setJob]
    · rfl
    · rw [takeSlot_none_of_full (j := paid f 12 j) hfull]
      rfl
  · show Host.Outcome.next _ = _
    rw [waiter_waits h]
    simp only [takeEnd, hw, ht, wakeJob_eq]
  · obtain ⟨k, e, t, hk, h1⟩ := tryTake_delivers ht
    obtain ⟨-, hlt, hfree, hlow⟩ := firstFrom_some hk
    refine ⟨k, e, t, by omega, by simpa using hfree, fun i hi => ?_, h1⟩
    have := hlow i (Nat.zero_le i) hi
    simpa [Option.isSome_iff_ne_none] using this

end Take

/-! ### POST (R94) -/

/-- The status that a POST of a completion gives. -/
theorem post_status (f : Spx) (b : W64) :
    (if f.fn.getLsbD 7 then (let v := b.toNat % 256; if v > 0x0F then stABORTED else v) else bitsOf (fnN f) 1 4) =
      if f.fn.getLsbD 7 then (if (b.extractLsb' 0 8).toNat > 0x0F then 0x0D else (b.extractLsb' 0 8).toNat) else (f.fn.extractLsb' 1 4).toNat := by
  have h8 : (b.extractLsb' 0 8).toNat = b.toNat % 256 := by simp [BitVec.extractLsb'_toNat]
  rw [h8, fnN, bitsOf_toNat]
  rfl

/-- What a POST of a completion notes of a taken request. -/
def completed (f : Spx) (s : State) (tag : Nat) (j : Job) (t : Taken) : Posted :=
  { job := tag, dom := j.dom, planId := (planOf s j.plan).id, req := t
    status := if f.fn.getLsbD 7 then (if ((gReg j.ctx f.b).extractLsb' 0 8).toNat > 0x0F then 0x0D
      else ((gReg j.ctx f.b).extractLsb' 0 8).toNat) else (f.fn.extractLsb' 1 4).toNat
    count0 := ((gReg j.ctx 4).extractLsb' 0 32).toNat, count1 := ((gReg j.ctx 5).extractLsb' 0 32).toNat, waits := dmaCmds s tag }

/-- A POST whose handle names a taken request completes it, once. -/
theorem postCompletionBody_taken {f : Spx} {s : State} {tag : Nat} {j : Job} {t : Taken} {h : Nat} (hh : h = (gReg j.ctx f.a).toNat)
    (htake : tfind j.take (h % 64) = some t) (hname : h = h % 64 + t.tag * 65536) :
    postCompletionBody f (setJob s tag (paid f 4 j)) tag (paid f 4 j) = flushPosts (setJob
      { s with exec := { s.exec with posts := s.exec.posts ++ [completed f s tag j t] } } tag
      { retired f 4 j.ctx j with take := tdel j.take (h % 64) }) := by
  have hctx : gReg (paid f 4 j).ctx f.a = gReg j.ctx f.a := rfl
  have htake' : tfind (paid f 4 j).take (h % 64) = some t := htake
  have h32 : ∀ w : W64, (w.extractLsb' 0 32).toNat = w.toNat % 2 ^ 32 := fun w => by simp [BitVec.extractLsb'_toNat]
  unfold postCompletionBody
  simp only [hctx, ← hh, htake', if_pos hname, post_status, ← h32]
  exact congrArg flushPosts (retire_setJob f { s with exec := { s.exec with posts := s.exec.posts ++ [completed f s tag j t] } } tag (paid f 4 j)
    { paid f 4 j with take := tdel j.take (h % 64) } id)

theorem postSubmitsOrCompletes : PostSubmitsOrCompletes := by
  refine ⟨fun q f s tag j s0 h hf h0 hin hq => ?_, fun q f s tag j h' h hf hh => ⟨fun t ht hh' => ?_, fun ht => ?_⟩⟩
  · have step : exec (.postChild q f) s = .next (postChildBody f s0 tag (paid f 4 j)) := by
      rw [h0]
      refine exec_begins (i := .postChild) ?_ h
      exact congrArg Host.Outcome.next (if_neg (by rw [hf]; decide))
    have hq0 : queueOf s0 (immN f) (paid f 4 j).dom 0 = true := by rw [h0]; exact hq
    have htry : tryPost f s0 (paid f 4 j) = some (admitEntry (intakeDraw s0 j.dom) f.imm.toNat j.dom true none
        (fieldOf (quadBytes j.ctx f.a.toNat) 24 8) (quadBytes j.ctx f.a.toNat)) := by
      have hin' : intakeFree s0 (paid f 4 j).dom = true := hin
      rw [tryPost, hin', if_neg (by decide)]
      simp only [hq0, if_true]
      rfl
    rw [step, postChildBody, htry]
    rfl
  · have step : exec (.postCompletion q f) s = .next (postCompletionBody f (setJob s tag (paid f 4 j)) tag (paid f 4 j)) :=
      exec_begins (i := .postCompletion) (congrArg Host.Outcome.next (if_pos hf)) h
    rw [step, postCompletionBody_taken hh ht hh']
    rfl
  · have step : exec (.postCompletion q f) s = .next (postCompletionBody f (setJob s tag (paid f 4 j)) tag (paid f 4 j)) :=
      exec_begins (i := .postCompletion) (congrArg Host.Outcome.next (if_pos hf)) h
    have hno : postCompletionBody f (setJob s tag (paid f 4 j)) tag (paid f 4 j) =
        retire f (setJob s tag (paid f 4 j)) tag (paid f 4 j) id := by
      have hctx : gReg (paid f 4 j).ctx f.a = gReg j.ctx f.a := rfl
      unfold postCompletionBody
      simp only [hctx, ← hh]
      split
      · rename_i t htake
        rw [if_neg (ht t htake)]
      · rfl
    rw [step, hno, retire_paid]
    rfl

/-- Settles O37, from what TAKE finds and what POST names. -/
theorem takesAndPosts : Obligations.TakesAndPosts := ⟨takeDeliversOneEntry, postSubmitsOrCompletes⟩

end Sys2Proof.Queues

/-! # Placement of jobs -/

namespace Sys2Proof.Placement

open Sys2Proof Sys2Proof.Machine Sys2Proof.Claims

/-- A latency-critical job that the next placement starts, and a best-effort job that was asked to make way for it. -/
def askedFor : Pend := { tag := 5, dom := 1, plan := 7 }
def askedJob : Job := { q := 1, dom := 1, be := true, asked := true }

/-- One job pends, and one runs that was asked to make way. -/
def asking : State := { exec := { plans := [(7, { dom := 1 })], pend := [askedFor], jobs := [(3, askedJob)], seqs := [(1, 3)] } }

/-- Whether job 3 is asked to make way, in the state that a step gives. -/
def askedAfter : Out → Option Bool
  | .next t => (jobOf t 3).map Job.asked
  | _ => none

/-- The placement withdraws the request, since no latency-critical job pends any more. -/
theorem jobPlacement_withdraws : askedAfter (exec .jobPlacement asking) = some false := by decide

theorem placeOn_keeps_asking : askedAfter (.next (placeOn asking askedFor 0)) = some true := by decide

/-- Refutes O38: placing the last latency-critical job that pends withdraws the request to make way of a job that was asked (R520), so the
step does more than `placeOn`. -/
theorem not_plansLoadAndJobsStart : ¬ Obligations.PlansLoadAndJobsStart := by
  intro h
  have step := (h.1 asking askedFor 0 { dom := 1 } (by decide) (by decide) rfl rfl rfl (by decide)).1
  have := jobPlacement_withdraws
  rw [step, placeOn_keeps_asking] at this
  cases this

end Sys2Proof.Placement

/-! # Deadlines -/

namespace Sys2Proof.Deadlines

open Sys2Proof Sys2Proof.Machine Sys2Proof.Claims Sys2Proof.Placement

/-- A latency-critical job that pends, and whose deadline has come. -/
def latePend : Pend := { askedFor with deadline := 1 }

/-- The late job is the only one that pends, and job 3 was asked to make way for it. -/
def lateAsking : State := { asking with now := 1, exec := { asking.exec with pend := [latePend] } }

/-- What the statement says of the pending job that is late: it leaves the intake with its record, and the rest of the machine stays. -/
def leavesLate (s : State) (p : Pend) : State :=
  workRecord (intakeGive { s with exec := { s.exec with pend := s.exec.pend.filter fun x => x.tag != p.tag } } p.dom)
    p.dom p.sq p.tag (planOf s p.plan).id p.cookie 0x02 0 false 0 0 0

/-- The request is withdrawn, since no latency-critical job pends any more. -/
theorem pendingJobLate_withdraws : askedAfter (exec (.pendingJobLate 5) lateAsking) = some false := by decide

theorem leavesLate_keeps_asking : askedAfter (.next (leavesLate lateAsking latePend)) = some true := by decide

/-- Refutes O39: dropping the last latency-critical job that pends withdraws the request to make way of a job that was asked (R520), so the
step does more than return the credit and report the job. -/
theorem not_deadlinesAndStepBounds : ¬ Obligations.DeadlinesAndStepBounds := by
  intro h
  have step : exec (.pendingJobLate 5) lateAsking = .next (leavesLate lateAsking latePend) := h.1.2.1 lateAsking 5 latePend (by decide)
  have := pendingJobLate_withdraws
  rw [step, leavesLate_keeps_asking] at this
  cases this

end Sys2Proof.Deadlines

/-! # Making way -/

namespace Sys2Proof.MakingWay

open Sys2Proof Sys2Proof.Machine Sys2Proof.Claims

/-- The best-effort job of partition 0 that runs and was not asked. -/
def mayMakeWay : Job := { q := 2, dom := 1, be := true }

/-- Tenancy is partitioned: domain 1 has sequencers 1 and 2, which best-effort jobs hold, one of them asked; domain 2 has none. A
latency-critical job of each domain pends. -/
def twoParts : State :=
  rset (rset (rset
    { exec := { jobs := [(3, { q := 1, dom := 1, be := true, asked := true }), (4, mayMakeWay)], seqs := [(1, 3), (2, 4)]
                pend := [{ tag := 5, dom := 1 }, { tag := 6, dom := 2 }] }
      smc := { doms := [(1, { part := 0 }), (2, { part := 1 })] } }
    .SMC_TENANCY 0 1) .DSP_LC_SET0 0 6) .SMC_PART_SEQ0 0 6

/-- Whether job 4 is asked to make way, in the state that a step gives. -/
def secondAsked : Out → Option Bool
  | .next t => (jobOf t 4).map Job.asked
  | _ => none

/-- No second job of partition 0 is asked: one stuck job of it waits, and one job of it is asked. -/
theorem makeWayRequest_counts_parts : secondAsked (exec .makeWayRequest twoParts) = some false := by decide

/-- Refutes O40: in partitioned tenancy the jobs stuck and the jobs asked are counted within one partition (R550), so DSP asks no second
job of a partition with one stuck job, though in all partitions more jobs are stuck than asked. -/
theorem not_heldClaimsAndMakingWay : ¬ Obligations.HeldClaimsAndMakingWay := by
  intro h
  have step := (h.2.1 twoParts 4 mayMakeWay (by decide) (by decide)).1 (by decide)
  have := makeWayRequest_counts_parts
  rw [step] at this
  cases this

end Sys2Proof.MakingWay

/-! # The near-bank unit -/

namespace Sys2Proof.NearBank

open Sys2Proof Sys2Proof.Machine Sys2Proof.Claims Sys2Proof.Laws Sys2Proof.Words

/-! ### One micro-op of a program that runs (R246) -/

section Micro
variable {s : State} {bank k op : Nat} {n : Nbu} {m : Mop}

theorem microOp_runs (h : MicroRuns s bank n k op m) (col : Nbu → Nat) (body : Nbu → MicroOut) : microOp op bank m col body s =
    match body n with
    | .fault => abortNbu s bank k 9 (mopWord op m)
    | .ue => ueNbu s bank k (col n)
    | .ok n1 => setNbu s bank { n1 with pc := n1.pc + 1, micro := n.micro + 1 } := by
  obtain ⟨rfl, hcmd, hy, ho, hm, hdef, -⟩ := h
  have hact : nbuActive (nbuOf s bank) = true := by simp [nbuActive, nbuRunning, hcmd, hy, ho, hm]
  simp only [microOp, hcmd, hact, hdef, Bool.not_true, Bool.false_eq_true, if_false] <;> rfl

theorem microOp_ok (h : MicroRuns s bank n k op m) {col : Nbu → Nat} {body : Nbu → MicroOut} {n1 : Nbu} (hb : body n = .ok n1) :
    microOp op bank m col body s = setNbu s bank (nextMicro n n1) := by
  rw [microOp_runs h, hb] <;> rfl

theorem microOp_ue (h : MicroRuns s bank n k op m) {col : Nbu → Nat} {body : Nbu → MicroOut} (hb : body n = .ue) :
    microOp op bank m col body s = ueNbu s bank k (col n) := by
  rw [microOp_runs h, hb]

theorem microOp_fault (h : MicroRuns s bank n k op m) {col : Nbu → Nat} {body : Nbu → MicroOut} (hb : body n = .fault) :
    microOp op bank m col body s = abortNbu s bank k 9 (mopWord op m) := by
  rw [microOp_runs h, hb]

/-- No charge is due where the checking lane agrees. -/
theorem checkLane_agrees (h : MicroRuns s bank n k op m) : checkLane bank m s = s := by
  obtain ⟨rfl, hcmd, -, -, -, -, hmis⟩ := h
  simp only [checkLane, hcmd, hmis, Bool.not_false, Bool.or_true, if_true]

end Micro

/-- A row that reads no column. -/
theorem microRow_of_exec {i : Nat → Mop → Instr} {op : Nat} {f g : Mop → Nbu → Nbu} (hex : ∀ s bank m, exec (i bank m) s =
    .next (microPure op bank m (f m) s)) (hfg : ∀ m n, f m n = g m n) : MicroRow i op g := by
  intro s bank n k m h
  rw [hex, microPure, microOp_ok h (n1 := f m n) rfl, hfg]

/-- A row that reads the column pP + IMM. -/
theorem columnRow_of_exec {i : Nat → Mop → Instr} {op w : Nat} {ok : Mop → Prop} {g : Mop → Nbu → W256 → Nbu} {body : State → Nat → Mop → Nbu →
    MicroOut}
    (hex : ∀ s bank n k m, MicroRuns s bank n k op m → exec (i bank m) s = .next (microOp op bank m (fun n => mopCol n m w) (body s bank m) s))
    (hbody : ∀ s bank m n, ok m → body s bank m n = match readCol s bank n (mopCol n m w) with
      | some x => .ok (g m n x)
      | none => .ue) : ColumnRow i op w ok g := by
  intro s bank n k m h hok
  constructor
  · intro x hx
    rw [hex s bank n k m h, microOp_ok h]
    rw [hbody s bank m n hok, hx]
  · intro hx
    rw [hex s bank n k m h, microOp_ue h]
    rw [hbody s bank m n hok, hx]

/-- A row that reads the column and whose effect has no other case. -/
theorem columnRow_of_microCol {i : Nat → Mop → Instr} {op : Nat} {g : Mop → Nbu → W256 → Nbu}
    (hex : ∀ s bank n k m, MicroRuns s bank n k op m → exec (i bank m) s =
    .next (microCol op bank m (g m) s)) : ColumnRow i op 12 (fun _ => True) g :=
  columnRow_of_exec hex fun _ _ _ _ _ => rfl

/-! ### The rows that move (R247) -/

/-- The low `w` bits of a word as a signed number. -/
theorem signedOf_toNat {v w : Nat} (hw : 0 < w) (x : BitVec v) : signedOf w x.toNat = (x.extractLsb' 0 w).toInt := by
  obtain ⟨k, rfl⟩ := Nat.exists_eq_add_one_of_ne_zero hw.ne'
  rw [signedOf, BitVec.toInt_eq_toNat_cond, BitVec.extractLsb'_toNat, Nat.shiftRight_zero, Nat.add_sub_cancel, pow_succ]
  simp only [Nat.cast_pow, Nat.cast_ofNat, ← pow_succ]
  exact if_congr (by omega) rfl rfl

theorem signedOf_imm (x : BitVec 16) : BitVec.ofInt 32 (signedOf 12 (x.toNat % 4096)) = (x.extractLsb' 0 12).signExtend 32 := by
  have h : signedOf 12 (x.toNat % 4096) = signedOf 12 x.toNat := by simp only [signedOf, Nat.reducePow, Nat.mod_mod]
  rw [h, signedOf_toNat (by decide)] <;> rfl

/-- The lower half of one column above the upper half of another. -/
theorem halves_joined (x y : W256) : (y <<< 128) ||| (x >>> 128) = y.extractLsb' 0 128 ++ x.extractLsb' 128 128 := by
  refine BitVec.eq_of_getLsbD_eq fun i hi => ?_
  rw [BitVec.getLsbD_append]
  by_cases h : i < 128
  · simp [h]
  · have hx : x.getLsbD (128 + i) = false := BitVec.getLsbD_of_ge x (128 + i) (by omega)
    have hlow : i - 128 < 128 := by omega
    simp [h, hi, hx, hlow, BitVec.getLsbD_eq_getElem (show i - 128 < 256 by omega)]

theorem nbuMoves : NbuMoves := by
  refine ⟨microRow_of_exec (fun _ _ _ => rfl) fun _ _ => rfl, columnRow_of_microCol fun _ _ _ _ _ _ => rfl,
    fun s bank n k m h => ⟨fun x y hx hy => ?_, fun hx => ?_⟩,
    fun s bank n k m h => ⟨fun hw => ?_, fun hw => ?_⟩, columnRow_of_microCol fun _ _ _ _ _ _ => rfl, columnRow_of_microCol fun _ _ _ _ _ _ => rfl,
    microRow_of_exec (fun _ _ _ => rfl) fun _ _ => rfl, microRow_of_exec (fun _ _ _ => rfl) fun _ _ => rfl,
    microRow_of_exec (fun _ _ _ => rfl) fun m n => ?_,
    microRow_of_exec (fun _ _ _ => rfl) fun m n => ?_⟩
  · refine congrArg Host.Outcome.next ((microOp_ok h (by simp only [hx, hy]; rfl)).trans ?_)
    rw [halves_joined] <;> rfl
  · exact congrArg Host.Outcome.next (microOp_ue h (by simp only [hx]))
  · exact congrArg Host.Outcome.next (microOp_ok h (if_neg (by omega)))
  · exact congrArg Host.Outcome.next (microOp_fault h (if_pos hw))
  · simp only [bitsOf_toNat, signedOf_imm]
  · simp only [laneAt, bitsOf_toNat]
    rw [← bitsOf_toNat, ofNat_bitsOf_toNat]

/-! ### The accumulator (R248) -/

theorem tsorted_tput {α : Type} [DecidableEq α] {d : α} {m : Table α} (hs : tsorted m = true) (k : Nat) (v : α) : tsorted (tput d m k v) = true := by
  rw [tput]
  split
  · exact tsorted_tdel hs k
  · exact tsorted_tins hs k v

/-- The accumulator with one lane raised by its product. -/
def accOne (f : Nat → Fv) (i : Nat → Int) (n : Nbu) (j : Nat) : Nbu :=
  { n with acc := tput 0 n.acc j (accAdd n.int16 (accLane n j) (f j) (i j)) }

theorem accAll_eq (n : Nbu) (f : Nat → Fv) (i : Nat → Int) : accAll n f i = (List.range 16).foldl (accOne f i) n := rfl

theorem accOne_range (f : Nat → Fv) (i : Nat → Int) {n : Nbu} (hs : tsorted n.acc = true) : ∀ c,
    tsorted ((List.range c).foldl (accOne f i) n).acc = true ∧ ((List.range c).foldl (accOne f i) n).int16 = n.int16
    ∧ ∀ j, accLane ((List.range c).foldl (accOne f i) n) j = if j < c then accAdd n.int16 (accLane n j) (f j) (i j) else accLane n j
  | 0 => ⟨hs, rfl, fun j => rfl⟩
  | c + 1 => by
    obtain ⟨h1, h2, h3⟩ := accOne_range f i hs c
    rw [List.range_succ, List.foldl_append]
    generalize (List.range c).foldl (accOne f i) n = r at h1 h2 h3 ⊢
    refine ⟨tsorted_tput h1 c _, h2, fun j => ?_⟩
    by_cases hj : j = c
    · have hold : accLane r j = accLane n j := (h3 j).trans (if_neg (by omega))
      rw [if_pos (by omega), ← h2, ← hold, hj]
      exact tget_tput_same h1 c _
    · have hother : accLane (accOne f i r c) j = accLane r j := tget_tput_other _ _ hj
      exact hother.trans ((h3 j).trans (if_congr (by omega) rfl rfl))

theorem accLane_accAll (f : Nat → Fv) (i : Nat → Int) {n : Nbu} (hs : tsorted n.acc = true) {j : Nat} (hj : j < 16) :
    accLane (accAll n f i) j = accAdd n.int16 (accLane n j) (f j) (i j) := by
  rw [accAll_eq, (accOne_range f i hs 16).2.2 j, if_pos hj]

theorem signedOf_lane (a : W256) (j : Nat) : signedOf 16 (laneAt a 16 j) = (a.extractLsb' (16 * j) 16).toInt := by
  rw [laneAt, bitsOf_toNat, signedOf_toNat (by decide), BitVec.extractLsb'_eq_self]

/-- In int16 mode every lane rises by its exact product (R248). -/
theorem accLane_macUpdate {n : Nbu} (kind : Nat) (a x : W256) {j : Nat} (hs : tsorted n.acc = true) (hi : n.int16 = true) (hj : j < 16) :
    accLane (macUpdate n kind a x) j = accLane n j + BitVec.ofInt 48
      (let p : Int := (a.extractLsb' (16 * j) 16).toInt
       let q : Int := (x.extractLsb' (16 * j) 16).toInt
       match kind with | 0 => p * q | 1 => q * q | _ => (p - q) * (p - q)) := by
  rcases kind with _ | _ | kind <;>
    simp only [macUpdate, accLane_accAll _ _ hs hj, accAdd, hi, if_true, signedOf_lane]

/-- MQZ on one half of a block of codes: the upper half closes the block where it is told to. -/
def mqzBody (s : State) (bank : Nat) (m : Mop) (n : Nbu) : MicroOut :=
  if m.imm.getLsbD 10 then
    .ok (let n1 := mqzUpdate n (nReg n m.a.toNat) true (m.imm.getLsbD 12)
      if m.imm.getLsbD 11 then closeBlock n1 (m.imm.getLsbD 12) else n1)
  else match readCol s bank n (mopCol n m 10) with
    | some x => .ok (mqzUpdate { n with cb := x } (nReg n m.a.toNat) false (m.imm.getLsbD 12))
    | none => .ue

theorem exec_nbuMqz {s : State} {bank k : Nat} {n : Nbu} {m : Mop} (h : MicroRuns s bank n k 0x0A m) :
    exec (.nbuMqz bank m) s = .next (microOp 0x0A bank m (fun n => mopCol n m 10) (mqzBody s bank m) s) := by
  have step : exec (.nbuMqz bank m) s = .next (microOp 0x0A bank m (fun n => mopCol n m 10) (mqzBody s bank m) (checkLane bank m s)) := rfl
  rw [step, checkLane_agrees h]

theorem nbuArithmetic : NbuArithmetic := by
  refine ⟨columnRow_of_microCol fun s bank n k m h => ?_, fun s bank n k m h => ?_,
    columnRow_of_exec (fun s bank n k m h => exec_nbuMqz h) fun s bank m n hh => ?_,
    fun s bank n k m h hh => ?_, microRow_of_exec (fun _ _ _ => rfl) fun _ _ => rfl,
    microRow_of_exec (fun _ _ _ => rfl) fun m n => ?_, fun n kind a x j hs hi hj => accLane_macUpdate kind a x hs hi hj⟩
  · have step : exec (.nbuMac bank m) s = .next (microCol 0x08 bank m (fun n x => macUpdate n (bitsOf m.imm.toNat 12 2) (nReg n m.a.toNat) x)
      (checkLane bank m s)) := rfl
    rw [step, checkLane_agrees h, bitsOf_toNat]
  · have step : exec (.nbuMacr bank m) s = .next (microPure 0x09 bank m
      (fun n => macUpdate n (bitsOf m.imm.toNat 12 2) (nReg n m.a.toNat) (nReg n m.d.toNat)) (checkLane bank m s)) := rfl
    rw [step, checkLane_agrees h, bitsOf_toNat]
    exact congrArg Host.Outcome.next (microOp_ok h rfl)
  · rw [mqzBody, if_neg (by rw [hh]; exact Bool.false_ne_true)]
  · rw [exec_nbuMqz h, microOp_ok h (if_pos hh)]
  · simp only [bitsOf_toNat]

/-- Settles O41: a micro-op of a program that runs changes its unit and nothing else, each row by its own effect. -/
theorem nbuInstructions : Obligations.NbuInstructions := ⟨nbuMoves, nbuArithmetic⟩

/-! ### Branches (R246) -/

theorem branchPc_eq (n : Nbu) (m : Mop) : branchPc n m =
    if (n.lo : Int) ≤ mopTarget n m ∧ mopTarget n m < n.hi then some (BitVec.ofInt 8 (mopTarget n m - 1)) else none := by
  simp only [branchPc, mopDisp, signedOf_toNat (show 0 < 10 by decide), Bool.and_eq_true, decide_eq_true_eq] <;> rfl

theorem ofInt_pred_add_one (t : Int) : BitVec.ofInt 8 (t - 1) + 1 = BitVec.ofInt 8 t := by
  rw [show (1 : BitVec 8) = BitVec.ofInt 8 1 from rfl, ← BitVec.ofInt_add, Int.sub_add_cancel]

/-- A row that branches, whose other effect leaves the counter, the region and the counts. -/
theorem branchRow_of_exec {i : Nat → Mop → Instr} {op : Nat} {g : Mop → Nbu → Nbu} {taken : Mop → Nbu → Bool}
    (hex : ∀ s bank m, exec (i bank m) s = .next (microOp op bank m (fun _ => 0) (fun n => branch m (taken m n) (g m n)) s))
    (hg : ∀ m n, branchPc (g m n) m = branchPc n m) : BranchRow i op g taken := by
  intro s bank n k m h
  refine ⟨fun ht => ?_, fun ht h1 h2 => ?_, fun ht hout => ?_⟩ <;> rw [hex]
  · exact congrArg Host.Outcome.next (microOp_ok h (by rw [ht]; rfl))
  · have hb : branch m (taken m n) (g m n) = .ok { g m n with pc := BitVec.ofInt 8 (mopTarget n m - 1) } := by
      rw [ht, branch, if_neg (by decide), hg, branchPc_eq, if_pos ⟨h1, h2⟩]
    rw [microOp_ok h hb, nextMicro, ofInt_pred_add_one]
  · have hb : branch m (taken m n) (g m n) = .fault := by
      rw [ht, branch, if_neg (by decide), hg, branchPc_eq, if_neg (by omega)]
    rw [microOp_fault h hb]

/-! ### EMIT (R257) -/

section Emit
variable {s : State} {bank k : Nat} {n : Nbu} {m : Mop} {r : RankCmd}

theorem nbuEmit_runs (h : MicroRuns s bank n k 0x14 m) (hr : tfind s.stk.ranks k = some r) (hd : n.dropRec = false) : nbuEmit bank m s =
    if 8 ≤ n.ebuf.length then abortNbu s bank k 9 (mopWord 0x14 m)
    else if isNan32 (pLane n (p6Lane n)) then
      fbump (setRank (setNbu s bank (nextMicro n n)) k (rankNote r stMEDIA_ERROR 0x43)) F.STK_NBU_STAT_BADREC (bank / 1024)
    else setRank (setNbu s bank (nextMicro n { n with ebuf := n.ebuf ++ [emitEntry r bank (nReg n m.a.toNat) (pLane n (p6Lane n))] })) k
      { r with count := r.count + 1 } := by
  obtain ⟨rfl, hcmd, hy, ho, hm, hdef, -⟩ := h
  have hact : nbuActive (nbuOf s bank) = true := by simp [nbuActive, nbuRunning, hcmd, hy, ho, hm]
  have hrank : rankOf s k = some r := hr
  simp only [nbuEmit, hcmd, hact, hdef, hrank, hd, nextMicro, Bool.not_true, Bool.false_or, Bool.false_eq_true, if_false, decide_eq_true_eq]

end Emit

theorem nbuBranchesAndEmit : NbuBranchesAndEmit := by
  refine ⟨branchRow_of_exec (fun _ _ _ => rfl) fun _ _ => rfl, branchRow_of_exec (fun _ _ _ => rfl) fun _ _ => rfl,
    branchRow_of_exec (fun _ _ _ => rfl) fun _ _ => rfl, fun s bank n k m r h hr hd => ?_⟩
  have step : exec (.nbuEmit bank m) s = .next (nbuEmit bank m s) := rfl
  rw [step, nbuEmit_runs h hr hd]
  refine ⟨fun hl hnan => ?_, fun hl hnan => ?_, fun hl => ?_⟩
  · rw [if_neg (by omega), if_neg (by rw [p6Lane, hnan]; exact Bool.false_ne_true)] <;> rfl
  · rw [if_neg (by omega), if_pos (show isNan32 (pLane n (p6Lane n)) = true from hnan)] <;> rfl
  · rw [if_pos hl]

/-! ### Yield points, refresh and the bounds of a program (R69, R261, R264) -/

theorem yieldRow_runs {s : State} {bank k op : Nat} {n : Nbu} {m : Mop} (h : MicroRuns s bank n k op m) (ends : Bool) : yieldRow op ends bank m s =
    nbuYieldPoint (setNbu s bank { n with pc := n.pc + 1, yielding := true, ending := ends, micro := 0 }) bank k := by
  obtain ⟨rfl, hcmd, hy, ho, hm, hdef, -⟩ := h
  have hact : nbuActive (nbuOf s bank) = true := by simp [nbuActive, nbuRunning, hcmd, hy, ho, hm]
  simp only [yieldRow, hcmd, hact, hdef, hy, Bool.not_true, Bool.false_eq_true, if_false]

theorem nbuRunning_iff {n : Nbu} : nbuRunning n = true ↔ n.cmd ≠ none := Option.isSome_iff_ne_none

/-- The record of a forced suspension of a bank's unit (R68). -/
def suspensionRec (s : State) (bank i : Nat) : FaultRec :=
  { block := 6, kind := 3, cls := 0, inst := bank, planId := match rankOf s i with | some r => jobPlanId s r.tok.job | none => 0
    die := dieOf 1 bank, info := (nbuOf s bank).owed }

theorem nbuYieldsAndRefresh : NbuYieldsAndRefresh := by
  refine ⟨fun s bank n k m h => congrArg Host.Outcome.next (yieldRow_runs h false),
    fun s bank n k m h => congrArg Host.Outcome.next (yieldRow_runs h true),
    ?_, fun s stack v hstep h0 hp => ?_⟩
  · rintro s bank n rfl
    have refresh : exec (.refreshDue bank) s = .next (if nbuRunning (nbuOf s bank) && !(nbuOf s bank).yielding then
      setNbu s bank { nbuOf s bank with owed := min 8 ((nbuOf s bank).owed + 1) } else s) := rfl
    have overrun : exec (.nbuOverrun bank) s = .next (if nbuRunning (nbuOf s bank) && (nbuOf s bank).micro > 128 && !(nbuOf s bank).overrun then
      fbump (setNbu s bank { nbuOf s bank with overrun := true }) F.SEQ_OVERRIDE_CNT_NBU_OVR else s) := rfl
    refine ⟨fun hc hy => ?_, fun hcy => ?_, fun i hc ho => ?_, fun i hc hm hy => ?_, fun hc hm ho => ?_, fun hmo => ?_⟩
    · rw [refresh, if_pos (by rw [nbuRunning_iff.2 hc, hy]; rfl)]
    · rw [refresh, if_neg]
      rcases hcy with hc | hy
      · simp [nbuRunning, hc]
      · simp [hy]
    · have step : exec (.forcedRefreshSuspension bank) s = .next (match (nbuOf s bank).cmd with
        | some i => if (nbuOf s bank).owed < 8 then s else faultRec (fbump (setNbu s bank { nbuOf s bank with owed := 0 })
            F.STK_NBU_STAT_FSUSP (bank / 1024)) (suspensionRec s bank i)
        | none => s) := rfl
      exact ⟨suspensionRec s bank i, rfl, rfl, rfl, rfl, by simp only [step, hc, if_neg (Nat.not_lt.2 ho)]⟩
    · have step : exec (.nbuWatchdogAbort bank) s = .next (match (nbuOf s bank).cmd with
        | some i => if (nbuOf s bank).micro < 32768 || (nbuOf s bank).yielding then s
          else abortNbu (fbump s F.SEQ_OVERRIDE_CNT_NBU_WDOG) bank i 2 (nbuOf s bank).micro
        | none => s) := rfl
      rw [step, hc]
      exact congrArg Host.Outcome.next (if_neg (by simp [hy]; omega))
    · rw [overrun, if_pos (by simp [nbuRunning_iff.2 hc, hm, ho])]
    · rw [overrun, if_neg]
      rcases hmo with hm | ho
      · simp [hm]
      · simp [ho]
  · exact congrArg Host.Outcome.next (hostReg_awake ⟨hstep, h0, hp⟩ _ _ _)

/-- Settles O42: branches, emission, yield points and refresh, by the case that the unit's state decides. -/
theorem nbuControl : Obligations.NbuControl := ⟨nbuBranchesAndEmit, nbuYieldsAndRefresh⟩

end Sys2Proof.NearBank

/-! # Selection: what a lane keeps -/

namespace Sys2Proof.Selection

open Sys2Proof Sys2Proof.Machine Sys2Proof.Claims Sys2Proof.Laws Sys2Proof.Words Sys2Proof.Merges

/-! ### The order of a selection (R302, R306) -/

/-- EXACT order between entries that differ: the key, then the item. -/
abbrev Before (a b : KI) : Prop := a.1 < b.1 ∨ (a.1 = b.1 ∧ a.2 < b.2)

theorem exactLe_iff {a b : KI} : exactLe a b = true ↔ a.1 < b.1 ∨ (a.1 = b.1 ∧ a.2 ≤ b.2) := by
  simp only [exactLe, Bool.or_eq_true, decide_eq_true_eq, Bool.and_eq_true, beq_iff_eq]

theorem exactLe_sorted (l : List KI) : (sortKI false l).Pairwise (fun a b => exactLe a b = true) :=
  List.pairwise_mergeSort (fun a b c hab hbc => by rw [exactLe_iff] at *; omega)
    (fun a b => by rw [Bool.or_eq_true, exactLe_iff, exactLe_iff]; omega) l

theorem sortKI_perm (approx : Bool) (l : List KI) : (sortKI approx l).Perm l := List.mergeSort_perm l _

/-- A sorted list of distinct items rises strictly. -/
theorem sortKI_strict {l : List KI} (hn : (l.map (·.2)).Nodup) : (sortKI false l).Pairwise Before := by
  have hitems : ((sortKI false l).map (·.2)).Nodup := ((sortKI_perm false l).map _).nodup_iff.2 hn
  refine ((exactLe_sorted l).and (List.pairwise_map.1 hitems)).imp fun {a b} ⟨hle, hne⟩ => ?_
  rw [exactLe_iff] at hle
  simp only [Before]
  omega

/-- One copy of each item stays (R306). -/
theorem dedup_items_nodup (l : List KI) : ((dedup l).map (·.2)).Nodup := by
  rw [dedup, List.Nodup, List.pairwise_map, List.pairwise_filterMap]
  refine (List.pairwise_map.1 (List.nodup_zipIdx_map_snd l)).imp_of_mem fun {p q} hp hq hne a ha b hb hab => hne ?_
  obtain ⟨hbest, hpa⟩ := Option.ite_none_right_eq_some.1 ha
  obtain ⟨hbest', hqb⟩ := Option.ite_none_right_eq_some.1 hb
  obtain rfl := Option.some.inj hpa
  obtain rfl := Option.some.inj hqb
  have h1 := List.all_eq_true.1 hbest q hq
  have h2 := List.all_eq_true.1 hbest' p hp
  simp only [Bool.or_eq_true, bne_iff_ne, decide_eq_true_eq, Bool.and_eq_true, beq_iff_eq] at h1 h2
  omega

theorem dedup_subset {l : List KI} {x : KI} (h : x ∈ dedup l) : x ∈ l := by
  obtain ⟨p, hp, hx⟩ := List.mem_filterMap.1 h
  obtain ⟨-, hpx⟩ := Option.ite_none_right_eq_some.1 hx
  exact Option.some.inj hpx ▸ List.fst_mem_of_mem_zipIdx hp

/-- A selection is the front of the sorted list. -/
theorem selectBest_fst {k : Nat} (hk : 1 ≤ k) (cuts : List Nat) (l : List KI) : (selectBest false k cuts l).1 = (sortKI false l).take k := by
  have hlen : (sortKI false l).length = l.length := (sortKI_perm false l).length_eq
  by_cases h : l.length < k
  · simp only [selectBest, if_pos h]
    exact (List.take_of_length_le (by omega)).symm
  · have hlast : (sortKI false l)[k - 1]? = some ((sortKI false l)[k - 1]'(by omega)) := List.getElem?_eq_getElem _
    simp only [selectBest, if_neg h, hlast]

theorem selectionKeepsTheBest : SelectionKeepsTheBest := by
  intro k cuts l out ties hk hsel
  have hout : out = (sortKI false (dedup l)).take k := by rw [← selectBest_fst hk cuts, hsel]
  have hperm := sortKI_perm false (dedup l)
  have hstrict := sortKI_strict (dedup_items_nodup l)
  have hitems : ((sortKI false (dedup l)).map (·.2)).Nodup := (hperm.map _).nodup_iff.2 (dedup_items_nodup l)
  subst hout
  refine ⟨?_, hstrict.sublist (List.take_sublist k _), fun x hx => dedup_subset (hperm.mem_iff.1 (List.mem_of_mem_take hx)),
    hitems.sublist ((List.take_sublist k _).map _), fun x hx hxout y hy => ?_⟩
  · rw [List.length_take, hperm.length_eq]
  · rw [← List.take_append_drop k (sortKI false (dedup l)), List.pairwise_append] at hstrict
    have hmem := hperm.mem_iff.2 hx
    rw [← List.take_append_drop k (sortKI false (dedup l)), List.mem_append] at hmem
    exact hstrict.2.2 y hy x (hmem.resolve_left hxout)

/-! ### Intake (R298, R305) -/

/-- The domain of a job, or none. -/
def entryDom (s : State) (tag : Nat) : Nat := match jobOf s tag with | some j => j.dom | none => 0

theorem candidateIntake_takes {s : State} {l : Nat} {e : Cand} {rest : List Cand} (h : (laneOf s l).inq = e :: rest) {s1 : State}
    (h1 : s1 = giveShare (setLane s l { laneOf s l with inq := rest }) e.share) : candidateIntake l s =
    match tfind (laneOf s1 l).sets (bitsOf e.e.toNat 16 6) with
    | none => fbump s1 F.SEL_STAT_ORPHAN
    | some cs => match placeEntry s1 (entryDom s1 e.tag) cs (candKey s1 e.e.toNat) e.e with
      | none => badAddress s1 e.tag cs.spill
      | some (cs1, rep, s2) => setLane s2 l { laneOf s2 l with
          sets := tins (laneOf s2 l).sets (bitsOf e.e.toNat 16 6) cs1
          reports := match rep with | some b => (laneOf s2 l).reports ++ [(bitsOf e.e.toNat 16 6, b)] | none => (laneOf s2 l).reports } := by
  subst h1
  rw [candidateIntake]
  simp only [h] <;> rfl

/-! ### SEL (R303, R310) -/

theorem need_true {b : Bool} (h : b = true) (e : Stop) : need b e = .ok () := if_pos h

/-- SEL arms empty sets in every slot named, where its operands are in range and the store has room (R303). -/
theorem selArm_arms {s : State} {i : Nat} {approx : Bool} {c : Cmd} {slots : List Nat} {k allot blocks spill : Nat} {cs : CSet}
    (h : Heads s 4 i .sel (if approx then 1 else 0) c) (hi : i < 16) (hslots : slots = maskList (lane64 c.tok.desc 0) 64)
    (hk : k = laneBits c.tok.desc 1 0 24) (hallot : allot = laneBits c.tok.desc 1 32 9) (hblocks : blocks = laneBits c.tok.desc 1 48 16)
    (hspill : spill = laneBits c.tok.desc 2 0 56)
    (hok : (slots != [] && k ≥ 1 && 1 ≤ allot && allot ≤ 256 && laneBits c.tok.desc 1 24 8 == 0 && laneBits c.tok.desc 1 41 7 == 0
      && laneBits c.tok.desc 2 56 8 == 0 && (if decide (k > 8192) then !approx && allot % 16 == 0 && spill != 0 && blocks != 0 && spill % 64 == 0
          else allot * 64 ≥ 2 * k && spill == 0 && blocks == 0)) = true)
    (hw : 8192 < k → writable s c.tok.dom spill (blocks * blockSize) 4 i = .ok ())
    (hroom : storeUsed { laneOf s i with sets := (laneOf s i).sets.filter fun p => !slots.contains p.1 } + slots.length * allot * 64 ≤ 65536)
    (hcs : cs = { approx := approx, k := k, allot := allot, collect := decide (8192 < k), spill := spill, blocks := blocks }) :
    selArm i approx s = endCmd (setLane s i (armed (laneOf s i) slots cs)) 4 i c stOK 0 slots.length 0 := by
  subst hslots hk hallot hblocks hspill hcs
  rw [selArm, engine, engineOn_serves h]
  by_cases hc : 8192 < laneBits c.tok.desc 1 0 24
  · simp only [if_pos (decide_eq_true hc)] at hok ⊢
    simp only [need_true (decide_eq_true hi), need_true hok, hw hc, need_true (decide_eq_true hroom), work_ok] <;> rfl
  · simp only [if_neg (mt of_decide_eq_true hc)] at hok ⊢
    simp only [need_true (decide_eq_true hi), need_true hok, need_true (decide_eq_true hroom), work_ok] <;> rfl

/-- SEL drains the sets of its slots into selection blocks (R310). -/
theorem selDrain_drains {s s1 s2 : State} {i w : Nat} {c : Cmd} {slots : List Nat} {out loc : Nat} {ds : List Drained}
    (h : Heads s 4 i .sel 2 c) (hi : i < 16) (hslots : slots = maskList (lane64 c.tok.desc 0) 64)
    (hout : out = laneBits c.tok.desc 1 0 56) (hloc : loc = laneBits c.tok.desc 2 0 56)
    (h0 : laneBits c.tok.desc 1 56 8 = 0) (h1 : laneBits c.tok.desc 2 56 8 = 0) (ho : out % 64 = 0) (hl : loc % 8 = 0)
    (hres : hasResult c.tok.desc = true → writable s c.tok.dom (resAddr c.tok.desc) (8 * max 1 slots.length) 4 i = .ok ())
    (hd : drainSlots s c.tok.dom (laneOf s i) (loc != 0) slots = some (s1, ds))
    (hw1 : writable s1 c.tok.dom out (ds.flatMap (·.blocks)).length 4 i = .ok ())
    (hw2 : writable s1 c.tok.dom loc (ds.flatMap (·.locs)).length 4 i = .ok ())
    (h2 : s2 = uPoke (uPoke s1 c.tok.dom out (ds.flatMap (·.blocks))) c.tok.dom loc (ds.flatMap (·.locs)))
    (hw : w = (ds.map (·.word)).headD 0) :
    selDrain i s = putCmd (setLane s2 i { laneOf s2 i with sets := (laneOf s2 i).sets.filter fun p => !slots.contains p.1 }) 4 i { c with
      phase := .finishing, status := bitsOf w 0 8, reason := bitsOf w 8 8, count := bitsOf w 16 32, spec := bitsOf w 48 16
      aux := (ds.map (·.word)).drop 1, silent := if ds = [] then 1 else 0 } := by
  subst hslots hout hloc h2 hw
  have hform : ¬ (laneBits c.tok.desc 1 56 8 != 0 || laneBits c.tok.desc 2 56 8 != 0 || laneBits c.tok.desc 1 0 56 % 64 != 0
      || laneBits c.tok.desc 2 0 56 % 8 != 0) = true := by simp [h0, h1, ho, hl]
  rw [selDrain, engine, engineOn_serves h]
  by_cases hr : hasResult c.tok.desc = true
  · simp only [need_true (decide_eq_true hi), if_pos hr, hres hr, if_neg hform, hd, hw1, hw2, work_ok, List.map_eq_nil_iff]
  · simp only [need_true (decide_eq_true hi), if_neg hr, if_neg hform, hd, hw1, hw2, work_ok, List.map_eq_nil_iff]

theorem selectionLanes : SelectionLanes := by
  refine ⟨fun s l e rest hq s1 h1 => ⟨fun hno => ?_, fun cs cs1 rep s2 hset hplace => ?_⟩, ?_, ?_⟩
  · have step : exec (.candidateIntake l) s = .next (candidateIntake l.toNat s) := rfl
    rw [step, candidateIntake_takes hq h1]
    simp only [hno] <;> rfl
  · have step : exec (.candidateIntake l) s = .next (candidateIntake l.toNat s) := rfl
    have hplace' : placeEntry s1 (entryDom s1 e.tag) cs (candKey s1 e.e.toNat) e.e = some (cs1, rep, s2) := hplace
    rw [step, candidateIntake_takes hq h1]
    simp only [hset, hplace'] <;> rfl
  · intro row hrow s i c slots k allot blocks spill cs h hi hslots hk hallot hblocks hspill hne hk1 ha1 ha2 h0 h1 h2 hsmall hbig hroom hcs
    have hform : (if decide (k > 8192) then !row.2.2 && allot % 16 == 0 && spill != 0 && blocks != 0 && spill % 64 == 0
        else allot * 64 ≥ 2 * k && spill == 0 && blocks == 0) = true := by
      by_cases hc : 8192 < k
      · obtain ⟨hx, hy, hz, hb, hs, -⟩ := hbig hc
        simp [hc, hx, hy, hz, hb, hs]
      · obtain ⟨hx, hy, hz⟩ := hsmall (by omega)
        simp [hc, hx, hy, hz]
    have hop : row.2.1 = if row.2.2 then 1 else 0 := by
      rcases List.mem_pair.1 hrow with rfl | rfl <;> rfl
    have step : exec (row.1 i) s = .next (selArm i row.2.2 s) := by
      rcases List.mem_pair.1 hrow with rfl | rfl <;> rfl
    rw [step, selArm_arms (hop ▸ h) hi hslots hk hallot hblocks hspill (by rw [hform]; simp [hne, hk1, ha1, ha2, h0, h1, h2])
      (fun hc => (hbig hc).2.2.2.2.2) hroom hcs] <;> rfl
  · intro s i c slots out loc s1 ds s2 w h hi hslots hout hloc h0 h1 ho hl hres hd hw1 hw2 h2 hw
    exact congrArg Host.Outcome.next (selDrain_drains h hi hslots hout hloc h0 h1 ho hl hres hd hw1 hw2 h2 hw)

/-- Settles O43: a lane's entry goes to the set of its slot, and a selection is the front of the sorted list of distinct items. -/
theorem selectionLanesKeepTheBest : Obligations.SelectionLanesKeepTheBest := ⟨selectionLanes, selectionKeepsTheBest⟩

end Sys2Proof.Selection

/-! # Merges, UNIQ and the collective -/

namespace Sys2Proof.Joining

open Sys2Proof Sys2Proof.Machine Sys2Proof.Claims Sys2Proof.Laws Sys2Proof.Merges Sys2Proof.Selection

/-- A check that holds lets the work go on. -/
theorem need_bind {β : Type} {b : Bool} (e : Stop) (f : Unit → Work β) (h : b = true) : (need b e >>= f) = f () := by rw [need_true h, work_ok]

/-! ### The merge stage (R314 to R316) -/

section Stage
variable {s : State} {i : Nat} {c : Cmd}

theorem mergePartial_joins {n k ties : Nat} {l best : List KI} (h : Heads s 4 i .merge 0 c) (hn : n = laneBits c.tok.desc 0 56 8)
    (hk : k = laneBits c.tok.desc 2 0 11) (hn1 : 1 ≤ n) (hn2 : n ≤ 16) (hk1 : 1 ≤ k) (hk2 : k ≤ 1024) (h1 : laneBits c.tok.desc 1 56 8 = 0)
    (h2 : laneBits c.tok.desc 2 12 52 = 0) (ho : laneBits c.tok.desc 1 0 56 % 64 = 0)
    (hl : inputBlocks s c.tok.dom (laneBits c.tok.desc 0 0 56) n = .ok l)
    (hw : writable s c.tok.dom (laneBits c.tok.desc 1 0 56) blockSize 4 i = .ok ())
    (hb : selectBest (bitAt (lane64 c.tok.desc 2) 11) k [] (dedup l) = (best, ties)) :
    mergePartial i s = endCmd (uPoke s c.tok.dom (laneBits c.tok.desc 1 0 56) (selBlock best)) 4 i c
      (if best.length < k then 0x01 else 0x00) 0 best.length (selSpec ties false 0) := by
  subst hn hk
  rw [mergePartial, engine, engineOn_serves h]
  rw [need_bind, hl, work_ok, hw, work_ok, hb]
  · rfl
  · simp [hn1, hn2, hk1, hk2, h1, h2, ho]

theorem mergeSpillSort_sorts {area n scratch : Nat} {l : List KI} (h : Heads s 4 i .merge 2 c) (harea : area = laneBits c.tok.desc 0 0 56)
    (hn : n = laneBits c.tok.desc 1 0 32) (hscratch : scratch = laneBits c.tok.desc 2 0 56) (hn1 : 1 ≤ n) (h0 : laneBits c.tok.desc 0 56 8 = 0)
    (h1 : laneBits c.tok.desc 1 32 32 = 0) (h2 : laneBits c.tok.desc 2 56 8 = 0) (ha : area % 64 = 0) (hs : scratch % 64 = 0)
    (hl : areaBlocks s c.tok.dom area n = .ok l) (hw : writable s c.tok.dom area (blockSize * n) 4 i = .ok ())
    (hw' : writable s c.tok.dom scratch (blockSize * n) 4 i = .ok ()) :
    mergeSpillSort i s = endCmd (uPoke (freeNext (uPoke s c.tok.dom scratch (freeBytes s (blockSize * n)))) c.tok.dom area
      ((List.range n).flatMap fun b => selBlock (((sortKI false (dedup l)).drop (1024 * b)).take 1024))) 4 i c 0 0 (dedup l).length 0 := by
  subst harea hn hscratch
  rw [mergeSpillSort, engine, engineOn_serves h, ← (sortKI_perm false (dedup l)).length_eq]
  rw [need_bind, hl, work_ok, hw, work_ok, hw', work_ok]
  · rfl
  · simp [hn1, h0, h1, h2, ha, hs]

theorem mergePass_advances {n k la out : Nat} {runs rs1 : List Run} {got : List KI} {ses : Session} (h : Heads s 4 i .merge 1 c)
    (hn : n = laneBits c.tok.desc 0 56 8) (hk : k = laneBits c.tok.desc 2 0 14) (hla : la = laneBits c.tok.desc 0 0 56)
    (hout : out = laneBits c.tok.desc 1 0 56) (hn1 : 1 ≤ n) (hn2 : n ≤ 16) (hk1 : 1025 ≤ k) (hk2 : k ≤ 8192) (h1 : laneBits c.tok.desc 1 56 8 = 0)
    (h2 : laneBits c.tok.desc 2 15 49 = 0) (ho : out % 64 = 0) (hr : passRuns s c.tok.dom la n = .ok runs)
    (hw : writable s c.tok.dom la (16 * n) 4 i = .ok ()) (hw' : writable s c.tok.dom out blockSize 4 i = .ok ())
    (hses : (∀ r ∈ runs, r.cur = 0) ∧ storeUsed { laneOf s i with sessions := tdel (laneOf s i).sessions la } + 8192 ≤ 65536 ∧ ses = { runs := n }
        ∨ (∃ r ∈ runs, r.cur ≠ 0) ∧ tfind (laneOf s i).sessions la = some ses)
    (ht : mergeTake (bitAt (lane64 c.tok.desc 2) 14) (runs.foldl (fun m r => m + r.ents.length) 0 + 1)
        (min 1024 (k - ses.emitted.length)) runs ses.emitted [] = (rs1, got))
    {seen : List Nat} {rest : List KI} {more : Bool} {ties : Nat} {s2 s3 : State} (hseen : seen = got.map (·.2) ++ ses.emitted)
    (hrest : rest = dedup ((rs1.flatMap fun r => r.ents.drop r.cur).filter fun e => !seen.contains e.2))
    (hmore : more = decide (rest ≠ [] ∧ got.length < k - ses.emitted.length))
    (hties : ties = (if more then 0 else match got.getLast? with
        | some e => if got.length < k - ses.emitted.length then 0 else (rest.filter fun x => x.1 == e.1).length
        | none => 0))
    (hs2 : s2 = (rs1.zipIdx).foldl (fun s p => uPoke s c.tok.dom (la + 16 * p.2 + 8) (bytesOf 4 p.1.cur)) (uPoke s c.tok.dom out (selBlock got)))
    (hs3 : s3 = setLane s2 i { laneOf s2 i with
      sessions := (if more then tins (tdel (laneOf s i).sessions la) la { ses with emitted := seen } else tdel (laneOf s i).sessions la) }) :
    mergePass i s = endCmd s3 4 i c (if !more && got.length < k - ses.emitted.length then 0x01 else 0x00) 0 got.length (selSpec ties more 0) := by
  have hopen : (runs.all fun r => r.cur == 0) = true ∧ storeUsed { laneOf s i with sessions := tdel (laneOf s i).sessions la } + 8192 ≤ 65536
        ∧ ses = { runs := n }
      ∨ (runs.all fun r => r.cur == 0) = false ∧ tfind (laneOf s i).sessions la = some ses := by
    simpa [List.all_eq_true, List.all_eq_false] using hses
  have hthis : (if (runs.all fun r => r.cur == 0) then { runs := n } else tget {} (laneOf s i).sessions la : Session) = ses := by
    rcases hopen with ⟨ha, -, hv⟩ | ⟨ha, hv⟩
    · rw [if_pos ha, hv]
    · rw [if_neg (by simp [ha]), tget, hv, Option.getD_some]
  have hmore' : decide ((rest != []) = true ∧ got.length < k - ses.emitted.length) = more := by rw [hmore]; simp
  subst hn hk hla hout
  rw [mergePass, engine, engineOn_serves h]
  rw [need_bind, hr, work_ok, hw, work_ok, hw', work_ok, need_bind, need_bind, hthis]
  · simp only [ht, ← hseen, ← hrest, hmore', ← hs2, ← hs3]
    rw [hties] <;> rfl
  · rcases hopen with ⟨ha, -, -⟩ | ⟨-, hv⟩
    · rw [ha, Bool.true_or]
    · rw [hv, Option.isSome_some, Bool.or_true]
  · rcases hopen with ⟨-, hroom, -⟩ | ⟨ha, -⟩
    · rw [decide_eq_true hroom, Bool.or_true]
    · rw [ha, Bool.not_false, Bool.true_or]
  · simp [hn1, hn2, hk1, hk2, h1, h2, ho]

/-- UNIQ writes its groups in order of their key (R317). -/
theorem uniq_groups {op n out : Nat} {l es : List KI} {gs : List (Nat × Nat × Nat × Nat)} (h : Heads s 4 i .uniq op c) (hi : i < 16)
    (hn : n = laneBits c.tok.desc 0 56 8) (hout : out = laneBits c.tok.desc 1 0 56) (hn1 : 1 ≤ n) (hn2 : n ≤ 16)
    (h1 : laneBits c.tok.desc 1 56 8 = 0) (ho : out % 64 = 0) (hl : inputBlocks s c.tok.dom (laneBits c.tok.desc 0 0 56) n = .ok l)
    (hw : writable s c.tok.dom out blockSize 4 i = .ok ())
    (hgs : gs = (groupsOf (lane64 c.tok.desc 2) l).mergeSort (fun a b => a.1 < b.1 || (a.1 == b.1 && a.2.2.1 ≤ b.2.2.1)))
    (hes : es = gs.map (fun g => if op = 0 then (g.1, g.2.1) else (min g.2.2.2 (2 ^ 32 - 1), g.2.2.1))) :
    uniq i op s = endCmd (uPoke s c.tok.dom out (selBlock (es.take 1024))) 4 i c 0 0 (min 1024 es.length)
      (selSpec 0 (decide (1024 < es.length)) 0) := by
  subst hn hout hgs hes
  rw [uniq, engine, engineOn_serves h]
  rw [need_bind, need_bind, hl, work_ok, hw, work_ok]
  · rfl
  · simp [hn1, hn2, h1, ho]
  · exact decide_eq_true hi

end Stage

theorem mergesAndUniq : MergesAndUniq := by
  refine ⟨?_, ?_, ?_, ?_⟩
  · intro s i c n k l best ties h hn hk hn1 hn2 hk1 hk2 h1 h2 ho hl hw hb
    exact congrArg Host.Outcome.next (mergePartial_joins h hn hk hn1 hn2 hk1 hk2 h1 h2 ho hl hw hb)
  · intro s i c n k la out runs rs1 got ses h hn hk hla hout hn1 hn2 hk1 hk2 h1 h2 ho hr hw hw' hses ht seen rest more ties s2 hseen hrest hmore
      hties hs2 s3 hs3
    exact congrArg Host.Outcome.next (mergePass_advances h hn hk hla hout hn1 hn2 hk1 hk2 h1 h2 ho hr hw hw' hses ht hseen hrest hmore hties
      hs2 hs3)
  · intro s i c area n scratch l h harea hn hscratch hn1 h0 h1 h2 ha hs hl hw hw'
    exact congrArg Host.Outcome.next (mergeSpillSort_sorts h harea hn hscratch hn1 h0 h1 h2 ha hs hl hw hw')
  · intro row hrow s i c n out l gs es h hi hn hout hn1 hn2 h1 ho hl hw hgs hes
    have step : exec (row.1 i) s = .next (uniq i row.2 s) := by
      rcases List.mem_pair.1 hrow with rfl | rfl <;> rfl
    exact step.trans (congrArg Host.Outcome.next (uniq_groups h hi hn hout hn1 hn2 h1 ho hl hw hgs hes))

/-! ### The collective (R318 to R320) -/

theorem collectiveJoinsContributions : CollectiveJoinsContributions := by
  intro s c p k nc nmax z kids eps best ties lb inbox out h h0 h1 h2 hp hk hnc hnmax hz hinbox hout hk1 hk2 hmode hnc2 hm1 hm2 h6 h8 h30 hloc hin ho
    hlb hkids heps hnodup hlen hw hw' hb
  subst hk hnc hnmax hz hinbox hout heps
  refine congrArg Host.Outcome.next (?_ : mergeCollective 16 s = _)
  rw [mergeCollective, engine, engineOn_serves h]
  dsimp only
  rw [need_bind, need_bind, hp, work_ok, need_bind, hlb, work_ok, hkids, work_ok, need_bind, hw, work_ok]
  · by_cases hnil : kids = []
    · rw [if_pos hnil, work_ok, hb] <;> rfl
    · rw [if_neg hnil, hw' hnil, work_ok, hb] <;> rfl
  · rw [decide_eq_true hnodup, decide_eq_true hlen, Bool.and_self]
  · simp [hk1, hk2, hmode, hnc2, hm1, hm2, h6, -Nat.reducePow, h8, h30, hloc, hin, ho]
  · simp [h0, h1, h2]
  · rfl

/-- Settles O44: each command of the merge stage reads its blocks and writes one selection block with its result word. -/
theorem mergesUniqAndCollectives : Obligations.MergesUniqAndCollectives := ⟨mergesAndUniq, collectiveJoinsContributions⟩

end Sys2Proof.Joining

/-! # The end of engine commands -/

namespace Sys2Proof.EngineEnds

open Sys2Proof Sys2Proof.Machine Sys2Proof.Claims Sys2Proof.Laws

/-! ### A unit that the job does not own (R85) -/

theorem engine_foreign {s : State} {cls inst op : Nat} {kind : EngKind} {c : Cmd} (hc : engHead s cls inst = some c) (hk : c.tok.kind = kind)
    (hop : c.tok.op.toNat = op) (ho : ownerOf s cls inst ≠ .job c.tok.job) (body : State → Cmd → Work State) :
    engine cls inst kind op body s = violation s c.tok.job cls inst := by
  have hstart : startChecks s cls inst c = .error (.violates cls inst) := if_pos (bne_iff_ne.2 ho)
  rw [engine, hc, engineOn]
  simp only [hk, hop, bne_self_eq_false, Bool.or_self, Bool.false_eq_true, if_false, hstart]
  rfl

/-- The row runs a body for the command at the head of one engine unit: `inst`, where that is below the number of units. -/
def RunsAt (inst : Nat) (row : Instr × Nat × EngKind × Nat) : Prop :=
  ∃ n body, (inst < (match row.2.1 with | 3 => 16 | 4 => 17 | 5 => 8 | _ => 2) → n = inst)
    ∧ ∀ s, exec row.1 s = .next (engine row.2.1 n row.2.2.1 row.2.2.2 body s)

theorem toNat_ofNat_of_lt {w n : Nat} (h : n < 2 ^ w) : (BitVec.ofNat w n).toNat = n := BitVec.toNat_ofNat n w ▸ Nat.mod_eq_of_lt h

/-- A row of the command list names its unit as a number. -/
theorem runsAt_number {inst cls op : Nat} {i : Instr} {kind : EngKind} {body : State → Cmd → Work State}
    (h : ∀ s, exec i s = .next (engine cls inst kind op body s)) : RunsAt inst (i, cls, kind, op) := ⟨inst, body, fun _ => rfl, h⟩

/-- Or as a word that is wide enough for every unit of its class. -/
theorem runsAt_word {inst cls op w : Nat} {i : Instr} {kind : EngKind} {body : State → Cmd → Work State}
    (hw : (match cls with | 3 => 16 | 4 => 17 | 5 => 8 | _ => 2) = 2 ^ w)
    (h : ∀ s, exec i s = .next (engine cls (BitVec.ofNat w inst).toNat kind op body s)) : RunsAt inst (i, cls, kind, op) :=
  ⟨_, body, fun hlt => toNat_ofNat_of_lt (lt_of_lt_of_eq hlt hw), h⟩

theorem engine_rows (inst : Nat) : ∀ row ∈
    [(.scanLoadGroup (BitVec.ofNat 4 inst), 3, .scan, 0), (.scanStackList (BitVec.ofNat 4 inst) [] none, 3, .scan, 1),
     (.scanResidentList (BitVec.ofNat 4 inst) [] none, 3, .scan, 2), (.selArmExact inst, 4, .sel, 0), (.selArmApprox inst, 4, .sel, 1),
     (.selDrain inst, 4, .sel, 2), (.mergePartial inst, 4, .merge, 0), (.mergePass inst, 4, .merge, 1), (.mergeSpillSort inst, 4, .merge, 2),
     (.mergeCollective inst, 4, .merge, 3), (.uniqValues inst, 4, .uniq, 0), (.uniqCounts inst, 4, .uniq, 1),
     (.encCentroid (BitVec.ofNat 3 inst) none, 5, .enc, 1), (.gathGather (BitVec.ofNat 1 inst), 7, .gath, 0),
     (.gathPool (BitVec.ofNat 1 inst), 7, .gath, 1), (.scatOverwrite (BitVec.ofNat 1 inst), 7, .scat, 0),
     (.scatAdd (BitVec.ofNat 1 inst), 7, .scat, 1), (.scatReplace (BitVec.ofNat 1 inst), 7, .scat, 2)], RunsAt inst row := by
  simp only [List.forall_mem_cons]
  exact ⟨runsAt_word (w := 4) rfl fun _ => rfl, runsAt_word (w := 4) rfl fun _ => rfl, runsAt_word (w := 4) rfl fun _ => rfl,
    runsAt_number fun _ => rfl, runsAt_number fun _ => rfl, runsAt_number fun _ => rfl, runsAt_number fun _ => rfl,
    runsAt_number fun _ => rfl, runsAt_number fun _ => rfl, runsAt_number fun _ => rfl, runsAt_number fun _ => rfl,
    runsAt_number fun _ => rfl, runsAt_word (w := 3) rfl fun _ => rfl, runsAt_word (w := 1) rfl fun _ => rfl,
    runsAt_word (w := 1) rfl fun _ => rfl, runsAt_word (w := 1) rfl fun _ => rfl, runsAt_word (w := 1) rfl fun _ => rfl,
    runsAt_word (w := 1) rfl fun _ => rfl, fun _ h => nomatch h⟩

theorem engineRefusesForeignInstance : EngineRefusesForeignInstance := by
  intro s c inst row hrow hlt hc hk hop ho
  obtain ⟨n, body, hn, hex⟩ := engine_rows inst row hrow
  rw [hex, hn hlt, engine_foreign hc hk hop ho]

/-! ### Completion (R87, R258) -/

section Writes
variable {s s2 : State} {cls inst off : Nat} {t : Token} {w : List Byte} {next : State → State}

theorem writeResult_none (h : hasResult t.desc = false) : writeResult s cls inst t off w next = next s := by
  rw [writeResult, h] <;> rfl

theorem writeResult_written (h : hasResult t.desc = true) (hw : uWrite s t.dom (resAddr t.desc + off) w = .ok s2) :
    writeResult s cls inst t off w next = next s2 := by
  rw [writeResult, h, hw] <;> rfl

end Writes

theorem engineCommandsComplete : EngineCommandsComplete := by
  refine ⟨fun s cls inst c s1 hcls hc hsil h1 inc hinc => ?_, fun s cls inst hcls hno => ?_, fun s stack i r s1 s2 hr h1 hj hres hw => ?_⟩
  · have hready : readyCmd s cls inst = some c := hc
    have hcomplete : exec (.engineCommandComplete cls inst) s = .next (writeResult s1 cls inst c.tok (resOff c inst)
        (resWord c.status c.reason c.count c.spec ++ c.aux.flatMap (bytesOf 8)) fun s2 => flushPosts (sweepGrants (pulseTok s2 c.tok inc))) := by
      refine congrArg Host.Outcome.next (?_ : engineComplete cls inst s = _)
      simp only [engineComplete, if_neg hcls, hready, completeCmd, hsil, ← h1, hinc] <;> rfl
    refine ⟨fun hres => ?_, fun s2 hres hw => ?_⟩
    · rw [hcomplete, writeResult_none hres]
    · rw [hcomplete, writeResult_written hres hw]
  · have hready : readyCmd s cls inst = none := List.find?_eq_none.2 fun c hc => by simp [hno c hc]
    refine congrArg Host.Outcome.next (?_ : engineComplete cls inst s = _)
    rw [engineComplete, if_neg hcls, hready]
  · obtain ⟨j, hj⟩ := hj
    have hj1 : jobOf s1 r.tok.job = some j := by rw [h1]; exact hj
    refine congrArg Host.Outcome.next (?_ : completeRank s stack = _)
    simp only [completeRank, hr, ← h1, hj1, Option.isNone_some, Bool.false_eq_true, if_false]
    exact writeResult_written hres hw

/-- Settles O45: an engine refuses the command of a job that does not own the unit, and a command whose effects are done leaves with its
result word and its pulse. -/
theorem engineCommandsEnd : Obligations.EngineCommandsEnd := ⟨engineRefusesForeignInstance, engineCommandsComplete⟩

end Sys2Proof.EngineEnds

/-! # Register writes that act and reads that latch -/

namespace Sys2Proof.Actions

open Sys2Proof Sys2Proof.Machine Sys2Proof.Claims Sys2Proof.Laws Sys2Proof.Words Sys2Proof.Registers Sys2Proof.Windows

/-! ### Writes (R46, R523, R533, R661) -/

/-- A row that is one host write has its effect at once in an awake node. -/
theorem regRow_of_exec {i : W32 → Instr} {r : Reg} {a : W32 → HostAcc} {g f : W32 → State → State}
    (hex : ∀ v s, exec (i v) s = .next (hostReg s r (a v) (g v)))
    (hfg : ∀ v s, Awake s → g v s = f v s) : RegRow i f := by
  intro v s h
  rw [hex, hostReg_awake h, hfg v s h]

theorem getLsbD_or_set (v : W32) {b : W32} {k : Nat} (h : b.getLsbD k = true) : (v ||| b).getLsbD k = true := by
  rw [BitVec.getLsbD_or, h, Bool.or_true]

theorem getLsbD_or_clear (v : W32) {b : W32} {k : Nat} (h : b.getLsbD k = false) : (v ||| b).getLsbD k = v.getLsbD k := by
  rw [BitVec.getLsbD_or, h, Bool.or_false]

theorem waketolWrite_awake {s : State} (h : Awake s) (v : W32) : waketolWrite v s = regWritePlain s .PRB_WAKETOL 0 v := by
  have hstate : fget (regWritePlain s .PRB_WAKETOL 0 v) F.PRB_PWR_STAT_STATE = 0 := by
    rw [fget, rget_regWritePlain_other (q := F.PRB_PWR_STAT_STATE.reg) s v (.inl (by decide)) (by decide)]
    exact h.2.1
  rw [waketolWrite, hstate]
  exact if_neg (Nat.not_lt_zero _)

theorem polWrite_eq (v : W32) (s : State) : polWrite v s =
    let s1 := regWritePlain s .DSP_POL (fget s F.DSP_DOM_SEL_V) v
    let b : Bucket := { level := max 1 (fget s1 F.DSP_POL_BURST (fget s F.DSP_DOM_SEL_V)) * 1000000, last := s.now }
    { s1 with exec := { s1.exec with bucket := tput {} s.exec.bucket (fget s F.DSP_DOM_SEL_V) b } } := by
  obtain ⟨-, -, hexec, -⟩ := regWritePlain_rest (rfl : _ = regWritePlain s .DSP_POL (fget s F.DSP_DOM_SEL_V) v)
  simp only [polWrite, hexec]

/-- A write with STOP ends the series of its queue. -/
theorem seriesWrite_stop (v : W32) (s : State) : seriesWrite (v ||| 0x8000) s =
    let s1 := regWritePlain s .DSP_SERIES 0 (v ||| 0x8000)
    { s1 with exec := { s1.exec with series := s.exec.series.filter fun p => p.2.sq != fget s1 F.DSP_SERIES_QUEUE } } := by
  obtain ⟨-, -, hexec, -⟩ := regWritePlain_rest (rfl : _ = regWritePlain s .DSP_SERIES 0 (v ||| 0x8000))
  have hstop : (v ||| 0x8000).getLsbD 15 = true := getLsbD_or_set v (by decide)
  simp only [seriesWrite, if_pos hstop, endSeries, hexec]

theorem shdCtl_clear (v : W32) (s : State) : shdCtl (v ||| 0x100) s =
    let s1 := regWritePlain s .PRB_SHD_CTL 0 (v ||| 0x100)
    { s1 with flt := { s1.flt with charge := [], bins := [], plans := [] } } := if_pos (getLsbD_or_set v (by decide))

/-! ### The lifecycle (R661, R662) -/

theorem confirm_iff (v : W32) : bitsOf (v ||| 0x10000).toNat 8 8 = 0xA5 ↔ v.extractLsb' 8 8 = 0xA5#8 := by
  have h : (v ||| 0x10000).extractLsb' 8 8 = v.extractLsb' 8 8 := by
    refine BitVec.eq_of_getLsbD_eq fun i hi => ?_
    rw [BitVec.getLsbD_extractLsb', BitVec.getLsbD_extractLsb', getLsbD_or_clear v (by revert i; decide)]
  rw [bitsOf_toNat, h, BitVec.toNat_eq] <;> rfl

theorem lifecycle_goProd (v : W32) (s : State) : lifecycle (v ||| 0x10000) s =
    let s1 := regWritePlain s .SMC_LIFECYCLE 0 (v ||| 0x10000)
    let s2 := if v.extractLsb' 8 8 = 0xA5#8 ∧ locked s = false ∧ fget s F.PRB_STEP_READY = 0 then
      fset { s1 with prb := { s1.prb with prodFuse := true } } F.SMC_LIFECYCLE_PRODUCTION 1 else s1
    if v.getLsbD 17 then fset s2 F.SMC_LIFECYCLE_LOCKED 1 else s2 := by
  have hgo : (v ||| 0x10000).getLsbD 16 = true := getLsbD_or_set v (by decide)
  have hlock : (v ||| 0x10000).getLsbD 17 = v.getLsbD 17 := getLsbD_or_clear v (by decide)
  simp only [lifecycle, hgo, hlock, Bool.true_and, Bool.and_eq_true, decide_eq_true_eq, Bool.not_eq_true', confirm_iff, and_assoc]

/-- What a write with LOCK leaves but the lock. -/
def beforeLock (v : W32) (s : State) : State :=
  let s1 := regWritePlain s .SMC_LIFECYCLE 0 (v ||| 0x20000)
  if v.getLsbD 16 && bitsOf (v ||| 0x20000).toNat 8 8 = 0xA5 && !locked s && fget s F.PRB_STEP_READY = 0 then
    fset { s1 with prb := { s1.prb with prodFuse := true } } F.SMC_LIFECYCLE_PRODUCTION 1 else s1

theorem lifecycle_lock (v : W32) (s : State) : lifecycle (v ||| 0x20000) s = fset (beforeLock v s) F.SMC_LIFECYCLE_LOCKED 1 := by
  have hlock : (v ||| 0x20000).getLsbD 17 = true := getLsbD_or_set v (by decide)
  have hgo : (v ||| 0x20000).getLsbD 16 = v.getLsbD 16 := getLsbD_or_clear v (by decide)
  simp only [lifecycle, hgo, if_pos hlock, beforeLock]

theorem regWritePlain_eq (s : State) (r : Reg) (b : Nat) (v : W32) : ∃ rs, regWritePlain s r b v = { s with regs := rs } := by
  unfold regWritePlain
  split
  · exact ⟨_, rfl⟩
  · exact ⟨_, rfl⟩

theorem tsorted_fset {s : State} (hs : tsorted s.regs = true) (f : Fld) (v : Nat) (b : Nat := 0) : tsorted (fset s f v b).regs = true :=
  tsorted_rset hs _ _ _

theorem tsorted_regWritePlain {s : State} (hs : tsorted s.regs = true) (r : Reg) (b : Nat) (v : W32) :
    tsorted (regWritePlain s r b v).regs = true := by
  unfold regWritePlain
  split
  · exact tsorted_fset (tsorted_rset hs _ _ _) _ _ _
  · exact tsorted_rset hs _ _ _

/-- A write with LOCK changes registers, and with GO_PROD the fuse. -/
theorem beforeLock_eq (v : W32) (s : State) : ∃ rs fuse, beforeLock v s = { s with regs := rs, prb := { s.prb with prodFuse := fuse } }
    ∧ (v.getLsbD 16 = false → fuse = s.prb.prodFuse) := by
  obtain ⟨rs, h1⟩ := regWritePlain_eq s .SMC_LIFECYCLE 0 (v ||| 0x20000)
  simp only [beforeLock, h1]
  split
  next h =>
    refine ⟨_, true, rfl, fun hv => ?_⟩
    rw [hv] at h
    cases h
  · exact ⟨rs, s.prb.prodFuse, rfl, fun _ => rfl⟩

theorem tsorted_beforeLock {s : State} (hs : tsorted s.regs = true) (v : W32) : tsorted (beforeLock v s).regs = true := by
  have h1 := tsorted_regWritePlain hs .SMC_LIFECYCLE 0 (v ||| 0x20000)
  rw [beforeLock]
  split
  · exact tsorted_fset h1 _ _
  · exact h1

theorem lock_locks {s : State} (h : Awake s) (hs : tsorted s.regs = true) (v : W32) : ∃ t, exec (.lock v) s = .next t
    ∧ fget t F.SMC_LIFECYCLE_LOCKED = 1 ∧ { t with regs := s.regs, prb := { t.prb with prodFuse := s.prb.prodFuse } } = s
    ∧ (v.getLsbD 16 = false → t.prb.prodFuse = s.prb.prodFuse) := by
  have step : exec (.lock v) s = .next (hostReg s .SMC_LIFECYCLE (.reg .SMC_LIFECYCLE 0 (v ||| 0x20000)) (lifecycle (v ||| 0x20000))) := rfl
  rw [hostReg_awake h, lifecycle_lock] at step
  have hlocked := fget_fset_same (tsorted_beforeLock hs v) (f := F.SMC_LIFECYCLE_LOCKED) (by decide) 1 0
  obtain ⟨rs, fuse, hb, hfuse⟩ := beforeLock_eq v s
  exact ⟨_, step, hlocked, hb ▸ rfl, fun hv => hb ▸ hfuse hv⟩

theorem registerWritesThatAct : RegisterWritesThatAct :=
  ⟨regRow_of_exec (fun _ _ => rfl) fun _ _ _ => rfl, regRow_of_exec (fun _ _ => rfl) fun _ _ _ => rfl,
   regRow_of_exec (fun _ _ => rfl) fun _ _ _ => rfl,
   regRow_of_exec (fun _ _ => rfl) fun _ _ _ => rfl, regRow_of_exec (fun _ _ => rfl) fun _ _ _ => rfl,
   regRow_of_exec (fun _ _ => rfl) fun _ _ _ => rfl,
   regRow_of_exec (fun _ _ => rfl) fun _ _ _ => rfl,
   fun r hr => regRow_of_exec (r := r) (a := fun v => .reg r 0 v) (fun _ _ => congrArg Host.Outcome.next (if_pos (List.contains_iff_mem.2 hr)))
     fun _ _ _ => rfl,
   regRow_of_exec (fun _ _ => rfl) fun v s _ => polWrite_eq v s, regRow_of_exec (fun _ _ => rfl) fun v s _ => seriesWrite_stop v s,
   regRow_of_exec (fun _ _ => rfl) fun _ _ _ => rfl, regRow_of_exec (fun _ _ => rfl) fun _ _ _ => rfl,
   regRow_of_exec (fun _ _ => rfl) fun _ _ _ => rfl,
   regRow_of_exec (fun _ _ => rfl) fun v _ h => waketolWrite_awake h v, regRow_of_exec (fun _ _ => rfl) fun v s _ => shdCtl_clear v s,
   regRow_of_exec (fun _ _ => rfl) fun v s _ => lifecycle_goProd v s, fun v _ h hs => lock_locks h hs v⟩

/-! ### Reads of a low half (R41, R163) -/

theorem foldl_min (l : List Nat) (m : Nat) : (∀ x ∈ l, l.foldl min m ≤ x) ∧ l.foldl min m ≤ m ∧ (l.foldl min m ∈ l ∨ l.foldl min m = m) := by
  induction l generalizing m with
  | nil => exact ⟨fun _ hx => absurd hx List.not_mem_nil, le_rfl, .inr rfl⟩
  | cons a l ih =>
    obtain ⟨h1, h2, h3⟩ := ih (min m a)
    simp only [List.foldl_cons, List.mem_cons, forall_eq_or_imp]
    refine ⟨⟨by omega, h1⟩, by omega, ?_⟩
    rcases h3 with h3 | h3
    · exact .inl (.inr h3)
    · rcases min_choice m a with hm | hm
      · exact .inr (h3.trans hm)
      · exact .inl (.inl (h3.trans hm))

theorem lowHalvesLatchHighHalves : LowHalvesLatchHighHalves := by
  refine ⟨fun s h => congrArg Host.Outcome.next (hostReg_early h _ rfl _ _), fun s h => congrArg Host.Outcome.next (hostReg_awake h _ _ _),
    fun s h => ⟨oldestHold s, congrArg Host.Outcome.next (hostReg_awake h _ _ _), ?_⟩⟩
  obtain ⟨h1, -, h3⟩ := foldl_min (holds s) noEpoch
  exact ⟨h1, h3.imp id fun h => ⟨h, fun x hx => h ▸ h1 x hx⟩⟩

/-- Settles O46: each write has the effect of its row in an awake node, and the read of a low half latches the upper one. -/
theorem registerWritesThatActAndReadsThatLatch : Obligations.RegisterWritesThatActAndReadsThatLatch :=
  ⟨registerWritesThatAct, lowHalvesLatchHighHalves⟩

end Sys2Proof.Actions

/-! # Pace and device time -/

namespace Sys2Proof.Timing

open Sys2Proof Sys2Proof.Machine Sys2Proof.Claims Sys2Proof.Laws Sys2Proof.Registers Sys2Proof.Actions

/-! ### The limiter (R33, R34, R572) -/

theorem paceCeiling_range : 500 ≤ paceCeiling ∧ paceCeiling ≤ 1900 := by
  unfold paceCeiling
  split <;> decide

/-- A move goes towards the goal, by no more than the step, and reaches a goal within the step. -/
theorem moveTo_bounds (a b d : Nat) : min a b ≤ moveTo a b d ∧ moveTo a b d ≤ max a b ∧ a ≤ moveTo a b d + d ∧ moveTo a b d ≤ a + d
    ∧ (a ≤ b + d → b ≤ a + d → moveTo a b d = b) := by
  unfold moveTo
  split <;> omega

/-- The step of a move: all the way near the achieved pace, else at most 100 Mstep/s. -/
def moveStep (goal achieved amount : Nat) : Nat := if (goal - achieved) + (achieved - goal) ≤ 100 then 1900 else min 100 amount

theorem moveStep_near {goal achieved : Nat} (amount : Nat) (h1 : goal ≤ achieved + 100) (h2 : achieved ≤ goal + 100) :
    moveStep goal achieved amount = 1900 := if_pos (by omega)

theorem moveStep_far {goal achieved : Nat} (amount : Nat) (h : achieved + 100 < goal ∨ goal + 100 < achieved) :
    moveStep goal achieved amount ≤ 100 := by
  rw [moveStep, if_neg (by omega)]
  omega

section Limiter
variable {s : State} {achieved amount goal : Nat}

theorem limiterMove_limit (h : s.prb.pace.limAt + 1000 ≤ s.now)
    (hg : goal = if fget s F.PRB_STEP_LAST < 2 then 500 else paceGoal (fget s F.PRB_PACE_CTL_TARGET)) :
    limiterMove false achieved amount s = { s with prb := { s.prb with pace := { s.prb.pace with
      lim := max 500 (moveTo (min s.prb.pace.lim paceCeiling) goal (moveStep goal achieved amount)), limAt := s.now } } } := by
  subst hg
  simp only [limiterMove, Bool.false_eq_true, if_false, if_neg (Nat.not_lt.2 h)]
  rfl

theorem limiterMove_cap (h : s.prb.pace.capAt + 1000 ≤ s.now) :
    limiterMove true achieved amount s = { s with prb := { s.prb with pace := { s.prb.pace with
      cap := max 500 (moveTo s.prb.pace.cap s.prb.pace.capGoal (moveStep s.prb.pace.capGoal achieved amount)), capAt := s.now } } } := by
  simp only [limiterMove, if_true, if_neg (Nat.not_lt.2 h)]
  rfl

theorem limiterMove_early {gov : Bool} (h : s.now < (if gov then s.prb.pace.capAt else s.prb.pace.limAt) + 1000) :
    limiterMove gov achieved amount s = s := by
  cases gov
  · simp only [limiterMove, Bool.false_eq_true, if_false] at h ⊢
    rw [if_pos h]
  · simp only [limiterMove, if_true] at h ⊢
    rw [if_pos h]

end Limiter

/-- What bounds a move of the limit or the cap from `a` to a goal (R34). -/
theorem move_bounds (a goal achieved amount : Nat) :
    let l := max 500 (moveTo a goal (moveStep goal achieved amount))
    500 ≤ l ∧ l ≤ max 500 (max a goal) ∧ min a goal ≤ l
      ∧ (goal ≤ achieved + 100 → achieved ≤ goal + 100 → a ≤ goal + 1900 → goal ≤ a + 1900 → l = max 500 goal)
      ∧ (achieved + 100 < goal ∨ goal + 100 < achieved → a ≤ l + 100 ∧ l ≤ max 500 (a + 100)) := by
  obtain ⟨h1, h2, h3, h4, h5⟩ := moveTo_bounds a goal (moveStep goal achieved amount)
  refine ⟨by omega, by omega, by omega, fun hn1 hn2 ha hg => ?_, fun hfar => ?_⟩
  · rw [h5 (by rw [moveStep_near amount hn1 hn2]; exact ha) (by rw [moveStep_near amount hn1 hn2]; exact hg)]
  · have := moveStep_far amount hfar
    omega

/-! ### The pace window (R35) -/

/-- A field reads as before where another field of its register is set. -/
theorem fget_fset_apart {s : State} (hs : tsorted s.regs = true) (f g : Fld)
    (h : g.reg = f.reg ∧ g.lsb + g.w ≤ 32 ∧ (f.lsb + f.w ≤ g.lsb ∨ g.lsb + g.w ≤ f.lsb)) (v b : Nat) :
    fget (fset s f v b) g b = fget s g b := by
  obtain ⟨hreg, hg, ha⟩ := h
  rw [fget, fget, hreg, fset, rget_rset_same s hs, bitsOf_ofNat_toNat hg, bitsOf_putBits_other _ _ _ _ _ _ ha]

theorem fget_lt (s : State) (f : Fld) (b : Nat) : fget s f b < 2 ^ f.w := bitsOf_lt _ _ _

theorem rget_of_regs {t u : State} (h : t.regs = u.regs) (r : Reg) (b : Nat) : rget t r b = rget u r b := by rw [rget, rget, h]

theorem fget_of_regs {t u : State} (h : t.regs = u.regs) (f : Fld) (b : Nat := 0) : fget t f b = fget u f b := by
  rw [fget, fget, rget_of_regs h]

/-- The four fields of the pace monitor that a window sets. -/
def monFields (n m : Nat) (limited governed : Bool) (s : State) : State :=
  fset (fset (fset (fset s F.PRB_PACE_MON_NOW n) F.PRB_PACE_MON_MIN m) F.PRB_PACE_MON_LIMITED (if limited then 1 else 0))
    F.PRB_PACE_MON_GOVERNED (if governed then 1 else 0)

theorem fget_monFields {s : State} (hs : tsorted s.regs = true) {n m : Nat} (hn : n < 4096) (hm : m < 4096) (limited governed : Bool) :
    let t := monFields n m limited governed s
    fget t F.PRB_PACE_MON_NOW = n ∧ fget t F.PRB_PACE_MON_MIN = m ∧ fget t F.PRB_PACE_MON_LIMITED = (if limited then 1 else 0)
      ∧ fget t F.PRB_PACE_MON_GOVERNED = if governed then 1 else 0 := by
  have h1 := tsorted_fset hs F.PRB_PACE_MON_NOW n
  have h2 := tsorted_fset h1 F.PRB_PACE_MON_MIN m
  have h3 := tsorted_fset h2 F.PRB_PACE_MON_LIMITED (if limited then 1 else 0)
  refine ⟨?_, ?_, ?_, ?_⟩ <;> rw [monFields]
  · rw [fget_fset_apart h3 _ F.PRB_PACE_MON_NOW (by decide), fget_fset_apart h2 _ F.PRB_PACE_MON_NOW (by decide),
      fget_fset_apart h1 _ F.PRB_PACE_MON_NOW (by decide), fget_fset_same hs (by decide)]
    exact Nat.mod_eq_of_lt hn
  · rw [fget_fset_apart h3 _ F.PRB_PACE_MON_MIN (by decide), fget_fset_apart h2 _ F.PRB_PACE_MON_MIN (by decide), fget_fset_same h1 (by decide)]
    exact Nat.mod_eq_of_lt hm
  · rw [fget_fset_apart h3 _ F.PRB_PACE_MON_LIMITED (by decide), fget_fset_same h2 (by decide)]
    cases limited <;> rfl
  · rw [fget_fset_same h3 (by decide)]
    cases governed <;> rfl

theorem rget_monFields (s : State) (n m : Nat) (limited governed : Bool) {r : Reg} (h : r ≠ .PRB_PACE_MON) (b : Nat) :
    rget (monFields n m limited governed s) r b = rget s r b := by
  have hr : ∀ (s : State) (v : W32), rget (rset s .PRB_PACE_MON 0 v) r b = rget s r b := fun s v => rget_rset_other s _ _ _ _ _ (.inl h.symm)
  exact (hr _ _).trans ((hr _ _).trans ((hr _ _).trans (hr _ _)))

theorem fset_eq (s : State) (f : Fld) (v b : Nat) : ∃ rs, fset s f v b = { s with regs := rs } := ⟨_, rfl⟩

theorem monFields_eq (s : State) (n m : Nat) (limited governed : Bool) : ∃ rs, monFields n m limited governed s = { s with regs := rs } := by
  obtain ⟨r1, h1⟩ := fset_eq s F.PRB_PACE_MON_NOW n 0
  obtain ⟨r2, h2⟩ := fset_eq { s with regs := r1 } F.PRB_PACE_MON_MIN m 0
  obtain ⟨r3, h3⟩ := fset_eq { s with regs := r2 } F.PRB_PACE_MON_LIMITED (if limited then 1 else 0) 0
  obtain ⟨r4, h4⟩ := fset_eq { s with regs := r3 } F.PRB_PACE_MON_GOVERNED (if governed then 1 else 0) 0
  exact ⟨r4, by rw [monFields, h1, h2, h3, h4]⟩

theorem paceWindow_ends {s : State} (h1 : s.now % 10000 = 0) (h2 : s.now ≠ s.prb.pace.window) (cw ce iod : Nat) (limited governed : Bool) {u : State}
    (hu : u = monFields (min (min cw ce) (min iod paceCeiling)) (min (min (min cw ce) (min iod paceCeiling)) (fget s F.PRB_PACE_MON_MIN))
      limited governed s) :
    paceWindow cw ce iod limited governed s = { u with prb := { u.prb with pace := { u.prb.pace with window := s.now } } } := by
  rw [paceWindow, if_neg (by simp [h1, h2]), hu] <;> rfl

theorem limit_bounded {s : State} (achieved amount : Nat) {goal a : Nat} (hn : s.prb.pace.limAt + 1000 ≤ s.now)
    (ha : a = min s.prb.pace.lim paceCeiling)
    (hg : goal = if fget s F.PRB_STEP_LAST < 2 then 500 else paceGoal (fget s F.PRB_PACE_CTL_TARGET)) :
    ∃ l, exec (.limiterRamp false achieved amount) s = .next { s with prb := { s.prb with pace := { s.prb.pace with lim := l, limAt := s.now } } }
      ∧ 500 ≤ l ∧ l ≤ max 500 (max a goal) ∧ min a goal ≤ l ∧ (goal ≤ achieved + 100 → achieved ≤ goal + 100 → l = goal)
      ∧ (achieved + 100 < goal ∨ goal + 100 < achieved → a ≤ l + 100 ∧ l ≤ max 500 (a + 100)) := by
  have hrange := paceCeiling_range
  have hg1 : 500 ≤ goal ∧ goal ≤ 1900 := by
    rw [hg, paceGoal]
    split
    · omega
    · split <;> omega
  have step : exec (.limiterRamp false achieved amount) s = .next (limiterMove false achieved amount s) := rfl
  rw [limiterMove_limit hn hg, ← ha] at step
  obtain ⟨b1, b2, b3, b4, b5⟩ := move_bounds a goal achieved amount
  refine ⟨_, step, b1, b2, b3, fun hn1 hn2 => ?_, b5⟩
  rw [b4 hn1 hn2 (by omega) (by omega)]
  omega

theorem cap_bounded {s : State} (achieved amount : Nat) (hn : s.prb.pace.capAt + 1000 ≤ s.now) :
    exec (.limiterRamp true achieved amount) s = .next { s with prb := { s.prb with pace := { s.prb.pace with
      cap := max 500 (moveTo s.prb.pace.cap s.prb.pace.capGoal (moveStep s.prb.pace.capGoal achieved amount)), capAt := s.now } } } :=
  congrArg Host.Outcome.next (limiterMove_cap hn)

theorem paceMonWindow_sets {s : State} (cw ce iod : Nat) (limited governed : Bool) {n m : Nat} (hs : tsorted s.regs = true) (h1 : s.now % 10000 = 0)
    (h2 : s.now ≠ s.prb.pace.window) (hn : n = min (min cw ce) (min iod paceCeiling)) (hm : m = min n (fget s F.PRB_PACE_MON_MIN)) :
    ∃ t, exec (.paceMonWindow cw ce iod limited governed) s = .next t ∧ fget t F.PRB_PACE_MON_NOW = n
      ∧ fget t F.PRB_PACE_MON_MIN = m
      ∧ fget t F.PRB_PACE_MON_LIMITED = (if limited then 1 else 0) ∧ fget t F.PRB_PACE_MON_GOVERNED = (if governed then 1 else 0)
      ∧ (∀ r b, r ≠ .PRB_PACE_MON → rget t r b = rget s r b)
      ∧ { t with regs := s.regs, prb := { t.prb with pace := { t.prb.pace with window := s.prb.pace.window } } } = s := by
  have hrange := paceCeiling_range
  have hfields := fget_monFields hs (n := n) (m := m) (by omega) (by omega) limited governed
  have hother := fun r b hr => rget_monFields s n m limited governed (r := r) hr b
  have hend := paceWindow_ends h1 h2 cw ce iod limited governed (u := monFields n m limited governed s) (by rw [hm, hn])
  obtain ⟨rs, heq⟩ := monFields_eq s n m limited governed
  generalize monFields n m limited governed s = u at hfields hother hend heq
  obtain ⟨f1, f2, f3, f4⟩ := hfields
  have step : exec (.paceMonWindow cw ce iod limited governed) s = .next (paceWindow cw ce iod limited governed s) := rfl
  rw [hend] at step
  refine ⟨_, step, ?_, ?_, ?_, ?_, fun r b hr => (rget_of_regs (by rfl) r b).trans (hother r b hr), ?_⟩
  · rw [fget_of_regs (u := u) (by rfl), f1]
  · rw [fget_of_regs (u := u) (by rfl), f2]
  · rw [fget_of_regs (u := u) (by rfl), f3]
  · rw [fget_of_regs (u := u) (by rfl), f4]
  · rw [heq]

theorem paceMovesBounded : PaceMovesBounded := by
  refine ⟨fun s achieved amount goal a hn ha hg => limit_bounded achieved amount hn ha hg, fun s achieved amount goal a hn ha hg => ?_,
    fun s gov achieved amount h => congrArg Host.Outcome.next (limiterMove_early h), fun s cw ce iod limited governed n hs h1 h2 hn => ?_⟩
  · subst ha hg
    exact ⟨_, cap_bounded achieved amount hn, move_bounds _ _ _ _⟩
  · have hrange := paceCeiling_range
    exact paceMonWindow_sets cw ce iod limited governed hs h1 h2 (by omega) rfl

/-! ### Device time (R42 to R48) -/

/-- The registers that show the discipline of device time. -/
def ptpFields (s : State) (mgb : Bool) (o : W64) (rate : Nat) : State :=
  fset (fset (rset (fset s F.SMC_PTP_STAT_ACTIVE (ptpPort mgb)) .SMC_PTP_OFFSET 0 (offWord o)) F.SMC_PTP_STAT_SYNC (if offMag o ≤ 1000 then 1 else 0))
    F.SMC_PTP_STAT_SLEWING (if rate > 100 then 1 else 0)

theorem discipline_eq (s : State) (mgb : Bool) (o : W64) (rate : Nat) : ∃ u, u = ptpFields s mgb o rate
    ∧ discipline s mgb o rate = { u with prb := { u.prb with ptp := { u.prb.ptp with slew := min rate 100 } } } := ⟨_, rfl, rfl⟩

theorem ptpFields_eq (s : State) (mgb : Bool) (o : W64) (rate : Nat) : ∃ rs, ptpFields s mgb o rate = { s with regs := rs } := by
  obtain ⟨r1, h1⟩ := fset_eq s F.SMC_PTP_STAT_ACTIVE (ptpPort mgb) 0
  have h2 : ∃ r2, rset { s with regs := r1 } .SMC_PTP_OFFSET 0 (offWord o) = { s with regs := r2 } := ⟨_, rfl⟩
  obtain ⟨r2, h2⟩ := h2
  obtain ⟨r3, h3⟩ := fset_eq { s with regs := r2 } F.SMC_PTP_STAT_SYNC (if offMag o ≤ 1000 then 1 else 0) 0
  obtain ⟨r4, h4⟩ := fset_eq { s with regs := r3 } F.SMC_PTP_STAT_SLEWING (if rate > 100 then 1 else 0) 0
  exact ⟨r4, by rw [ptpFields, h1, h2, h3, h4]⟩

theorem bit_mod (p : Prop) [Decidable p] : (if p then 1 else 0) % 2 ^ 1 = if p then 1 else 0 := by split <;> rfl

theorem fget_ptpFields {s : State} (hs : tsorted s.regs = true) (mgb : Bool) (o : W64) (rate : Nat) :
    let u := ptpFields s mgb o rate
    fget u F.SMC_PTP_STAT_ACTIVE = ptpPort mgb ∧ fget u F.SMC_PTP_STAT_SYNC = (if offMag o ≤ 1000 then 1 else 0)
      ∧ fget u F.SMC_PTP_STAT_SLEWING = (if rate > 100 then 1 else 0) ∧ rget u .SMC_PTP_OFFSET 0 = offWord o := by
  have h1 := tsorted_fset hs F.SMC_PTP_STAT_ACTIVE (ptpPort mgb)
  have h2 := tsorted_rset h1 .SMC_PTP_OFFSET 0 (offWord o)
  have h3 := tsorted_fset h2 F.SMC_PTP_STAT_SYNC (if offMag o ≤ 1000 then 1 else 0)
  have hoff : ∀ (s : State) (f : Fld) v, f.reg ≠ .SMC_PTP_OFFSET → rget (fset s f v) .SMC_PTP_OFFSET 0 = rget s .SMC_PTP_OFFSET 0 :=
    fun s f v hf => rget_rset_other s _ _ _ _ _ (.inl hf)
  have hact : fget (rset (fset s F.SMC_PTP_STAT_ACTIVE (ptpPort mgb)) .SMC_PTP_OFFSET 0 (offWord o)) F.SMC_PTP_STAT_ACTIVE = ptpPort mgb := by
    rw [fget, rget_rset_other _ _ F.SMC_PTP_STAT_ACTIVE.reg _ _ _ (.inl (by decide)), ← fget, fget_fset_same hs (by decide)]
    cases mgb <;> rfl
  refine ⟨?_, ?_, ?_, ?_⟩ <;> rw [ptpFields]
  · rw [fget_fset_apart h3 _ F.SMC_PTP_STAT_ACTIVE (by decide), fget_fset_apart h2 _ F.SMC_PTP_STAT_ACTIVE (by decide), hact]
  · rw [fget_fset_apart h3 _ F.SMC_PTP_STAT_SYNC (by decide), fget_fset_same h2 (by decide)]
    exact bit_mod _
  · rw [fget_fset_same h3 (by decide)]
    exact bit_mod _
  · rw [hoff _ _ _ (by decide), hoff _ _ _ (by decide), rget_rset_same _ h1]

theorem discipline_shows {s t : State} {mgb : Bool} {o : W64} {rate : Nat} (hs : tsorted s.regs = true) (ht : t = discipline s mgb o rate) :
    t.now = s.now ∧ fget t F.SMC_PTP_STAT_ACTIVE = (if mgb then 2 else 1)
      ∧ fget t F.SMC_PTP_STAT_SYNC = (if -1000 ≤ BitVec.toInt o ∧ BitVec.toInt o ≤ 1000 then 1 else 0)
      ∧ fget t F.SMC_PTP_STAT_SLEWING = (if 100 < rate then 1 else 0) ∧ t.prb.ptp.slew = min rate 100
      ∧ rget t .SMC_PTP_OFFSET 0 = (if 2 ^ 31 - 1 < o.toInt then 0x7FFFFFFF else if o.toInt < 1 - 2 ^ 31 then 0x80000001 else o.setWidth 32) := by
  obtain ⟨u, hu, hd⟩ := discipline_eq s mgb o rate
  obtain ⟨f1, f2, f3, f4⟩ := fget_ptpFields hs mgb o rate
  obtain ⟨rs, heq⟩ := ptpFields_eq s mgb o rate
  rw [← hu] at f1 f2 f3 f4 heq
  rw [hd] at ht
  have hregs : t.regs = u.regs := by rw [ht]
  have hsync : offMag o ≤ 1000 ↔ -1000 ≤ BitVec.toInt o ∧ BitVec.toInt o ≤ 1000 := by rw [offMag]; omega
  refine ⟨by rw [ht, heq], (fget_of_regs hregs _).trans f1, (fget_of_regs hregs _).trans (f2.trans (if_congr hsync rfl rfl)),
    (fget_of_regs hregs _).trans f3, by rw [ht], (rget_of_regs hregs _ _).trans (f4.trans ?_)⟩
  rw [offWord]
  exact if_congr (by omega) rfl (if_congr (by omega) rfl rfl)

section Messages
variable {s : State} {mgb : Bool}

theorem ptpMessage_active (hon : ptpOn s mgb = true) (hact : fget s F.SMC_PTP_STAT_ACTIVE = 0 ∨ fget s F.SMC_PTP_STAT_ACTIVE = ptpPort mgb)
    (o : W64) (rate : Nat) : ptpMessage mgb o rate s =
      if timeSets s then setFromMaster (ptpHeard s mgb o) mgb else discipline (ptpHeard s mgb o) mgb o rate := by
  rw [ptpMessage, if_neg (by simp [hon])]
  dsimp only
  rw [if_neg]
  · rfl
  · rcases hact with h | h <;> simp [h]

theorem setFromMaster_now (o : W64) : (setFromMaster (ptpHeard s mgb o) mgb).now = ((s.now : Int) - o.toInt).toNat := by
  have hoff : (if mgb then (ptpHeard s mgb o).prb.ptp.offB else (ptpHeard s mgb o).prb.ptp.offA) = o := by cases mgb <;> rfl
  have hnow : ∀ (s : State), (discipline s mgb 0 0).now = s.now := fun s => by
    obtain ⟨u, hu, hd⟩ := discipline_eq s mgb 0 0
    obtain ⟨rs, heq⟩ := ptpFields_eq s mgb 0 0
    rw [hd, hu, heq]
  rw [setFromMaster, hnow, hoff] <;> rfl

end Messages

theorem deviceTimeIsDisciplined : DeviceTimeIsDisciplined := by
  refine ⟨fun s mgb o rate t hs ht => discipline_shows hs ht, fun s mgb o rate hon s1 h1 => ?_, fun s mgb o rate hoff => ?_, fun s hact s1 h1 => ?_,
    fun s mgb rate hon hact hport hheard => ?_⟩
  · subst h1
    have hmsg : exec (.ptpMessage mgb o rate) s = .next (ptpMessage mgb o rate s) := rfl
    refine ⟨fun hact => ⟨fun ht => ?_, fun ht => ⟨?_, setFromMaster_now o⟩⟩, fun h0 hport => ?_, fun h0 => ?_⟩
    · rw [hmsg, ptpMessage_active hon hact, if_neg (by simp [ht])]
    · rw [hmsg, ptpMessage_active hon hact, if_pos ht]
    · rw [hmsg, ptpMessage, if_neg (by simp [hon])]
      exact congrArg Host.Outcome.next (if_pos (by simp [h0, hport]))
    · refine congrArg Host.Outcome.next (?_ : grandmasterReturn mgb o rate s = _)
      rw [grandmasterReturn, if_neg (by simp [hon, h0])] <;> rfl
  · refine ⟨congrArg Host.Outcome.next (?_ : ptpMessage mgb o rate s = s), congrArg Host.Outcome.next (?_ : grandmasterReturn mgb o rate s = s)⟩
    · rw [ptpMessage, if_pos (by simp [hoff])]
    · rw [grandmasterReturn, if_pos (by simp [hoff])]
  · subst h1
    exact congrArg Host.Outcome.next (if_neg hact)
  · refine congrArg Host.Outcome.next (?_ : ptpSwitchover mgb rate s = _)
    rw [ptpSwitchover]
    exact if_neg (by simp [hon, hact, hport, hheard])

/-- Settles O47: the limiter and the cap move by bounded steps, and messages discipline device time. -/
theorem paceAndDeviceTime : Obligations.PaceAndDeviceTime := ⟨paceMovesBounded, deviceTimeIsDisciplined⟩

end Sys2Proof.Timing

/-! # Queues and doorbells -/

namespace Sys2Proof.HostQueues

open Sys2Proof Sys2Proof.Machine Sys2Proof.Claims Sys2Proof.Laws Sys2Proof.Words Sys2Proof.Registers Sys2Proof.Windows Sys2Proof.Actions
  Sys2Proof.Timing

/-- A write to one register leaves the fields of every other. -/
theorem fget_regWritePlain_other (s : State) {r : Reg} {b c : Nat} (v : W32) {f : Fld} (h : f.reg ≠ r) (hl : f.reg ≠ .SMC_LIFECYCLE) :
    fget (regWritePlain s r b v) f c = fget s f c := by
  rw [fget, fget, rget_regWritePlain_other s v (.inl h) hl]

theorem enable_set (v : W32) : (v ||| 0x10000).getLsbD 16 = true := getLsbD_or_set v (by decide)

theorem enable_cleared (v : W32) : (v &&& 0xFFFEFFFF).getLsbD 16 = false := by
  rw [BitVec.getLsbD_and, show (0xFFFEFFFF : W32).getLsbD 16 = false by decide, Bool.and_false]

theorem set_then_cleared (v : W32) : (v ||| 0x10000) &&& 0xFFFEFFFF = v &&& 0xFFFEFFFF := by
  rw [BitVec.and_comm, BitVec.and_or_distrib_left, show (0xFFFEFFFF : W32) &&& 0x10000 = 0#32 by decide, BitVec.or_zero, BitVec.and_comm]

theorem cleared_twice (v : W32) : (v &&& 0xFFFEFFFF) &&& 0xFFFEFFFF = v &&& 0xFFFEFFFF := by rw [BitVec.and_assoc, BitVec.and_self]

theorem bit_of_ne_one {s : State} {f : Fld} {b : Nat} (hw : f.w = 1) (h : fget s f b ≠ 1) : fget s f b = 0 := by
  have := fget_lt s f b
  rw [hw] at this
  omega

/-! ### Submission queues (R492) -/

section Submission
variable {s s1 : State} {q d e : Nat}

/-- What an enabled queue asks of its page, its size, its event queue and its domain. -/
abbrev MayEnable (s s1 : State) (q d e : Nat) : Prop :=
  fget s F.HIU_PAGE_DOM_VALID (q / 16) = 1 ∧ fget s1 F.HIU_SQ_CTL_SIZE q ≠ 0 ∧ fget s F.HIU_EQ_CTL_ENABLE e = 1 ∧ fget s F.HIU_EQ_CTL_DOMAIN e = d
    ∧ e ≠ fget s F.HIU_EVQ_SYS_V ∧ (tget {} s.smc.doms d).state = 1

theorem sqCtl_disabled {v : W32} (hq : q = fget s F.HIU_SQ_SEL_V) (he : fget s F.HIU_SQ_CTL_ENABLE q ≠ 1) (hv : v.getLsbD 16 = false)
    (h1 : s1 = regWritePlain s .HIU_SQ_CTL q (v &&& 0xFFFEFFFF)) : sqCtl v s = s1 := by
  simp only [sqCtl, ← hq, if_neg he, hv, Bool.not_false, if_true, h1]

theorem sqCtl_enable {v : W32} (hq : q = fget s F.HIU_SQ_SEL_V) (he : fget s F.HIU_SQ_CTL_ENABLE q ≠ 1) (hv : v.getLsbD 16 = true)
    (h1 : s1 = regWritePlain s .HIU_SQ_CTL q (v &&& 0xFFFEFFFF)) (hd : d = fget s F.HIU_PAGE_DOM_DOM (q / 16))
    (hevq : e = fget s1 F.HIU_SQ_CTL_EVQ q) :
    (MayEnable s s1 q d e → sqCtl v s =
      rset (fset (fset (fset s1 F.HIU_SQ_CTL_ENABLE 1 q) F.HIU_SQ_CTL_FETCH_ERR 0 q) F.HIU_SQ_CTL_REFUSED 0 q) .HIU_SQ_STAT q 0)
    ∧ (¬ MayEnable s s1 q d e → sqCtl v s = fset s1 F.HIU_SQ_CTL_REFUSED 1 q) := by
  have hother : ∀ f : Fld, f.reg ≠ .HIU_SQ_CTL → f.reg ≠ .SMC_LIFECYCLE → ∀ c, fget s1 f c = fget s f c :=
    fun f hf hl c => h1 ▸ fget_regWritePlain_other s _ hf hl
  have hdom : fget s1 F.HIU_PAGE_DOM_DOM (q / 16) = d := by rw [hother F.HIU_PAGE_DOM_DOM (by decide) (by decide), hd]
  have hsmc : s1.smc = s.smc := (regWritePlain_rest h1).2.1
  have hmay : (fget s1 F.HIU_PAGE_DOM_VALID (q / 16) = 0 || fget s1 F.HIU_SQ_CTL_SIZE q = 0 || !evqFits s1 d (sqEvq s1 q) || !domActive s1 d) = true
      ↔ ¬ MayEnable s s1 q d e := by
    have hvalid : fget s F.HIU_PAGE_DOM_VALID (q / 16) = 0 ↔ fget s F.HIU_PAGE_DOM_VALID (q / 16) ≠ 1 :=
      ⟨fun h => by omega, bit_of_ne_one rfl⟩
    simp only [evqFits, sqEvq, domActive, devQueue, ← hevq, hother F.HIU_PAGE_DOM_VALID (by decide) (by decide),
      hother F.HIU_EQ_CTL_ENABLE (by decide) (by decide), hother F.HIU_EQ_CTL_DOMAIN (by decide) (by decide),
      hother F.HIU_EVQ_SYS_V (by decide) (by decide), hsmc, Bool.or_eq_true, decide_eq_true_eq, Bool.not_eq_true', Bool.and_eq_false_iff,
      beq_eq_false_iff_ne, bne_eq_false_iff_eq, MayEnable, not_and_or, hvalid, not_not, ne_eq]
    tauto
  refine ⟨fun h => ?_, fun h => ?_⟩
  · simp only [sqCtl, ← hq, if_neg he, hv, Bool.not_true, Bool.false_eq_true, if_false, ← h1, hdom]
    rw [if_neg (mt hmay.1 (not_not.2 h))]
  · simp only [sqCtl, ← hq, if_neg he, hv, Bool.not_true, Bool.false_eq_true, if_false, ← h1, hdom]
    rw [if_pos (hmay.2 h)]

theorem sqCtl_enabled {v : W32} (hq : q = fget s F.HIU_SQ_SEL_V) (he : fget s F.HIU_SQ_CTL_ENABLE q = 1) :
    sqCtl v s = if v.getLsbD 16 then s else sqOff s q := by
  simp only [sqCtl, ← hq, if_pos he]

theorem sqOff_eq (h1 : s1 = fset s F.HIU_SQ_CTL_ENABLE 0 q) :
    sqOff s q = { s1 with exec := { s.exec with series := s.exec.series.filter fun p => p.2.sq != q } } := by
  subst h1
  rfl

end Submission

/-! ### Event queues (R498) -/

section Events
variable {s s1 : State} {e : Nat}

theorem eqCtl_disabled {v : W32} (hq : e = fget s F.HIU_EQ_SEL_V) (he : fget s F.HIU_EQ_CTL_ENABLE e ≠ 1) (hv : v.getLsbD 16 = false)
    (h1 : s1 = regWritePlain s .HIU_EQ_CTL e (v &&& 0xFFFEFFFF)) : eqCtl v s = s1 := by
  simp only [eqCtl, ← hq, if_neg he, hv, Bool.not_false, Bool.true_or, if_true, h1]

theorem eqCtl_enable {v : W32} (hq : e = fget s F.HIU_EQ_SEL_V) (he : fget s F.HIU_EQ_CTL_ENABLE e ≠ 1) (hv : v.getLsbD 16 = true)
    (h1 : s1 = regWritePlain s .HIU_EQ_CTL e (v &&& 0xFFFEFFFF)) (hsize : fget s1 F.HIU_EQ_CTL_SIZE e ≠ 0)
    (hdom : e = fget s F.HIU_EVQ_SYS_V ∨ (tget {} s.smc.doms (fget s1 F.HIU_EQ_CTL_DOMAIN e)).state = 1) :
    eqCtl v s = setEvq (rset (fset s1 F.HIU_EQ_CTL_ENABLE 1 e) .HIU_EQ_STAT e 0) e {} := by
  have hsys : devQueue s1 = fget s F.HIU_EVQ_SYS_V := h1 ▸ fget_regWritePlain_other s _ (by decide) (by decide)
  have hsmc : s1.smc = s.smc := (regWritePlain_rest h1).2.1
  simp only [eqCtl, ← hq, if_neg he, hv, ← h1]
  rw [if_neg]
  rw [hsys, domActive, hsmc]
  rcases hdom with h | h
  · simp [← h, hsize]
  · simp [h, hsize]

/-- A word that keeps the bits of a mask from the old one. -/
def keptBits (mask v old : W32) : W32 := (v &&& ~~~mask) ||| (old &&& mask)

theorem getLsbD_keptBits (mask v old : W32) {i : Nat} (hi : i < 32) :
    (keptBits mask v old).getLsbD i = if mask.getLsbD i then old.getLsbD i else v.getLsbD i := by
  rw [keptBits, BitVec.getLsbD_or, BitVec.getLsbD_and, BitVec.getLsbD_and, BitVec.getLsbD_not, decide_eq_true hi]
  cases mask.getLsbD i <;> simp

theorem keptBits_masked {mask : W32} (v old : W32) {lo w : Nat} (hw : lo + w ≤ 32) (h : ∀ i < w, mask.getLsbD (lo + i) = true) :
    bitsOf (keptBits mask v old).toNat lo w = bitsOf old.toNat lo w := by
  rw [bitsOf_toNat, bitsOf_toNat]
  refine congrArg BitVec.toNat (BitVec.eq_of_getLsbD_eq fun i hi => ?_)
  rw [BitVec.getLsbD_extractLsb', BitVec.getLsbD_extractLsb', getLsbD_keptBits _ _ _ (by omega), if_pos (h i hi)]

theorem keptBits_clear {mask v : W32} {k : Nat} (hk : k < 32) (hm : mask.getLsbD k = false) (hv : v.getLsbD k = false) (old : W32) :
    bitsOf (keptBits mask v old).toNat k 1 = 0 := by
  have : (keptBits mask v old).extractLsb' k 1 = 0 := BitVec.eq_of_getLsbD_eq fun i hi => by
    obtain rfl : i = 0 := by omega
    rw [BitVec.getLsbD_extractLsb', Nat.add_zero, getLsbD_keptBits _ _ _ hk, hm, if_neg Bool.false_ne_true, hv] <;> rfl
  rw [bitsOf_toNat, this] <;> rfl

/-- A field of type RW takes the written bits. -/
theorem rw_regWritePlain {s : State} (hs : tsorted s.regs = true) {r : Reg} (hr : r ≠ .SMC_LIFECYCLE) (b : Nat) (v : W32) {g : FieldSpec}
    (hg : g ∈ regFields r) (hty : g.ty = .rw) : bitsOf (rget (regWritePlain s r b v) r b).toNat g.lsb g.w = bitsOf v.toNat g.lsb g.w := by
  rw [rget_regWritePlain_same hs b v hr, bitsOf_writeWord _ _ _ _ hg, hty] <;> rfl

/-- The write that disables an event queue, with its fixed fields kept. -/
theorem eqCtl_disables {v : W32} (hs : tsorted s.regs = true) (hq : e = fget s F.HIU_EQ_SEL_V) (he : fget s F.HIU_EQ_CTL_ENABLE e = 1)
    (hv : v.getLsbD 16 = false) : (eqCtl v s).hiu.hold = s.hiu.hold.filter (fun p => p.1 != e)
    ∧ fget (eqCtl v s) F.HIU_EQ_CTL_SIZE e = fget s F.HIU_EQ_CTL_SIZE e ∧ fget (eqCtl v s) F.HIU_EQ_CTL_DOMAIN e = fget s F.HIU_EQ_CTL_DOMAIN e
    ∧ fget (eqCtl v s) F.HIU_EQ_CTL_ENABLE e = 0 := by
  have hctl : ∃ s1, s1 = regWritePlain s .HIU_EQ_CTL e (keptBits eqFixed v (rget s .HIU_EQ_CTL e))
      ∧ eqCtl v s = { s1 with hiu := { s1.hiu with hold := s1.hiu.hold.filter fun p => p.1 != e } } := by
    refine ⟨_, rfl, ?_⟩
    simp only [eqCtl, ← hq, if_pos he, hv, Bool.false_eq_true, if_false] <;> rfl
  obtain ⟨s1, h1, hctl⟩ := hctl
  have hhold : s1.hiu.hold = s.hiu.hold := by
    obtain ⟨rs, heq⟩ := regWritePlain_eq s .HIU_EQ_CTL e (keptBits eqFixed v (rget s .HIU_EQ_CTL e))
    rw [h1, heq]
  have hregs : (eqCtl v s).regs = s1.regs := by rw [hctl]
  have hfield : ∀ g ∈ regFields .HIU_EQ_CTL, g.ty = .rw →
      bitsOf (rget s1 .HIU_EQ_CTL e).toNat g.lsb g.w = bitsOf (keptBits eqFixed v (rget s .HIU_EQ_CTL e)).toNat g.lsb g.w :=
    fun g hg hty => h1 ▸ rw_regWritePlain hs (by decide) e _ hg hty
  refine ⟨by rw [hctl, ← hhold], ?_, ?_, ?_⟩ <;> rw [fget_of_regs hregs _ e]
  · exact (hfield ⟨0, 4, .rw, 0x0⟩ (by decide) rfl).trans (keptBits_masked _ _ (by decide) (by decide))
  · exact (hfield ⟨4, 12, .rw, 0x0⟩ (by decide) rfl).trans (keptBits_masked _ _ (by decide) (by decide))
  · exact (hfield ⟨16, 1, .rw, 0x0⟩ (by decide) rfl).trans (keptBits_clear (by decide) (by decide) hv _)

end Events

/-! ### Doorbells (R490, R496, R672) -/

section Doorbells
variable {s : State} {q v e : Nat}

theorem sqTail_open (ho : doorbellOpen s q = true) (hv : v < 2 ^ fget s F.HIU_SQ_CTL_SIZE q) : sqTail q v s = fset s F.HIU_SQ_STAT_TAIL v q := by
  have hsize : v < sqSize s q := hv
  rw [sqTail, if_neg (by simp [ho, hsize])]

theorem sqTail_bad (h : doorbellOpen s q = false ∨ 2 ^ fget s F.HIU_SQ_CTL_SIZE q ≤ v) : sqTail q v s = fbump s F.HIU_STAT_BADDB := by
  have h' : doorbellOpen s q = false ∨ sqSize s q ≤ v := h
  rw [sqTail, if_pos (by rcases h' with h | h <;> simp [h])] <;> rfl

theorem eqHead_good (hen : fget s F.HIU_EQ_CTL_ENABLE e = 1) (hv : v < 2 ^ fget s F.HIU_EQ_CTL_SIZE e) :
    eqHead s e v = eqDrain e s.hiu.hold.length (fset s F.HIU_EQ_STAT_HEAD v e) := by
  have hsize : v < eqSize s e := hv
  rw [eqHead, if_neg (by simp [hen, hsize])]

theorem eqHeadDoorbell_open (ho : doorbellOpen s q = true) : eqHeadDoorbell q v s =
    if fget s F.HIU_SQ_CTL_EVQ q = fget s F.HIU_EVQ_SYS_V then s else eqHead s (fget s F.HIU_SQ_CTL_EVQ q) v := by
  rw [eqHeadDoorbell, if_neg (by simp [ho])] <;> rfl

theorem eqHeadDoorbell_shut (ho : doorbellOpen s q = false) : eqHeadDoorbell q v s = fbump s F.HIU_STAT_BADDB := by
  rw [eqHeadDoorbell, if_pos (by simp [ho])] <;> rfl

/-- The device queue takes the head that the host writes (R672). -/
theorem sysEqHead_good {w : W32} {h : Nat} {s1 : State} (hh : h = w.toNat % 65536) (he : e = fget s F.HIU_EVQ_SYS_V)
    (hen : fget s F.HIU_EQ_CTL_ENABLE e = 1) (hv : h < 2 ^ fget s F.HIU_EQ_CTL_SIZE e) (h1 : s1 = regWritePlain s .HIU_EVQ_SYS_HEAD 0 w) :
    sysEqHead w s = eqDrain e s.hiu.hold.length (fset s1 F.HIU_EQ_STAT_HEAD h e) := by
  have hsize : h < eqSize s e := hv
  have hen1 : fget s1 F.HIU_EQ_CTL_ENABLE e = 1 := by rw [h1, fget_regWritePlain_other s _ (by decide) (by decide), hen]
  have hsize1 : fget s1 F.HIU_EQ_CTL_SIZE e = fget s F.HIU_EQ_CTL_SIZE e := by rw [h1, fget_regWritePlain_other s _ (by decide) (by decide)]
  have hhiu : s1.hiu = s.hiu := by
    obtain ⟨rs, heq⟩ := regWritePlain_eq s .HIU_EVQ_SYS_HEAD 0 w
    rw [h1, heq]
  simp only [sysEqHead, devQueue, ← he, ← hh]
  rw [if_neg (by simp [hen, hsize]), ← h1, eqHead_good hen1 (hsize1 ▸ hv), hhiu]

theorem sysEqHead_bad {w : W32} {h : Nat} (hh : h = w.toNat % 65536) (he : e = fget s F.HIU_EVQ_SYS_V)
    (hbad : fget s F.HIU_EQ_CTL_ENABLE e = 0 ∨ 2 ^ fget s F.HIU_EQ_CTL_SIZE e ≤ h) : sysEqHead w s = fbump s F.HIU_STAT_BADDB := by
  have hbad' : fget s F.HIU_EQ_CTL_ENABLE e = 0 ∨ eqSize s e ≤ h := hbad
  simp only [sysEqHead, devQueue, ← he, ← hh]
  rw [if_pos (by rcases hbad' with h | h <;> simp [h])] <;> rfl

end Doorbells

theorem queuesAndDoorbells : QueuesAndDoorbells := by
  have sqEnable : ∀ {s} v, Prompt s → exec (.sqEnable v) s = .next (sqCtl (v ||| 0x10000) s) :=
    fun v hp => congrArg Host.Outcome.next (hostReg_early hp _ rfl _ _)
  have sqDisable : ∀ {s} v, Prompt s → exec (.sqDisable v) s = .next (sqCtl (v &&& 0xFFFEFFFF) s) :=
    fun v hp => congrArg Host.Outcome.next (hostReg_early hp _ rfl _ _)
  have eqEnable : ∀ {s} v, Prompt s → exec (.eqEnable v) s = .next (eqCtl (v ||| 0x10000) s) :=
    fun v hp => congrArg Host.Outcome.next (hostReg_early hp _ rfl _ _)
  have eqDisable : ∀ {s} v, Prompt s → exec (.eqDisable v) s = .next (eqCtl (v &&& 0xFFFEFFFF) s) :=
    fun v hp => congrArg Host.Outcome.next (hostReg_early hp _ rfl _ _)
  refine ⟨fun s v q s1 d e hp hq hen h1 hd he => ?_, fun s v q s1 hp hq hen h1 => ?_, fun s v e s1 hp he hen h1 => ?_, fun s v e hp hs he hen => ?_,
    fun s q v hp h0 => ?_, fun s q v e hp h0 he => ?_, fun s v h e hp hh he => ?_⟩
  · obtain ⟨hyes, hno⟩ := sqCtl_enable hq hen (enable_set v) (by rw [set_then_cleared, h1]) hd he
    refine ⟨?_, fun ha hb hc hd he hf => ?_, fun hbad => ?_⟩
    · rw [sqDisable v hp, sqCtl_disabled (s1 := s1) hq hen (enable_cleared v) (by rw [cleared_twice, h1])]
    · rw [sqEnable v hp, hyes ⟨ha, hb, hc, hd, he, hf⟩]
    · rw [sqEnable v hp, hno]
      rintro ⟨ha, hb, hc, hd, he, hf⟩
      omega
  · refine ⟨?_, ?_⟩
    · rw [sqEnable v hp, sqCtl_enabled hq hen, if_pos (enable_set v)]
    · rw [sqDisable v hp, sqCtl_enabled hq hen, if_neg (by rw [enable_cleared]; exact Bool.false_ne_true), sqOff_eq h1]
  · refine ⟨?_, fun hsize hdom => ?_⟩
    · rw [eqDisable v hp, eqCtl_disabled (s1 := s1) he hen (enable_cleared v) (by rw [cleared_twice, h1])]
    · rw [eqEnable v hp, eqCtl_enable he hen (enable_set v) (by rw [set_then_cleared, h1]) hsize hdom]
  · exact ⟨_, eqDisable v hp, eqCtl_disables hs he hen (enable_cleared v)⟩
  · have step : exec (.sqTailDoorbell q v) s = .next (sqTail q.toNat v.toNat s) := by
      refine congrArg Host.Outcome.next (?_ : sqDoorbell q.toNat v.toNat s = _)
      rw [sqDoorbell, HostSide.wakeNode_awake h0, hostTurn_prompt hp]
    rw [step]
    exact ⟨fun ho hv => by rw [sqTail_open ho hv], fun hbad => by rw [sqTail_bad hbad]⟩
  · have step : exec (.eqHeadDoorbell q v) s = .next (eqHeadDoorbell q.toNat v.toNat s) := by
      refine congrArg Host.Outcome.next (?_ : eqDoorbell q.toNat v.toNat s = _)
      rw [eqDoorbell, HostSide.wakeNode_awake h0, hostTurn_prompt hp]
    subst he
    rw [step]
    refine ⟨fun ho hsys hen hv => ?_, fun ho => by rw [eqHeadDoorbell_shut ho], fun ho hsys => ?_⟩
    · rw [eqHeadDoorbell_open ho, if_neg hsys, eqHead_good hen hv]
    · rw [eqHeadDoorbell_open ho, if_pos hsys]
  · have step : exec (.sysEqHeadWrite v) s = .next (sysEqHead v s) := congrArg Host.Outcome.next (hostReg_early hp _ rfl _ _)
    rw [step]
    exact ⟨fun hen hv s1 h1 => by rw [sysEqHead_good hh he hen hv h1], fun hbad => by rw [sysEqHead_bad hh he hbad]⟩

end Sys2Proof.HostQueues

/-! # The admission of entries -/

namespace Sys2Proof.Admission

open Sys2Proof Sys2Proof.Machine Sys2Proof.Claims Sys2Proof.Laws Sys2Proof.Registers Sys2Proof.Timing

/-! ### Tags (R157) -/

/-- The last tag before they start again at 1. -/
abbrev lastTag : Nat := 2 ^ 32 - 1

/-- The tag that `i` steps lead to. -/
def tagAt (t i : Nat) : Nat := if i = 0 then t else if lastTag < t then i else if t + i ≤ lastTag then t + i else t + i - lastTag

theorem tagAfter_tagAt {t i : Nat} (hi : i < lastTag) : tagAfter (tagAt t i) = tagAt t (i + 1) := by
  rw [show tagAt t (i + 1) = if lastTag < t then i + 1 else if t + (i + 1) ≤ lastTag then t + (i + 1) else t + (i + 1) - lastTag from
    if_neg i.succ_ne_zero]
  unfold tagAfter tagAt lastTag at *
  split_ifs <;> omega

theorem tagAt_injective {t i j : Nat} (hi : i < lastTag) (hj : j < lastTag) (h : tagAt t i = tagAt t j) : i = j := by
  unfold tagAt lastTag at *
  split_ifs at h <;> omega

/-- A search that ends on a held tag has met held tags only. -/
theorem nextFree_held {held : List Nat} (t : Nat) : ∀ {n k : Nat}, k + n < lastTag → nextFree held n (tagAt t k) ∈ held →
    ∀ i, k ≤ i → i ≤ k + n → tagAt t i ∈ held
  | 0, k, _, h, i, h1, h2 => by
    obtain rfl : i = k := by omega
    exact h
  | n + 1, k, hk, h, i, h1, h2 => by
    by_cases hc : held.contains (tagAt t k) = true
    · rw [nextFree, if_pos hc, tagAfter_tagAt (by omega)] at h
      rcases Nat.eq_or_lt_of_le h1 with rfl | h1
      · exact List.contains_iff_mem.1 hc
      · exact nextFree_held t (by omega) h i h1 (by omega)
    · rw [nextFree, if_neg hc] at h
      exact absurd (List.contains_iff_mem.2 h) hc

theorem nextFree_free {held : List Nat} (t : Nat) (hlen : held.length < 2 ^ 32 - 2) : nextFree held (held.length + 1) t ∉ held := by
  intro hmem
  have hall := nextFree_held t (k := 0) (n := held.length + 1) (by unfold lastTag; omega) hmem
  have hnodup : ((List.range (held.length + 1)).map (tagAt t)).Nodup := by
    refine List.Nodup.map_on (fun i hi j hj h => tagAt_injective ?_ ?_ h) List.nodup_range
    · have := List.mem_range.1 hi
      unfold lastTag
      omega
    · have := List.mem_range.1 hj
      unfold lastTag
      omega
  have hsub : (List.range (held.length + 1)).map (tagAt t) ⊆ held := by
    intro x hx
    obtain ⟨i, hi, rfl⟩ := List.mem_map.1 hx
    exact hall i (Nat.zero_le i) (by have := List.mem_range.1 hi; omega)
  have := (hnodup.subperm hsub).length_le
  rw [List.length_map, List.length_range] at this
  omega

theorem nextFree_ne_zero {held : List Nat} : ∀ {n t : Nat}, t ≠ 0 → nextFree held n t ≠ 0
  | 0, _, h => h
  | n + 1, t, h => by
    have hafter : tagAfter t ≠ 0 := by
      unfold tagAfter
      split <;> omega
    rw [nextFree]
    split
    · exact nextFree_ne_zero hafter
    · exact h

/-! ### A fetched entry (R491, R518, R528) -/

theorem readyOn {s : State} (h : fget s F.PRB_STEP_READY = 1) : ¬ fget s F.PRB_STEP_READY = 0 := by omega

section Entry
variable {s s2 s3 : State} {q d : Nat} {e : List Byte}

theorem fenced_eq {s : State} {n : Nat} (h : fget s F.SMC_FENCE_STAT_FENCED = n) : fenced s = (n == 1) := by rw [fenced, h]

theorem admitEntry_fenced (hf : fenced s = true) (dl : Nat) : admitEntry s q d false none dl e =
    intakeGive (refuseEntry s q stFENCED 0 e) d := by
  rw [admitEntry, if_pos hf] <;> rfl

theorem admitEntry_bad {r : Nat} (hf : fenced s = false) (hb : entryBad s q d false e = some r) (dl : Nat) : admitEntry s q d false none dl e =
    intakeGive (refuseEntry s q stBAD_OPERATOR r e) d := by
  simp only [admitEntry, hf, Bool.false_eq_true, if_false, Option.isSome_none, hb]
  rfl

theorem admitEntry_policed (hf : fenced s = false) (hb : entryBad s q d false e = none) (hp : police s d = (false, s3)) (dl : Nat) :
    admitEntry s q d false none dl e = intakeGive (policedEntry s3 q d e) d := by
  simp only [admitEntry, hf, Bool.false_eq_true, if_false, Option.isSome_none, hb, hp, Bool.not_false, if_true]

/-- What is left once an entry has passed every check. -/
theorem admitEntry_passes (hf : fenced s = false) (hb : entryBad s q d false e = none) (hp : police s d = (true, s3)) (hop : entOp e < 0xFF00)
    (hper : entPeriod e = 0) (dl : Nat) : ∃ s4, s4 = dspCount s3 F.DSP_CNT_ADM_COUNT d ∧ admitEntry s q d false none dl e =
      { (newTag s4).2 with exec := { (newTag s4).2.exec with pend := (newTag s4).2.exec.pend ++ [{
          tag := (newTag s4).1, dom := d, be := entBe e, sq := q, plan := entPlan e, op := entOp e
          cookie := entCookie e, deadline := dl, entry := e, series := none }] } } := by
  refine ⟨_, rfl, ?_⟩
  have hop' : ¬ entOp e ≥ 0xFF00 := by omega
  simp only [admitEntry, hf, Bool.false_eq_true, if_false, Option.isSome_none, hb, hp, Bool.not_true, hper, bne_self_eq_false, Bool.and_false,
    if_neg hop']

/-- Policing changes the bucket of its domain only. -/
theorem police_exec (h : police s d = (true, s3)) : ∃ b, s3.exec = { s.exec with bucket := b } := by
  rw [police] at h
  dsimp only at h
  split at h
  · obtain rfl := (Prod.mk.inj h).2
    exact ⟨_, rfl⟩
  · obtain ⟨-, rfl⟩ := Prod.mk.inj h
    exact ⟨_, rfl⟩

end Entry

/-- What a fetch leaves of the machine: registers, the host's read and the intake change. -/
theorem fetches_exec {s s2 : State} {q d : Nat} {e : List Byte} (h : Fetches s q d e s2) : ∃ i, s2.exec = { s.exec with intake := i } := by
  obtain ⟨-, -, -, s1, hf, rfl⟩ := h
  obtain ⟨-, rfl⟩ := Prod.mk.inj hf
  exact ⟨_, rfl⟩

theorem sqFetch_eq (s : State) (q d : Nat) : ∃ v o, (sqFetch s q d).2 = emit (fset s F.HIU_SQ_STAT_HEAD v q) o := ⟨_, _, rfl⟩

theorem fetches_fenced {s s2 : State} {q d : Nat} {e : List Byte} (h : Fetches s q d e s2) {n : Nat} (hn : fget s F.SMC_FENCE_STAT_FENCED = n) :
    fenced s2 = (n == 1) := by
  obtain ⟨-, -, -, s1, hf, rfl⟩ := h
  obtain ⟨v, o, heq⟩ := sqFetch_eq { s with hiu := { s.hiu with rr := q } } q d
  rw [hf] at heq
  have h1 := congrArg State.regs heq
  have hregs : (intakeDraw s1 d).regs = (fset { s with hiu := { s.hiu with rr := q } } F.HIU_SQ_STAT_HEAD v q).regs := h1
  refine fenced_eq ?_
  rw [fget_of_regs (u := fset { s with hiu := { s.hiu with rr := q } } F.HIU_SQ_STAT_HEAD v q) hregs,
    fget_fset_other _ _ _ _ _ _ (.inl (by decide)), fget_of_regs (u := s) (by rfl), hn]

theorem fset_hiu (s : State) (h : Hiu) (f : Fld) (v b : Nat) : fset { s with hiu := h } f v b = { fset s f v b with hiu := h } := rfl

theorem submissionFetch_fetches {s s2 : State} {q d : Nat} {e : List Byte} (h : Fetches s q d e s2) :
    submissionFetch false s = admitEntry s2 q d false none (entDeadline e) e := by
  obtain ⟨hr, hq, rfl, s1, hf, rfl⟩ := h
  have hf' : sqFetch { s with hiu := { s.hiu with rr := q } } q (sqDom s q) = (e, s1) := hf
  simp only [submissionFetch, if_neg (readyOn hr), hq, Bool.false_eq_true, if_false, hf']
  rfl

/-- What an entry that passes every check comes to: a pending job under a tag of its own. -/
theorem fetched_pends {s s2 s3 : State} {q d : Nat} {e : List Byte} (h : Fetches s q d e s2) (hfence : fget s F.SMC_FENCE_STAT_FENCED = 0)
    (hb : entryBad s2 q d false e = none) (hp : police s2 d = (true, s3)) (hop : entOp e < 0xFF00) (hper : entPeriod e = 0)
    (hlen : (heldTags s).length < 2 ^ 32 - 2) : ∃ t tag, exec (.submissionFetch false) s = .next t
      ∧ t.exec.pend = s.exec.pend ++ [{ tag := tag, dom := d, be := entBe e, sq := q, plan := entPlan e, op := entOp e
                                        cookie := entCookie e, deadline := entDeadline e, entry := e, series := none }]
      ∧ tag ∉ heldTags s ∧ (s.exec.nextTag ≠ 0 → tag ≠ 0) ∧ t.exec.jobs = s.exec.jobs := by
  have step : exec (.submissionFetch false) s = .next (submissionFetch false s) := rfl
  obtain ⟨i, hexec2⟩ := fetches_exec h
  obtain ⟨b, hexec3⟩ := police_exec hp
  obtain ⟨s4, h4, hadmit⟩ := admitEntry_passes (fetches_fenced h hfence) hb hp hop hper (entDeadline e)
  have hexec4 : s4.exec = { s.exec with intake := i, bucket := b } := by
    obtain ⟨rs, hcount⟩ : ∃ rs, dspCount s3 F.DSP_CNT_ADM_COUNT d = { s3 with regs := rs } := ⟨_, rfl⟩
    rw [h4, hcount]
    exact hexec3.trans (by rw [hexec2])
  rw [submissionFetch_fetches h, hadmit] at step
  have hheld : heldTags s4 = heldTags s := by rw [heldTags, hexec4] <;> rfl
  have hnext : s4.exec.nextTag = s.exec.nextTag := by rw [hexec4]
  have htag : (newTag s4).1 = nextFree (heldTags s) ((heldTags s).length + 1) s.exec.nextTag := by rw [newTag, hheld, hnext]
  have hpend : (newTag s4).2.exec.pend = s.exec.pend := by rw [newTag, hexec4]
  have hjobs : (newTag s4).2.exec.jobs = s.exec.jobs := by rw [newTag, hexec4]
  refine ⟨_, (newTag s4).1, step, by rw [← hpend], ?_, fun hne => ?_, hjobs⟩
  · rw [htag]
    exact nextFree_free _ hlen
  · rw [htag]
    exact nextFree_ne_zero hne

theorem admissionOfEntries : AdmissionOfEntries := by
  refine ⟨fun s q d e s2 h => ⟨fun hf => ?_, fun hf r hb => ?_, fun hf hb s3 hp => ?_, fun hf hb s3 hp hop hper hlen =>
    fetched_pends h hf hb hp hop hper hlen⟩, fun s q hr hq s1 h1 => ?_, fun s b h => ?_, fun s id x hx => ⟨fun hdue hfree => ?_, fun hearly => ?_⟩⟩
  · refine congrArg Host.Outcome.next (?_ : submissionFetch false s = _)
    rw [submissionFetch_fetches h, admitEntry_fenced (fetches_fenced h hf)]
  · refine congrArg Host.Outcome.next (?_ : submissionFetch false s = _)
    rw [submissionFetch_fetches h, admitEntry_bad (fetches_fenced h hf) hb] <;> rfl
  · refine congrArg Host.Outcome.next (?_ : submissionFetch false s = _)
    rw [submissionFetch_fetches h, admitEntry_policed (fetches_fenced h hf) hb hp]
  · refine congrArg Host.Outcome.next (?_ : submissionFetch true s = _)
    simp only [submissionFetch, if_neg (readyOn hr), hq, if_true, h1]
    rw [HostQueues.sqOff_eq rfl, fset_hiu]
  · refine congrArg Host.Outcome.next (?_ : submissionFetch b s = _)
    rcases h with h | h
    · rw [submissionFetch, if_pos h]
    · rw [submissionFetch, h]
      exact ite_self s
  · refine congrArg Host.Outcome.next (?_ : periodicRelease id s = _)
    simp only [periodicRelease, hx]
    rw [if_neg (by simp [hfree]; omega)]
  · refine congrArg Host.Outcome.next (?_ : periodicRelease id s = _)
    simp only [periodicRelease, hx]
    rw [if_pos (by simp [hearly])]

/-- Settles O50: queues are enabled and rung as their registers allow, and a fetched entry comes to the first case that holds. -/
theorem queuesAndAdmission : Obligations.QueuesAndAdmission := ⟨HostQueues.queuesAndDoorbells, admissionOfEntries⟩

end Sys2Proof.Admission

/-! # Gate lists -/

namespace Sys2Proof.Gates

open Sys2Proof Sys2Proof.Machine Sys2Proof.Claims Sys2Proof.Laws Sys2Proof.Words Sys2Proof.Registers Sys2Proof.Actions

/-! ### Control (R532, R534) -/

section Control
variable {s s1 : State} {p : Nat} {v : W32}

theorem gateCtl_port (hp : p = fget s F.TRF_GL_SEL_PORT) (hp8 : p ≤ 8) (h1 : s1 = regWritePlain s .TRF_GL_CTL p v) : gateCtl v s =
    let s2 := if v.getLsbD 10 then gateCancel s1 p else s1
    if v.getLsbD 9 then gateArm s2 p else s2 := by
  simp only [gateCtl, ← hp, if_neg (Nat.not_lt.2 hp8), ← h1]

/-- What the write of the control register leaves. -/
theorem gateCtl_rest (h1 : s1 = regWritePlain s .TRF_GL_CTL p v) : s1.now = s.now ∧ gateHorizon s1 = gateHorizon s ∧ portOf s1 p = portOf s p := by
  have hhorizon : gateHorizon s1 = gateHorizon s := by
    rw [gateHorizon, gateHorizon, rpair, rpair, h1, rget_regWritePlain_other s v (.inl (by decide)) (by decide),
      rget_regWritePlain_other s v (.inl (by decide)) (by decide)]
  obtain ⟨rs, heq⟩ := regWritePlain_eq s .TRF_GL_CTL p v
  rw [heq] at h1
  exact ⟨by rw [h1], hhorizon, by rw [h1] <;> rfl⟩

theorem gateOk_iff (w : W64) : gateOk w = true ↔ 100 ≤ (w.extractLsb' 0 32).toNat ∧ w.extractLsb' 47 17 = 0#17 := by
  rw [gateOk, gateDur, bitsOf_toNat, bitsOf_toNat, Bool.and_eq_true, decide_eq_true_eq, beq_iff_eq, ← BitVec.toNat_inj] <;> rfl

/-- A list is staged where it is whole, well formed and early enough. -/
theorem gateArm_iff (s : State) (p : Nat) {l : List W64}
    (hl : l = (List.range (fget s F.TRF_GL_CTL_LEN p)).map fun i => tget 0 (portOf s p).words i) :
    (fget s F.TRF_GL_CTL_LEN p ≠ 0 ∧ fget s F.TRF_GL_CTL_LEN p ≤ 256 ∧ (∀ w ∈ l, gateOk w = true) ∧ s.now + 10000 ≤ gateHorizon s →
      gateArm s p = fset (fset (setPort s p { portOf s p with staged := some (l, gateHorizon s) }) F.TRF_GL_CTL_STAGED 1 p) F.TRF_GL_CTL_ERR 0 p)
    ∧ (fget s F.TRF_GL_CTL_LEN p = 0 ∨ 256 < fget s F.TRF_GL_CTL_LEN p ∨ (∃ w ∈ l, ¬ gateOk w = true) ∨ gateHorizon s < s.now + 10000 →
      gateArm s p = fset s F.TRF_GL_CTL_ERR 1 p) := by
  subst hl
  refine ⟨fun ⟨h0, h256, hok, hh⟩ => ?_, fun hbad => ?_⟩ <;> rw [gateArm]
  · refine if_neg ?_
    simp only [Bool.or_eq_true, decide_eq_true_eq, List.any_eq_true, Bool.not_eq_true', not_or, not_exists, not_and, Bool.not_eq_false]
    exact ⟨⟨⟨h0, by omega⟩, hok⟩, by omega⟩
  · refine if_pos ?_
    simp only [Bool.or_eq_true, decide_eq_true_eq, List.any_eq_true, Bool.not_eq_true']
    rcases hbad with h | h | ⟨w, hw, h⟩ | h
    · exact .inl (.inl (.inl h))
    · exact .inl (.inl (.inr h))
    · exact .inl (.inr ⟨w, hw, Bool.not_eq_true _ ▸ h⟩)
    · exact .inr h

end Control

/-! ### Windows (R533, R535) -/

/-- Raising the tags of the queues below `c` that a mask opens. -/
def raiseTags (m vt : Nat) (c : Nat) (t : Table Nat) : Table Nat :=
  (List.range c).foldl (fun t q => if bitAt m q then tput 0 t q (max (tget 0 t q) vt) else t) t

theorem raiseTags_tget (m vt : Nat) {t : Table Nat} (ht : tsorted t = true) : ∀ c, tsorted (raiseTags m vt c t) = true
    ∧ ∀ q, tget 0 (raiseTags m vt c t) q = if q < c ∧ bitAt m q = true then max (tget 0 t q) vt else tget 0 t q
  | 0 => ⟨ht, fun q => (if_neg (fun h => Nat.not_lt_zero q h.1)).symm⟩
  | c + 1 => by
    obtain ⟨hs, hget⟩ := raiseTags_tget m vt ht c
    have hstep : raiseTags m vt (c + 1) t = if bitAt m c then tput 0 (raiseTags m vt c t) c (max (tget 0 (raiseTags m vt c t) c) vt)
        else raiseTags m vt c t := by
      rw [raiseTags, List.range_succ, List.foldl_append] <;> rfl
    have hc : tget 0 (raiseTags m vt c t) c = tget 0 t c := (hget c).trans (if_neg fun h => Nat.lt_irrefl c h.1)
    rw [hstep, hc]
    by_cases hb : bitAt m c = true
    · rw [if_pos hb]
      refine ⟨NearBank.tsorted_tput hs _ _, fun q => ?_⟩
      by_cases hq : q = c
      · rw [hq, tget_tput_same hs, if_pos ⟨Nat.lt_succ_self c, hb⟩]
      · rw [tget_tput_other _ _ hq, hget]
        exact if_congr (and_congr_left fun _ => by omega) rfl rfl
    · rw [if_neg hb]
      refine ⟨hs, fun q => (hget q).trans (if_congr ⟨fun h => ⟨by omega, h.2⟩, fun h => ⟨?_, h.2⟩⟩ rfl rfl)⟩
      rcases Nat.lt_succ_iff_lt_or_eq.1 h.1 with hlt | rfl
      · exact hlt
      · exact absurd h.2 hb

theorem openMask_bit (x : Port) {q : Nat} (hq : q < 15) : bitAt (openMask x) q =
    match x.active with | none => true | some g => (g.entries.getD g.pos 0).getLsbD (32 + q) := by
  rw [openMask]
  cases x.active with
  | none =>
    show Nat.testBit 0x7FFF q = true
    exact (Nat.testBit_two_pow_sub_one 15 q).trans (decide_eq_true hq)
  | some g =>
    show Nat.testBit (gateOpen (g.entries.getD g.pos 0)) q = _
    rw [gateOpen, bitsOf, Nat.testBit_mod_two_pow, Nat.testBit_div_two_pow, decide_eq_true hq, Bool.true_and, Nat.add_comm] <;> rfl

theorem tget_openTags {x : Port} (ht : tsorted x.tags = true) {q : Nat} (hq : q < 15) : tget 0 (openTags x).tags q =
    if (match x.active with | none => true | some g => (g.entries.getD g.pos 0).getLsbD (32 + q)) then max (tget 0 x.tags q) x.vt
      else tget 0 x.tags q := by
  have h := (raiseTags_tget (openMask x) x.vt ht 15).2 q
  refine Eq.trans (h : tget 0 (openTags x).tags q = _) ?_
  rw [openMask_bit x hq]
  exact if_congr (and_iff_right hq) rfl rfl

theorem gateLists : GateLists := by
  refine ⟨fun s v p s1 l ha hp hp8 hv h1 hl => ?_, fun s v p s1 ha hp hp8 h1 => ?_, fun s p l h hst => ?_, fun s p g e hg he => ?_,
    fun x q hq ht => tget_openTags ht hq⟩
  · have hcancel : (v ||| 0x200).getLsbD 10 = false := (getLsbD_or_clear v (by decide)).trans hv
    have harm : (v ||| 0x200).getLsbD 9 = true := getLsbD_or_set v (by decide)
    obtain ⟨hnow, hhorizon, hport⟩ := gateCtl_rest h1
    have step : exec (.gateListArm v) s = .next (gateArm s1 p) := by
      refine congrArg Host.Outcome.next ((hostReg_awake ha _ _ _).trans ?_)
      rw [gateCtl_port hp hp8 h1]
      simp only [hcancel, harm, Bool.false_eq_true, if_false, if_true]
    obtain ⟨hyes, hno⟩ := gateArm_iff s1 p (l := l) (by rw [hl, hport])
    rw [hnow, hhorizon, hport] at hyes
    rw [hnow, hhorizon] at hno
    rw [step]
    refine ⟨fun h0 h256 hok hh => by rw [hyes ⟨h0, h256, fun w hw => (gateOk_iff w).2 (hok w hw), hh⟩], fun hbad => congrArg Host.Outcome.next
      (hno ?_)⟩
    refine hbad.imp id (Or.imp id (Or.imp (fun ⟨w, hw, h⟩ => ⟨w, hw, fun hok => ?_⟩) id))
    obtain ⟨hdur, hzero⟩ := (gateOk_iff w).1 hok
    exact h.elim (fun hlt => by omega) fun hne => hne hzero
  · have hcancel : ((v ||| 0x400) &&& 0xFFFFFDFF).getLsbD 10 = true := by
      rw [BitVec.getLsbD_and, getLsbD_or_set v (by decide)]
      decide
    have harm : ((v ||| 0x400) &&& 0xFFFFFDFF).getLsbD 9 = false := by
      rw [BitVec.getLsbD_and, show (0xFFFFFDFF : W32).getLsbD 9 = false by decide, Bool.and_false]
    obtain ⟨hnow, -, hport⟩ := gateCtl_rest h1
    have step : exec (.gateListCancel v) s = .next (gateCancel s1 p) := by
      refine congrArg Host.Outcome.next ((hostReg_awake ha _ _ _).trans ?_)
      rw [gateCtl_port hp hp8 h1]
      simp only [hcancel, harm, Bool.false_eq_true, if_false, if_true]
    rw [step]
    refine ⟨fun l h hst hlt => ?_, fun hst => ?_⟩
    · rw [gateCancel, hport, hst]
      exact congrArg Host.Outcome.next (if_pos (hnow ▸ hlt))
    · rw [gateCancel, hport, hst]
  · have step : exec (.gateListHorizon p) s = .next (gateHorizonAt p s) := rfl
    rw [step, gateHorizonAt, hst]
    exact ⟨fun hdue => congrArg Host.Outcome.next (if_neg (Nat.not_lt.2 hdue)), fun hlt => congrArg Host.Outcome.next (if_pos hlt)⟩
  · have step : exec (.gateWindowEdge p) s = .next (gateEdge p s) := rfl
    subst he
    simp only [step, gateEdge, hg]
    exact ⟨fun hdue => congrArg Host.Outcome.next (if_neg (Nat.not_lt.2 hdue)), fun hlt => congrArg Host.Outcome.next (if_pos hlt)⟩

end Sys2Proof.Gates

/-! # Egress and sampling -/

namespace Sys2Proof.Egressing

open Sys2Proof Sys2Proof.Machine Sys2Proof.Claims Sys2Proof.Laws Sys2Proof.Registers Sys2Proof.Actions Sys2Proof.Timing Sys2Proof.HostQueues

/-! ### The smallest start tag (R535, R536) -/

theorem mem_of_tfind {α : Type} {k : Nat} {v : α} : ∀ {m : Table α}, tfind m k = some v → (k, v) ∈ m
  | (j, w) :: m, h => by
    rw [tfind] at h
    split at h
    · next hj =>
      obtain rfl := Option.some.inj h
      exact hj ▸ List.mem_cons_self
    · exact List.mem_cons_of_mem _ (mem_of_tfind h)

theorem leastBy_mem {α : Type} {key : α → Nat} {y : α} : ∀ {l : List α}, leastBy key l = some y → y ∈ l
  | x :: xs, h => by
    rw [leastBy] at h
    cases hx : leastBy key xs with
    | none =>
      rw [hx] at h
      exact Option.some.inj h ▸ List.mem_cons_self
    | some z =>
      rw [hx] at h
      dsimp only at h
      split at h
      · exact List.mem_cons_of_mem _ (Option.some.inj h ▸ leastBy_mem hx)
      · exact Option.some.inj h ▸ List.mem_cons_self

/-- Of a sorted table, the entry that has the smallest key, and of those the lowest number. -/
theorem leastBy_sorted {α : Type} {key : Nat × α → Nat} {x : Nat × α} : ∀ {l : Table α}, tsorted l = true → x ∈ l →
    (∀ y ∈ l, key x < key y ∨ (key x = key y ∧ x.1 ≤ y.1)) → leastBy key l = some x
  | y :: l, hs, hx, hmin => by
    obtain ⟨habove, hs⟩ := tsorted_cons.1 hs
    rw [leastBy]
    rcases List.mem_cons.1 hx with rfl | hx
    · cases hl : leastBy key l with
      | none => rfl
      | some z =>
        have := hmin z (List.mem_cons_of_mem _ (leastBy_mem hl))
        exact if_neg (by omega)
    · rw [leastBy_sorted hs hx fun z hz => hmin z (List.mem_cons_of_mem _ hz)]
      have hlow := habove x hx
      have := hmin y List.mem_cons_self
      exact if_pos (by omega)

section Serve
variable {s : State} {p q : Nat} {e : Egress} {rest : List Egress} {x : Port}

theorem nextServed_system (hx : x = portOf s p) (hq : tget [] x.queues 15 = e :: rest) : nextServed s p = some (15, e) := by
  rw [nextServed, ← hx]
  simp only [hq]

theorem nextServed_open (hx : x = portOf s p) (hq : tget [] x.queues q = e :: rest) (hq15 : q < 15) (hsys : tget [] x.queues 15 = [])
    (hopen : bitAt (openMask x) q = true) (hend : ∀ t, windowEnd x = some t → s.now + lineTime s p e.bytes ≤ t) (hs : tsorted x.queues = true)
    (hmin : ∀ k l, (k, l) ∈ x.queues → k < 15 → bitAt (openMask x) k = true →
      tget 0 x.tags q < tget 0 x.tags k ∨ (tget 0 x.tags q = tget 0 x.tags k ∧ q ≤ k)) : nextServed s p = some (q, e) := by
  have hfind : tfind x.queues q = some (e :: rest) := by
    rw [tget] at hq
    cases h : tfind x.queues q with
    | none => rw [h] at hq; cases hq
    | some l => rw [h] at hq; exact congrArg some hq
  have hready : leastBy (fun q => tget 0 x.tags q.1) (x.queues.filter fun q => bitAt (openMask x) q.1 && decide (q.1 < 15)) =
      some (q, e :: rest) := by
    refine leastBy_sorted (tsorted_filter hs _) (List.mem_filter.2 ⟨mem_of_tfind hfind, by simp [hopen, hq15]⟩) fun y hy => ?_
    obtain ⟨hmem, hy⟩ := List.mem_filter.1 hy
    obtain ⟨hopen, hlt⟩ := Bool.and_eq_true_iff.1 hy
    exact hmin y.1 y.2 hmem (of_decide_eq_true hlt) hopen
  rw [nextServed, ← hx]
  simp only [hsys, hready]
  cases hw : windowEnd x with
  | none => rfl
  | some t => exact if_pos (hend t hw)

theorem egressServe_serves (hp : p < 8) (hup : portUp s p = true) (hx : x = portOf s p) (hfree : x.busyUntil ≤ s.now)
    (hq : tget [] x.queues q = e :: rest)
    (hnext : nextServed s p = some (q, e)) : egressServe p s = sendEgress (setPort s p { x with
      queues := tput [] x.queues q rest
      vt := if q = 15 then x.vt else tget 0 x.tags q
      busyUntil := s.now + lineTime s p e.bytes
      tags := if q = 15 then x.tags else tput 0 x.tags q (tget 0 x.tags q + e.bytes * (tagUnit / weightOf s p q)) }) p e := by
  subst hx
  have hgo : ¬ (!portUp s p || decide (p > 7) || decide (s.now < (portOf s p).busyUntil)) = true := by simp [hup, hfree]; omega
  rw [egressServe, if_neg hgo, hnext]
  simp only [hq, List.drop_succ_cons, List.drop_zero]
  by_cases h15 : q = 15
  · simp only [if_pos h15]
  · simp only [if_neg h15]

end Serve

theorem dvd_foldl_lcm (f : Nat → Nat) : ∀ (l : List Nat) (n : Nat), n ∣ l.foldl (fun n i => Nat.lcm n (f i)) n
    ∧ ∀ i ∈ l, f i ∣ l.foldl (fun n i => Nat.lcm n (f i)) n
  | [], n => ⟨dvd_rfl, fun _ h => absurd h List.not_mem_nil⟩
  | a :: l, n => by
    obtain ⟨h1, h2⟩ := dvd_foldl_lcm f l (Nat.lcm n (f a))
    rw [List.foldl_cons]
    refine ⟨(Nat.dvd_lcm_left n (f a)).trans h1, fun i hi => ?_⟩
    rcases List.mem_cons.1 hi with rfl | hi
    · exact (Nat.dvd_lcm_right n (f i)).trans h1
    · exact h2 i hi

/-- Every weight divides the unit of the start tags. -/
theorem dvd_tagUnit {w : Nat} (h1 : 1 ≤ w) (h2 : w ≤ 255) : w ∣ tagUnit := by
  have h := (dvd_foldl_lcm (· + 1) (List.range 255) 1).2 (w - 1) (List.mem_range.2 (by omega))
  rwa [Nat.sub_add_cancel h1] at h

theorem egressServesByVirtualTime : EgressServesByVirtualTime := by
  refine ⟨fun s p q e rest x hp hup hx hfree hq hnext => ?_, fun s p hp hidle => ?_, fun w h1 h2 => dvd_tagUnit h1 h2⟩
  · refine congrArg Host.Outcome.next (egressServe_serves hp hup hx hfree hq ?_)
    rcases hnext with rfl | ⟨hq15, hsys, hopen, hend, hs, hmin⟩
    · exact nextServed_system hx hq
    · exact nextServed_open hx hq hq15 hsys hopen hend hs hmin
  · refine congrArg Host.Outcome.next (?_ : egressServe p s = s)
    rw [egressServe, if_pos]
    rcases hidle with h | h <;> simp [h]

/-! ### Sampling (R537, R538) -/

theorem smpCtl_enabled {s : State} (he : fget s F.TRF_SMP_CTL_ENABLE = 1) (v : W32) :
    smpCtl v s = regWritePlain s .TRF_SMP_CTL 0 (keptBits smpFixed v (rget s .TRF_SMP_CTL 0)) := by
  simp only [smpCtl, if_pos he] <;> rfl

theorem smpCtl_enable {s s1 s2 : State} (he : fget s F.TRF_SMP_CTL_ENABLE ≠ 1) {v : W32} (hv : v.getLsbD 19 = true)
    (h1 : s1 = regWritePlain s .TRF_SMP_CTL 0 v) (h2 : s2 = fset (rset s1 .TRF_SMP_HEAD 0 0) F.TRF_SMP_STAT_TAIL 0) :
    smpCtl v s = { s2 with trf := { s.trf with
      smpPhase := true, smpStart := s.now, smpNext := s.now + max 1 (fget s1 F.TRF_SMP_CTL_INTERVAL) * 1000 } } := by
  have htrf : s2.trf = s.trf := by
    obtain ⟨rs, heq⟩ := regWritePlain_eq s .TRF_SMP_CTL 0 v
    rw [heq] at h1
    rw [h2, h1] <;> rfl
  simp only [smpCtl, if_neg he, hv, Bool.not_true, Bool.false_eq_true, if_false, ← h1, ← h2, htrf]

theorem sampleRec_length (s : State) (p : Nat) : (sampleRec s p).length = 128 := by
  simp only [sampleRec, List.length_append, HostSide.bytesOf_length, List.length_flatMap, List.length_replicate, List.map_const', List.length_range,
    List.sum_replicate, smul_eq_mul]

theorem hostWrite_regs (s : State) (pasid : Option Nat) (a : Nat) (bs : List Byte) : (hostWrite s pasid a bs).regs = s.regs := rfl

theorem hostWrite_host (s : State) (pasid : Option Nat) (a : Nat) (bs : List Byte) :
    (hostWrite s pasid a bs).mem.host = cellsWrite s.mem.host a bs := rfl

section Ring
variable {s : State} {p t : Nat}

theorem putSample_full (ht : t = fget s F.TRF_SMP_STAT_TAIL) (hfull : (t + 1) % 2 ^ fget s F.TRF_SMP_CTL_SIZE = fget s F.TRF_SMP_HEAD_V) :
    putSample s p = fbump s F.TRF_SMP_STAT_LOST := by
  rw [putSample, ← ht]
  exact if_pos hfull

theorem putSample_room (hs : tsorted s.regs = true) (ht : t = fget s F.TRF_SMP_STAT_TAIL) (hsize : fget s F.TRF_SMP_CTL_SIZE ≤ 16)
    (hroom : (t + 1) % 2 ^ fget s F.TRF_SMP_CTL_SIZE ≠ fget s F.TRF_SMP_HEAD_V) :
    fget (putSample s p) F.TRF_SMP_STAT_TAIL = (t + 1) % 2 ^ fget s F.TRF_SMP_CTL_SIZE
      ∧ (putSample s p).mem.host = cellsWrite s.mem.host (rpair s .TRF_SMP_BASE_LO .TRF_SMP_BASE_HI + 128 * t) (sampleRec s p) := by
  subst ht
  obtain ⟨s1, h1⟩ : ∃ s1, s1 = hostWrite s (pasidOf s (fget s F.TRF_SMP_DOM_V))
    (rpair s .TRF_SMP_BASE_LO .TRF_SMP_BASE_HI + 128 * fget s F.TRF_SMP_STAT_TAIL) (sampleRec s p) := ⟨_, rfl⟩
  obtain ⟨s2, h2⟩ : ∃ s2, s2 = fset s1 F.TRF_SMP_STAT_TAIL ((fget s F.TRF_SMP_STAT_TAIL + 1) % smpSize s) := ⟨_, rfl⟩
  have hregs : s1.regs = s.regs := by rw [h1, hostWrite_regs]
  have hhost : s1.mem.host = cellsWrite s.mem.host (rpair s .TRF_SMP_BASE_LO .TRF_SMP_BASE_HI + 128 * fget s F.TRF_SMP_STAT_TAIL)
      (sampleRec s p) := by rw [h1, hostWrite_host]
  have hput : ∃ f, putSample s p = { s2 with trf := f } := by
    rw [putSample]
    dsimp only
    rw [if_neg (show (fget s F.TRF_SMP_STAT_TAIL + 1) % smpSize s ≠ fget s F.TRF_SMP_HEAD_V from hroom), ← h1, ← h2]
    split
    · exact ⟨_, rfl⟩
    · exact ⟨s2.trf, rfl⟩
  obtain ⟨f, hput⟩ := hput
  have hmem : s2.mem = s1.mem := by
    rw [h2]
    rfl
  have hlt : (fget s F.TRF_SMP_STAT_TAIL + 1) % smpSize s < 2 ^ F.TRF_SMP_STAT_TAIL.w :=
    lt_of_lt_of_le (Nat.mod_lt _ (Nat.two_pow_pos _)) (Nat.pow_le_pow_right (by decide) hsize)
  refine ⟨?_, by rw [hput, ← hhost, ← hmem]⟩
  rw [fget_of_regs (u := s2) (by rw [hput]), h2, fget_fset_same (by rw [hregs]; exact hs) (by decide), Nat.mod_eq_of_lt hlt] <;> rfl

end Ring

theorem queueSampling : QueueSampling := by
  refine ⟨fun s v ha he s1 s2 h1 h2 => ?_, fun s v ha hs he => ?_, fun s he hnow hstate s1 h1 => ?_, fun s hno => ?_, sampleRec_length,
    fun s p t hs ht hsize => ⟨putSample_full ht, putSample_room hs ht hsize⟩⟩
  · refine congrArg Host.Outcome.next ((hostReg_awake ha _ _ _).trans (smpCtl_enable he ?_ h1 h2))
    exact getLsbD_or_set v (by decide)
  · have hv : (v &&& 0xFFF7FFFF).getLsbD 19 = false := by
      rw [BitVec.getLsbD_and, show (0xFFF7FFFF : W32).getLsbD 19 = false by decide, Bool.and_false]
    have step : exec (.samplingDisable v) s = .next (smpCtl (v &&& 0xFFF7FFFF) s) := congrArg Host.Outcome.next (hostReg_awake ha _ _ _)
    rw [smpCtl_enabled he] at step
    have hfield := fun g (hg : g ∈ regFields .TRF_SMP_CTL) (hty : g.ty = .rw) =>
      rw_regWritePlain hs (by decide) 0 (keptBits smpFixed (v &&& 0xFFF7FFFF) (rget s .TRF_SMP_CTL 0)) hg hty
    refine ⟨_, step, ?_, ?_, ?_, regWritePlain_regs _ _ _ _⟩
    · exact (hfield ⟨19, 1, .rw, 0x0⟩ (by decide) rfl).trans (keptBits_clear (by decide) (by decide) hv _)
    · exact (hfield ⟨10, 9, .rw, 0x1FF⟩ (by decide) rfl).trans (keptBits_masked _ _ (by decide) (by decide))
    · exact (hfield ⟨20, 4, .rw, 0x0⟩ (by decide) rfl).trans (keptBits_masked _ _ (by decide) (by decide))
  · refine congrArg Host.Outcome.next (?_ : sampleTick s = _)
    subst h1
    rw [sampleTick, if_neg (by simp [he]; omega)] <;> rfl
  · refine congrArg Host.Outcome.next (?_ : sampleTick s = s)
    rw [sampleTick, if_pos]
    rcases hno with h | h | h <;> simp [h]

/-- Settles O51: gate lists are staged and take over by device time, a port serves by virtual time, and sampling fills its ring. -/
theorem gatesEgressAndSampling : Obligations.GatesEgressAndSampling := ⟨Gates.gateLists, egressServesByVirtualTime, queueSampling⟩

end Sys2Proof.Egressing

/-! # Domains -/

namespace Sys2Proof.Tenancy

open Sys2Proof Sys2Proof.Machine Sys2Proof.Claims Sys2Proof.Laws Sys2Proof.Registers Sys2Proof.Windows Sys2Proof.Actions Sys2Proof.Timing
  Sys2Proof.HostQueues

/-- A write of `DOM_CMD` has its effect in every power state. -/
theorem exec_domWrite {s s1 : State} (hp : Prompt s) {op : Nat} {v : W32} (hop : bitsOf v.toNat 12 4 = op) (h0 : op ≠ 0)
    (h1 : s1 = regWritePlain s .SMC_DOM_CMD 0 v) : domWrite op v s = domBegin op s1 := by
  rw [domWrite, hostReg_early hp _ rfl]
  simp only [hop, ← h1]
  simp [h0]

/-- What a write of `DOM_CMD` leaves of the other registers. -/
theorem fget_domCmd {s s1 : State} {v : W32} (h1 : s1 = regWritePlain s .SMC_DOM_CMD 0 v) (f : Fld) (hf : f.reg ≠ .SMC_DOM_CMD)
    (hl : f.reg ≠ .SMC_LIFECYCLE) (b : Nat) : fget s1 f b = fget s f b :=
  h1 ▸ fget_regWritePlain_other s v hf hl

theorem domBegin_idle {s : State} (h : fget s F.SMC_DOM_STAT_BUSY = 0) : domBegin 1 s =
    domCreate s (fget s F.SMC_DOM_CMD_DOMAIN) (fget s F.SMC_DOM_CMD_PART)
    ∧ domBegin 2 s = domRelease s (fget s F.SMC_DOM_CMD_DOMAIN) := by
  have h1 : fget s F.SMC_DOM_STAT_BUSY ≠ 1 := by omega
  simp only [domBegin, if_neg h1, and_self]

section Create
variable {s : State} {d p : Nat}

theorem domCreate_taken (h : (tget {} s.smc.doms d).state ≠ 0) : domCreate s d p = domEnds s 0x0B 0xE1 := by
  rw [domCreate, domOf]
  exact if_pos (bne_iff_ne.2 h)

theorem domCreate_free (h : (tget {} s.smc.doms d).state = 0) (hp : partitioned s = true → tfind s.fab.slices p ≠ none) :
    domCreate s d p = domEnds (setDom s d
      { state := 1, part := if partitioned s then p else 0, gen := ((tget {} s.smc.doms d).gen + 1) % 2 ^ 32 }) 0x00 0 := by
  rw [domCreate, domOf]
  rw [if_neg (by rw [h]; decide), if_neg (by simpa using hp)] <;> rfl

theorem domCreate_unsliced (h : (tget {} s.smc.doms d).state = 0) (hp : partitioned s = true) (hf : tfind s.fab.slices p = none) :
    domCreate s d p = domEnds s 0x0B 0xE2 := by
  rw [domCreate, domOf]
  rw [if_neg (by rw [h]; decide), hp, hf] <;> rfl

end Create

section Release
variable {s : State} {d : Nat}

theorem domRelease_inactive (h : (tget {} s.smc.doms d).state ≠ 1) : domRelease s d = domEnds s 0x0B 0xE4 := by
  rw [domRelease, domOf]
  exact if_pos (bne_iff_ne.2 h)

theorem domRelease_holds (h : (tget {} s.smc.doms d).state = 1) (hh : domHolds s d = true) : domRelease s d = domEnds s 0x0B 0xE0 := by
  rw [domRelease, domOf, h, hh] <;> rfl

theorem domRelease_starts {o : Dom} {s2 : State} (ho : o = tget {} s.smc.doms d) (h : o.state = 1) (hh : domHolds s d = false)
    (ht : domTiles s d = [])
    (h2 : s2 = flashDrop (setDom s d { o with state := 2, gen := (o.gen + 1) % 2 ^ 32 }) d 0 (2 ^ 56)) :
    domRelease s d = fset { s2 with smc := { s2.smc with releasing := some d } } F.SMC_DOM_STAT_BUSY 1 := by
  rw [domRelease, domOf, ← ho]
  dsimp only
  rw [if_neg (by rw [h]; decide), if_neg (by rw [hh]; decide), if_pos ht, ← h2]

end Release

theorem domEnds_eq (s : State) (st rs : Nat) : ∃ r, domEnds s st rs = { s with regs := r } := ⟨_, rfl⟩

theorem domEnds_status {s : State} (hs : tsorted s.regs = true) (st rs : Nat) : fget (domEnds s st rs) F.SMC_DOM_STAT_STATUS = st % 256 := by
  have h1 := tsorted_fset hs F.SMC_DOM_STAT_STATUS st 0
  have h2 := tsorted_fset h1 F.SMC_DOM_STAT_REASON rs 0
  rw [domEnds, fget_fset_apart h2 _ _ (by decide), fget_fset_apart h1 _ _ (by decide), fget_fset_same hs (by decide)] <;> rfl

theorem domReleased_idle {s : State} (h : s.smc.releasing = none) : domReleased s = s := by rw [domReleased, h]

theorem domReleased_ends {s s1 : State} {d : Nat} (h : s.smc.releasing = some d) (hp : inP0 s = true)
    (h1 : s1 = (domTiles s d).foldl
      (fun s i => let s1 := scrubTile s i; { s1 with exec := { s1.exec with tileDom := tput 0 s1.exec.tileDom i 0 } }) s) :
    ∃ s2, s2 = setDom s1 d { domOf s1 d with state := 0, part := 0 }
      ∧ domReleased s = domEnds { s2 with smc := { s2.smc with releasing := none } } 0 0 := by
  refine ⟨_, rfl, ?_⟩
  rw [domReleased, h]
  dsimp only
  rw [if_neg (by rw [hp]; simp), ← h1] <;> rfl

theorem domainsComeAndGo : DomainsComeAndGo := by
  refine ⟨fun s v s1 d hp hb hop h1 hd => ?_, fun s v s1 d hp hb hop h1 hd => ?_, fun s h => congrArg Host.Outcome.next (domReleased_idle h),
    fun s d h hp s1 h1 => ?_⟩
  · have hbits : bitsOf v.toNat 12 4 = 1 := by rw [Words.bitsOf_toNat, hop] <;> rfl
    have hbusy : fget s1 F.SMC_DOM_STAT_BUSY = 0 := by rw [fget_domCmd h1 _ (by decide) (by decide), hb]
    have hten : fget s1 F.SMC_TENANCY_MODE = fget s F.SMC_TENANCY_MODE := fget_domCmd h1 _ (by decide) (by decide) _
    have step : exec (.domainCreate v) s = .next (domCreate s1 d (fget s1 F.SMC_DOM_CMD_PART)) := by
      rw [hd, ← (domBegin_idle hbusy).1, ← exec_domWrite hp hbits (by decide) h1] <;> rfl
    obtain ⟨hfab, hsmc, -⟩ := regWritePlain_rest h1
    rw [← hsmc, ← hfab, ← hten]
    refine ⟨fun h => step.trans (congrArg _ (domCreate_taken h)), fun h hm => step.trans (congrArg _ ?_), fun h hm hf => step.trans (congrArg _ ?_),
      fun l h hm hf => step.trans (congrArg _ ?_)⟩
    · have hpart : partitioned s1 = false := by rw [partitioned, hm] <;> rfl
      rw [domCreate_free h (by simp [hpart]), hpart] <;> rfl
    · have hpart : partitioned s1 = true := by rw [partitioned, hm] <;> rfl
      exact domCreate_unsliced h hpart hf
    · have hpart : partitioned s1 = true := by rw [partitioned, hm] <;> rfl
      rw [domCreate_free h (by simp [hf]), hpart] <;> rfl
  · have hbits : bitsOf v.toNat 12 4 = 2 := by rw [Words.bitsOf_toNat, hop] <;> rfl
    have hbusy : fget s1 F.SMC_DOM_STAT_BUSY = 0 := by rw [fget_domCmd h1 _ (by decide) (by decide), hb]
    have step : exec (.domainRelease v) s = .next (domRelease s1 d) := by
      rw [hd, ← (domBegin_idle hbusy).2, ← exec_domWrite hp hbits (by decide) h1] <;> rfl
    obtain ⟨-, hsmc, hexec, -⟩ := regWritePlain_rest h1
    rw [← hsmc]
    refine ⟨fun h => step.trans (congrArg _ (domRelease_inactive h)), fun h hh => step.trans (congrArg _ (domRelease_holds h hh)),
      fun h hh ht s2 o ho h2 => step.trans (congrArg _ (domRelease_starts ho (ho ▸ h) hh ?_ h2))⟩
    rw [domTiles, hexec]
    exact ht
  · obtain ⟨s2, h2, hrel⟩ := domReleased_ends h (by rw [inP0, hp] <;> rfl) h1
    have hregs : s2.regs = s1.regs := by rw [h2, setDom]
    obtain ⟨rs, hr⟩ := domEnds_eq { s2 with smc := { s2.smc with releasing := none } } 0 0
    refine ⟨_, congrArg Host.Outcome.next hrel, ?_, fun hs => domEnds_status (by rw [← hregs] at hs; exact hs) 0 0, ?_, ?_, ?_⟩
    · rw [hr]
    · rw [hr, h2, setDom]
    · rw [hr, h2, setDom]
    · rw [hr, h2, setDom, domOf]

end Sys2Proof.Tenancy

/-! # Management and the fence -/

namespace Sys2Proof.Fencing

open Sys2Proof Sys2Proof.Machine Sys2Proof.Claims Sys2Proof.Laws Sys2Proof.Registers Sys2Proof.Actions Sys2Proof.Timing

/-! ### What a record changes of the registers -/

theorem msixSend_rest (s : State) (v : Nat) : (msixSend s v).regs = s.regs ∧ (msixSend s v).smc = s.smc := by
  unfold msixSend
  extract_lets m
  split <;> exact ⟨rfl, rfl⟩

theorem msixCount_rest (s : State) (e : Nat) : (msixCount s e).regs = s.regs ∧ (msixCount s e).smc = s.smc := by
  unfold msixCount
  split
  · exact ⟨rfl, rfl⟩
  · extract_lets q n s1
    split
    · exact msixSend_rest ..
    · exact ⟨rfl, rfl⟩

theorem hostWrite_smc (s : State) (pasid : Option Nat) (a : Nat) (bs : List Byte) : (hostWrite s pasid a bs).smc = s.smc := rfl

theorem rget_eqPut (s : State) (e : Nat) (r : Rec) {q : Reg} (hq : .HIU_EQ_STAT ≠ q) (c : Nat) : rget (eqPut s e r) q c = rget s q c := by
  unfold eqPut
  extract_lets v tail base s1 next s2
  have h1 : s1.regs = s.regs := Egressing.hostWrite_regs ..
  rw [rget_of_regs (msixCount_rest _ e).1]
  exact (rget_rset_other s1 _ _ _ _ _ (.inl hq)).trans (rget_of_regs h1 q c)

theorem eqPut_smc (s : State) (e : Nat) (r : Rec) : (eqPut s e r).smc = s.smc := by
  unfold eqPut
  extract_lets v tail base s1 next s2
  have h1 : s1.smc = s.smc := hostWrite_smc ..
  exact (msixCount_rest _ e).2.trans h1

theorem fbump_smc (s : State) (f : Fld) (b : Nat) : (fbump s f b).smc = s.smc := by rw [fbump, fadd] <;> rfl

theorem eqRecord_smc (s : State) (e : Nat) (r : Rec) : (eqRecord s e r).smc = s.smc := by
  unfold eqRecord
  split
  · exact fbump_smc ..
  · split
    · split
      · rfl
      · exact (fbump_smc _ _ _).trans (setEvq_smc ..)
    · exact eqPut_smc ..

/-- A record changes the counts of its queue and of the host interface, and no other register. -/
theorem rget_eqRecord (s : State) (e : Nat) (r : Rec) {q : Reg} (h1 : .HIU_STAT ≠ q) (h2 : .HIU_EQ_STAT ≠ q) (c : Nat) :
    rget (eqRecord s e r) q c = rget s q c := by
  unfold eqRecord
  split
  · exact rget_fbump_other s 0 c h1
  · split
    · split
      · rfl
      · exact rget_fbump_other _ 0 c h1
    · exact rget_eqPut s e r h2 c

/-! ### The end of a drain -/

theorem sendSys_rest (s : State) (p : Pkt) : (sendSys s p).regs = s.regs ∧ (sendSys s p).smc = s.smc := by
  unfold sendSys sendPkt
  split
  · exact ⟨rfl, rfl⟩
  · split
    · exact ⟨rfl, rfl⟩
    · split <;> exact ⟨rfl, rfl⟩

theorem foldl_rest {α : Type} {f : State → α → State} (h : ∀ s a, (f s a).regs = s.regs ∧ (f s a).smc = s.smc) (l : List α) (s : State) :
    (l.foldl f s).regs = s.regs ∧ (l.foldl f s).smc = s.smc := by
  induction l generalizing s with
  | nil => exact ⟨rfl, rfl⟩
  | cons a l ih =>
    obtain ⟨hr, hm⟩ := h s a
    obtain ⟨ihr, ihm⟩ := ih (f s a)
    exact ⟨ihr.trans hr, ihm.trans hm⟩

theorem pumpDrain_rest (s : State) (k : Nat) : (pumpDrain s k).regs = s.regs ∧ (pumpDrain s k).smc = s.smc := by
  unfold pumpDrain
  extract_lets c
  split
  · exact ⟨rfl, rfl⟩
  · split
    · exact ⟨rfl, rfl⟩
    · extract_lets s1 all
      have h1 : s1.regs = s.regs ∧ s1.smc = s.smc := by
        unfold s1
        split
        · exact ⟨rfl, rfl⟩
        · refine foldl_rest (fun t n => ?_) _ s
          split
          · exact ⟨rfl, rfl⟩
          · exact sendSys_rest ..
      exact h1

theorem pumpDrains_rest (s : State) : (pumpDrains s).regs = s.regs ∧ (pumpDrains s).smc = s.smc :=
  foldl_rest (fun t _ => pumpDrain_rest t _) _ s

/-! ### The fence -/

/-- A record that tells of a fence. -/
theorem selfFence_free {s : State} (h : fget s F.SMC_FENCE_STAT_FENCED = 0) (cause : Nat) : selfFence cause s =
    devEvent (fset (fset s F.SMC_FENCE_STAT_FENCED 1) F.SMC_FENCE_STAT_CAUSE cause) 0x0C 0 0
      (bytesOf 8 cause ++ bytesOf 8 (tget 0 s.smc.issued 1)) := by
  rw [selfFence, if_neg (by rw [fenced, h]; decide)]

theorem selfFence_smc (s : State) (cause : Nat) : (selfFence cause s).smc = s.smc := by
  unfold selfFence
  split
  · rfl
  · exact eqRecord_smc ..

theorem selfFence_cause {s : State} (hs : tsorted s.regs = true) (h : fget s F.SMC_FENCE_STAT_FENCED = 0) (cause : Nat) :
    fget (selfFence cause s) F.SMC_FENCE_STAT_CAUSE = cause % 4 := by
  rw [selfFence_free h, devEvent, fget, rget_eqRecord _ _ _ (by decide) (by decide)]
  exact fget_fset_same (tsorted_fset hs _ _) (by decide) cause 0

/-- The node that is expelled is recorded, with those that were. -/
theorem mem_recorded (l : List Nat) (n : Nat) {k : Nat} (hk : k = n ∨ k ∈ l) : k ∈ if l.contains n then l else n :: l := by
  split
  · next hc => exact hk.elim (fun h => h ▸ List.contains_iff_mem.1 hc) id
  · exact List.mem_cons.2 hk

theorem expel_eq (n : Nat) (s : State) : ∃ s2 : State, s2.regs = s.regs
    ∧ s2.smc.expelled = (if s.smc.expelled.contains n then s.smc.expelled else n :: s.smc.expelled)
    ∧ expel n s = if myNode s = some n then selfFence 3 s2 else s2 := by
  refine ⟨_, ?_, ?_, rfl⟩
  · exact (pumpDrains_rest _).1
  · rw [(pumpDrains_rest _).2]

/-- An expelled node is recorded, and the node that expels itself is fenced. -/
theorem expel_effect (n : Nat) (s : State) : n ∈ (expel n s).smc.expelled ∧ (∀ k ∈ s.smc.expelled, k ∈ (expel n s).smc.expelled)
    ∧ (myNode s = some n → fenced s = false → tsorted s.regs = true → fget (expel n s) F.SMC_FENCE_STAT_CAUSE = 3) := by
  obtain ⟨s2, hr, hexp, heq⟩ := expel_eq n s
  have hout : (expel n s).smc.expelled = s2.smc.expelled := by
    rw [heq]
    split
    · rw [selfFence_smc]
    · rfl
  rw [hout, hexp]
  refine ⟨mem_recorded _ n (.inl rfl), fun k hk => mem_recorded _ n (.inr hk), fun hn hf hs => ?_⟩
  rw [heq, if_pos hn]
  refine selfFence_cause (hr ▸ hs) ?_ 3
  rw [fget_of_regs hr _ 0]
  refine HostQueues.bit_of_ne_one rfl fun h => ?_
  rw [fenced, h] at hf
  exact absurd hf (by decide)

/-! ### Messages -/

theorem mgmt_rejected {s : State} {cmd : Nat} {m : Mgmt} (h : mgmtOk s cmd m = false) (f : State → State) :
    mgmt cmd m f s = mgmtReply (fbump s F.SMC_FENCE_STAT_REJECTED) := by
  rw [mgmt, h] <;> rfl

theorem mgmt_accepted {s s1 : State} {cmd : Nat} {m : Mgmt} (h : mgmtOk s cmd m = true)
    (h1 : s1 = { s with smc := { s.smc with issued := tins s.smc.issued cmd (BitVec.toNat m.issueTime) } }) (f : State → State) :
    mgmt cmd m f s = mgmtReply (f s1) := by
  rw [mgmt, h, h1] <;> rfl

theorem heartbeat_arms {s : State} (hf : fget s F.SMC_FENCE_STAT_FENCED = 0) (hr : fget s F.PRB_STEP_READY = 1) (m : Mgmt) :
    heartbeat m s = fset { s with smc := { s.smc with lease := m.issueTime.toNat, leaseDone := false } } F.SMC_FENCE_STAT_ARMED 1 := by
  rw [heartbeat, fenced, hf, hr] <;> rfl

theorem unfence_lifts {s : State} (h : ∀ n, myNode s = some n → n ∉ s.smc.expelled) :
    unfence s = fset (fset s F.SMC_FENCE_STAT_FENCED 0) F.SMC_FENCE_STAT_CAUSE 0 := by
  rw [unfence]
  cases hn : myNode s with
  | none => rfl
  | some n => exact if_neg fun hc => h n hn (List.contains_iff_mem.1 hc)

theorem mgmtReply_length (s : State) : ∃ b, mgmtReply s = { s with out := .reply b :: s.out } ∧ b.length = 44 := by
  refine ⟨_, rfl, ?_⟩
  simp only [List.length_append, HostSide.bytesOf_length]

/-! ### The lease -/

theorem leaseExpiry_due {s s1 : State} (ha : fget s F.SMC_FENCE_STAT_ARMED ≠ 0) (hd : s.smc.leaseDone = false) (ht : s.smc.lease + leaseNs s ≤ s.now)
    (h1 : s1 = { s with smc := { s.smc with leaseDone := true } }) : leaseExpiry s = selfFence 1 s1 := by
  rw [leaseExpiry, if_neg (by simp [ha, hd, ht]), h1]

theorem leaseExpiry_early {s : State} (h : fget s F.SMC_FENCE_STAT_ARMED = 0 ∨ s.smc.leaseDone = true ∨ s.now < s.smc.lease + leaseNs s) :
    leaseExpiry s = s := by
  rw [leaseExpiry, if_pos (by simpa [or_assoc] using h)]

theorem managementAndFence : ManagementAndFence := by
  refine ⟨fun row hrow s m hno => ?_, fun s m s1 h1 => have hregs : ∀ k, (s1 k).regs = s.regs := fun k => by rw [h1]
    ⟨fun ok hf hr => ?_, fun ok hf => ?_, fun ok hn => ?_, fun ok => ?_, fun ok => ?_⟩,
    fun s n t ht => ht ▸ expel_effect n s, fun s m => ⟨rfl, mgmtReply_length s⟩, fun s lease hl => ⟨fun ha hd ht hf s1 h1 => ?_, fun h => ?_⟩⟩
  · simp only [List.mem_cons, List.not_mem_nil, or_false] at hrow
    rcases hrow with rfl | rfl | rfl | rfl | rfl <;> exact congrArg Host.Outcome.next (mgmt_rejected hno _)
  · refine congrArg Host.Outcome.next ((mgmt_accepted ok (h1 1) _).trans (congrArg mgmtReply (heartbeat_arms ?_ ?_ m)))
    · exact (fget_of_regs (hregs 1) _ 0).trans hf
    · exact (fget_of_regs (hregs 1) _ 0).trans hr
  · refine congrArg Host.Outcome.next ((mgmt_accepted ok (h1 2) _).trans (congrArg mgmtReply ?_))
    have hissued : tget 0 (s1 2).smc.issued 1 = tget 0 s.smc.issued 1 := by
      rw [h1, tget, tget, tfind_tins_other _ _ (by decide)]
    rw [selfFence_free ((fget_of_regs (hregs 2) _ 0).trans hf), hissued]
  · refine congrArg Host.Outcome.next ((mgmt_accepted ok (h1 3) _).trans (congrArg mgmtReply (unfence_lifts ?_)))
    rw [h1]
    exact hn
  · exact congrArg Host.Outcome.next (mgmt_accepted ok (h1 4) _)
  · refine congrArg Host.Outcome.next ((mgmt_accepted ok (h1 5) _).trans (congrArg mgmtReply ?_))
    rw [readmit, h1]
  · have hs1 : s1.regs = s.regs := by rw [h1]
    have hissued : s1.smc.issued = s.smc.issued := by rw [h1]
    subst hl
    refine congrArg Host.Outcome.next ((leaseExpiry_due ha hd ht h1).trans ?_)
    rw [selfFence_free ((fget_of_regs hs1 _ 0).trans hf), hissued]
  · subst hl
    exact congrArg Host.Outcome.next (leaseExpiry_early h)

/-- Settles O52: domains come and go; signed messages, expulsion and the lease. -/
theorem domainsAndManagement : Obligations.DomainsAndManagement := ⟨Tenancy.domainsComeAndGo, managementAndFence⟩

end Sys2Proof.Fencing

/-! # Requests at their target -/

namespace Sys2Proof.Requests

open Sys2Proof Sys2Proof.Machine Sys2Proof.Claims Sys2Proof.Laws

/-! ### The checks in their order -/

section Checks
variable {s s1 : State} {p : Pkt} {ty : Nat}

theorem request_bad (hty : p.ty.toNat = ty) (hok : pktOk s p = false) : request ty p s = fbump s F.FAB_XACT_STAT_BADHDR := by
  rw [request, arrive, if_neg (by simp [hty]), if_pos (by rw [hok]; rfl), badPkt]

theorem request_good (hty : p.ty.toNat = ty) (hok : pktOk s p = true) (hf : p.flags.getLsbD 0 = false) (h0 : fget s F.PRB_PWR_STAT_STATE = 0) :
    request ty p s = checkRequest s p := by
  rw [request, Replies.arrive_ok hty hok hf]
  exact if_pos (by rw [inP0, h0] <;> rfl)

theorem request_asleep (hty : p.ty.toNat = ty) (hok : pktOk s p = true) (hf : p.flags.getLsbD 0 = false) (h0 : fget s F.PRB_PWR_STAT_STATE ≠ 0)
    (hw : s.prb.waking = none) (hroom : s.fab.hold.length < 1024) (h1 : s1 = { s with prb := { s.prb with waking := some s.now } }) :
    request ty p s = holdPkt s1 { bank := 2 ^ 71, pkt := some p } := by
  have hwake : wakeNode s = s1 := by rw [wakeNode, if_neg (by simp [h0, hw]), h1]
  rw [request, Replies.arrive_ok hty hok hf]
  rw [if_neg (by simp [inP0, h0]), if_neg (by rw [maxHeld]; omega), hwake, holdWake]

/-- A request that is no repetition, and no further segment, is policed and judged. -/
theorem checkRequest_first (hty : p.ty.toNat = ty) (hf : p.flags.getLsbD 2 = false) (hrec : s.fab.records.length < 131072)
    (hcopy : ty = 4 → tfind s.fab.copies (copyKey p) = none) : checkRequest s p =
      if !(policePkt s p false).1 then sendSys (fbump (policePkt s p false).2 F.TRF_ING_DROP_V) (replyPkt (policePkt s p false).2 p stPOLICED)
      else (judge (policePkt s p false).2 p).getD s := by
  have happ : applied s p = false := by rw [applied, hf, Bool.false_and]
  have hfull : recordsFull s p = false := by simp [recordsFull, maxRecords, Nat.not_le.2 hrec]
  have hnone : (if p.ty = 4 then tfind s.fab.copies (copyKey p) else none) = none := by
    split
    · next h4 => exact hcopy (by rw [← hty, h4] <;> rfl)
    · rfl
  rw [checkRequest, happ, hfull, hnone] <;> rfl

theorem checkRequest_policed (hty : p.ty.toNat = ty) (hf : p.flags.getLsbD 2 = false) (hrec : s.fab.records.length < 131072)
    (hcopy : ty = 4 → tfind s.fab.copies (copyKey p) = none) (hpol : policePkt s p false = (false, s1)) :
    checkRequest s p = sendSys (fbump s1 F.TRF_ING_DROP_V) (replyPkt s1 p stPOLICED) := by
  rw [checkRequest_first hty hf hrec hcopy, hpol]
  exact if_pos rfl

theorem request_judged (h : Comes s p ty) : request ty p s = (judge s p).getD s := by
  obtain ⟨hty, hok, h0, h2, hp0, hrec, hrate, hcopy⟩ := h
  have hpol : policePkt s p false = (true, s) := by
    rw [policePkt]
    exact if_pos hrate
  rw [request_good hty hok h0 hp0, checkRequest_first hty h2 hrec hcopy, hpol] <;> rfl

theorem judge_refuse {st n : Nat} (h : verdict s p = .refuse st n) : judge s p = some (refused s p (replyPkt s p st n)) := by
  rw [judge, h, refused]
  simp only [Bool.and_eq_true, decide_eq_true_eq, bne_iff_ne]

theorem judge_wait {k : Nat} (h : verdict s p = .wait k) (hroom : s.fab.hold.length < 1024) :
    judge s p = some (holdPkt s { bank := 2 ^ 70 + k, pkt := some p }) := by
  rw [judge, h]
  exact if_neg (by rw [maxHeld]; omega)

theorem judge_pass {w : Window} (h : verdict s p = .pass w) (hcap : p.ty = 4 ∨ p.ty = 5 → s.fab.copies.length < 8192) :
    judge s p = serve (if p.ty = 4 then { s with fab := { s.fab with copies := tins s.fab.copies (copyKey p) { pkt := p, last := s.now } } }
      else s) w p := by
  rw [judge, h]
  refine if_neg ?_
  simp only [tracked, maxCopies, Bool.and_eq_true, Bool.or_eq_true, beq_iff_eq, decide_eq_true_eq, not_and, ge_iff_le]
  exact fun ht => absurd (hcap ht.1) ∘ Nat.not_lt.2

/-! ### The map epoch and the windows -/

/-- A request of an epoch that is neither current nor draining waits for its map, or is told of the new node. -/
theorem verdict_epoch {k : Nat} {c : Comp} {off : Nat} (hoff : off = (pktRange p).1) (h0 : p.mepoch ≠ 0) (hc : compAt s off = some (k, c))
    (hcur : some p.mepoch.toNat ≠ mapEpoch c.current) (hdr : some p.mepoch.toNat ≠ mapEpoch c.draining) :
    verdict s p = if some p.mepoch.toNat = mapEpoch c.staged then .wait k else .refuse stMOVED ((mapNode c.current off).getD 0) := by
  subst hoff
  have he : epochVerdict s p (pktRange p).1 (pktRange p).2 = some (if some p.mepoch.toNat = mapEpoch c.staged then .wait k
      else .refuse stMOVED ((mapNode c.current (pktRange p).1).getD 0)) := by
    rw [epochVerdict, if_neg h0, hc]
    dsimp only
    rw [if_neg hcur, if_neg hdr]
    split <;> rfl
  rw [verdict]
  generalize pktRange p = r at he ⊢
  obtain ⟨off, n⟩ := r
  dsimp only at he ⊢
  rw [he]

theorem epochVerdict_none (h : p.mepoch = 0) (off n : Nat) : epochVerdict s p off n = none := if_pos h

theorem verdict_fenced (he : p.mepoch = 0) (h : p.src.toNat ∈ s.smc.expelled ∨ (writesAt p = true ∧ fenced s = true)) :
    verdict s p = .refuse stFENCED 0 := by
  rw [verdict]
  dsimp only
  rw [epochVerdict_none he]
  exact if_pos (by simpa using h)

section Live
variable (hsrc : p.src.toNat ∉ s.smc.expelled) (hfree : writesAt p = true → fenced s = false) (he : p.mepoch = 0)
include hsrc hfree

theorem not_fenced : (s.smc.expelled.contains p.src.toNat || (writesAt p && fenced s)) = false := by
  rw [Bool.or_eq_false_iff]
  refine ⟨by simpa using hsrc, ?_⟩
  cases hw : writesAt p
  · rfl
  · rw [hfree hw] <;> rfl

include he

theorem verdict_noWindow (hl : liveWin s (pktRange p).1 (pktRange p).2 = none) : verdict s p = .refuse stNOT_OWNER 0 := by
  rw [verdict]
  generalize pktRange p = r at hl ⊢
  obtain ⟨off, n⟩ := r
  dsimp only at hl ⊢
  rw [epochVerdict_none he]
  dsimp only
  rw [not_fenced hsrc hfree, hl]
  simp

theorem verdict_notAdmitted {k : Nat} {w : Window} (h3 : p.flags.getLsbD 3 = false) (hl : liveWin s (pktRange p).1 (pktRange p).2 = some (k, w))
    (hno : admits w p = false ∨ accessOk p w.access = false) : verdict s p = .refuse stNOT_OWNER 0 := by
  have hbar : ∀ b, (!admits w p || !accessOk p w.access || b) = true := by
    rcases hno with h | h <;> simp [h]
  rw [verdict]
  generalize pktRange p = r at hl ⊢
  obtain ⟨off, n⟩ := r
  dsimp only at hl ⊢
  rw [epochVerdict_none he]
  dsimp only
  rw [not_fenced hsrc hfree, h3, hl]
  dsimp only
  rw [if_pos (hbar _)]
  simp

end Live

end Checks

theorem writesAt_iff {p : Pkt} {ty : Nat} (h : p.ty.toNat = ty) : writesAt p = true ↔ ty ∈ [2, 3, 4, 10] := by
  rw [writesAt, h, List.contains_iff_mem]

theorem requestsAreCheckedInOrder : RequestsAreCheckedInOrder := by
  intro row hrow
  have hexec : ∀ p s, exec (row.1 p) s = .next (request row.2 p s) := by
    simp only [List.mem_cons, List.not_mem_nil, or_false] at hrow
    rcases hrow with rfl | rfl | rfl | rfl | rfl | rfl | rfl <;> exact fun _ _ => rfl
  have judged : ∀ {s p t}, Comes s p row.2 → judge s p = some t → exec (row.1 p) s = .next t := fun hc hj => by
    rw [hexec, request_judged hc, hj] <;> rfl
  refine ⟨fun s p hty hok => ?_, fun s p s1 hty hok h0 h2 hp0 hrec hcopy hpol => ?_,
    fun s p k c off hc hoff h0 hat => ⟨fun hcur hdr hst => ?_, fun hcur hdr hst hroom => ?_⟩, fun s p hc he => ⟨fun h => ?_, fun hsrc hf hl => ?_,
    fun k w hsrc hf h3 hl hno => ?_⟩, fun s p hty hok h0 hp0 hw hroom s1 h1 => ?_⟩
  · rw [hexec, request_bad hty hok]
  · rw [hexec, request_good hty hok h0 hp0, checkRequest_policed hty h2 hrec hcopy hpol]
  · exact judged hc (judge_refuse ((verdict_epoch hoff h0 hat hcur hdr).trans (if_neg hst)))
  · exact judged hc (judge_wait ((verdict_epoch hoff h0 hat hcur hdr).trans (if_pos hst)) hroom)
  · refine judged hc (judge_refuse (verdict_fenced he (h.imp_right fun ⟨hw, hf⟩ => ⟨(writesAt_iff hc.1).2 hw, ?_⟩)))
    rw [fenced, hf] <;> rfl
  · refine judged hc (judge_refuse (verdict_noWindow hsrc (fun hw => ?_) he hl))
    rw [fenced, hf ((writesAt_iff hc.1).1 hw)] <;> rfl
  · refine judged hc (judge_refuse (verdict_notAdmitted hsrc (fun hw => ?_) he h3 hl hno))
    rw [fenced, hf ((writesAt_iff hc.1).1 hw)] <;> rfl
  · rw [hexec, request_asleep hty hok h0 hp0 hw hroom h1]

end Sys2Proof.Requests

/-! # What requests do at their target -/

namespace Sys2Proof.Requests

open Sys2Proof Sys2Proof.Machine Sys2Proof.Claims Sys2Proof.Laws

/-- A request that passes lies in a window. -/
theorem pass_window {s : State} {p : Pkt} {w : Window} (h : verdict s p = .pass w) : ∃ k, winFor s (pktRange p).1 (pktRange p).2 = some (k, w) := by
  rw [verdict] at h
  generalize pktRange p = r at h ⊢
  obtain ⟨off, n⟩ := r
  dsimp only at h ⊢
  cases he : epochVerdict s p off n with
  | some v =>
    rw [he] at h
    have hv : ∀ w, epochVerdict s p off n ≠ some (.pass w) := by
      intro w
      unfold epochVerdict
      split
      · simp
      · split
        · simp
        · dsimp only
          split_ifs <;> simp
    exact absurd (he.trans (congrArg some h)) (hv w)
  | none =>
    rw [he] at h
    dsimp only at h
    cases hl : liveWin s off n with
    | none =>
      rw [hl] at h
      dsimp only at h
      split_ifs at h
    | some kw =>
      rw [hl] at h
      obtain ⟨k, w'⟩ := kw
      dsimp only at h
      split_ifs at h
      obtain rfl : w' = w := by injection h
      rw [liveWin, Option.filter_eq_some_iff] at hl
      exact ⟨k, hl.1⟩

/-! ### Service -/

section Service
variable {s : State} {p : Pkt} {ty : Nat} {w : Window}

theorem ty_ne {n : Nat} (h : p.ty.toNat = ty) (hn : ty ≠ n) (b : BitVec 8) (hb : b.toNat = n) : p.ty ≠ b :=
  fun h4 => hn (by rw [← h, h4, hb])

theorem serve_row (h : p.ty = 9 ∨ p.ty = 10) : serve s w p = some (pushRow s (rowOfPkt p w.dom (w.base + ((pktRange p).1 - w.foff)))) := by
  rw [serve]
  exact if_pos (by simpa using h)

theorem lands_eq : lands w p = if p.ty = 4 then w.base + ((pktRange p).1 - w.foff) + 1024 * p.seg.toNat else w.base + ((pktRange p).1 - w.foff) := by
  rw [lands]
  split <;> rfl

section Access
variable (h9 : p.ty ≠ 9) (h10 : p.ty ≠ 10)
include h9 h10

theorem access_only : ¬ (p.ty = 9 || p.ty = 10) = true := by
  rw [Bool.or_eq_true, decide_eq_true_eq, decide_eq_true_eq]
  exact not_or.2 ⟨h9, h10⟩

/-- An access to a bank whose unit is idle, and that no job owns, is applied. -/
theorem serve_free (hfree : ∀ b, bankOfAccess s w.dom (lands w p) = some b → nbuRunning (nbuOf s b) = false ∧ ∀ t, ownerOf s 0 b ≠ .job t) :
    serve s w p = some (fabApply s p) := by
  rw [lands_eq] at hfree
  rw [serve]
  dsimp only
  rw [if_neg (access_only h9 h10)]
  split
  · rfl
  · next b hb =>
    obtain ⟨hrun, hown⟩ := hfree b hb
    rw [if_neg (by rw [hrun]; decide)]
    split
    · next t ht => exact absurd ht (hown t)
    · rfl

variable {b : Nat} {d : Defer} (hb : bankOfAccess s w.dom (lands w p) = some b)
    (hd : d = { bank := b, dom := w.dom, addr := lands w p, pkt := some p })
include hb hd

theorem serve_running (hrun : nbuRunning (nbuOf s b) = true) : serve s w p = deferPut s d := by
  rw [lands_eq] at hb hd
  rw [serve]
  dsimp only
  rw [if_neg (access_only h9 h10), hb]
  dsimp only
  rw [if_pos hrun, hd]

theorem serve_held {g : Nat} {j : Job} (hrun : nbuRunning (nbuOf s b) = false) (hown : ownerOf s 0 b = .job g) (hj : jobOf s g = some j)
    (hwin : hasWindow s j = false) (hroom : s.fab.hold.length < 1024) : serve s w p = some (holdPkt s d) := by
  rw [lands_eq] at hb hd
  rw [serve]
  dsimp only
  rw [if_neg (access_only h9 h10), hb]
  dsimp only
  rw [if_neg (by rw [hrun]; decide), hown]
  dsimp only
  rw [hj]
  dsimp only
  rw [if_neg (by rw [hwin]; decide), if_neg (by rw [maxHeld]; omega), hd]

end Access

/-- What a deferred queue with room takes. -/
theorem deferPut_room {d : Defer} (hroom : (deferOf s (d.bank / 1024)).length < 256) :
    ∃ t, deferPut s d = some t ∧ deferOf t (d.bank / 1024) = deferOf s (d.bank / 1024) ++ [{ d with since := s.now }] := by
  obtain ⟨s1, h1⟩ : ∃ s1, s1 = setDefer s (d.bank / 1024) (deferOf s (d.bank / 1024) ++ [{ d with since := s.now }]) := ⟨_, rfl⟩
  have hl : deferOf s1 (d.bank / 1024) = deferOf s (d.bank / 1024) ++ [{ d with since := s.now }] := by
    rw [h1, deferOf, setDefer, tget, tput, if_neg (by simp), tfind_tins_same] <;> rfl
  refine ⟨_, if_neg (Nat.not_le.2 hroom), ?_⟩
  rw [← h1, ← hl]
  split
  · rw [fbump, fadd] <;> rfl
  · rfl

end Service

/-! ### What is applied -/

section Applied
variable {s : State} {p : Pkt} {ty : Nat} {w : Window}

theorem request_access (h : Comes s p ty) (hv : verdict s p = .pass w) (h4 : ty ≠ 4) (h5 : ty ≠ 5) : request ty p s = (serve s w p).getD s := by
  have h4 := ty_ne h.1 h4 4 rfl
  have h5 := ty_ne h.1 h5 5 rfl
  rw [request_judged h, judge_pass hv (fun h => absurd h (not_or.2 ⟨h4, h5⟩)), if_neg h4]

theorem request_applies (h : Applies s p ty w) (h4 : ty ≠ 4) (h9 : ty ≠ 9) (h10 : ty ≠ 10) : request ty p s = fabApply s p := by
  obtain ⟨hc, hv, hcap, hfree⟩ := h
  have hne := fun n (hn : ty ≠ n) b hb => ty_ne hc.1 hn (n := n) b hb
  rw [request_judged hc, judge_pass hv (fun h => hcap (h.imp (fun h => by rw [← hc.1, h] <;> rfl) fun h => by rw [← hc.1, h] <;> rfl)),
    if_neg (hne 4 h4 4 rfl), serve_free (hne 9 h9 9 rfl) (hne 10 h10 10 rfl) hfree] <;> rfl

/-- A copy with a new tracker. -/
theorem request_copies {s0 : State} (h : Applies s p 4 w)
    (h0 : s0 = { s with fab := { s.fab with copies := tins s.fab.copies (copyKey p) { pkt := p, last := s.now } } }) :
    request 4 p s = fabApply s0 p := by
  obtain ⟨hc, hv, hcap, hfree⟩ := h
  have h4 : p.ty = 4 := BitVec.eq_of_toNat_eq hc.1
  rw [request_judged hc, judge_pass hv (fun _ => hcap (.inl rfl)), if_pos h4, ← h0,
    serve_free (s := s0) (by rw [h4]; decide) (by rw [h4]; decide) (by rw [h0]; exact hfree)] <;> rfl

section Window
variable {a : Nat} (hv : verdict s p = .pass w)
include hv

theorem applies_load {bs : List Byte} {s1 : State} (hty : p.ty.toNat = 1) (hl : uLoad s w.dom (lands w p) (pktRange p).2 = (.ok bs, s1)) :
    fabApply s p = sendSys s1 (replyPkt s1 p 0 0 0 bs) := by
  obtain ⟨k, hw⟩ := pass_window hv
  rw [lands_eq, if_neg (ty_ne hty (by decide) 4 rfl)] at hl
  rw [fabApply]
  dsimp only
  rw [hw, hty]
  dsimp only
  rw [hl] <;> rfl

theorem applies_store {s1 : State} (hty : p.ty.toNat = 2)
    (hw : uWrite s w.dom (lands w p) ((p.payload ++ List.replicate 64 0).take (pktRange p).2) = .ok s1) :
    fabApply s p = sendSys (keepRecord s1 p (some (replyPkt s1 p 0))) (replyPkt s1 p 0) := by
  obtain ⟨k, hwin⟩ := pass_window hv
  rw [lands_eq, if_neg (ty_ne hty (by decide) 4 rfl)] at hw
  rw [fabApply]
  dsimp only
  rw [hwin, hty]
  dsimp only
  rw [hw] <;> rfl

theorem applies_atomic {bs : List Byte} {s1 : State} {old : W64} (hty : p.ty.toNat = 3) (hback : hostBacked s w.dom (lands w p) = false)
    (hwait : pageWaits s (pageKey w.dom (lands w p)) = false) (hbs : uBytes s w.dom (lands w p) 8 = some bs) (hold : old = BitVec.ofNat 64 (numOf bs))
    (hw : uWrite s w.dom (lands w p) (bytesOf 8 (atomicOp p.atop.toNat old p.operand p.compare).toNat) = .ok s1) :
    fabApply s p = sendSys (keepRecord s1 p (some (replyPkt s1 p 0 0 old))) (replyPkt s1 p 0 0 old) := by
  obtain ⟨k, hwin⟩ := pass_window hv
  rw [lands_eq, if_neg (ty_ne hty (by decide) 4 rfl)] at hback hwait hbs hw
  rw [fabApply]
  dsimp only
  rw [hwin, hty]
  dsimp only
  rw [if_neg (by rw [hback]; decide), if_neg (by rw [hwait]; decide), hbs]
  dsimp only
  rw [← hold, hw] <;> rfl

theorem applies_pull {bs : List Byte} {s1 s2 : State} {n : Nat} (hty : p.ty.toNat = 5) (hn : n = (pktRange p).2)
    (hl : uLoad s w.dom (lands w p) n = (.ok bs, s1))
    (h2 : s2 = (if p.flags.getLsbD 1 then { s1 with fab := { s1.fab with copies := tins s1.fab.copies (copyKey p) { pkt := p, last := s.now } } }
    else s1)) :
    fabApply s p = (List.range (segCount n)).foldl (fun s i => sendSys s { replyPkt s p 0 0 0 ((bs.drop (1024 * i)).take 1024) with
        ty := 6, flags := 0, seg := BitVec.ofNat 16 i, lastSeg := BitVec.ofNat 16 (segCount n - 1)
        total := p.total, off := p.off + BitVec.ofNat 48 (1024 * i) }) s2 := by
  obtain ⟨k, hwin⟩ := pass_window hv
  rw [lands_eq, if_neg (ty_ne hty (by decide) 4 rfl)] at hl
  subst hn
  rw [fabApply]
  dsimp only
  rw [hwin, hty]
  dsimp only
  rw [hl]
  dsimp only
  rw [← h2] <;> rfl

end Window

/-- The first segment of a copy is written: a copy of one segment is answered, a longer one goes on. -/
theorem applies_push {s0 s1 s2 : State} (hv : verdict s p = .pass w) (hty : p.ty.toNat = 4)
    (h0 : s0 = { s with fab := { s.fab with copies := tins s.fab.copies (copyKey p) { pkt := p, last := s.now } } })
    (hw : uWrite s0 w.dom (lands w p) (p.payload.take (min 1024 ((pktRange p).2 - 1024 * p.seg.toNat))) = .ok s1)
    (hc : tfind s1.fab.copies (copyKey p) = some { pkt := p, last := s.now }) :
    (segCount (pktRange p).2 ≤ 1 → s2 = { s1 with fab := { s1.fab with copies := tdel s1.fab.copies (copyKey p) } } →
      ∀ s3, s3 = (if p.flags.getLsbD 1 then remotePulse s2 p else s2) →
      fabApply s0 p = sendSys (keepRecord s3 p (some (replyPkt s3 p 0))) (replyPkt s3 p 0))
    ∧ (1 < segCount (pktRange p).2 → s2 = { s1 with fab := { s1.fab with
        copies := tins s1.fab.copies (copyKey p) { pkt := p, got := [p.seg.toNat], last := s.now } } } →
      fabApply s0 p = keepRecord s2 p none) := by
  obtain ⟨k, hwin⟩ := pass_window hv
  have hwin0 : winFor s0 (pktRange p).1 (pktRange p).2 = some (k, w) := by rw [h0, ← hwin] <;> rfl
  have hnow : s0.now = s.now := by rw [h0]
  rw [lands_eq, if_pos (BitVec.eq_of_toNat_eq hty)] at hw
  have heq : fabApply s0 p = (if 1 ≥ segCount (pktRange p).2 then
        let s2 : State := { s1 with fab := { s1.fab with copies := tdel s1.fab.copies (copyKey p) } }
        let s3 := if p.flags.getLsbD 1 then remotePulse s2 p else s2
        let r := replyPkt s3 p 0
        sendSys (keepRecord s3 p (some r)) r
      else keepRecord { s1 with fab := { s1.fab with
        copies := tins s1.fab.copies (copyKey p) { pkt := p, got := [p.seg.toNat], last := s.now } } } p none) := by
    rw [fabApply]
    dsimp only
    rw [hwin0, hty]
    dsimp only
    rw [hw]
    dsimp only
    rw [tget, hc, hnow] <;> rfl
  refine ⟨fun h1 h2 s3 h3 => ?_, fun h1 h2 => ?_⟩
  · rw [heq, if_pos h1, ← h2]
    dsimp only
    rw [← h3]
  · rw [heq, if_neg (Nat.not_le.2 h1), ← h2]

end Applied

theorem atomicOp_eq (old x c : W64) : atomicOp 0 old x c = old + x ∧ atomicOp 1 old x c = x ∧ atomicOp 2 old x c = (if old = c then x else old)
    ∧ atomicOp 3 old x c = old &&& x ∧ atomicOp 4 old x c = old ||| x ∧ atomicOp 5 old x c = old ^^^ x
    ∧ atomicOp 6 old x c = (if old.toNat < x.toNat then old else x) ∧ atomicOp 7 old x c = (if old.toNat < x.toNat then x else old)
    ∧ atomicOp 8 old x c = (if old.toInt < x.toInt then old else x) ∧ atomicOp 9 old x c = (if old.toInt < x.toInt then x else old) := by
  refine ⟨rfl, rfl, rfl, rfl, rfl, rfl, ?_, ?_, ?_, ?_⟩ <;> simp only [atomicOp, BitVec.ult, BitVec.slt, decide_eq_true_eq]

theorem requestsAreAppliedAtTheirTarget : RequestsAreAppliedAtTheirTarget := by
  refine ⟨fun s p w bs s1 h hl => ?_, fun s p w s1 h hw => ?_, fun s p w bs s1 old h hback hwait hbs hold hw => ?_, atomicOp_eq,
    fun s p w s0 s1 s2 h h0 hw hc => ⟨fun hn h2 s3 h3 => ?_, fun hn h2 => ?_⟩, fun s p w bs s1 s2 n h hn hl h2 => ?_,
    fun row hrow s p w hc hv => ?_, fun row hrow s p w b d hc hv hb hd => ?_⟩
  · exact congrArg Host.Outcome.next ((request_applies h (by decide) (by decide) (by decide)).trans (applies_load h.2.1 h.1.1 hl))
  · exact congrArg Host.Outcome.next ((request_applies h (by decide) (by decide) (by decide)).trans (applies_store h.2.1 h.1.1 hw))
  · exact congrArg Host.Outcome.next ((request_applies h (by decide) (by decide) (by decide)).trans
      (applies_atomic h.2.1 h.1.1 hback hwait hbs hold hw))
  · exact congrArg Host.Outcome.next ((request_copies h h0).trans ((applies_push h.2.1 h.1.1 h0 hw hc).1 hn h2 s3 h3))
  · exact congrArg Host.Outcome.next ((request_copies h h0).trans ((applies_push h.2.1 h.1.1 h0 hw hc).2 hn h2))
  · exact congrArg Host.Outcome.next ((request_applies h (by decide) (by decide) (by decide)).trans (applies_pull h.2.1 h.1.1 hn hl h2))
  · have hrow' : (row.2 = 9 ∨ row.2 = 10) ∧ ∀ p s, exec (row.1 p) s = .next (request row.2 p s) := by
      simp only [List.mem_cons, List.not_mem_nil, or_false] at hrow
      rcases hrow with rfl | rfl <;> exact ⟨by decide, fun _ _ => rfl⟩
    obtain ⟨hty, hexec⟩ := hrow'
    have hrows : p.ty = 9 ∨ p.ty = 10 :=
      hty.imp (fun h => BitVec.eq_of_toNat_eq (hc.1.trans h)) fun h => BitVec.eq_of_toNat_eq (hc.1.trans h)
    rw [hexec, request_access hc hv (by omega) (by omega), serve_row hrows] <;> rfl
  · have hrow' : (row.2 ∉ [4, 5, 9, 10]) ∧ ∀ p s, exec (row.1 p) s = .next (request row.2 p s) := by
      simp only [List.mem_cons, List.not_mem_nil, or_false] at hrow
      rcases hrow with rfl | rfl | rfl <;> exact ⟨by decide, fun _ _ => rfl⟩
    obtain ⟨hty, hexec⟩ := hrow'
    simp only [List.mem_cons, List.not_mem_nil, or_false, not_or] at hty
    obtain ⟨h4, h5, h9, h10⟩ := hty
    have hserve : ∀ t, serve s w p = some t → exec (row.1 p) s = .next t := fun t ht => by
      rw [hexec, request_access hc hv h4 h5, ht] <;> rfl
    have h9 := ty_ne hc.1 h9 9 rfl
    have h10 := ty_ne hc.1 h10 10 rfl
    refine ⟨fun hrun hroom => ?_, fun g j hrun hown hj hwin hroom => hserve _ (serve_held h9 h10 hb hd hrun hown hj hwin hroom)⟩
    have hbank : d.bank = b := by rw [hd]
    obtain ⟨t, ht, hl⟩ := deferPut_room (s := s) (d := d) (hbank ▸ hroom)
    exact ⟨t, ht, hserve t ((serve_running h9 h10 hb hd hrun).trans ht), hbank ▸ hl⟩

/-- Settles O53: the checks of a request in their order, and what an admitted one does. -/
theorem fabricRequestsAtTheTarget : Obligations.FabricRequestsAtTheTarget := ⟨requestsAreCheckedInOrder, requestsAreAppliedAtTheirTarget⟩

end Sys2Proof.Requests

/-! # Flash reads -/

namespace Sys2Proof.Flash

open Sys2Proof Sys2Proof.Machine Sys2Proof.Claims Sys2Proof.Laws

section Reads
variable {s : State} {chan lun : Nat} {pre post : List FRead} {r : FRead}

/-- A list's first element with a property, where none before it has it. -/
theorem find?_first {p : FRead → Bool} (hpre : ∀ x ∈ pre, p x = false) (hr : p r = true) : (pre ++ r :: post).find? p = some r := by
  rw [List.find?_append, List.find?_eq_none.2 fun x hx => by rw [hpre x hx]; decide, List.find?_cons_of_pos hr] <;> rfl

theorem lunReadIssue_held (join : List Nat) (h : (∃ r ∈ (lunOf s chan lun).reads, r.issued = true) ∨ 3 ≤ fget s F.PRB_PWR_STAT_STATE) :
    lunReadIssue chan lun join s = s := by
  rw [lunReadIssue]
  refine if_pos ?_
  rcases h with ⟨r, hr, hi⟩ | h
  · rw [List.any_eq_true.2 ⟨r, hr, hi⟩]
    simp
  · simp [h]

/-- A read that goes: its block is resolved and counted, its credit drawn. -/
theorem issueRead_eq {b : Nat} {lu : Lun} {s1 s2 : State} (hlu : lu = lunOf s chan lun)
    (hb : b = (match tfind s.fls.map (r.dom * 2 ^ 42 + r.lpage) with | some p => p.blk | none => 0))
    (h1 : s1 = setLun s chan lun { lu with reads := lu.reads.map fun x => if x = r then { x with issued := true, blk := b } else x })
    (h2 : s2 = setBlk s1 b { blkOf s b with reads := (blkOf s b).reads + 1 }) :
    issueRead s chan lun r = if r.src = 0 then drawShare s2 r.share else s2 := by
  have hblk : blkOf s1 b = blkOf s b := by rw [h1] <;> rfl
  rw [issueRead]
  cases ht : tfind s.fls.map (r.dom * 2 ^ 42 + r.lpage) <;>
  · rw [ht] at hb
    subst hb
    simp only [beq_iff_eq]
    rw [← hlu, ← h1, hblk, ← h2]

theorem lunReadIssue_first (hfree : LunFree s chan lun) (hr : (lunOf s chan lun).reads = pre ++ r :: post)
    (hpre : ∀ x ∈ pre, x.src = 0 ∧ shareFree s x.share = false) (hgo : r.src ≠ 0 ∨ shareFree s r.share = true) (hmp : fget s F.FLS_GEOM_MP_READ = 0)
    (join : List Nat) : lunReadIssue chan lun join s = issueRead s chan lun r := by
  obtain ⟨hbusy, hissued, hin, hp⟩ := hfree
  have hbusy : lunBusy (lunOf s chan lun) = false := by
    rcases hbusy with h | ⟨he, hg⟩
    · simp [lunBusy, h]
    · simp [lunBusy, he, hg]
  have hany : ((lunOf s chan lun).reads.any fun r => r.issued) = false := List.any_eq_false.2 fun x hx => by rw [hissued x hx]; decide
  have hfind : (lunOf s chan lun).reads.find? (readGo s) = some r := by
    rw [hr]
    refine find?_first (fun x hx => ?_) ?_
    · rw [readGo, (hpre x hx).1, (hpre x hx).2]
      simp
    · rw [readGo, hissued r (hr ▸ List.mem_append_right _ (List.mem_cons_self ..))]
      rcases hgo with h | h <;> simp [h]
  rw [lunReadIssue, hbusy, hany, List.contains_iff_mem.2 hin, if_neg (by simp; omega), hfind, hmp] <;> rfl

/-- The end of the oldest issued read. -/
theorem pageReadComplete_eq {lu : Lun} {left : List FRead} {s1 : State} (dec : List Nat) (mm : Bool) (hlu : lu = lunOf s chan lun)
    (hr : lu.reads = pre ++ r :: post) (hpre : ∀ x ∈ pre, x.issued = false) (hi : r.issued = true) (hleft : left = pre ++ post)
    (h1 : s1 = setLun s chan lun { lu with reads := left, suspended := lu.suspended && left != [] }) :
    (r.src ≠ 0 → pageReadComplete chan lun dec mm s = (List.range 4).foldl (codewordDone r chan dec) s1)
    ∧ (r.src = 0 → pageReadComplete chan lun dec mm s = deliverPage r dec mm
        ((neededWords (giveShare s1 r.share) r).foldl (codewordDone r chan dec) (giveShare s1 r.share))) := by
  have hfind : lu.reads.find? (fun r => r.issued) = some r := by rw [hr, find?_first hpre hi]
  have hnot : r ∉ pre := fun h => by simp [hpre r h] at hi
  have herase : lu.reads.erase r = left := by rw [hr, hleft, List.erase_append_right _ hnot, List.erase_cons_head]
  refine ⟨fun h => ?_, fun h => ?_⟩
  · rw [pageReadComplete, ← hlu, hfind]
    dsimp only
    rw [herase, ← h1]
    simp only [if_neg h]
  · rw [pageReadComplete, ← hlu, hfind]
    dsimp only
    rw [herase, ← h1]
    simp only [if_pos h]

end Reads

/-- What the count of a codeword's decode leads to. -/
theorem codewordDone_eq (s : State) (r : FRead) (ch : Nat) (dec : List Nat) (i : Nat) :
    (dec.getD i 0 ≤ min 65535 (fget s F.FLS_MEDIA_CTL_ERR_THRESH) → codewordDone r ch dec s i = s)
    ∧ (dec.getD i 0 = 65536 → codewordDone r ch dec s i = schedule (setBlk (fbump s F.FLS_SCORE_STAT_SOFT) r.blk
      { blkOf s r.blk with reads := (blkOf s r.blk).reads + 2 }) r.blk 1)
    ∧ (65536 < dec.getD i 0 → codewordDone r ch dec s i = losePage (setBlk (fbump s F.FLS_SCORE_STAT_SOFT) r.blk
      { blkOf s r.blk with reads := (blkOf s r.blk).reads + 2 }) r ch i) := by
  refine ⟨fun h => ?_, fun h => ?_, fun h => ?_⟩
  · have hsoft : ¬ decSoft dec i = true := fun hs => absurd (h.trans (min_le_left _ _)) (Nat.not_le.2 (of_decide_eq_true hs))
    have hbits : decide (decAt dec i > fget s F.FLS_MEDIA_CTL_ERR_THRESH) = false := decide_eq_false (Nat.not_lt.2 (h.trans (min_le_right _ _)))
    rw [codewordDone, if_neg hsoft, hbits] <;> rfl
  · have hsoft : decSoft dec i = true := decide_eq_true (Nat.le_of_eq h.symm)
    rw [codewordDone, if_pos hsoft]
    exact if_neg fun hf => absurd (of_decide_eq_true hf) (Nat.not_lt.2 (Nat.le_of_eq h))
  · have hsoft : decSoft dec i = true := decide_eq_true (Nat.le_of_lt h)
    rw [codewordDone, if_pos hsoft]
    exact if_pos (decide_eq_true h)

theorem flashReads : FlashReads := by
  refine ⟨fun s ch lun pre r post b lu s1 s2 hfree hlu hr hpre hgo hmp hb h1 h2 join => ?_, fun s ch lun join h => ?_,
    fun s ch lun dec mm pre r post lu left s1 hlu hr hpre hi hleft h1 => ?_, codewordDone_eq⟩
  · refine congrArg Host.Outcome.next ((lunReadIssue_first hfree (hlu ▸ hr) hpre hgo hmp join).trans (issueRead_eq hlu ?_ h1 h2))
    rw [hb] <;> rfl
  · exact congrArg Host.Outcome.next (lunReadIssue_held join h)
  · obtain ⟨hmedia, hscore⟩ := pageReadComplete_eq dec mm hlu hr hpre hi hleft h1
    exact ⟨fun h => congrArg Host.Outcome.next (hmedia h), fun h => congrArg Host.Outcome.next (hscore h)⟩

end Sys2Proof.Flash

/-! # Flash media -/

namespace Sys2Proof.Flash

open Sys2Proof Sys2Proof.Machine Sys2Proof.Claims Sys2Proof.Laws Sys2Proof.Registers Sys2Proof.Windows Sys2Proof.Actions Sys2Proof.HostQueues

/-! ### Programs and erases -/

section Media
variable {s : State} {ch lun : Nat} {lu : Lun}

theorem opRuns_of_ends (h : LunEnds s ch lun) (hlu : lu = lunOf s ch lun) : opRuns s lu = true := by
  obtain ⟨hp, hs, hb⟩ := h
  rw [opRuns, flsIdle, hlu, hs, decide_eq_false (Nat.not_le.2 hp)]
  rcases hb with h | h <;> simp [h]

section Program
variable {g : Prog} {rest : List Prog} {s1 : State} (h : LunEnds s ch lun) (hlu : lu = lunOf s ch lun) (hg : lu.progs = g :: rest)
  (h1 : s1 = setLun s ch lun { lu with progs := rest, suspends := 0, started := false })
include h hlu hg h1

theorem program_discarded (hm : tfind s.fls.map (g.dom * 2 ^ 42 + g.lpage) = none) : flashProgramComplete ch lun true s = s1 := by
  rw [flashProgramComplete, ← hlu, hg]
  dsimp only
  rw [opRuns_of_ends h hlu, ← h1, show s1.fls.map = s.fls.map by rw [h1] <;> rfl, hm] <;> rfl

theorem program_stale {p : Phys} (hm : tfind s.fls.map (g.dom * 2 ^ 42 + g.lpage) = some p) (hseq : g.seq < p.seq) :
    flashProgramComplete ch lun true s = s1 := by
  rw [flashProgramComplete, ← hlu, hg]
  dsimp only
  rw [opRuns_of_ends h hlu, ← h1, show s1.fls.map = s.fls.map by rw [h1] <;> rfl, hm]
  simp only [if_pos hseq] <;> rfl

theorem program_placed {p place : Phys} {s2 : State} (hm : tfind s.fls.map (g.dom * 2 ^ 42 + g.lpage) = some p) (hseq : p.seq ≤ g.seq)
    (hplace : place = { chan := ch, lun := lun, blk := g.blk, page := g.page, seq := g.seq })
    (h2 : s2 = { s1 with fls := { s1.fls with map := tins s1.fls.map (g.dom * 2 ^ 42 + g.lpage) place } }) :
    flashProgramComplete ch lun true s = if p.blk = g.blk then s2 else drainBlk s2 p.blk := by
  have hmap : s1.fls.map = s.fls.map := by rw [h1] <;> rfl
  rw [flashProgramComplete, ← hlu, hg]
  dsimp only
  rw [opRuns_of_ends h hlu, ← h1, ← hplace, ← h2, hmap, hm]
  simp only [if_neg (Nat.not_lt.2 hseq)] <;> rfl

theorem program_failed {s2 : State} (h2 : s2 = schedule s1 g.blk 4) (ho : openBlock s2 ch lun g.stream = none) :
    flashProgramComplete ch lun false s = setLun s2 ch lun { lunOf s2 ch lun with progs := (lunOf s2 ch lun).progs ++ [g] } := by
  rw [flashProgramComplete, ← hlu, hg]
  dsimp only
  rw [opRuns_of_ends h hlu, ← h1, ← h2, ho] <;> rfl

end Program

section Erase
variable {b : Nat} {s1 : State} (h : LunEnds s ch lun) (hlu : lu = lunOf s ch lun) (hb : lu.erase = some b)
include h hlu hb

theorem erase_ends {s2 : State} (h1 : s1 = setLun s ch lun { lu with erase := none, eraseTries := 0, suspends := 0, started := false })
    (h2 : s2 = setBlk s1 b { erases := (blkOf s b).erases + 1 }) : flashEraseComplete ch lun true s =
    if (blkOf s b).rewrite = 1 then fbump s2 F.FLS_MEDIA_STAT_REWRITES
      else if (blkOf s b).rewrite = 2 then fbump s2 F.FLS_MEDIA_STAT_RD_REFRESH else s2 := by
  rw [flashEraseComplete, ← hlu, hb]
  dsimp only
  rw [opRuns_of_ends h hlu, ← h1, ← h2] <;> rfl

theorem erase_retires (h1 : s1 = setLun s ch lun { lu with erase := none, eraseTries := 0, suspends := 0, started := false })
    (hr : bitAt (blkOf s b).stream 0 = true ∨ 2 ≤ lu.eraseTries) : flashEraseComplete ch lun false s = retireBlk s1 b := by
  have hr : (retireErase (blkOf s b).stream || decide (lu.eraseTries ≥ 2)) = true := by
    rw [retireErase, Bool.or_eq_true, decide_eq_true_eq]
    exact hr
  rw [flashEraseComplete, ← hlu, hb]
  dsimp only
  rw [opRuns_of_ends h hlu, ← h1, if_pos hr] <;> rfl

theorem erase_again (hs : bitAt (blkOf s b).stream 0 = false) (ht : lu.eraseTries < 2) :
    flashEraseComplete ch lun false s = setLun s ch lun { lu with eraseTries := lu.eraseTries + 1 } := by
  have hr : ¬ (retireErase (blkOf s b).stream || decide (lu.eraseTries ≥ 2)) = true := by
    rw [retireErase, hs, Bool.false_or, decide_eq_true_eq]
    exact Nat.not_le.2 ht
  rw [flashEraseComplete, ← hlu, hb]
  dsimp only
  rw [opRuns_of_ends h hlu, if_neg hr] <;> rfl

end Erase

/-! ### Patrol, collection and suspension -/

theorem patrolRead_queues {b c l : Nat} {rs : List FRead} {s1 : State} (ho : (blkOf s b).isOpen = false) (hu : (blkOf s b).used ≠ 0)
    (hr : (blkOf s b).retired = false) (hk : flsKeeps s = true) (hc : c = blkChan b) (hl : l = blkLun b)
    (hrs : rs = (validPages s b).map (fun mk =>
      { src := 1, dom := mk / 2 ^ 42, lpage := mk % 2 ^ 42, plane := b % max 1 s.fls.planes, since := s.now : FRead }))
    (h1 : s1 = setBlk (setLun s c l { lunOf s c l with reads := (lunOf s c l).reads ++ rs }) b { blkOf s b with patrolled := s.now }) :
    patrolRead b s = rs.foldl (fun s r => writeBack s (pageKey r.dom (r.lpage * 16384))) s1 := by
  rw [patrolRead, if_neg (by simp [ho, hu, hr, hk])]
  dsimp only
  rw [← hrs, ← hc, ← hl, ← h1]

/-- No block of the LUN is scheduled. -/
abbrev NoneScheduled (s : State) (ch lun : Nat) : Prop := ∀ p ∈ s.fls.blks, blkChan p.1 = ch → blkLun p.1 = lun → p.2.rewrite = 0

theorem gc_first (h : NoneScheduled s ch lun) :
    (s.fls.blks.find? fun p => blkChan p.1 == ch && blkLun p.1 == lun && p.2.rewrite != 0 && p.2.rewrite != 3) = none := by
  refine List.find?_eq_none.2 fun p hp hq => ?_
  simp only [Bool.and_eq_true, beq_iff_eq, bne_iff_ne] at hq
  obtain ⟨⟨⟨hc, hl⟩, hr⟩, -⟩ := hq
  exact hr (h p hp hc hl)

theorem gc_third (h : NoneScheduled s ch lun) :
    (s.fls.blks.find? fun p => blkChan p.1 == ch && blkLun p.1 == lun && p.2.rewrite == 3) = none := by
  refine List.find?_eq_none.2 fun p hp hq => ?_
  simp only [Bool.and_eq_true, beq_iff_eq] at hq
  obtain ⟨⟨hc, hl⟩, hr⟩ := hq
  exact absurd ((h p hp hc hl).symm.trans hr) (by decide)

section Collection
variable (hb : s.fls.brownout = false) (hk : flsKeeps s = true) (hin : ch ∈ s.fls.inService)
include hb hk hin

theorem gc_open : ¬ (s.fls.brownout || !flsKeeps s || !s.fls.inService.contains ch) = true := by
  rw [hb, hk, List.contains_iff_mem.2 hin]
  decide

theorem gc_scheduled {b : Nat}
    (h : (s.fls.blks.find? fun p => blkChan p.1 == ch && blkLun p.1 == lun && p.2.rewrite != 0 && p.2.rewrite != 3).map (·.1) = some b) :
    garbageCollection ch lun s = rewriteBlk s b := by
  rw [Option.map_eq_some_iff] at h
  obtain ⟨p, hp, rfl⟩ := h
  rw [garbageCollection, if_neg (gc_open hb hk hin), hp]

variable (hno : NoneScheduled s ch lun)
include hno

theorem gc_collects {b : Nat} {s1 : State} (hlow : 100 * erasedCount s ch lun < 2 * goodCount s ch lun)
    (h1 : s1 = setLun s ch lun { lunOf s ch lun with collecting := true }) (hv : victim s1 ch lun = some b) :
    garbageCollection ch lun s = rewriteBlk (schedule s1 b 3) b := by
  rw [garbageCollection, if_neg (gc_open hb hk hin), gc_first hno]
  dsimp only
  rw [gc_third hno]
  dsimp only
  rw [if_pos hlow, ← h1, hv]

theorem gc_rests (h2 : 2 * goodCount s ch lun ≤ 100 * erasedCount s ch lun) (h3 : 3 * goodCount s ch lun ≤ 100 * erasedCount s ch lun) :
    garbageCollection ch lun s = setLun s ch lun { lunOf s ch lun with collecting := false } := by
  rw [garbageCollection, if_neg (gc_open hb hk hin), gc_first hno]
  dsimp only
  rw [gc_third hno]
  dsimp only
  rw [if_neg (Nat.not_lt.2 h2), decide_eq_false (Nat.not_lt.2 h3), Bool.and_false]

end Collection

theorem readSuspend_late (hlu : lu = lunOf s ch lun) (hop : lu.erase ≠ none ∨ lu.progs ≠ []) (hs : lu.suspended = false)
    (hr : ∃ r ∈ lu.reads, r.issued = false ∧ r.since + 100000 ≤ s.now) (hc : fget s F.FLS_GEOM_SUSPEND = 1)
    (hm : lu.suspends < (if lu.erase = none then 1 else 4)) :
    readSuspend ch lun s = setLun s ch lun { lu with suspended := true, suspends := lu.suspends + 1 } := by
  have hbusy : lunBusy lu = true := by
    rw [lunBusy, hs]
    rcases hop with h | h
    · simp [Option.isSome_iff_ne_none.2 h]
    · simp [h]
  have hlate : (lu.reads.any fun r => !r.issued && r.since + 100000 ≤ s.now) = true := by
    obtain ⟨r, hr, hi, ht⟩ := hr
    exact List.any_eq_true.2 ⟨r, hr, by simp [hi, ht]⟩
  have hmost : lu.suspends < if lu.erase.isSome then 4 else 1 := by
    cases he : lu.erase <;> simpa [he] using hm
  rw [readSuspend, ← hlu]
  rw [hbusy, hlate, hc, decide_eq_true hmost] <;> rfl

/-! ### Channels out of service -/

theorem holdChannel_out (h : ch ∉ s.fls.inService) : holdChannel s ch = s := by
  rw [holdChannel]
  exact if_pos (by simpa using h)

theorem holdChannel_idle {s1 : State} (h : ch ∈ s.fls.inService) (hw : s.fls.work = []) (hl : ∀ p ∈ s.fls.luns, p.1 / 256 ≠ ch)
    (h1 : s1 = unitFault { s with fls := { s.fls with inService := s.fls.inService.filter fun c => c != ch } } 7 0x0B 0 0 ch) :
    holdChannel s ch = if flashLost s1 then ovcSet s1 0 else s1 := by
  have hluns : (s.fls.luns.filter fun p => p.1 / 256 != ch) = s.fls.luns := List.filter_eq_self.2 fun p hp => bne_iff_ne.2 (hl p hp)
  have hgiven : (s.fls.luns.flatMap fun p => if p.1 / 256 = ch then p.2.reads.filter fun r => r.issued && r.src == 0 else []) = [] :=
    List.flatMap_eq_nil_iff.2 fun p hp => if_neg (hl p hp)
  have hnone : ∀ q, s.fls.work.filter q = [] := fun q => by rw [hw, List.filter_nil]
  rw [holdChannel, if_neg (by simp [h])]
  dsimp only
  rw [hluns, hgiven, hnone, List.foldl_nil, List.foldl_nil, ← h1]

/-! ### Discards -/

section Discard
variable {v : W32} {s1 : State} {dom a n : Nat} (hv : v.getLsbD 28 = true) (hb : fget s F.FLS_DSC_CMD_BUSY = 0)
  (h1 : s1 = regWritePlain s .FLS_DSC_CMD 0 v) (hd : dom = fget s1 F.FLS_DSC_CMD_DOMAIN)
  (ha : a = rpair s1 .FLS_DSC_ADDR_LO .FLS_DSC_ADDR_HI) (hn : n = fget s1 F.FLS_DSC_CMD_PAGES)
include hv hb h1 hd ha hn

theorem flsDiscard_starts (hal : a % 65536 = 0) (hn0 : n ≠ 0) (hall : ∀ i < n, mayDiscard s1 dom (a + i * 65536) = true) :
    flsDiscard v s = { fset (fset s1 F.FLS_DSC_CMD_ERR 0) F.FLS_DSC_CMD_BUSY 1 with fls := { s.fls with dsc := some [dom, a, n * 65536] } } := by
  obtain ⟨s2, h2⟩ : ∃ s2, s2 = fset (fset s1 F.FLS_DSC_CMD_ERR 0) F.FLS_DSC_CMD_BUSY 1 := ⟨_, rfl⟩
  have hfls : s2.fls = s.fls := by
    obtain ⟨rs, h⟩ := regWritePlain_eq s .FLS_DSC_CMD 0 v
    obtain ⟨r1, e1⟩ := Timing.fset_eq s1 F.FLS_DSC_CMD_ERR 0 0
    obtain ⟨r2, e2⟩ := Timing.fset_eq (fset s1 F.FLS_DSC_CMD_ERR 0) F.FLS_DSC_CMD_BUSY 1 0
    rw [h2, e2, e1, h1, h]
  have hok : ((List.range n).all fun i => mayDiscard s1 dom (a + i * 65536)) = true :=
    List.all_eq_true.2 fun i hi => hall i (List.mem_range.1 hi)
  rw [flsDiscard, ← h1, if_neg (by simp [hv, hb])]
  dsimp only
  rw [← hd, ← ha, ← hn, if_neg (by simp [hal, hn0, hok, -List.all_eq_true]), ← h2, ← hfls]

theorem flsDiscard_refused (hbad : a % 65536 ≠ 0 ∨ n = 0 ∨ ∃ i < n, mayDiscard s1 dom (a + i * 65536) = false) :
    flsDiscard v s = fset s1 F.FLS_DSC_CMD_ERR 1 := by
  rw [flsDiscard, ← h1, if_neg (by simp [hv, hb])]
  dsimp only
  rw [← hd, ← ha, ← hn, if_pos]
  rcases hbad with h | h | ⟨i, hi, h⟩
  · simp [h]
  · simp [h]
  · have hall : ((List.range n).all fun i => mayDiscard s1 dom (a + i * 65536)) = false :=
      List.all_eq_false.2 ⟨i, List.mem_range.2 hi, by rw [h]; decide⟩
    rw [hall, Bool.not_false, Bool.or_true]

end Discard

theorem discardComplete_ends {dom a n : Nat} {s1 : State} (h : s.fls.dsc = some [dom, a, n]) (h1 : s1 = flashDrop s dom a n) :
    discardComplete s = fset { s1 with fls := { s1.fls with dsc := none } } F.FLS_DSC_CMD_BUSY 0 := by
  rw [discardComplete, h]
  dsimp only
  rw [← h1]

end Media

theorem flashMedia : FlashMedia := by
  refine ⟨fun s ch lun g rest lu s1 h hlu hg h1 => ⟨fun hm => ?_, fun p hm => ⟨fun hseq => ?_, fun hseq place s2 hp h2 => ?_⟩, fun s2 h2 ho => ?_⟩,
    fun s ch lun b lu s1 h hlu hb h1 => ⟨fun s2 h2 => ?_, fun hr => ?_, fun hs ht => ?_⟩,
    fun s b => ⟨fun h => congrArg Host.Outcome.next (if_pos h), fun h => congrArg Host.Outcome.next (if_neg (Nat.not_le.2 h))⟩,
    fun s b c l rs s1 ho hu hr hk hc hl hrs h1 => congrArg Host.Outcome.next (patrolRead_queues ho hu hr hk hc hl hrs h1),
    fun s ch lun b hb hk hin h => congrArg Host.Outcome.next (gc_scheduled hb hk hin h),
    fun s ch lun b good pool lu s1 hb hk hin hno hgood hpool hlu => ⟨fun hlow h1 hv => ?_, fun h3 h2 => ?_⟩,
    fun s ch lun lu hlu hop hs hr hc hm => congrArg Host.Outcome.next (readSuspend_late hlu hop hs hr hc hm),
    fun s ch h => congrArg Host.Outcome.next (holdChannel_out h),
    fun s ch s1 h hw hl h1 => congrArg Host.Outcome.next (holdChannel_idle h hw hl h1),
    fun s v s1 dom a n haw hv hb h1 hd ha hn => ⟨fun hal hn0 hall => ?_, fun hbad => ?_⟩,
    fun s dom a n s1 h h1 => congrArg Host.Outcome.next (discardComplete_ends h h1)⟩
  · exact congrArg Host.Outcome.next (program_discarded h hlu hg h1 hm)
  · exact congrArg Host.Outcome.next (program_stale h hlu hg h1 hm hseq)
  · exact congrArg Host.Outcome.next (program_placed h hlu hg h1 hm hseq hp h2)
  · exact congrArg Host.Outcome.next (program_failed h hlu hg h1 h2 ho)
  · exact congrArg Host.Outcome.next (erase_ends h hlu hb h1 h2)
  · exact congrArg Host.Outcome.next (erase_retires h hlu hb h1 hr)
  · exact congrArg Host.Outcome.next (erase_again h hlu hb hs ht)
  · subst hgood hpool hlu
    exact congrArg Host.Outcome.next (gc_collects hb hk hin hno hlow h1 hv)
  · subst hgood hpool hlu
    exact congrArg Host.Outcome.next (gc_rests hb hk hin hno h2 h3)
  · exact congrArg Host.Outcome.next ((hostReg_awake haw _ _ _).trans (flsDiscard_starts hv hb h1 hd ha hn hal hn0 hall))
  · exact congrArg Host.Outcome.next ((hostReg_awake haw _ _ _).trans (flsDiscard_refused hv hb h1 hd ha hn hbad))

/-- Settles O54: reads, programs and erases of flash, its media policies, channels held out and host discards. -/
theorem flashChannelsAndMedia : Obligations.FlashChannelsAndMedia := ⟨flashReads, flashMedia⟩

end Sys2Proof.Flash

/-! # Appends and commit requests -/

namespace Sys2Proof.Appending

open Sys2Proof Sys2Proof.Machine Sys2Proof.Claims Sys2Proof.Laws Sys2Proof.Merges Sys2Proof.Selection Sys2Proof.Joining

/-- What a command of a job's queue leaves: the state of its work, or the stop of the command. -/
def ended (s : State) (tag : Nat) (c : Cmd) (w : Work State) : State := match w with
  | .ok t => t
  | .error e => stopCmd s 14 tag c e

theorem ended_ok (s : State) (tag : Nat) (c : Cmd) (t : State) : ended s tag c (.ok t) = t := rfl

theorem tirCmd_ended {op : Nat} {s : State} {tag : W32} {c : Cmd} (h : TirNext op s tag c) (body : State → Cmd → Work State) :
    tirCmd tag.toNat op (fun _ => true) body s = ended s tag.toNat c (body s c) := tirCmd_next h _ rfl body

/-- A lane of zeros holds zeros. -/
theorem laneBits_of_zero {d : W256} {i lo w : Nat} (h : lane64 d i = 0) (hw : lo + w ≤ 64) : laneBits d i lo w = 0 := by
  refine Nat.eq_of_testBit_eq fun k => ?_
  have hbit : (lane64 d i).testBit (lo + k) = (0 : Nat).testBit (lo + k) := by rw [h]
  rw [lane64, bitsOf, Nat.testBit_mod_two_pow, Nat.testBit_div_two_pow, Nat.zero_testBit, Bool.and_eq_false_iff] at hbit
  rw [laneBits, bitsOf, Nat.testBit_mod_two_pow, Nat.testBit_div_two_pow, Nat.zero_testBit, Bool.and_eq_false_iff]
  rcases hbit with hbit | hbit
  · exact .inl (decide_eq_false fun hk => absurd (of_decide_eq_false hbit) (by omega))
  · exact .inr (by rw [← hbit, show k + (64 * i + lo) = lo + k + 64 * i by omega])

/-! ### Appends -/

section Append
variable {s s1 : State} {tag : W32} {c : Cmd} {x : Index} {i item b : Nat} {v : Batch}

theorem hazeAppend_overcast (h : TirNext 0x10 s tag c) (ho : overcast s = true) :
    hazeAppend tag.toNat s = endCmd s 14 tag.toNat c 0x09 0 0 0 := by
  rw [hazeAppend, tirCmd_ended h, ho] <;> rfl

/-- The work of a delete whose operands are good. -/
def deletes (s : State) (tag : Nat) (c : Cmd) (x : Index) (i item b : Nat) (v : Batch) (s1 : State) : Work State :=
  match dirState s i item tag with
  | .live k lists => do
    need (!lists.any fun l => decide ((rootAt s c.tok.dom (rootAddr x l)).hazeN ≥ 262144)) (.report stBAD_OPERATOR 0x24 0 0)
    match appendOp s1 b i v true item lists (tombEntry item) k true with
    | some s2 => .ok (endTir s2 tag c stOK 0 lists.length 0)
    | none => .error (.report stABORTED 0x29 0 0)
  | .reserved _ false _ => failWith stBAD_OPERATOR 0x26
  | _ => .ok (endTir s tag c stOK 0 0 0)

section Delete
variable (h : TirNext 0x10 s tag c) (ho : overcast s = false) (hi : i = laneBits c.tok.desc 0 56 8) (hitem : item = lane64 c.tok.desc 1)
  (hdel : laneBits c.tok.desc 2 0 1 = 1) (h63 : laneBits c.tok.desc 2 1 63 = 0) (hlow : item / 2 ^ 48 ≠ 0xFFFF)
  (hx : indexOf s c.tok.dom i = some x)
include h ho hi hitem hdel h63 hlow hx

theorem delete_checked (hb : openBatch s tag.toNat i = (b, v, s1)) : hazeAppend tag.toNat s =
    ended s tag.toNat c (need (isPrimary s x) (.report stBAD_OPERATOR 0 0 0) >>= fun _ => deletes s tag.toNat c x i item b v s1) := by
  rw [hazeAppend, tirCmd_ended h]
  simp only [need, ho, hdel, ← hi, ← hitem, hx, h63, hb, Bool.not_false, if_true, work_ok, beq_self_eq_true, Bool.true_or, bne_iff_ne.2 hlow,
    Bool.and_true]
  rfl

theorem delete_elsewhere (hp : isPrimary s x = false) : hazeAppend tag.toNat s = endCmd s 14 tag.toNat c 0x0B 0 0 0 := by
  obtain ⟨⟨b, v, s1⟩, hb⟩ : ∃ r, openBatch s tag.toNat i = r := ⟨_, rfl⟩
  rw [delete_checked h ho hi hitem hdel h63 hlow hx hb, hp] <;> rfl

theorem delete_primary (hp : isPrimary s x = true) (hb : openBatch s tag.toNat i = (b, v, s1)) :
    hazeAppend tag.toNat s = ended s tag.toNat c (deletes s tag.toNat c x i item b v s1) := by
  rw [delete_checked h ho hi hitem hdel h63 hlow hx hb, need_bind _ _ hp]

end Delete

theorem deletes_gone (hd : dirState s i item tag.toNat = .absent ∨ dirState s i item tag.toNat = .tombed) :
    deletes s tag.toNat c x i item b v s1 = .ok (endTir s tag.toNat c 0 0 0 0) := by
  rcases hd with hd | hd <;> rw [deletes, hd] <;> rfl

section Live
variable {k : Nat} {lists : List Nat} (hd : dirState s i item tag.toNat = .live k lists)
include hd

theorem deletes_full {l : Nat} (hl : l ∈ lists) (hfull : 262144 ≤ (rootAt s c.tok.dom (rootAddr x l)).hazeN) :
    deletes s tag.toNat c x i item b v s1 = .error (.report stBAD_OPERATOR 0x24 0 0) := by
  have hany : (lists.any fun l => decide ((rootAt s c.tok.dom (rootAddr x l)).hazeN ≥ 262144)) = true :=
    List.any_eq_true.2 ⟨l, hl, decide_eq_true hfull⟩
  rw [deletes, hd]
  dsimp only
  rw [hany] <;> rfl

theorem deletes_live (hroom : ∀ l ∈ lists, (rootAt s c.tok.dom (rootAddr x l)).hazeN < 262144) :
    (∀ s2, appendOp s1 b i v true item lists (tombEntry item) k true = some s2 →
      deletes s tag.toNat c x i item b v s1 = .ok (endTir s2 tag.toNat c 0 0 lists.length 0))
    ∧ (appendOp s1 b i v true item lists (tombEntry item) k true = none →
      deletes s tag.toNat c x i item b v s1 = .error (.report stABORTED 0x29 0 0)) := by
  have hany : (lists.any fun l => decide ((rootAt s c.tok.dom (rootAddr x l)).hazeN ≥ 262144)) = false :=
    List.any_eq_false.2 fun l hl => by simpa using hroom l hl
  refine ⟨fun s2 hs => ?_, fun hs => ?_⟩ <;> rw [deletes, hd] <;> dsimp only <;> rw [hany, need_bind _ _ (by rfl), hs] <;> rfl

end Live

/-- An insert of an item that is absent joins the batch in every list it names. -/
theorem insert_joins {src k : Nat} {hdr body : List Byte} {s2 : State} (h : TirNext 0x10 s tag c) (ho : overcast s = false)
    (hi : i = laneBits c.tok.desc 0 56 8) (hitem : item = lane64 c.tok.desc 1) (hsrc : src = laneBits c.tok.desc 0 0 56)
    (h2 : lane64 c.tok.desc 2 = 0) (hlow : item / 2 ^ 48 ≠ 0xFFFF) (hal : src % 64 = 0) (hh : operand s c.tok.dom src 64 = .ok hdr)
    (h18 : fieldOf hdr 0x18 40 = 0) (hq : ∀ q < 4, bitsOf (fieldOf hdr (4 * q) 4) 24 7 = 0) (hx : indexOf s c.tok.dom i = some x)
    (hp : isPrimary s x = true) (hbody : operand s c.tok.dom (src + 64) (bodyBytes x) = .ok body) (hd : dirState s i item tag.toNat = .absent)
    (hb : openBatch s tag.toNat i = (b, v, s1)) (hk : dirRoom s x = some k) (h1 : 1 ≤ (listSlots hdr).length)
    (hsp : (listSlots hdr).length ≤ x.spill) (hlists : ∀ l ∈ listSlots hdr, l < x.lists)
    (hroom : ∀ l ∈ listSlots hdr, (rootAt s c.tok.dom (rootAddr x l)).hazeN < 262144)
    (hs2 : appendOp (freeNext s1) b i v false item (listSlots hdr) (insertBytes x item (fieldOf hdr 0x10 8) body) k false = some s2) :
    hazeAppend tag.toNat s = endTir s2 tag.toNat c 0 0 (listSlots hdr).length 0 := by
  have hdel : (laneBits c.tok.desc 2 0 1 == 1) = false := by rw [laneBits_of_zero h2 (by decide)] <;> rfl
  have h63 : laneBits c.tok.desc 2 1 63 = 0 := laneBits_of_zero h2 (by decide)
  have hall : ((List.range 4).all fun k => bitsOf (fieldOf hdr (4 * k) 4) 24 7 == 0) = true :=
    List.all_eq_true.2 fun q hr => beq_iff_eq.2 (hq q (List.mem_range.1 hr))
  have hslots : (decide (1 ≤ (listSlots hdr).length) && decide ((listSlots hdr).length ≤ x.spill) && (listSlots hdr).all fun l => l < x.lists) =
      true := by
    rw [decide_eq_true h1, decide_eq_true hsp, Bool.true_and, Bool.true_and]
    exact List.all_eq_true.2 fun l hl => decide_eq_true (hlists l hl)
  have hany : ((listSlots hdr).any fun l => decide ((rootAt s c.tok.dom (rootAddr x l)).hazeN ≥ 262144)) = false :=
    List.any_eq_false.2 fun l hl => by simpa using hroom l hl
  rw [hazeAppend, tirCmd_ended h]
  simp only [need, ho, hdel, ← hi, ← hitem, ← hsrc, hx, h63, hb, hh, hal, h18, hall, hp, hbody, hd, hslots, hany, hk, hs2, Bool.not_false,
    if_true, work_ok,
    beq_self_eq_true, Bool.or_true, bne_iff_ne.2 hlow, Bool.and_true, Bool.false_eq_true, if_false]
  rfl

/-- The entries that an append pushes: one in each list, of its item. -/
theorem pushAll_entries {del : Bool} {bs : List Byte} {lists : List Nat} {es : List BatchEnt} {t : State}
    (h : pushAll s i item del bs lists = some (es, t)) : es.map (·.list) = lists ∧ ∀ e ∈ es, e.item = item ∧ e.tomb = del := by
  induction lists generalizing s es t with
  | nil =>
    obtain ⟨rfl, -⟩ := Prod.mk.inj (Option.some.inj h)
    exact ⟨rfl, fun e he => absurd he List.not_mem_nil⟩
  | cons l ls ih =>
    unfold pushAll at h
    split at h
    · exact absurd h (by simp)
    · split at h
      · exact absurd h (by simp)
      · next es' s2 hrest =>
        obtain ⟨rfl, -⟩ := Prod.mk.inj (Option.some.inj h)
        obtain ⟨hlists, hitems⟩ := ih hrest
        exact ⟨congrArg (l :: ·) hlists, List.forall_mem_cons.2 ⟨⟨rfl, rfl⟩, hitems⟩⟩

/-- The batch that an append leaves. -/
theorem appendOp_batch {del had : Bool} {lists : List Nat} {bs : List Byte} {k : Nat} {t : State}
    (h : appendOp s b i v del item lists bs k had = some t) :
    ∃ es op, tfind t.tir.batches b = some { v with ents := v.ents ++ es, ops := v.ops ++ [op] }
      ∧ es.map (·.list) = lists ∧ (∀ e ∈ es, e.item = item ∧ e.tomb = del) ∧ op.item = item ∧ op.del = del ∧ op.lists = lists := by
  rw [appendOp] at h
  extract_lets x at h
  split at h
  · exact absurd h (by simp)
  · split at h
    · exact absurd h (by simp)
    · next es s1 hpush =>
      obtain ⟨hlists, hitems⟩ := pushAll_entries hpush
      obtain rfl := Option.some.inj h
      exact ⟨es, _, tfind_tins_same _ _ _, hlists, hitems, rfl, rfl, rfl⟩

end Append

theorem appendsJoinABatch : AppendsJoinABatch := by
  refine ⟨fun s tag c h ho => congrArg Host.Outcome.next (hazeAppend_overcast h ho),
    fun s tag c x i item h ho hi hitem hdel h63 hlow hx => ⟨fun hp => ?_, fun hp hd => ?_, fun k lists b v s1 hp hd hb hroom => ?_,
      fun k lists l hp hd hl hfull => ?_⟩,
    fun s tag c x i item src hdr body b v s1 k h ho hi hitem hsrc h2 hlow hal hh h18 hq hx hp hbody hd hb hk h1 hsp hlists hroom s2 hs2 => ?_,
    fun s b i v del item lists bs k had t h => appendOp_batch h⟩
  · exact congrArg Host.Outcome.next (delete_elsewhere h ho hi hitem hdel h63 hlow hx hp)
  · obtain ⟨⟨b, v, s1⟩, hb⟩ : ∃ r, openBatch s tag.toNat i = r := ⟨_, rfl⟩
    refine congrArg Host.Outcome.next ((delete_primary h ho hi hitem hdel h63 hlow hx hp hb).trans ?_)
    rw [deletes_gone hd] <;> rfl
  · have step := delete_primary h ho hi hitem hdel h63 hlow hx hp hb
    obtain ⟨hsome, hnone⟩ := deletes_live (c := c) (x := x) (b := b) (v := v) (s1 := s1) hd hroom
    refine ⟨fun s2 hs => congrArg Host.Outcome.next (step.trans ?_), fun hs => congrArg Host.Outcome.next (step.trans ?_)⟩
    · rw [hsome s2 hs] <;> rfl
    · rw [hnone hs] <;> rfl
  · obtain ⟨⟨b, v, s1⟩, hb⟩ : ∃ r, openBatch s tag.toNat i = r := ⟨_, rfl⟩
    refine congrArg Host.Outcome.next ((delete_primary h ho hi hitem hdel h63 hlow hx hp hb).trans ?_)
    rw [deletes_full hd hl hfull] <;> rfl
  · exact congrArg Host.Outcome.next
      (insert_joins h ho hi hitem hsrc h2 hlow hal hh h18 hq hx hp hbody hd hb hk h1 hsp hlists hroom hs2)

/-! ### Commit requests -/

/-- A message of a commit changes the ports and what has left the part. -/
theorem commitMsg_eq (s : State) (ty node id index : Nat) (bs : List Byte) :
    ∃ f o, commitMsg s ty node id index bs = { s with trf := f, out := o } := by
  unfold commitMsg sendSys sendPkt
  split
  · exact ⟨s.trf, s.out, rfl⟩
  · split
    · exact ⟨s.trf, _, rfl⟩
    · split
      · exact ⟨_, s.out, rfl⟩
      · exact ⟨s.trf, s.out, rfl⟩

/-- What a unified address reads from is the same in both states. -/
structure SameReads (s t : State) : Prop where
  mem : t.mem = s.mem
  flt : t.flt = s.flt
  fls : t.fls = s.fls
  causes : ovcCauses t = ovcCauses s
  freeCtr : t.freeCtr = s.freeCtr
  pages : t.tir.pages = s.tir.pages
  regions : t.tir.regions = s.tir.regions
  indexes : t.tir.indexes = s.tir.indexes

namespace SameReads
variable {s t : State} (h : SameReads s t)
include h

theorem pageOf (k : Nat) : Machine.pageOf t k = Machine.pageOf s k := by
  rw [Machine.pageOf, h.pages, Machine.pageOf]

theorem locate (dom a : Nat) : Machine.locate t dom a = Machine.locate s dom a := by
  simp only [Machine.locate, areaAt, regionAt, h.pageOf, h.indexes, h.regions]

theorem stkBad (a n : Nat) : Machine.stkBad t a n = Machine.stkBad s a n := by
  simp only [Machine.stkBad, h.mem, h.flt]

theorem flashBad (dom p : Nat) : Machine.flashBad t dom p = Machine.flashBad s dom p := by
  simp only [Machine.flashBad, h.fls, h.causes]

theorem homeByte (dom a : Nat) : Machine.homeByte t dom a = Machine.homeByte s dom a := by
  simp only [Machine.homeByte, freeWord, h.locate, h.stkBad, h.flashBad, h.mem, h.freeCtr]

theorem uByte (dom a : Nat) : Machine.uByte t dom a = Machine.uByte s dom a := by
  simp only [Machine.uByte, waitingByte, h.homeByte, h.pageOf]

theorem uBytes (dom a n : Nat) : Machine.uBytes t dom a n = Machine.uBytes s dom a n := by
  simp only [Machine.uBytes, uRead, h.uByte]

end SameReads

theorem uBytes_sent (s : State) (f : Trf) (o : List Output) (dom a n : Nat) :
    uBytes { s with trf := f, out := o } dom a n = uBytes s dom a n :=
  SameReads.uBytes ⟨rfl, rfl, rfl, rfl, rfl, rfl, rfl, rfl⟩ dom a n

theorem uBytes_queued (s : State) (m : Table (List Cmd)) (bs : Table Batch) (dom a n : Nat) :
    uBytes { s with cmds := m, tir := { s.tir with batches := bs } } dom a n = uBytes s dom a n :=
  SameReads.uBytes ⟨rfl, rfl, rfl, rfl, rfl, rfl, rfl, rfl⟩ dom a n

/-- What a batch sends does not depend on the messages that have left. -/
theorem batchBytes_sent (s : State) (ty node id index : Nat) (bs : List Byte) (x : Index) (v : Batch) :
    batchBytes (commitMsg s ty node id index bs) x v = batchBytes s x v := by
  obtain ⟨f, o, h⟩ := commitMsg_eq s ty node id index bs
  rw [h]
  simp only [batchBytes, uBytes_sent]

theorem batchBytes_queued (s : State) (k : Nat) (w : Batch) (cls inst : Nat) (c : Cmd) (x : Index) (v : Batch) :
    batchBytes (putCmd (setBatch s k w) cls inst c) x v = batchBytes s x v := by
  simp only [batchBytes, putCmd, setCmds, setBatch, uBytes_queued]

/-- Two walks over a list agree where their steps agree in every state with a property that the steps keep. -/
theorem foldl_of_kept {P : State → Prop} {f g : State → Nat → State} (hf : ∀ t n, P t → f t n = g t n) (hg : ∀ t n, P t → P (g t n))
    (l : List Nat) {t : State} (h : P t) : l.foldl f t = l.foldl g t := by
  induction l generalizing t with
  | nil => rfl
  | cons n l ih => rw [List.foldl_cons, List.foldl_cons, hf t n h, ih (hg t n h)]

theorem foldl_batch {s t : State} {k i : Nat} {x : Index} {v : Batch} (l : List Nat) (h : batchBytes t x v = batchBytes s x v) :
    l.foldl (fun u n => commitMsg u 0x20 n k i (batchBytes u x v)) t = l.foldl (fun u n => commitMsg u 0x20 n k i (batchBytes s x v)) t :=
  foldl_of_kept (P := fun u => batchBytes u x v = batchBytes s x v) (fun u n hu => congrArg (commitMsg u 0x20 n k i) hu)
    (fun _ _ hu => (batchBytes_sent ..).trans hu) l h

section Commit
variable {s : State} {tag : W32} {c : Cmd} {x : Index} {i k : Nat} {v : Batch} (h : TirNext 0x11 s tag c) (hi : i = laneBits c.tok.desc 0 0 8)
include h hi

theorem commit_fenced (hb : collecting s tag.toNat i = some (k, v)) (hf : fenced s = true) :
    commitRequest tag.toNat s = endTir (failCommit s k v 0x0A 0 false []) tag.toNat c 0x0A 0 0 0 := by
  rw [commitRequest, tirCmd_ended h]
  simp only [← hi, hb, hf, Option.isSome_some, Bool.and_self, if_true]
  rfl

theorem commit_overcast (hb : collecting s tag.toNat i = some (k, v)) (hf : fenced s = false) (ho : overcast s = true) :
    commitRequest tag.toNat s = endTir (failCommit s k v 0x09 0 false []) tag.toNat c 0x09 0 0 0 := by
  rw [commitRequest, tirCmd_ended h]
  simp only [← hi, hb, hf, ho, Option.isSome_some, Bool.and_self, if_true, Bool.false_and, Bool.false_eq_true, if_false]
  rfl

section Operands
variable (h0 : laneBits c.tok.desc 0 8 56 = 0) (h1 : lane64 c.tok.desc 1 = 0) (h2 : lane64 c.tok.desc 2 = 0)
  (hx : indexOf s c.tok.dom i = some x)
include h0 h1 h2 hx

/-- A commit of a job that has appended nothing ends at once. -/
theorem commit_nothing (hb : collecting s tag.toNat i = none) : commitRequest tag.toNat s = endTir s tag.toNat c 0 0 0 0 := by
  have ha : laneBits c.tok.desc 1 0 56 = 0 := laneBits_of_zero h1 (by decide)
  have ha' : laneBits c.tok.desc 1 56 8 = 0 := laneBits_of_zero h1 (by decide)
  rw [commitRequest, tirCmd_ended h]
  simp only [← hi, hb, h0, h1, h2, ha, ha', hx, need, Option.isSome_none, Bool.and_false, Bool.false_eq_true, if_false, if_true, beq_self_eq_true,
    Nat.zero_mod, Bool.and_self, work_ok, putEpoch]
  rfl

section Batch
variable (hb : collecting s tag.toNat i = some (k, v)) (hf : fenced s = false) (ho : overcast s = false)
include hb hf ho

theorem commit_alone (hr : x.repl > 1 && (myNode s).isNone) :
    commitRequest tag.toNat s = endTir (failCommit s k v 0x0B 0 false []) tag.toNat c 0x0B 0 0 0 := by
  have ha : laneBits c.tok.desc 1 0 56 = 0 := laneBits_of_zero h1 (by decide)
  have ha' : laneBits c.tok.desc 1 56 8 = 0 := laneBits_of_zero h1 (by decide)
  rw [commitRequest, tirCmd_ended h]
  simp only [← hi, hb, h0, h1, h2, ha, ha', hf, ho, hx, need, Bool.false_and, Bool.false_eq_true, if_false, if_true, beq_self_eq_true,
    Nat.zero_mod, Bool.and_self, work_ok, hr]
  rfl

/-- A commit of a batch sends it to the replicas and waits. -/
theorem commit_sends {s1 : State} (hr : (x.repl > 1 && (myNode s).isNone) = false)
    (hs1 : s1 = putCmd (setBatch s k { v with phase := .waitAcks, cmd := some c.id, sentAt := s.now }) 14 tag.toNat { c with phase := .running }) :
    commitRequest tag.toNat s = (replicasOf x).foldl (fun s2 n => commitMsg s2 0x20 n k i (batchBytes s x v)) s1 := by
  have ha : laneBits c.tok.desc 1 0 56 = 0 := laneBits_of_zero h1 (by decide)
  have ha' : laneBits c.tok.desc 1 56 8 = 0 := laneBits_of_zero h1 (by decide)
  rw [commitRequest, tirCmd_ended h]
  simp only [← hi, hb, h0, h1, h2, ha, ha', hf, ho, hx, need, Bool.false_and, Bool.false_eq_true, if_false, if_true, beq_self_eq_true,
    Nat.zero_mod, Bool.and_self, work_ok, hr, ended_ok]
  rw [← hs1]
  refine foldl_batch _ ?_
  rw [hs1]
  exact batchBytes_queued ..

end Batch
end Operands
end Commit

theorem commitRequests : CommitRequests := by
  refine fun s tag c i h hi => ⟨fun hb h0 h1 h2 ⟨x, hx⟩ => ?_,
    fun k v x hb hf ho h0 h1 h2 hx => ⟨fun hr => ?_, fun hr hn => ?_, fun s1 hr hn h1s => ?_⟩,
    fun k v hb hf => ?_, fun k v hb hf ho => ?_⟩
  · exact congrArg Host.Outcome.next (commit_nothing h hi h0 h1 h2 hx hb)
  · refine congrArg Host.Outcome.next ((commit_sends h hi h0 h1 h2 hx hb hf ho (by rw [hr] <;> rfl) rfl).trans ?_)
    rw [replicasOf, hr] <;> rfl
  · exact congrArg Host.Outcome.next (commit_alone h hi h0 h1 h2 hx hb hf ho (by rw [hn, decide_eq_true hr] <;> rfl))
  · rw [h1s]
    refine congrArg Host.Outcome.next (commit_sends h hi h0 h1 h2 hx hb hf ho ?_ rfl)
    rw [Option.isNone_eq_false_iff.2 (Option.isSome_iff_ne_none.2 hn), Bool.and_false]
  · exact congrArg Host.Outcome.next (commit_fenced h hi hb hf)
  · exact congrArg Host.Outcome.next (commit_overcast h hi hb hf ho)

/-- Settles O55: appends join the batch of their job; a commit request sends it. -/
theorem appendsAndCommits : Obligations.AppendsAndCommits := ⟨appendsJoinABatch, commitRequests⟩

end Sys2Proof.Appending

/-! # What TIR's own writes leave -/

namespace Sys2Proof.Steadiness

open Sys2Proof Sys2Proof.Machine Sys2Proof.Claims Sys2Proof.Laws Sys2Proof.Keeping

variable {a s : State}

/-- The commands of the engines, and the batches, merges and old segments that a group commit looks at. -/
def tables (s : State) : Table (List Cmd) × Table Batch × Table MergeRec × List (Nat × Nat × Nat) × Table Nat :=
  (s.cmds, s.tir.batches, s.tir.merges, s.tir.retired, s.tir.cuts)

/-- The node went from `a` to `s` and left these alone. -/
def Steady (a s : State) : Prop := tables s = tables a

theorem Steady.refl (a : State) : Steady a a := rfl

theorem Steady.parts (h : Steady a s) : s.cmds = a.cmds ∧ s.tir.batches = a.tir.batches ∧ s.tir.merges = a.tir.merges
    ∧ s.tir.retired = a.tir.retired ∧ s.tir.cuts = a.tir.cuts := by simpa only [Steady, tables, Prod.mk.injEq] using h

theorem Steady.foldl {α : Type} (h : Steady a s) {f : State → α → State} (hf : ∀ t x, Steady a t → Steady a (f t x)) {l : List α} :
    Steady a (l.foldl f s) := by
  induction l generalizing s with
  | nil => exact h
  | cons x l ih => exact ih (hf s x h)

theorem Steady.ite {t : State} {c : Prop} [Decidable c] (hs : Steady a s) (ht : Steady a t) : Steady a (if c then s else t) := by
  split <;> assumption

/-! ### Records and the other parts of the state -/

theorem Steady.fset (h : Steady a s) {f : Fld} {v b : Nat} : Steady a (fset s f v b) := h

theorem Steady.fbump (h : Steady a s) {f : Fld} {b : Nat} : Steady a (fbump s f b) := h.fset

theorem Steady.hostWrite (h : Steady a s) {pasid : Option Nat} {x : Nat} {bs : List Byte} : Steady a (hostWrite s pasid x bs) := h

theorem Steady.setEvq (h : Steady a s) {i : Nat} {v : Evq} : Steady a (setEvq s i v) := h

theorem Steady.msixSend (h : Steady a s) {v : Nat} : Steady a (msixSend s v) := Steady.ite h h

theorem Steady.msixCount (h : Steady a s) {i : Nat} : Steady a (msixCount s i) :=
  Steady.ite h (Steady.ite (Steady.msixSend (h.setEvq.setEvq)) h.setEvq)

theorem Steady.eqPut (h : Steady a s) {i : Nat} {r : Rec} : Steady a (eqPut s i r) := h.hostWrite.fset.setEvq.msixCount

theorem Steady.eqRecord (h : Steady a s) {e : Nat} {r : Rec} : Steady a (eqRecord s e r) :=
  Steady.ite h.fbump (Steady.ite (Steady.ite h h.setEvq.fbump) h.eqPut)

theorem Steady.faultRec (h : Steady a s) {r : FaultRec} : Steady a (faultRec s r) := by
  unfold Machine.faultRec
  extract_lets log _ s1
  have h1 : Steady a s1 := h
  exact Steady.ite h1.fbump h1

theorem Steady.unitFault (h : Steady a s) {block kind status reason inst addr info : Nat} :
    Steady a (unitFault s block kind status reason inst addr info) := h.faultRec.eqRecord

/-! ### Pages and frames -/

theorem Steady.setPage (h : Steady a s) {k : Nat} {q : Page} : Steady a (setPage s k q) := h

theorem Steady.stkWrite (h : Steady a s) {x : Nat} {bs : List Byte} : Steady a (stkWrite s x bs) := Steady.ite h h

theorem Steady.flashPut (h : Steady a s) {dom x : Nat} {bs : List Byte} : Steady a (flashPut s dom x bs) := h

theorem Steady.scrubFrame (h : Steady a s) {f : Nat} : Steady a (scrubFrame s f) := h

theorem Steady.freeNext (h : Steady a s) : Steady a (freeNext s) := h

theorem Steady.flashProgram (h : Steady a s) {dom lpage : Nat} {bs : List Byte} : ∀ p, flashProgram s dom lpage bs = some p → Steady a p := by
  intro p e
  unfold Machine.flashProgram at e
  dsimp only at e
  split at e
  · cases e
  · split at e
    · cases e
    · obtain rfl := Option.some.inj e
      exact h

theorem Steady.flashWrite (h : Steady a s) {dom lpage : Nat} {bs : List Byte} : ∀ p, flashWrite s dom lpage bs = some p → Steady a p := by
  intro p e
  unfold Machine.flashWrite at e
  split at e
  · cases e
  · split at e
    · cases e
    · next t ht =>
      have hk : Steady a t := h.flashProgram _ ht
      split at e
      · exact Option.some.inj e ▸ hk
      · dsimp only at e
        split at e
        · exact Option.some.inj e ▸ hk
        · split at e <;> exact Option.some.inj e ▸ hk

theorem Steady.writeBack (h : Steady a s) {k : Nat} : Steady a (writeBack s k) := by
  unfold Machine.writeBack
  dsimp only
  split
  · refine Steady.ite h (Steady.ite (Steady.setPage (h.foldl fun _ _ ht => Steady.ite ht.hostWrite ht)) (Steady.ite ?_ h))
    split
    · next hres =>
      refine Steady.setPage (foldl_some_of (P := Steady a) (fun o i ho p hp => ?_) (fun p hp => Option.some.inj hp ▸ h) _ hres)
      split at hp
      · cases hp
      · have hk := ho _ rfl
        split at hp
        · exact hk.flashWrite _ hp
        · exact Option.some.inj hp ▸ hk
    · exact h.unitFault
  · exact h

theorem Steady.dropCopy (h : Steady a s) {k : Nat} : Steady a (dropCopy s k) := by
  unfold Machine.dropCopy
  dsimp only
  split
  · exact h
  · exact h.scrubFrame.setPage

theorem Steady.allocFrame (h : Steady a s) {dom : Nat} {okBank : Nat → Bool} : ∀ p, allocFrame s dom okBank = some p → Steady a p.2 := by
  intro p e
  unfold Machine.allocFrame at e
  split at e
  · cases e
    exact h.scrubFrame.freeNext
  · dsimp only at e
    split at e
    · cases e
    · split at e
      · cases e
      · split at e <;> cases e
        exact h.writeBack.dropCopy

theorem Steady.fillSub (h : Steady a s) {dom pa x : Nat} {dirty : BitVec 64} : Steady a (fillSub s dom pa x dirty) := by
  unfold Machine.fillSub
  split
  · exact h
  · split
    · exact h.stkWrite
    · exact h

theorem Steady.fillTile (h : Steady a s) {dom x : Nat} : Steady a (fillTile s dom x) := by
  unfold Machine.fillTile
  dsimp only
  split
  · exact h
  · refine Steady.ite h ?_
    split
    · exact h
    · next f t hframe =>
      have ht : Steady a t := by
        split at hframe
        · cases hframe
          exact h
        · obtain ⟨_, halloc, heq⟩ := Option.map_eq_some_iff.1 hframe
          cases heq
          exact (h.allocFrame _ halloc).setPage
      exact Steady.ite ht (Steady.setPage (ht.foldl fun _ _ hk => hk.fillSub))

theorem Steady.startMig (h : Steady a s) {k target cmd hostAddr : Nat} : Steady a (startMig s k target cmd hostAddr) := by
  unfold Machine.startMig
  dsimp only
  refine Steady.ite h ?_
  split
  · exact h.fbump
  · next hfr =>
    refine Steady.setPage ?_
    split at hfr
    · exact h.allocFrame _ hfr
    · cases hfr
      exact h

/-! ### Writes -/

theorem Steady.uPut (h : Steady a s) {dom x : Nat} {b : Byte} : Steady a (uPut s dom x b) := by
  unfold Machine.uPut
  dsimp only
  split
  · refine Steady.ite h.flashPut ?_
    split
    · exact h.stkWrite
    · split
      · next halloc => exact (h.allocFrame _ halloc).setPage.stkWrite
      · exact h
  · split
    · exact h
    · refine Steady.ite ?_ (Steady.ite ?_ h)
      · split
        · refine Steady.ite h.setPage ?_
          split
          · exact h.setPage.hostWrite
          · split
            · exact h.setPage.stkWrite
            · exact h.setPage
        · split
          · split
            · exact h.startMig.setPage
            · exact h.startMig.flashPut
          · exact h.hostWrite
          · split
            · exact h.stkWrite
            · exact h
      · split
        · exact (Steady.ite h h.fillTile).stkWrite.setPage
        · exact Steady.ite h h.fillTile

theorem Steady.coverSub (h : Steady a s) {dom x : Nat} : Steady a (coverSub s dom x) := by
  unfold Machine.coverSub
  dsimp only
  split
  · exact h
  · refine Steady.ite h ?_
    split
    · exact h
    · next t hframe =>
      have ht : Steady a t := by
        split at hframe
        · exact Option.some.inj hframe ▸ h
        · obtain ⟨_, halloc, rfl⟩ := Option.map_eq_some_iff.1 hframe
          exact (h.allocFrame _ halloc).setPage
      exact ht.setPage

theorem Steady.pokeBytes (h : Steady a s) {dom x : Nat} {bs : List Byte} : Steady a (pokeBytes s dom x bs) := by
  induction bs generalizing s x with
  | nil => exact h
  | cons b bs ih => exact ih h.uPut

theorem Steady.uPoke (h : Steady a s) {dom x : Nat} {bs : List Byte} : Steady a (uPoke s dom x bs) :=
  (h.foldl fun _ _ ht => ht.coverSub).pokeBytes

theorem Steady.markBatch (h : Steady a s) {v : Batch} {e : Nat} : Steady a (markBatch s v e) := by
  refine (h.foldl fun _ _ ht => ht.uPoke).foldl fun t o ht => ?_
  split
  · exact ht
  · exact Steady.ite ht.uPoke (Steady.ite ht ht.uPoke)

end Sys2Proof.Steadiness

/-! # Group commits and pins -/

namespace Sys2Proof.Epochs

open Sys2Proof Sys2Proof.Machine Sys2Proof.Claims Sys2Proof.Laws Sys2Proof.Merges Sys2Proof.Selection Sys2Proof.Joining Sys2Proof.Appending
  Sys2Proof.Steadiness

/-! ### When a group commit runs -/

section When
variable {s : State} {n : Nat}

theorem groupCommit_early (h : s.now < s.tir.nextCommit) : groupCommit n s = s := if_pos h

theorem groupCommit_asleep (h : s.tir.nextCommit ≤ s.now) (hp : 1 ≤ fget s F.PRB_PWR_STAT_STATE) (hw : commitWork s = true) :
    groupCommit n s = wakeNode s := by
  have hp0 : inP0 s = false := beq_eq_false_iff_ne.2 (by omega)
  rw [groupCommit, if_neg (Nat.not_lt.2 h), hp0, hw] <;> rfl

theorem groupCommit_unready (h : s.tir.nextCommit ≤ s.now) (hp : fget s F.PRB_PWR_STAT_STATE = 0) (hr : fget s F.PRB_STEP_READY = 0) :
    groupCommit n s = s := by
  have hp0 : inP0 s = true := beq_iff_eq.2 hp
  rw [groupCommit, if_neg (Nat.not_lt.2 h), hp0, commitsRun, hr] <;> rfl

end When

/-! ### What it publishes -/

/-- With no list swapped, no directory entry goes. -/
theorem sweepDirectory_uncut {s : State} (h : s.tir.cuts = []) (i : Nat) : sweepDirectory s i = s := by
  have hcut : ∀ (t : State) (e : List Byte), t.tir.cuts = [] → dirEmpty e = false →
      ((dirLists e).all fun l => match tfind t.tir.cuts (listKey i l) with | some c => dirEpoch e ≤ c | none => false) = false := by
    intro t e ht he
    rw [ht]
    cases hl : dirLists e with
    | nil => rw [dirEmpty, hl] at he; exact absurd he (by decide)
    | cons l ls => rfl
  rw [sweepDirectory]
  dsimp only
  induction List.range (dirSlots (idx s i)) with
  | nil => rfl
  | cons k ks ih =>
    rw [List.foldl_cons, if_neg]
    · exact ih
    · intro hc
      simp only [Bool.and_eq_true, Bool.not_eq_true'] at hc
      obtain ⟨⟨⟨he, -⟩, -⟩, hall⟩ := hc
      exact absurd (hall.symm.trans (hcut s _ h he)) (by decide)

theorem sweeps_uncut {α : Type} {s : State} (h : s.tir.cuts = []) (f : α → Nat) (l : List α) :
    l.foldl (fun s p => sweepDirectory s (f p)) s = s := by
  induction l with
  | nil => rfl
  | cons p l ih => rw [List.foldl_cons, sweepDirectory_uncut h, ih]

theorem performSwaps_none {s : State} (h : s.tir.merges = []) (e : Nat) : performSwaps s e = s := by rw [performSwaps, h] <;> rfl

theorem reclaimAll_none {s : State} (h : s.tir.retired = []) : reclaimAll s.tir.retired.length s = s := by rw [h] <;> rfl

theorem applyOverrides_none {s : State} (h : ∀ p ∈ s.tir.indexes, p.2.ovrNext = none) : applyOverrides s = s := by
  have hid : (s.tir.indexes.map fun p => (p.1, match p.2.ovrNext with
      | some b => { p.2 with ovr := b, ovrNext := none }
      | none => p.2)) = s.tir.indexes := by
    refine (List.map_congr_left fun p hp => ?_).trans (List.map_id _)
    rw [h p hp] <;> rfl
  exact congrArg (fun l => ({ s with tir := { s.tir with indexes := l } } : State)) hid

theorem decide1_decided {s : State} {b : Nat} {v : Batch} (h : v.phase = .decided) : decide1 s b v = s := by
  rw [decide1, h]
  exact if_pos (by simp)

/-- What a group commit does at its epoch, once the overrides are in effect (R181). -/
def published (s1 : State) (e : Nat) : State :=
  let s2 := s1.tir.batches.foldl (fun s p => match tfind s.tir.batches p.1 with | some v => decide1 s p.1 v | none => s) s1
  let ready := s2.tir.batches.filter fun p => batchReady s2 p.2
  let s3 := ready.foldl (fun s p => match tfind s.tir.batches p.1 with | some v => markBatch s v e | none => s) s2
  let s4 := s3.tir.indexes.foldl (fun s p => sweepDirectory s p.1) s3
  let s5 := performSwaps s4 e
  let s6 : State := { s5 with tir := { s5.tir with epoch := e } }
  let s7 := ready.foldl (fun s p => leaveBatch s p.1 p.2 e) s6
  let s8 := (s1.tir.batches.filter fun p => p.2.phase == .dead).foldl (fun s p => releaseBatch s p.1 p.2) s7
  reclaimAll s8.tir.retired.length s8

/-- The commit of a node that is ready and has room in its reserve. -/
theorem groupCommit_runs {s s0 : State} {n : Nat} (hnow : s.tir.nextCommit ≤ s.now) (hp : fget s F.PRB_PWR_STAT_STATE = 0)
    (hr : fget s F.PRB_STEP_READY = 1) (hflash : flashGone s = false) (hres : s.tir.epoch + 2 ^ 19 ≤ s.tir.reserve)
    (hov : ∀ p ∈ s.tir.indexes, p.2.ovrNext = none) (h0 : s0 = { s with tir := { s.tir with
      jdone := max s.tir.jdone (min n s.tir.jseq), nextCommit := s.now + max 10 (min 100 (fget s F.TIR_EPOCH_CTL_INTERVAL)) * 1000 } }) :
    groupCommit n s = published s0 (s.tir.epoch + 1) := by
  have hp0 : inP0 s = true := beq_iff_eq.2 hp
  have hruns : commitsRun s = true := by rw [commitsRun, hr, hp] <;> rfl
  have hkeep : keepReserve s0 = s0 := by
    rw [keepReserve, if_neg]
    have : ¬ s0.tir.reserve < s0.tir.epoch + 2 ^ 19 := by rw [h0]; exact Nat.not_lt.2 hres
    rw [decide_eq_false this]
    simp
  have hover : applyOverrides s0 = s0 := applyOverrides_none (by rw [h0]; exact hov)
  have hepoch : s0.tir.epoch = s.tir.epoch := by rw [h0]
  have hroom : ¬ s0.tir.epoch + 1 > s0.tir.reserve := by
    have : s0.tir.reserve = s.tir.reserve := by rw [h0]
    omega
  rw [groupCommit, if_neg (Nat.not_lt.2 hnow), hp0, hruns]
  simp only [Bool.not_true, Bool.false_and, Bool.false_eq_true, if_false, hflash, commitInterval]
  rw [← h0, hkeep]
  rw [hepoch] at hroom ⊢
  rw [if_neg hroom, hover] <;> rfl

section Published
variable {s : State} {e : Nat} (hmer : s.tir.merges = []) (hret : s.tir.retired = []) (hcut : s.tir.cuts = [])
include hmer hret hcut

theorem published_empty (hb : s.tir.batches = []) : published s e = { s with tir := { s.tir with epoch := e } } := by
  simp only [published, List.filter_nil, List.foldl_nil, hb, sweeps_uncut hcut, performSwaps_none hmer, hret]
  rfl

omit hmer hret hcut in
/-- A committed batch of this node's own leaves: its command reports. -/
theorem leaveBatch_reports {b id tag : Nat} {v : Batch} {c : Cmd} (hb : s.tir.batches = [(b, v)]) (hv : v.replica = false) (hcmd : v.cmd = some id)
    (hfind : findTir s id = some (tag, c)) (hno : lane64 c.tok.desc 1 = 0) : leaveBatch s b v e =
    endTir { s with tir := { s.tir with batches := [], outcomes := tins s.tir.outcomes b true } } tag c 0 0 0 0 := by
  obtain ⟨s1, h1⟩ : ∃ s1 : State, s1 = { s with tir := { s.tir with batches := [], outcomes := tins s.tir.outcomes b true } } := ⟨_, rfl⟩
  have hdel : tdel s.tir.batches b = [] := by rw [hb]; simp [tdel]
  have hfind1 : findTir s1 id = some (tag, c) := by rw [h1, ← hfind] <;> rfl
  have hep : putEpoch s1 c e = s1 := if_pos hno
  rw [leaveBatch, hdel, hv, if_neg Bool.false_ne_true]
  dsimp only
  rw [← h1, hcmd]
  dsimp only
  rw [hfind1]
  dsimp only
  rw [hep]
  split <;> rfl

theorem published_one {b id tag : Nat} {v : Batch} {c : Cmd} {s3 : State} (hb : s.tir.batches = [(b, v)]) (hv : v.replica = false)
    (hph : v.phase = .decided) (hj : ∀ e ∈ v.ents, e.jnl ≤ s.tir.jdone) (hcmd : v.cmd = some id) (hfind : findTir s id = some (tag, c))
    (hno : lane64 c.tok.desc 1 = 0) (h3 : s3 = markBatch s v e) :
    published s e = endTir { s3 with tir := { s3.tir with epoch := e, batches := [], outcomes := tins s3.tir.outcomes b true } } tag c 0 0 0 0 := by
  have hfound : tfind [(b, v)] b = some v := by simp [tfind]
  have hready : batchReady s v = true := by
    rw [batchReady, hph, List.all_eq_true.2 fun e he => decide_eq_true (hj e he)] <;> rfl
  obtain ⟨hcmds, hbat, hmerges, hretired, hcuts⟩ : s3.cmds = s.cmds ∧ s3.tir.batches = s.tir.batches ∧ s3.tir.merges = s.tir.merges
      ∧ s3.tir.retired = s.tir.retired ∧ s3.tir.cuts = s.tir.cuts := h3 ▸ (Steady.refl s).markBatch.parts
  obtain ⟨s6, h6⟩ : ∃ s6 : State, s6 = { s3 with tir := { s3.tir with epoch := e } } := ⟨_, rfl⟩
  have hleave := leaveBatch_reports (s := s6) (e := e) (b := b) (by rw [h6]; exact hbat.trans hb) hv hcmd
    ((show findTir s6 id = findTir s id by rw [findTir, findTir, h6, hcmds]).trans hfind) hno
  have hend : ∀ t st rs n sp, (endTir t tag c st rs n sp).tir = t.tir := fun t st rs n sp => by
    rw [endTir]
    split <;> rfl
  have hdead : ([(b, v)].filter fun p => p.2.phase == .dead) = [] := by simp [hph]
  have hgoes : ([(b, v)].filter fun p => batchReady s p.2) = [(b, v)] := by simp [hready]
  rw [published, hb]
  simp only [List.foldl_cons, List.foldl_nil, hb, hfound, decide1_decided hph, hgoes, hdead]
  rw [← h3, sweeps_uncut (hcuts.trans hcut), performSwaps_none (hmerges.trans hmer), ← h6, hleave,
    reclaimAll_none (by rw [hend, h6]; exact hretired.trans hret), h6]

end Published

/-! ### Decisions -/

theorem decide1_waits {s : State} {b : Nat} {v : Batch} (hrep : v.replica = false) (hph : v.phase = .waitAcks) (hf : fenced s = false)
    (ho : overcast s = false) : (replicasOf (idx s v.index) = [] → decide1 s b v = setBatch s b { v with phase := .decided })
      ∧ (∀ n ∈ replicasOf (idx s v.index), (∀ a ∈ v.acks, a.1 ≠ n) → decide1 s b v = s) := by
  refine ⟨fun h => ?_, fun n hn hno => ?_⟩
  · rw [decide1, hrep, hph, h, hf, ho] <;> rfl
  · rw [decide1]
    refine if_pos ?_
    have hany : ((replicasOf (idx s v.index)).any fun n => !(v.acks.any fun a => a.1 == n)) = true :=
      List.any_eq_true.2 ⟨n, hn, by simpa using hno⟩
    rw [hany, Bool.or_true]

/-! ### Pins -/

theorem firstFrom_first {p : Nat → Bool} {h : Nat} (hp : p h = true) : ∀ {fuel n : Nat}, n ≤ h → h < n + fuel → (∀ i, n ≤ i → i < h → p i = false) →
    firstFrom p fuel n = some h
  | 0, n, h1, h2, _ => absurd h2 (by omega)
  | fuel + 1, n, h1, h2, hno => by
    rw [firstFrom]
    rcases Nat.eq_or_lt_of_le h1 with rfl | hlt
    · rw [if_pos hp]
    · rw [hno n le_rfl hlt, if_neg Bool.false_ne_true]
      exact firstFrom_first hp hlt (by omega) fun i hi hih => hno i (by omega) hih

section Pin
variable {s : State} {tag : W32} {c : Cmd} {i e : Nat}

theorem pinCmd_takes (h : TirNext 0x12 s tag c) (hi : i = laneBits c.tok.desc 0 0 8) (h9 : laneBits c.tok.desc 0 9 55 = 0)
    (h2 : lane64 c.tok.desc 2 = 0) (hx : ∃ x, indexOf s c.tok.dom i = some x) (h48 : laneBits c.tok.desc 1 48 16 = 0)
    (he : laneBits c.tok.desc 0 8 1 = 0 ∧ (∃ j, jobOf s tag.toNat = some j ∧ e = j.epoch)
        ∨ laneBits c.tok.desc 0 8 1 = 1 ∧ e = laneBits c.tok.desc 1 0 48 ∧ epochOk s tag.toNat i e = true) :
    (∀ k, firstFrom (fun h => (tfind s.tir.pins h).isNone) 1024 0 = some k → pinCmd tag.toNat s =
      endTir { s with tir := { s.tir with pins := tins s.tir.pins k { dom := c.tok.dom, index := i, epoch := e } } } tag.toNat c 0 0 k 0)
    ∧ (firstFrom (fun h => (tfind s.tir.pins h).isNone) 1024 0 = none → pinCmd tag.toNat s =
      endTir (fbump s F.TIR_PIN_STAT_REFUSED) tag.toNat c 0x0E 0 0 0) := by
  obtain ⟨x, hx⟩ := hx
  have h1 : (0 == 1) = false := rfl
  rcases he with ⟨h8, j, hj, rfl⟩ | ⟨h8, rfl, hok⟩
  · refine ⟨fun k hk => ?_, fun hk => ?_⟩ <;>
    · rw [pinCmd, tirCmd_ended h]
      simp only [need, ← hi, h8, h1, hj, h9, h2, h48, hx, hk, Option.isSome_some, beq_self_eq_true, Bool.and_self, Bool.not_false, Bool.true_or,
        Bool.false_eq_true, if_false, if_true, work_ok]
      rfl
  · refine ⟨fun k hk => ?_, fun hk => ?_⟩ <;>
    · rw [pinCmd, tirCmd_ended h]
      simp only [need, ← hi, h8, hok, h9, h2, h48, hx, hk, Option.isSome_some, beq_self_eq_true, Bool.and_self, Bool.or_true, if_true, work_ok]
      rfl

theorem pinCmd_free {k : Nat} (hk : k < 1024) (hfree : tfind s.tir.pins k = none) (hno : ∀ j < k, tfind s.tir.pins j ≠ none) :
    firstFrom (fun h => (tfind s.tir.pins h).isNone) 1024 0 = some k :=
  firstFrom_first (by rw [hfree] <;> rfl) (Nat.zero_le k) (by omega) fun j _ hj => by
    rw [Option.isNone_eq_false_iff, Option.isSome_iff_ne_none]
    exact hno j hj

theorem pinCmd_full (hno : ∀ j < 1024, tfind s.tir.pins j ≠ none) :
    firstFrom (fun h => (tfind s.tir.pins h).isNone) 1024 0 = none :=
  Queues.firstFrom_none fun j _ hj => by
    rw [Option.isNone_eq_false_iff, Option.isSome_iff_ne_none]
    exact hno j (by omega)

theorem unpinCmd_frees {h : Nat} {p : Pin} (hn : TirNext 0x13 s tag c) (hh : h = laneBits c.tok.desc 1 0 10) (h8 : laneBits c.tok.desc 0 8 56 = 0)
    (h10 : laneBits c.tok.desc 1 10 54 = 0) (h2 : lane64 c.tok.desc 2 = 0)
    (hx : ∃ x, indexOf s c.tok.dom (laneBits c.tok.desc 0 0 8) = some x) (hp : tfind s.tir.pins h = some p) :
    (p.dom = c.tok.dom → p.index = laneBits c.tok.desc 0 0 8 → unpinCmd tag.toNat s =
      endTir { s with tir := { s.tir with pins := tdel s.tir.pins h } } tag.toNat c 0 0 0 0)
    ∧ (p.dom ≠ c.tok.dom ∨ p.index ≠ laneBits c.tok.desc 0 0 8 → unpinCmd tag.toNat s = endCmd s 14 tag.toNat c 0x0B 0 0 0) := by
  obtain ⟨x, hx⟩ := hx
  refine ⟨fun hd hi => ?_, fun hne => ?_⟩
  · rw [unpinCmd, tirCmd_ended hn]
    simp only [need, ← hh, h8, h10, h2, hx, hp, hd, hi, Option.isSome_some, beq_self_eq_true, Bool.and_self, if_true, work_ok]
    rfl
  · have hmine : (p.dom == c.tok.dom && p.index == laneBits c.tok.desc 0 0 8) = false := by
      rw [Bool.and_eq_false_iff, beq_eq_false_iff_ne, beq_eq_false_iff_ne]
      exact hne
    rw [unpinCmd, tirCmd_ended hn]
    simp only [need, ← hh, hp, hmine, Bool.and_false, Bool.false_eq_true, if_false]
    rfl

end Pin

theorem groupCommitPublishesTheNextEpoch : GroupCommitPublishesTheNextEpoch := by
  refine ⟨fun s n h => congrArg Host.Outcome.next (groupCommit_early h), fun s n h hp hw => congrArg Host.Outcome.next (groupCommit_asleep h hp hw),
    fun s n h hp hr => congrArg Host.Outcome.next (groupCommit_unready h hp hr),
    fun s n s0 hnow hp hr hflash hres hmer hret hcut hov h0 => ?_, fun s b v hrep hph hf ho => decide1_waits hrep hph hf ho⟩
  have step : exec (.groupCommit n) s = .next (published s0 (s.tir.epoch + 1)) :=
    congrArg Host.Outcome.next (groupCommit_runs hnow hp hr hflash hres hov h0)
  have hm0 : s0.tir.merges = [] := by rw [h0]; exact hmer
  have hr0 : s0.tir.retired = [] := by rw [h0]; exact hret
  have hc0 : s0.tir.cuts = [] := by rw [h0]; exact hcut
  have hb0 : s0.tir.batches = s.tir.batches := by rw [h0]
  refine ⟨fun hb => step.trans (congrArg _ (published_empty hm0 hr0 hc0 (hb0.trans hb))),
    fun b v id tag c s3 hb hv hph hj hcmd hfind hno h3 =>
      step.trans (congrArg _ (published_one hm0 hr0 hc0 (hb0.trans hb) hv hph hj hcmd ?_ hno h3))⟩
  rw [← hfind, h0] <;> rfl

theorem pinsHoldEpochs : PinsHoldEpochs := by
  refine ⟨fun s tag c i h hi h9 h2 hx e h48 he => ⟨fun k hk hfree hno => ?_, fun hno => ?_⟩, fun s tag c h p hn hh h8 h10 h2 hx hp => ?_,
    fun s h p hp => ?_⟩
  · exact congrArg Host.Outcome.next ((pinCmd_takes h hi h9 h2 hx h48 he).1 k (pinCmd_free hk hfree hno))
  · exact congrArg Host.Outcome.next ((pinCmd_takes h hi h9 h2 hx h48 he).2 (pinCmd_full hno))
  · obtain ⟨hmine, hother⟩ := unpinCmd_frees hn hh h8 h10 h2 hx hp
    exact ⟨fun hd hi => congrArg Host.Outcome.next (hmine hd hi), fun hne => congrArg Host.Outcome.next (hother hne)⟩
  · exact (Actions.foldl_min (holds s) noEpoch).1 _ (List.mem_append_right _ (List.mem_map_of_mem (Egressing.mem_of_tfind hp)))

/-- Settles O56: a group commit publishes the next epoch; a pin holds one. -/
theorem epochsAndPins : Obligations.EpochsAndPins := ⟨groupCommitPublishesTheNextEpoch, pinsHoldEpochs⟩

end Sys2Proof.Epochs

/-! # Updraft, park and unpark -/

namespace Sys2Proof.Updrafts

open Sys2Proof Sys2Proof.Machine Sys2Proof.Claims Sys2Proof.Laws Sys2Proof.Merges Sys2Proof.Appending

theorem tirCmd_formed {op : Nat} {s : State} {tag : W32} {c : Cmd} {form : Cmd → Bool} (h : TirNext op s tag c) (hf : form c = true)
    (body : State → Cmd → Work State) : tirCmd tag.toNat op form body s = ended s tag.toNat c (body s c) := tirCmd_next h form hf body

/-! ### Pages -/

section Pages
variable {s : State} {tag : W32} {c : Cmd} {a n t : Nat} (h : TirNext 0x16 s tag c) (h56 : laneBits c.tok.desc 0 56 8 = 0)
  (ha : a = laneBits c.tok.desc 0 0 56) (hn : n = laneBits c.tok.desc 1 0 32) (ht : t = laneBits c.tok.desc 1 32 4)
include h h56 ha hn ht

theorem updraftPage_moves {mv : Nat → PageMove} {s1 : State} (h36 : laneBits c.tok.desc 1 36 28 = 0) (h2 : lane64 c.tok.desc 2 = 0)
    (hal : a % 65536 = 0) (hn1 : 1 ≤ n) (hn2 : n ≤ 65536) (ht1 : 1 ≤ t) (ht3 : t ≤ 3) (hp : pagesIn s c.tok.dom a (n * 65536) = true)
    (hmv : ∀ k i, k = pageKey c.tok.dom (a + i * 65536) → mv i = { cmd := c.id, page := k, target := t, host := (match pageRegion s k with
          | some (_, r) => if t = 3 then r.host + (pageAddr k - r.base) else 0
          | none => 0) })
    (h1 : s1 = putCmd s 14 tag.toNat { c with phase := .running }) : updraftPage tag.toNat s =
    runMoves { s1 with tir := { s1.tir with moves := s1.tir.moves ++ (List.range n).map mv } } := by
  have hmv' : mv = fun i => ({ cmd := c.id, page := pageKey c.tok.dom (a + i * 65536), target := t, host :=
        (match pageRegion s (pageKey c.tok.dom (a + i * 65536)) with
          | some (_, r) => if t = 3 then r.host + (pageAddr (pageKey c.tok.dom (a + i * 65536)) - r.base) else 0
          | none => 0) } : PageMove) := funext fun i => hmv _ i rfl
  rw [updraftPage, tirCmd_formed h (by rw [h56] <;> rfl)]
  simp only [need, ← ha, ← hn, ← ht, hal, decide_eq_true hn1, decide_eq_true hn2, decide_eq_true ht1, decide_eq_true ht3, h36, h2, hp,
    beq_self_eq_true,
    Bool.and_self, if_true, work_ok, ended_ok]
  rw [← h1, hmv'] <;> rfl

theorem updraftPage_refused (hbad : a % 65536 ≠ 0 ∨ n = 0 ∨ 65536 < n ∨ t = 0 ∨ 3 < t) :
    updraftPage tag.toNat s = endCmd s 14 tag.toNat c 0x0B 0 0 0 := by
  have hno : ∀ b b', (a % 65536 == 0 && decide (1 ≤ n) && decide (n ≤ 65536) && decide (1 ≤ t) && decide (t ≤ 3) && b && b') = false := by
    intro b b'
    have : (a % 65536 == 0 && decide (1 ≤ n) && decide (n ≤ 65536) && decide (1 ≤ t) && decide (t ≤ 3)) = false := by
      simp only [Bool.and_eq_false_iff, beq_eq_false_iff_ne, decide_eq_false_iff_not]
      omega
    rw [this] <;> rfl
  rw [updraftPage, tirCmd_formed h (by rw [h56] <;> rfl)]
  simp only [need, ← ha, ← hn, ← ht, hno, Bool.false_eq_true, if_false]
  rfl

end Pages

section Move
variable {s s1 : State} {m : PageMove} {id : Nat} {r : Region} {p : Page} (hp : p = pageOf s m.page) (hr : pageRegion s m.page = some (id, r))
  (h1 : s1 = { s with tir := { s.tir with moves := s.tir.moves.filter fun x => x != m } })
include hp hr h1

/-- A page that is there already is left alone. -/
theorem movePage_there (hc : r.cls = 1) (hh : p.home = m.target) (ht : m.target ≠ 3) : movePage s m = s1 := by
  have hr1 : pageRegion s1 m.page = some (id, r) := by rw [← hr, h1] <;> rfl
  have hp1 : pageOf s1 m.page = p := by rw [hp, h1] <;> rfl
  rw [movePage, ← h1]
  dsimp only
  rw [hr1, hp1]
  dsimp only
  rw [if_pos hc, if_pos (by simp [hh, ht])]

/-- A page with one home migrates. -/
theorem movePage_migrates (hs : tsorted s.tir.pages = true) (hc : r.cls = 1) (hh : p.home ≠ 2) (ht : m.target = 2) (hm : p.mig = none) :
    (pageOf (movePage s m) m.page).mig = some { target := 2, hostAddr := m.host, cmd := m.cmd } := by
  have hr1 : pageRegion s1 m.page = some (id, r) := by rw [← hr, h1] <;> rfl
  have hp1 : pageOf s1 m.page = p := by rw [hp, h1] <;> rfl
  have hs1 : tsorted s1.tir.pages = true := by rw [h1]; exact hs
  obtain ⟨s2, h2⟩ : ∃ s2, s2 = setPage s1 m.page { p with former := if m.kind = 1 then some p.home else p.former } := ⟨_, rfl⟩
  have hmig2 : (pageOf s2 m.page).mig = none := by
    rw [h2, pageOf, setPage, tget_tput_same hs1]
    exact hm
  have hstart : (pageOf (startMig s2 m.page 2 m.cmd m.host) m.page).mig = some { target := 2, hostAddr := m.host, cmd := m.cmd } := by
    have hs2 : tsorted s2.tir.pages = true := by rw [h2]; exact NearBank.tsorted_tput hs1 _ _
    rw [startMig, if_neg (by rw [hmig2]; decide)]
    simp only [if_neg (show (2 : Nat) ≠ 1 by decide)]
    rw [pageOf, setPage, tget_tput_same hs2]
  rw [movePage, ← h1]
  dsimp only
  rw [hr1, hp1]
  dsimp only
  rw [if_pos hc, if_neg (by simp [hh, ht]), if_neg (by simp [ht]), ht, ← h2, if_pos (by rw [hstart] <;> rfl), hstart]

theorem movePage_filled (hc : r.cls = 0) (ht : m.target = 1) (hb : r.backing ≠ 0) (hpr : p.present ≠ BitVec.allOnes 16) :
    movePage s m = noteMove (fillPage s1 m.page) m.cmd 1 0 false := by
  have hr1 : pageRegion s1 m.page = some (id, r) := by rw [← hr, h1] <;> rfl
  have hp1 : pageOf s1 m.page = p := by rw [hp, h1] <;> rfl
  rw [movePage, ← h1]
  dsimp only
  rw [hr1, hp1]
  dsimp only
  rw [if_neg (by omega), if_pos (by simp [ht, hc]), if_neg (by simpa [hb] using hpr)]

omit hp in
theorem movePage_unbacked (hc : r.cls = 0) (ht : m.target = 1) (hb : r.backing = 0) : movePage s m = s1 := by
  have hr1 : pageRegion s1 m.page = some (id, r) := by rw [← hr, h1] <;> rfl
  rw [movePage, ← h1]
  dsimp only
  rw [hr1]
  dsimp only
  rw [if_neg (by omega), if_pos (by simp [ht, hc]), if_pos (by simp [hb])]

end Move

/-! ### Hot sets -/

section Hot
variable {s : State} {tag : W32} {c : Cmd} {i l n : Nat} {x : Index} {b : List Byte} (h : TirNext 0x16 s tag c) (ho : overcast s = false)
  (h56 : laneBits c.tok.desc 0 56 8 = 1) (h32 : laneBits c.tok.desc 1 32 16 = 0) (h2 : lane64 c.tok.desc 2 = 0)
  (hi : i = laneBits c.tok.desc 1 24 8) (hl : l = laneBits c.tok.desc 1 0 24) (hn : n = laneBits c.tok.desc 1 48 16)
  (hx : indexOf s c.tok.dom i = some x) (hlt : l < x.lists)
include h ho h56 h32 h2 hi hl hn hx hlt

omit hn in
theorem hotset_barred (hf : bitAt x.flags 1 = false) : updraftHotset tag.toNat s = endCmd s 14 tag.toNat c 0x0B 0x97 0 0 := by
  rw [updraftHotset, tirCmd_formed h (by rw [h56] <;> rfl)]
  simp only [need, ho, h56, h32, h2, ← hi, ← hl, hx, decide_eq_true hlt, hf, beq_self_eq_true, Bool.and_self, Bool.not_false, Bool.false_eq_true,
    if_true,
    if_false, work_ok]
  rfl

omit hn in
theorem hotset_merging {m : MergeRec} (hf : bitAt x.flags 1 = true) (hm : mergeOf s (listKey i l) = some m) :
    updraftHotset tag.toNat s = endCmd s 14 tag.toNat c 0x0B 0x96 0 0 := by
  rw [updraftHotset, tirCmd_formed h (by rw [h56] <;> rfl)]
  simp only [need, ho, h56, h32, h2, ← hi, ← hl, hx, decide_eq_true hlt, hf, hm, Option.isNone_some, beq_self_eq_true, Bool.and_self, Bool.not_false,
    Bool.false_eq_true, if_true, if_false, work_ok]
  rfl

/-- The fresh headers of a hot set are built, and swapped at a group commit. -/
theorem hotset_builds {want : List Nat} {chain gs : List Seg} {m : Nat} {s1 : State} (hf : bitAt x.flags 1 = true)
    (hm : tfind s.tir.merges (listKey i l) = none) (hb : operand s c.tok.dom (laneBits c.tok.desc 0 0 56) (8 * n) = .ok b)
    (hw : want = (List.range n).map (fun k => fieldOf b (8 * k) 8)) (hch : chain = chainFrom s c.tok.dom 65536 (listRoot s i l).head)
    (hread : ∀ g ∈ chain, ∀ k < g.items, want.contains (segItem s x g k) = true → (segEnt s x g [] k).isSome = true)
    (hbuilt : hotChain i want chain s = some (gs, m, s1)) : updraftHotset tag.toNat s = putCmd
      (setMerge { s1 with tir := { s1.tir with jseq := s1.tir.jseq + 1 } } (listKey i l)
        { hotset := true, scheduled := true, head := (match gs.head? with | some g => g.addr | none => 0), newSegs := gs.map (·.addr)
          built := m, jnl := s1.tir.jseq + 1, cmds := [c.id], job := some tag.toNat }) 14 tag.toNat { c with phase := .running } := by
  have hnone : mergeOf s (listKey i l) = none := by rw [mergeOf, hm] <;> rfl
  have hpend : hotPending s (listKey i l) = false := by rw [hotPending, hm]
  have hany : (chain.any fun g => (List.range g.items).any fun k => want.contains (segItem s x g k) && (segEnt s x g [] k).isNone) = false := by
    refine List.any_eq_false.2 fun g hg hk => ?_
    obtain ⟨k, hk, hbad⟩ := List.any_eq_true.1 hk
    rw [Bool.and_eq_true] at hbad
    have := hread g hg k (List.mem_range.1 hk) hbad.1
    rw [Option.isNone_iff_eq_none.1 hbad.2] at this
    exact absurd this (by decide)
  rw [updraftHotset, tirCmd_formed h (by rw [h56] <;> rfl)]
  simp only [need, ho, h56, h32, h2, ← hi, ← hl, ← hn, hx, decide_eq_true hlt, hf, hnone, hb, hpend, ← hw, ← hch, hany, hbuilt, journal,
    Option.isNone_none,
    beq_self_eq_true, Bool.and_self, Bool.not_false, Bool.false_eq_true, if_true, if_false, work_ok]
  rfl

end Hot

theorem updraftMovesPagesAndHotSets : UpdraftMovesPagesAndHotSets := by
  refine ⟨fun s tag c a n t mv h h56 ha hn ht h36 h2 => ⟨fun hal hn1 hn2 ht1 ht3 hp hmv s1 h1 => ?_, fun hbad => ?_⟩,
    fun s m id r p s1 hp hr h1 => ⟨movePage_there hp hr h1, movePage_migrates hp hr h1, movePage_filled hp hr h1, movePage_unbacked hr h1⟩,
    fun s tag c i l n x b h ho h56 h32 h2 hi hl hn hx hlt => ⟨fun hf => ?_, fun m hf hm => ?_,
    fun want chain gs m s1 hf hm hb hw hch hread hbuilt => ?_⟩⟩
  · exact congrArg Host.Outcome.next (updraftPage_moves h h56 ha hn ht h36 h2 hal hn1 hn2 ht1 ht3 hp hmv h1)
  · exact congrArg Host.Outcome.next (updraftPage_refused h h56 ha hn ht hbad)
  · exact congrArg Host.Outcome.next (hotset_barred h ho h56 h32 h2 hi hl hx hlt hf)
  · exact congrArg Host.Outcome.next (hotset_merging h ho h56 h32 h2 hi hl hx hlt hf hm)
  · exact congrArg Host.Outcome.next (hotset_builds h ho h56 h32 h2 hi hl hn hx hlt hf hm hb hw hch hread hbuilt)

end Sys2Proof.Updrafts

/-! # Parking sessions -/

namespace Sys2Proof.Parking

open Sys2Proof Sys2Proof.Machine Sys2Proof.Claims Sys2Proof.Laws Sys2Proof.Merges Sys2Proof.Appending

/-- Regions named once each, all in the state that the operation starts from. -/
theorem all_in_state {l : List (Nat × Region)} {start : ParkState} (hnd : (l.map (·.1)).Nodup) (hst : ∀ p ∈ l, p.2.park = start) :
    (decide (l.map (·.1)).Nodup && l.all fun p => p.2.park == start) = true := by
  rw [decide_eq_true hnd, Bool.true_and]
  exact List.all_eq_true.2 fun p hp => beq_iff_eq.2 (hst p hp)

section Park
variable {s : State} {tag : W32} {c : Cmd} {a op : Nat} {hdr body : List Byte} (h : TirNext op s tag c) (ha : a = laneBits c.tok.desc 0 0 56)
  (h56 : laneBits c.tok.desc 0 56 8 = 0) (h1 : lane64 c.tok.desc 1 = 0) (h2 : lane64 c.tok.desc 2 = 0) (hh : operand s c.tok.dom a 64 = .ok hdr)
  (hb : operand s c.tok.dom (a + 64) (8 * min 64 (fieldOf hdr 4 1)) = .ok body)
include h ha h56 h1 h2 hh hb

theorem park_malformed (hl : sessionRegions s c.tok.dom hdr body = none) :
    parkCmd op tag.toNat s = endCmd s 14 tag.toNat c 0x0B 0x98 0 0 := by
  rw [parkCmd, tirCmd_ended h]
  simp only [need, ← ha, h56, h1, h2, hh, hb, hl, beq_self_eq_true, Bool.and_self, if_true, work_ok]
  rfl

variable {l : List (Nat × Region)} (hl : sessionRegions s c.tok.dom hdr body = some l)
include hl

/-- A region that is not in the state the operation starts from. -/
theorem park_wrongState {p : Nat × Region} {start : ParkState} (hfrom : start = if op == 0x14 then .active else .parked) (hp : p ∈ l)
    (hne : p.2.park ≠ start) : parkCmd op tag.toNat s = endCmd s 14 tag.toNat c 0x0B 0x92 0 0 := by
  have hall : (l.all fun p => p.2.park == start) = false :=
    List.all_eq_false.2 ⟨p, hp, by simpa using hne⟩
  rw [parkCmd, tirCmd_ended h]
  simp only [need, ← ha, h56, h1, h2, hh, hb, hl, ← hfrom, hall, Bool.and_false, beq_self_eq_true, Bool.and_self, Bool.false_eq_true, if_true,
    if_false,
    work_ok]
  rfl

section Go
variable {start : ParkState} (hfrom : start = if op == 0x14 then .active else .parked) (hnd : (l.map (·.1)).Nodup) (hst : ∀ p ∈ l, p.2.park = start)
include hfrom hnd hst

theorem park_lost (hg : flashGone s = true) (h0 : fieldOf hdr 8 8 = 0) : parkCmd op tag.toNat s = endCmd s 14 tag.toNat c 0x07 0x95 0 0 := by
  rw [parkCmd, tirCmd_ended h]
  simp only [need, ← ha, h56, h1, h2, hh, hb, hl, ← hfrom, all_in_state hnd hst, hg, h0, beq_self_eq_true, Bool.and_self,
    bne_self_eq_false, Bool.not_true, Bool.or_self, Bool.false_eq_true, if_true, if_false, work_ok]
  rfl

theorem park_moves {s1 : State} {mv : List PageMove} {dest : ParkState} (hdest : dest = if op == 0x14 then .parking else .unparking)
    (hg : flashGone s = false ∨ fieldOf hdr 8 8 ≠ 0)
    (hs1 : s1 = putCmd (useRange s c.tok.dom a (64 + 8 * l.length)) 14 tag.toNat { c with phase := .running })
    (hmv : mv = if op == 0x14 then parkMoves s1 c.id (fieldOf hdr 8 8) l 0 else unparkMoves s1 c.id l) : parkCmd op tag.toNat s =
    runMoves { s1 with tir := { s1.tir with
      regions := s1.tir.regions.map fun p => (p.1, if l.any fun x => x.1 == p.1 then { p.2 with park := dest, cmd := c.id } else p.2)
      moves := s1.tir.moves ++ mv } } := by
  have hgo : (!flashGone s || fieldOf hdr 8 8 != 0) = true := by
    rcases hg with hg | hg
    · rw [hg] <;> rfl
    · rw [bne_iff_ne.2 hg, Bool.or_true]
  rw [parkCmd, tirCmd_ended h]
  simp only [need, ← ha, h56, h1, h2, hh, hb, hl, ← hfrom, ← hdest, all_in_state hnd hst, hgo, beq_self_eq_true, Bool.and_self,
    if_true, work_ok, ended_ok]
  rw [← hs1, ← hmv]

end Go
end Park

theorem parkAndUnpark : ParkAndUnpark := by
  intro row hrow s tag c a hdr body h ha h56 h1 h2 hh hb
  have hrow' : (∀ tag s, exec (row.1 tag) s = .next (parkCmd row.2.1 tag.toNat s)) ∧ row.2.2.1 = (if row.2.1 == 0x14 then .active else .parked)
      ∧ row.2.2.2 = if row.2.1 == 0x14 then .parking else .unparking := by
    simp only [List.mem_cons, List.not_mem_nil, or_false] at hrow
    rcases hrow with rfl | rfl <;> exact ⟨fun _ _ => rfl, rfl, rfl⟩
  obtain ⟨hexec, hfrom, hto⟩ := hrow'
  rw [hexec]
  refine ⟨fun hl => congrArg _ (park_malformed h ha h56 h1 h2 hh hb hl),
    fun l p hl hp hne => congrArg _ (park_wrongState h ha h56 h1 h2 hh hb hl hfrom hp hne),
    fun l hl hnd hst => ⟨fun hg h0 => congrArg _ (park_lost h ha h56 h1 h2 hh hb hl hfrom hnd hst hg h0), fun s1 mv hg hs1 hmv => congrArg _ ?_⟩⟩
  refine park_moves h ha h56 h1 h2 hh hb hl hfrom hnd hst hto hg hs1 ?_
  rw [hmv]
  simp only [beq_iff_eq]

/-- Settles O57: updraft moves pages and builds hot sets; park and unpark move the regions of a session. -/
theorem updraftParkAndUnpark : Obligations.UpdraftParkAndUnpark := ⟨Updrafts.updraftMovesPagesAndHotSets, parkAndUnpark⟩

end Sys2Proof.Parking
